-- ==== Sys2Proof/Word.lean ====
section
/-! DEFINITION. The word types of the module and their plainest arithmetic (00 R8-R15). -/

namespace Sys2Proof

/-- One octet. -/
abbrev Byte := BitVec 8

/-- A management register is 64 bits wide (R15). -/
abbrev Word := BitVec 64

/-- A scalar register of a cell (Table 2-1), and one FP32 pattern. -/
abbrev R32 := BitVec 32

/-- A 256-bit half register, activation word, latch or mesh entry (Tables 2-1, 2-8). -/
abbrev W256 := BitVec 256

/-- A 512-bit vector register, weight word or partial-sum word (Tables 2-1, 2-8). -/
abbrev W512 := BitVec 512

/-- `bits v hi lo` is the field `v[hi:lo]` of a number (R10). -/
def bits (v hi lo : Nat) : Nat := v / 2 ^ lo % 2 ^ (hi + 1 - lo)

/-- Bit `n` of a number (R10). -/
def bitAt (v n : Nat) : Bool := v / 2 ^ n % 2 == 1

/-- A one-bit field as a number. -/
def bit (b : Bool) : Nat := if b then 1 else 0

/-- Round up. -/
def ceilDiv (a b : Nat) : Nat := (a + b - 1) / b

/-- Smaller of a counter's next value and its limit: a saturating counter. -/
def satTo (limit v : Nat) : Nat := if v > limit then limit else v

end Sys2Proof
end

