-- ==== Sys2Proof/Config.lean ====
section
/-! DEFINITION. Free values and free functions (no body: nothing can be proved of their values), and the
algorithms of outside standards that the spec names without giving them (log 8, 9, 13). -/

namespace Sys2Proof.Config

/-- A value the spec leaves open, numbered by `State.freeCount` (log 8). -/
opaque freeWord : Nat → BitVec 64

/-- A byte of memory whose content is lost (log 2): numbered by the loss and by its address. -/
opaque freeByte : Nat → Nat → BitVec 8

/-- What CMP writes: the spec names a scalar compare and no result (log 9). -/
opaque cmpResult : BitVec 32 → BitVec 32 → BitVec 32

/-- In which order VRED takes the lanes into its pairwise tree 8, 4, 2, 1 (log 9). -/
opaque redOrder : Equiv.Perm (Fin 16)

/-- Which source lane VPERM's control vector names for a lane (log 9). -/
opaque permLane : BitVec 512 → Nat → Fin 16

/-- The sign of an exact zero sum of operands of both signs (log 9). -/
opaque zeroSign : Bool

/-- When BR is taken: the spec names a conditional branch and no condition (log 9). -/
opaque branchTaken : BitVec 32 → Bool

/-- What VCMP writes in a lane (log 9). -/
opaque vcmpResult : BitVec 32 → BitVec 32 → BitVec 32

/-- Which operand VSEL takes in a lane (log 9). -/
opaque selTakesFirst : BitVec 32 → Bool

/-- SHL and SHR by 32 or more (log 9). -/
opaque longShift : Bool → BitVec 32 → BitVec 32 → BitVec 32

/-- The 32 bits whose mantissa and sign a NaN result of FP32 arithmetic takes (log 9). -/
opaque nanBits : BitVec 32 → BitVec 32 → BitVec 32 → BitVec 32

/-- Which operand VMAX or VMIN gives when one is NaN or both are zero (log 9). -/
opaque maxCorner : Bool → BitVec 32 → BitVec 32 → Bool

/-- A special function's result before it is held to the error bound of Table 2-7 (log 10). -/
opaque sfu : Nat → BitVec 32 → BitVec 32

/-- A special function's result at an operand for which the spec states none (log 10). -/
opaque sfuCorner : Nat → BitVec 32 → BitVec 32

/-- A rotated component before it is held to the bound of Table 2-7 (log 10). -/
opaque rotor : BitVec 32 → BitVec 32 → BitVec 32 → Nat → Bool → BitVec 32

/-- The sum of VLSE before it is held to the bound of Table 4-4 (log 10). -/
opaque vlseSum : BitVec 32 → BitVec 32 → BitVec 32 → BitVec 32 → BitVec 32

/-- The exponential Campion uses, in FP32 (R222; log 10). -/
opaque campionExp : BitVec 32 → BitVec 32

/-- The logarithm Campion uses, in FP32 (R222; log 10). -/
opaque campionLog : BitVec 32 → BitVec 32

/-- RESULT of an entry's record where no rule states one: by list and entry (log 30). -/
opaque recordResult : Nat → Nat → BitVec 64

/-- The compensation table that BIST measures: oscillator (or reference), pane, point 0-7 (R356; log 9). -/
opaque trimPoint : Bool → Nat → Nat → Rat

/-- The trim outside the table's points, for which none is stated (R356; log 9). -/
opaque trimBeyond : Bool → Nat → Rat → Rat

/-- The substitute reading of a pane none of whose edge neighbours has a working sensor, or whose edges the spec does not give, by
pane and time (R342; log 9). -/
opaque substTemp : Nat → Nat → Int

/-- SLH-DSA-SHA2-128s signing under the identity key (log 13). -/
opaque slhSign : Nat → List (BitVec 8) → List (BitVec 8)

/-- The device and manufacturing CA certificates (R391; log 13). -/
opaque certificates : Nat → List (BitVec 8)

/-- The ML-KEM-768 encapsulation key of a session KEM key number (R384, R391; log 13). -/
opaque kemPublic : Nat → List (BitVec 8)

/-- ML-KEM-768 decapsulation under a session KEM key number (R390, R392; log 13). -/
opaque kemDecap : Nat → List (BitVec 8) → List (BitVec 8)

/-- ML-KEM-768 encapsulation to a credential: ciphertext, and the shared secret (R392; log 13). -/
opaque kemCipher : Nat → List (BitVec 8) → List (BitVec 8)

/-- The shared secret of `kemCipher` (log 13). -/
opaque kemSecret : Nat → List (BitVec 8) → List (BitVec 8)

/-- The SP 800-108 KDF: key, label and context, output length (R382; log 13). -/
opaque kdf : List (BitVec 8) → List (BitVec 8) → List (BitVec 8) → Nat → List (BitVec 8)

/-- AES-256-GCM key stream octet: key, IV, octet index (SP 800-38D; log 13). -/
opaque gcmStream : List (BitVec 8) → List (BitVec 8) → Nat → BitVec 8

/-- AES-256-GCM tag over additional data and ciphertext: key, IV, AAD, ciphertext (log 13). -/
opaque gcmTag : List (BitVec 8) → List (BitVec 8) → List (BitVec 8) → List (BitVec 8) → List (BitVec 8)

/-- The identity public key of a module and the digest IDENT is taken from (R384; log 13). -/
opaque identityKey : List (BitVec 8)

/-- The provisional ID, the bus characteristics and the device characteristics of the module on the tray bus (R448 gives no value;
log 9). -/
opaque i3cPid : BitVec 48
opaque i3cBcr : BitVec 8
opaque i3cDcr : BitVec 8

/-- The 64 bits of DBG_TRACE for an access: address, whether it writes, the value written; and for an access not made yet
(R452 gives no layout; log 9). -/
opaque traceWord : Option (Nat × Bool × Nat) → BitVec 64

/-- Do the bits of a non-empty slot of a bundle spell an operation that the sequencer defines, with every unused operand bit zero
(R42)? The manual gives no opcode values (log 5); slots count as in Table 2-2: 0 CTL to 4 MOV. -/
opaque slotDefined : Nat → Nat → Bool

end Sys2Proof.Config
end

