-- ==== Sys2Proof/Machine/Maps.lean ====
section
/-! DEFINITION. Tables of numbered things as plain lists, octets and numbers (00 R11), and memories in one
canonical form (log 2). -/

namespace Sys2Proof.Machine

/-- A table of numbered things: pairs of number and thing. A number that is not listed stands for the default
that the reader names. -/
abbrev SMap (α : Type) := List (Nat × α)

/-- The thing of number `k`, or the default. -/
def mget {α : Type} (d : α) (m : SMap α) (k : Nat) : α :=
  match m with
  | [] => d
  | (i, v) :: r => if i = k then v else mget d r k

/-- Put `v` at number `k`, numbers rising. -/
def mset {α : Type} (m : SMap α) (k : Nat) (v : α) : SMap α :=
  match m with
  | [] => [(k, v)]
  | (i, w) :: r =>
    if i = k then (k, v) :: r
    else if k < i then (k, v) :: (i, w) :: r
    else (i, w) :: mset r k v

/-- Forget number `k`. -/
def mdel {α : Type} (m : SMap α) (k : Nat) : SMap α := m.filter (fun p => decide (p.1 ≠ k))

/-- Is number `k` listed? -/
def mhas {α : Type} (m : SMap α) (k : Nat) : Bool := m.any (fun p => p.1 == k)

/-- The listed things. -/
def mvals {α : Type} (m : SMap α) : List α := m.map (·.2)

/-- Change every listed thing. -/
def mmap {α : Type} (f : Nat → α → α) (m : SMap α) : SMap α := m.map (fun p => (p.1, f p.1 p.2))

/-- Element `k` of a list, or the default. -/
def lget {α : Type} (d : α) (l : List α) (k : Nat) : α := (l[k]?).getD d

/-- Replace element `k` of a list, when it has one. -/
def lset {α : Type} (l : List α) (k : Nat) (v : α) : List α := l.set k v

/-- Put an element into an ordered list, before the first element it may precede. -/
def insertBy {α : Type} (le : α → α → Bool) (a : α) : List α → List α
  | [] => [a]
  | b :: r => if le a b then a :: b :: r else b :: insertBy le a r

/-- A list in order; equal elements keep their order. -/
def sortBy {α : Type} (le : α → α → Bool) (l : List α) : List α := l.foldr (insertBy le) []

/-- The number whose little-endian octets are `l` (R11). -/
def leNat : List Byte → Nat
  | [] => 0
  | b :: r => b.toNat + 256 * leNat r

/-- `n` little-endian octets of a number (R11). -/
def natLE : Nat → Nat → List Byte
  | 0, _ => []
  | n + 1, v => BitVec.ofNat 8 v :: natLE n (v / 256)

/-- `n` octets of a number, most significant first. -/
def natBE (n v : Nat) : List Byte := (natLE n v).reverse

/-- The number whose big-endian octets are `l`. -/
def beNat (l : List Byte) : Nat := leNat l.reverse

/-- Octets `off` to `off + n − 1` of a string; octets past its end read zero. -/
def slice (l : List Byte) (off n : Nat) : List Byte :=
  let r := (l.drop off).take n
  r ++ List.replicate (n - r.length) 0

/-- The little-endian number in octets `off` to `off + n − 1`. -/
def leAt (l : List Byte) (off n : Nat) : Nat := leNat ((l.drop off).take n)

/-- A string of zero octets. -/
def zeros (n : Nat) : List Byte := List.replicate n 0

/-- A memory: its listed cells, addresses rising, and, when its content was lost, the number of the loss
(log 2). An unlisted octet of a lost memory is a free value. -/
structure Mem where
  cells : List Host.Cell := []
  lost : Option Nat := none
  deriving DecidableEq, Repr

/-- What an unlisted octet reads as (log 2). -/
def Mem.unlisted (m : Mem) (a : Nat) : Byte :=
  match m.lost with
  | none => 0
  | some k => Config.freeByte k a

/-- The listed octet at an address, or `d`. -/
def cellsGet (d : Byte) : List Host.Cell → Nat → Byte
  | [], _ => d
  | (i, b) :: r, a => if i = a then b else cellsGet d r a

/-- Put an octet into a rising list of cells; `keep` false removes the address instead. -/
def cellsSet (keep : Bool) (b : Byte) : List Host.Cell → Nat → List Host.Cell
  | [], a => if keep then [(a, b)] else []
  | (i, c) :: r, a =>
    if a < i then (if keep then (a, b) :: (i, c) :: r else (i, c) :: r)
    else if i = a then (if keep then (a, b) :: r else r)
    else (i, c) :: cellsSet keep b r a

/-- Read one octet. -/
def Mem.get (m : Mem) (a : Nat) : Byte := cellsGet (m.unlisted a) m.cells a

/-- Write one octet, keeping the canonical form. -/
def Mem.set (m : Mem) (a : Nat) (b : Byte) : Mem :=
  { m with cells := cellsSet (decide (b ≠ m.unlisted a)) b m.cells a }

/-- Read `n` octets. -/
def Mem.read (m : Mem) (a : Nat) : Nat → List Byte
  | 0 => []
  | n + 1 => m.get a :: m.read (a + 1) n

/-- Write octets from address `a` up. -/
def Mem.write (m : Mem) (a : Nat) : List Byte → Mem
  | [] => m
  | b :: r => (m.set a b).write (a + 1) r

/-- A little-endian number of `n` octets. -/
def Mem.readLE (m : Mem) (a n : Nat) : Nat := leNat (m.read a n)

/-- Write a little-endian number of `n` octets. -/
def Mem.writeLE (m : Mem) (a n v : Nat) : Mem := m.write a (natLE n v)

/-- Drop every listed cell of addresses `a` to `a + n − 1` (used where the unlisted octet is zero). -/
def Mem.zero (m : Mem) (a n : Nat) : Mem :=
  { m with cells := m.cells.filter (fun c => decide (c.1 < a ∨ a + n ≤ c.1)) }

/-- Addresses of a list of cells rise strictly. -/
def rising : List Host.Cell → Bool
  | [] => true
  | [_] => true
  | (i, _) :: (j, b) :: r => decide (i < j) && rising ((j, b) :: r)

/-- The canonical form: addresses rise, and no listed octet equals the unlisted one. -/
def Mem.wf (m : Mem) : Bool := rising m.cells && m.cells.all (fun c => decide (c.2 ≠ m.unlisted c.1))

end Sys2Proof.Machine
end

