-- ==== Sys2Proof/Machine/Geometry.lean ====
section
/-! DEFINITION. Fields, panes and the cell grid (01 R16-R23, R33, R35). A cell's number is `Y × 528 + X`. -/

namespace Sys2Proof.Machine

/-- Fields of each field row 0-9, and the first field number of each (R16, Table 1-2). -/
def fieldCounts : List Nat := [6, 9, 10, 11, 11, 11, 11, 10, 9, 6]
def fieldFirsts : List Nat := [0, 6, 15, 25, 36, 47, 58, 69, 79, 88]

/-- First X of a field row (R17). -/
def fieldRowX (row : Nat) : Nat := (11 - lget 0 fieldCounts row) * 24

/-- Field row and first X of a field, sill fields included (R17). -/
def fieldRow (f : Nat) : Nat := (fieldFirsts.filter (fun k => decide (k ≤ f))).length - 1
def fieldX (f : Nat) : Nat := fieldRowX (fieldRow f) + 48 * (f - lget 0 fieldFirsts (fieldRow f))

/-- The field of a field row that covers a global X. -/
def fieldAt (row x : Nat) : Option Nat :=
  if x < fieldRowX row ∨ fieldRowX row + 48 * lget 0 fieldCounts row ≤ x then none
  else some (lget 0 fieldFirsts row + (x - fieldRowX row) / 48)

/-- The same of a core row, index 0-7. -/
def fieldsInRow (row : Nat) : Nat := lget 0 fieldCounts (row + 1)
def firstField (row : Nat) : Nat := lget 0 fieldFirsts (row + 1)
def rowX0 (row : Nat) : Nat := fieldRowX (row + 1)

/-- Core row of a core field, 0-7. -/
def rowOfField (f : Nat) : Nat := fieldRow f - 1

/-- Number of the cell at (X, Y). -/
def cellNo (x y : Nat) : Nat := y * 528 + x
def cellX (c : Nat) : Nat := c % 528
def cellY (c : Nat) : Nat := c / 528

/-- A cell's place: its pane, and its logical row and column in the pane. -/
structure Place where
  pane : Nat
  prow : Nat
  pcol : Nat
  deriving DecidableEq, Repr

/-- The mapping from a coordinate to its pane (R17, R18, R19). -/
def placeOf (x y : Nat) : Option Place :=
  let row := y / 48
  let x0 := rowX0 row
  if x ≥ 528 ∨ y ≥ 384 ∨ x < x0 ∨ x0 + 48 * lget 0 fieldCounts (row + 1) ≤ x then none
  else
    let f := lget 0 fieldFirsts (row + 1) + (x - x0) / 48
    let lx := (x - x0) % 48
    let ly := y % 48
    some ⟨9 * (f - 6) + 3 * (ly / 16) + lx / 16, ly % 16, lx % 16⟩

/-- Is there such a cell (R18)? -/
def cellExists (c : Nat) : Bool := (placeOf (cellX c) (cellY c)).isSome

/-- Pane of a cell; 786, no pane, for a number that names no cell. -/
def paneOfCell (c : Nat) : Nat :=
  match placeOf (cellX c) (cellY c) with
  | some p => p.pane
  | none => 786

/-- Logical row and column of a cell in its pane. -/
def prowOf (c : Nat) : Nat := cellY c % 16
def pcolOf (c : Nat) : Nat :=
  match placeOf (cellX c) (cellY c) with
  | some p => p.pcol
  | none => 0

/-- X and Y of a core pane's top-left cell (R17, R19). -/
def paneOrigin (p : Nat) : Nat × Nat :=
  let f := 6 + p / 9
  let row := rowOfField f
  (rowX0 row + 48 * (f - firstField row) + 16 * (p % 9 % 3), 48 * row + 16 * (p % 9 / 3))

/-- The cell at a logical row and column of a pane. -/
def paneCell (p r j : Nat) : Nat := cellNo ((paneOrigin p).1 + j) ((paneOrigin p).2 + r)

/-- The pane whose top-left cell is at (X, Y). -/
def paneAtOrigin (x y : Nat) : Option Nat :=
  match placeOf x y with
  | some p => if p.prow = 0 ∧ p.pcol = 0 then some p.pane else none
  | none => none

/-- The neighbouring cell on a side: 1 north, 2 east, 3 south, 4 west (Table 6-6). -/
def neighbour (c side : Nat) : Option Nat :=
  let x := cellX c
  let y := cellY c
  let n : Option (Nat × Nat) :=
    match side with
    | 1 => if y = 0 then none else some (x, y - 1)
    | 2 => some (x + 1, y)
    | 3 => some (x, y + 1)
    | 4 => if x = 0 then none else some (x - 1, y)
    | _ => none
  match n with
  | none => none
  | some (a, b) => if (placeOf a b).isSome then some (cellNo a b) else none

/-- The side a neighbour sees the cell on. -/
def opposite (side : Nat) : Nat := lget 0 [0, 3, 4, 1, 2] side

/-- Do two cells lie in one field? -/
def sameField (a b : Nat) : Bool := paneOfCell a / 9 == paneOfCell b / 9

/-- The sill field that a cell of the top or bottom core row faces over its north or south edge (R35). -/
def sillAcross (c side : Nat) : Option Nat :=
  if side = 1 ∧ cellY c = 0 then fieldAt 0 (cellX c)
  else if side = 3 ∧ cellY c = 383 then fieldAt 9 (cellX c)
  else none

/-- Is there a mesh link between a cell and what lies on a side: within a field always, across a field edge, to a sill field
too, only at the crossing positions (R33, R35)? -/
def hasLink (c side : Nat) : Bool :=
  match neighbour c side with
  | none => (sillAcross c side).isSome && cellX c % 6 == 2
  | some n =>
    if sameField c n then true
    else (if side = 1 ∨ side = 3 then cellX c % 6 == 2 else cellY c % 6 == 2)

/-! ### Crossing links by name (R35, R36): field, edge (0 north, 1 east, 2 south, 3 west) and place along the edge -/

/-- The same crossing as the field on its other side names it. -/
def crossOther (f e k : Nat) : Option (Nat × Nat × Nat) :=
  let row := fieldRow f
  let x := fieldX f + 6 * k + 2
  let across (row' e' : Nat) : Option (Nat × Nat × Nat) := (fieldAt row' x).map (fun g => (g, e', (x - fieldX g) / 6))
  match e with
  | 0 => if row = 0 then none else across (row - 1) 2
  | 1 => if f + 1 < lget 0 fieldFirsts row + lget 0 fieldCounts row then some (f + 1, 3, k) else none
  | 2 => if row = 9 then none else across (row + 1) 0
  | _ => if lget 0 fieldFirsts row < f then some (f - 1, 1, k) else none

/-- One name for both: the one that ends east or south. -/
def crossName (f e k : Nat) : Nat × Nat × Nat :=
  if e = 1 ∨ e = 2 then (f, e, k) else (crossOther f e k).getD (f, e, k)

/-- Field of a cell, and the name of the crossing on a side of it. -/
def fieldOfCell (c : Nat) : Nat := 6 + paneOfCell c / 9
def crossAt (c side : Nat) : Nat × Nat × Nat :=
  let f := fieldOfCell c
  crossName f (side - 1) (if side = 1 ∨ side = 3 then (cellX c - fieldX f) / 6 else cellY c % 48 / 6)

/-- Panes that share an edge with a pane (R108). -/
def edgePanes (p : Nat) : List Nat :=
  let o := paneOrigin p
  let at_ (x y : Nat) : List Nat := match placeOf x y with | some q => [q.pane] | none => []
  ((if o.2 = 0 then [] else
      (List.range 16).flatMap (fun i => at_ (o.1 + i) (o.2 - 1))) ++
    (List.range 16).flatMap (fun i => at_ (o.1 + i) (o.2 + 16)) ++
    (if o.1 = 0 then [] else at_ (o.1 - 1) o.2) ++ at_ (o.1 + 16) o.2).eraseDups

/-- Sill field of a sill pane, and its place k (Table 1-3). -/
def sillOf (p : Nat) : Nat := (p - 738) / 4
def sillK (p : Nat) : Nat := (p - 738) % 4

/-- Sill pane of Casement port `n` (Table 1-3). -/
def panePort (n : Nat) : Nat := 738 + 4 * (n / 8) + n % 8 / 4

/-- Sill pane of HBM controller `n`. -/
def paneHbm (n : Nat) : Nat := 738 + 4 * (n / 2) + 2

/-- Sill pane of Campion unit `n`. -/
def paneCampion (n : Nat) : Nat := 738 + 4 * n + 3

end Sys2Proof.Machine
end

