-- ==== Sys2Proof/Machine/Float.lean ====
section
/-! DEFINITION. Number formats, conversion and FP32 arithmetic (03 R64-R81). -/

namespace Sys2Proof.Machine

/-- A decoded floating-point value: `fin neg m e` is `(−1)^neg × m × 2^e` (R65). -/
inductive FpVal where
  | nan
  | inf (neg : Bool)
  | fin (neg : Bool) (m : Nat) (e : Int)
  deriving DecidableEq, Repr

/-- What a format's top codes mean (Table 3-2). -/
inductive FpTop where
  | ieee      -- exponent all ones: infinity, NaN
  | nanOnly   -- E4M3: exponent and mantissa all ones are NaN
  | finite    -- every code is finite
  deriving DecidableEq, Repr

/-- A floating-point layout (Table 3-2). -/
structure FpFmt where
  ebits : Nat
  mbits : Nat
  bias : Nat
  top : FpTop
  deriving DecidableEq, Repr

def fp32 : FpFmt := ⟨8, 23, 127, .ieee⟩
def bf16 : FpFmt := ⟨8, 7, 127, .ieee⟩
def fp16 : FpFmt := ⟨5, 10, 15, .ieee⟩
def e4m3 : FpFmt := ⟨4, 3, 7, .nanOnly⟩
def e5m2 : FpFmt := ⟨5, 2, 15, .ieee⟩
def e3m2 : FpFmt := ⟨3, 2, 3, .finite⟩
def e2m3 : FpFmt := ⟨2, 3, 1, .finite⟩
def e2m1 : FpFmt := ⟨2, 1, 1, .finite⟩
def e1m1 : FpFmt := ⟨1, 1, 1, .finite⟩

/-- Width of a code. -/
def FpFmt.width (f : FpFmt) : Nat := 1 + f.ebits + f.mbits

/-- Largest code of a finite magnitude (Table 3-2). -/
def FpFmt.maxCode (f : FpFmt) : Nat :=
  match f.top with
  | .ieee => (2 ^ f.ebits - 1) * 2 ^ f.mbits - 1
  | .nanOnly => 2 ^ (f.ebits + f.mbits) - 2
  | .finite => 2 ^ (f.ebits + f.mbits) - 1

/-- Exponent of the format's smallest step (R65). -/
def FpFmt.eMin (f : FpFmt) : Int := 1 - (f.bias : Int) - (f.mbits : Int)

/-- Value of a code (R65, R66, R67). -/
def fpDecode (f : FpFmt) (code : Nat) : FpVal :=
  let neg := bitAt code (f.ebits + f.mbits)
  let e := bits code (f.ebits + f.mbits - 1) f.mbits
  let m := code % 2 ^ f.mbits
  let mag := code % 2 ^ (f.ebits + f.mbits)
  if mag ≤ f.maxCode then
    if e = 0 then
      if f.top = .finite ∧ m = 0 then .fin false 0 0 else .fin neg m f.eMin
    else .fin neg (2 ^ f.mbits + m) (f.eMin + (e : Int) - 1)
  else if f.top = .ieee ∧ m = 0 then .inf neg
  else .nan

/-- Nearest whole number to `n / d`, ties to even (R78). -/
def rne (n d : Nat) : Nat :=
  let q := n / d
  let r := n % d
  if 2 * r > d ∨ (2 * r = d ∧ q % 2 = 1) then q + 1 else q

/-- `floor(log2 (n / d))`, for `n, d > 0`. -/
def floorLog2 (n d : Nat) : Int :=
  let e : Int := (Nat.log2 n : Int) - (Nat.log2 d : Int)
  let ge : Bool := if e ≥ 0 then decide (d * 2 ^ e.toNat ≤ n) else decide (d ≤ n * 2 ^ (-e).toNat)
  if ge then e else e - 1

/-- Code of the magnitude `n / d` rounded once to nearest even, as if the format's exponent had no upper end
(R78). -/
def magCode (f : FpFmt) (n d : Nat) : Nat :=
  if n = 0 then 0
  else
    let lowest : Int := 1 - (f.bias : Int)
    let e := floorLog2 n d
    let e := if e < lowest then lowest else e
    let q : Int := e - (f.mbits : Int)
    let k := if q ≥ 0 then rne n (d * 2 ^ q.toNat) else rne (n * 2 ^ (-q).toNat) d
    (e - lowest).toNat * 2 ^ f.mbits + k

/-- An exact value `m × 2^e`. -/
structure Dy where
  m : Int
  e : Int
  deriving DecidableEq, Repr

def Dy.zero : Dy := ⟨0, 0⟩

/-- `d × 2^k` as a whole number, for an exponent `k` no greater than the value's own. -/
def Dy.scaleTo (d : Dy) (k : Int) : Int := d.m * 2 ^ (d.e - k).toNat

/-- Exact sum. -/
def Dy.add (a b : Dy) : Dy :=
  let k := min a.e b.e
  ⟨a.scaleTo k + b.scaleTo k, k⟩

/-- Exact product. -/
def Dy.mul (a b : Dy) : Dy := ⟨a.m * b.m, a.e + b.e⟩

/-- Numerator and denominator of a magnitude. -/
def Dy.ratio (a : Dy) : Nat × Nat :=
  if a.e ≥ 0 then (a.m.natAbs * 2 ^ a.e.toNat, 1) else (a.m.natAbs, 2 ^ (-a.e).toNat)

/-- Exact comparison. -/
def Dy.lt (a b : Dy) : Bool :=
  let k := min a.e b.e
  decide (a.scaleTo k < b.scaleTo k)

/-- The exact value of a finite decoded value; zero for the others. -/
def FpVal.dy : FpVal → Dy
  | .fin neg m e => ⟨if neg then -(m : Int) else m, e⟩
  | _ => Dy.zero

def FpVal.isNan : FpVal → Bool
  | .nan => true
  | _ => false

def FpVal.isInf : FpVal → Bool
  | .inf _ => true
  | _ => false

def FpVal.isFin : FpVal → Bool
  | .fin _ _ _ => true
  | _ => false

def FpVal.neg : FpVal → Bool
  | .inf n => n
  | .fin n _ _ => n
  | .nan => false

def FpVal.isZero : FpVal → Bool
  | .fin _ m _ => m == 0
  | _ => false

/-- The FP32 pattern of a sign and a magnitude code. -/
def f32Of (neg : Bool) (mag : Nat) : R32 := BitVec.ofNat 32 (mag + if neg then 2 ^ 31 else 0)

/-- FP32 infinity. -/
def f32Inf (neg : Bool) : R32 := f32Of neg 0x7F800000

/-- FP32 canonical quiet NaN (R79). -/
def f32QNan : R32 := 0x7FFFFFFF

/-- A NaN of FP32 arithmetic: the spec states no sign and no payload (log 9). -/
def f32NanOf (w : R32) : R32 :=
  let x := w ||| 0x7F800000
  if x.toNat % 2 ^ 23 = 0 then x ||| 0x00400000 else x

/-- Decode FP32. -/
def f32Val (w : R32) : FpVal := fpDecode fp32 w.toNat

/-- Round an exact value once to FP32; a value past the range is an infinity of its sign (R78, R94).
`zneg` is the sign a zero result takes. -/
def f32Round (zneg : Bool) (a : Dy) : R32 :=
  if a.m = 0 then f32Of zneg 0
  else
    let (n, d) := a.ratio
    let c := magCode fp32 n d
    if c > fp32.maxCode then f32Inf (decide (a.m < 0)) else f32Of (decide (a.m < 0)) c

/-- FP32 sum (R78). -/
def f32Add (a b : R32) : R32 :=
  match f32Val a, f32Val b with
  | .fin na ma ea, .fin nb mb eb =>
    f32Round (if na = nb then na else Config.zeroSign)
      (Dy.add (FpVal.fin na ma ea).dy (FpVal.fin nb mb eb).dy)
  | .inf na, .inf nb => if na = nb then f32Inf na else f32NanOf (Config.nanBits a b 0)
  | .inf na, .fin _ _ _ => f32Inf na
  | .fin _ _ _, .inf nb => f32Inf nb
  | _, _ => f32NanOf (Config.nanBits a b 0)

/-- Change of sign. -/
def f32Neg (a : R32) : R32 := a ^^^ 0x80000000

/-- FP32 difference (R78). -/
def f32Sub (a b : R32) : R32 := f32Add a (f32Neg b)

/-- FP32 product (R78). -/
def f32Mul (a b : R32) : R32 :=
  let va := f32Val a
  let vb := f32Val b
  let neg := va.neg != vb.neg
  if va.isNan || vb.isNan || (va.isInf && vb.isZero) || (va.isZero && vb.isInf) then
    f32NanOf (Config.nanBits a b 1)
  else if va.isInf || vb.isInf then f32Inf neg
  else f32Round neg (Dy.mul va.dy vb.dy)

/-- FP32 fused product and sum: one rounding (R78, Table 4-4). -/
def f32Fma (a b c : R32) : R32 :=
  let va := f32Val a
  let vb := f32Val b
  let vc := f32Val c
  let neg := va.neg != vb.neg
  if va.isNan || vb.isNan || vc.isNan || (va.isInf && vb.isZero) || (va.isZero && vb.isInf) then
    f32NanOf (Config.nanBits a b c)
  else if va.isInf || vb.isInf then
    if vc.isInf && vc.neg != neg then f32NanOf (Config.nanBits a b c) else f32Inf neg
  else if vc.isInf then f32Inf vc.neg
  else f32Round (if neg = vc.neg then neg else Config.zeroSign) (Dy.add (Dy.mul va.dy vb.dy) vc.dy)

/-- Is `a < b`, for operands that are not NaN? -/
def fpLt (a b : FpVal) : Bool :=
  match a, b with
  | .inf na, .inf nb => na && !nb
  | .inf na, _ => na
  | _, .inf nb => !nb
  | x, y => Dy.lt x.dy y.dy

/-- FP32 larger (`min` false) or smaller operand; where one is NaN or both are zeros the spec states no result
(log 9). -/
def f32MaxMin (isMin : Bool) (a b : R32) : R32 :=
  let va := f32Val a
  let vb := f32Val b
  if va.isNan || vb.isNan || (va.isZero && vb.isZero) then
    if Config.maxCorner isMin a b then a else b
  else if fpLt va vb then (if isMin then a else b)
  else if fpLt vb va then (if isMin then b else a)
  else a

/-- The number formats of Table 3-1. -/
inductive Fmt where
  | fp (f : FpFmt)
  | int (w : Nat)
  | ternary
  | mx (el : FpFmt)
  | tb (el : FpFmt)
  | tbt
  deriving DecidableEq, Repr

/-- Format of a code; a code that Table 3-1 does not list is reserved (R64). -/
def fmtOf (code : Nat) : Option Fmt :=
  match code with
  | 0x00 => some (.fp fp32) | 0x01 => some (.fp bf16) | 0x02 => some (.fp fp16)
  | 0x03 => some (.fp e4m3) | 0x04 => some (.fp e5m2) | 0x05 => some (.fp e3m2)
  | 0x06 => some (.fp e2m3) | 0x07 => some (.fp e2m1) | 0x08 => some (.fp e1m1)
  | 0x10 => some (.int 32) | 0x11 => some (.int 8) | 0x12 => some (.int 4) | 0x13 => some (.int 2)
  | 0x14 => some .ternary
  | 0x20 => some (.mx e4m3) | 0x21 => some (.mx e5m2) | 0x22 => some (.mx e3m2)
  | 0x23 => some (.mx e2m3) | 0x24 => some (.mx e2m1)
  | 0x30 => some (.tb e2m1) | 0x31 => some (.tb e1m1) | 0x32 => some .tbt
  | _ => none

/-- Elements of a block: 16 or 32; 32 elements for a format without blocks (R70, R75, R80). -/
def Fmt.block : Fmt → Nat
  | .tb _ => 16
  | _ => 32

/-- Does a format carry block scales? -/
def Fmt.scaled : Fmt → Bool
  | .mx _ | .tb _ | .tbt => true
  | _ => false

/-- Bits of one element's container in weight memory (Table 3-6). -/
def Fmt.container : Fmt → Nat
  | .fp f | .mx f | .tb f => if f.width ≤ 4 then 4 else if f.width ≤ 8 then 8 else f.width
  | .int w => w
  | .ternary | .tbt => 2

/-- Two's complement of `w` bits. -/
def signedOf (w v : Nat) : Int := if v % 2 ^ w ≥ 2 ^ (w - 1) then (v % 2 ^ w : Int) - 2 ^ w else (v % 2 ^ w : Nat)

/-- Value of a ternary code; 0b10 reads as 0 (R68, R69). -/
def ternaryOf (code : Nat) : Int := if code = 1 then 1 else if code = 3 then -1 else 0

/-- Value of an element code, without its scales (R65, R68, R70). -/
def Fmt.element (f : Fmt) (code : Nat) : FpVal :=
  match f with
  | .fp l | .mx l | .tb l => fpDecode l (code % 2 ^ l.width)
  | .int w => let v := signedOf w code; .fin (decide (v < 0)) v.natAbs 0
  | .ternary | .tbt => let v := ternaryOf (code % 4); .fin (decide (v < 0)) v.natAbs 0

/-- Value of a block scale octet: E4M3 for the two-level formats, E8M0 for MX (R70, R75). -/
def Fmt.scale (f : Fmt) (octet : Nat) : FpVal :=
  match f with
  | .tb _ | .tbt => fpDecode e4m3 octet
  | .mx _ => if octet = 0xFF then .nan else .fin false 1 ((octet : Int) - 127)
  | _ => .fin false 1 0

/-- The product of decoded values, exact; NaN and infinities as in R94. -/
def FpVal.mul (a b : FpVal) : FpVal :=
  if a.isNan || b.isNan || (a.isInf && b.isZero) || (a.isZero && b.isInf) then .nan
  else if a.isInf || b.isInf then .inf (a.neg != b.neg)
  else let d := Dy.mul a.dy b.dy; .fin (a.neg != b.neg) d.m.natAbs d.e

/-- A decoded value as FP32, one rounding; exact for every format but INT32 (R78). -/
def FpVal.toF32 : FpVal → R32
  | .nan => f32QNan
  | .inf n => f32Inf n
  | .fin n m e => f32Round n ⟨if n then -(m : Int) else m, e⟩

/-- One converted element: its code, and whether it counts as saturated or flushed (R78-R80). -/
structure CvtEl where
  code : Nat
  sat : Bool
  flush : Bool
  deriving DecidableEq, Repr

/-- Convert the finite magnitude `n / d` with a sign into an element format, saturating (R78, R79). A zero keeps its sign in the formats
that have an infinity or a NaN; that E4M3 is one of them R66 does not say (DESIGN CHOICE, log 69). -/
def cvtFin (f : Fmt) (neg : Bool) (n d : Nat) : CvtEl :=
  match f with
  | .fp l | .mx l | .tb l =>
    let c := magCode l n d
    let sat := decide (c > l.maxCode)
    let c := if sat then l.maxCode else c
    let z := c = 0
    let sgn := if neg ∧ ¬ (z ∧ l.top = .finite) then 2 ^ (l.ebits + l.mbits) else 0
    ⟨c + sgn, sat, decide (z ∧ n ≠ 0)⟩
  | .int w =>
    let k := rne n d
    let hi := 2 ^ (w - 1) - if neg then 0 else 1
    let sat := decide (k > hi)
    let k := if sat then hi else k
    ⟨if neg ∧ k ≠ 0 then 2 ^ w - k else k, sat, decide (k = 0 ∧ n ≠ 0)⟩
  | .ternary | .tbt =>
    let one := decide (2 * n > d)
    ⟨if one then (if neg then 3 else 1) else 0, decide (2 * n ≥ 3 * d), decide (!one ∧ n ≠ 0)⟩

/-- Convert an infinity: it saturates (R79). An infinity into FP32 stays. Either counts as saturated (R80). -/
def cvtInf (f : Fmt) (neg : Bool) : CvtEl :=
  match f with
  | .fp l | .mx l | .tb l =>
    if l = fp32 then ⟨(f32Inf neg).toNat, true, false⟩
    else ⟨l.maxCode + if neg then 2 ^ (l.ebits + l.mbits) else 0, true, false⟩
  | .int w => ⟨if neg then 2 ^ (w - 1) else 2 ^ (w - 1) - 1, true, false⟩
  | .ternary | .tbt => ⟨if neg then 3 else 1, true, false⟩

/-- Convert a NaN (R79): the canonical quiet NaN, or zero. -/
def cvtNan (f : Fmt) : CvtEl :=
  match f with
  | .fp l | .mx l | .tb l =>
    if l.top = .finite then ⟨0, true, false⟩ else ⟨2 ^ (l.ebits + l.mbits) - 1, true, false⟩
  | _ => ⟨0, true, false⟩

/-- Convert an FP32 value divided by the scale `sn / sd` (R78-R81). -/
def cvtEl (f : Fmt) (v : FpVal) (sn sd : Nat) : CvtEl :=
  match v with
  | .nan => cvtNan f
  | .inf n => cvtInf f n
  | .fin neg m e =>
    let (n, d) := Dy.ratio ⟨m, e⟩
    cvtFin f neg (n * sd) (d * sn)

/-- The largest finite magnitude of a block (R77, R81). -/
def amaxOf (vs : List FpVal) : Dy :=
  vs.foldl (fun a v => if v.isFin then (let d : Dy := ⟨v.dy.m.natAbs, v.dy.e⟩; if a.lt d then d else a) else a) Dy.zero

/-- The smallest E4M3 code whose value is not below `n / d`, at most 0x7E (R81 step 3). -/
def e4m3Ceil (n d : Nat) : Nat :=
  let c := magCode e4m3 n d
  let v := (fpDecode e4m3 c).dy.ratio
  let c := if c ≤ e4m3.maxCode ∧ v.1 * d < n * v.2 then c + 1 else c
  if c > e4m3.maxCode then e4m3.maxCode else c

/-- The converted block: its scale octet, when the format has one, and its elements. -/
structure CvtBlock where
  scale : Option Nat
  els : List CvtEl
  deriving DecidableEq, Repr

/-- Element exponent of an MX element type (R77). -/
def mxEmax (l : FpFmt) : Int :=
  if l = e4m3 then 8 else if l = e5m2 then 15 else if l = e3m2 then 4 else 2

/-- Convert one block to a format under tensor scale `t` (R77, R81). `freeScale` is the scale octet where the spec
states none. -/
def cvtBlock (f : Fmt) (t : R32) (freeScale : Nat) (vs : List FpVal) : CvtBlock :=
  let amax := amaxOf vs
  match f with
  | .mx l =>
    if amax.m = 0 then ⟨some 0, vs.map (fun v => ⟨0, !v.isFin, false⟩)⟩
    else
      let (n, d) := amax.ratio
      let e := floorLog2 n d - mxEmax l
      let e := if e < -127 then -127 else if e > 127 then 127 else e
      let s := Dy.ratio ⟨1, e⟩
      ⟨some (e + 127).toNat, vs.map (fun v => cvtEl f v s.1 s.2)⟩
  | .tb _ | .tbt =>
    let tv := f32Val t
    if tv.isFin && !tv.neg && !tv.isZero then
      if amax.m = 0 then ⟨some 0, vs.map (fun _ => ⟨0, false, false⟩)⟩
      else
        let qmax : Nat × Nat := match f with | .tb l => (fpDecode l l.maxCode).dy.ratio | _ => (1, 1)
        let tr := tv.dy.ratio
        let (n, d) := amax.ratio
        let b := e4m3Ceil (n * qmax.2 * tr.2) (d * qmax.1 * tr.1)
        let br := (fpDecode e4m3 b).dy.ratio
        ⟨some b, vs.map (fun v => cvtEl f v (tr.1 * br.1) (tr.2 * br.2))⟩
    else ⟨some freeScale, vs.map (fun v => ⟨0, !v.isZero, false⟩)⟩
  | _ => ⟨none, vs.map (fun v => cvtEl f v 1 1)⟩

/-- The next rung of the widening ladder (Table 4-7): a format code, or none. -/
def nextRung (fmt fp6 fp8 : Nat) : Option Nat :=
  match fmt with
  | 0x08 => some 0x07
  | 0x31 | 0x32 => some 0x30
  | 0x07 => some (if fp6 = 0 then 0x05 else 0x06)
  | 0x30 | 0x24 => some (if fp6 = 0 then 0x22 else 0x23)
  | 0x12 => some 0x11
  | 0x05 | 0x06 => some (if fp8 = 0 then 0x03 else 0x04)
  | 0x22 | 0x23 => some (if fp8 = 0 then 0x20 else 0x21)
  | 0x03 | 0x04 | 0x20 | 0x21 | 0x11 => some 0x01
  | _ => none

/-- Is `target` reached from `fmt` in at most `fuel` rungs (R98)? -/
def onLadder : Nat → Nat → Nat → Nat → Nat → Bool
  | 0, fmt, target, _, _ => fmt == target
  | k + 1, fmt, target, fp6, fp8 =>
    fmt == target ||
      (match nextRung fmt fp6 fp8 with
       | some n => onLadder k n target fp6 fp8
       | none => false)

end Sys2Proof.Machine
end

