-- ==== Sys2Proof/Machine/Sfu.lean ====
section
/-! DEFINITION. Special-function and rotor results (02 R49-R51, Table 2-7, 04 Table 4-4): a free value held to
the error bound the spec states (log 10). The reference values are fixed-point with 160 fraction bits. -/

namespace Sys2Proof.Machine

/-- Fraction bits of the reference values. -/
def fxBits : Nat := 160

/-- `ln 2 × 2^160`. -/
def fxLn2 : Int := 0xb17217f7d1cf79abc9e3b39803f2f6af40f34326

/-- `2π × 2^320`. -/
def fxTwoPi : Int := 0x6487ed5110b4611a62633145c06e0e68948127044533e63a0105df531d89cd9128a5043cc71a026ef

/-- `√(2/π) × 2^160`. -/
def fxGelu : Int := 0xcc42299ea1b284687e59e2805d5c717fa7053e60

/-- `value × 2^160`, rounded down. -/
def Dy.fx (a : Dy) : Int :=
  let e := a.e + (fxBits : Int)
  if e ≥ 0 then a.m * 2 ^ e.toNat else a.m.fdiv (2 ^ (-e).toNat)

/-- Sum of `n` terms of the exponential series from term `i` at `r`, fixed-point. -/
def expSeries : Nat → Int → Int → Int → Int
  | 0, _, _, _ => 0
  | n + 1, i, r, term => term + expSeries n (i + 1) r (term * r / 2 ^ fxBits / i)

/-- `e^x` for fixed-point `x`, as an exact number near it. -/
def expFx (x : Int) : Dy :=
  let k := x.fdiv fxLn2
  let r := x - k * fxLn2
  ⟨expSeries 45 1 r (2 ^ fxBits), k - (fxBits : Int)⟩

/-- Terms of `atanh z = z + z³/3 + …`, fixed-point, with `zz = z²`. -/
def atanhSeries : Nat → Int → Int → Int → Int
  | 0, _, _, _ => 0
  | n + 1, i, zz, p => p / i + atanhSeries n (i + 2) zz (p * zz / 2 ^ fxBits)

/-- `ln` of a positive exact value. -/
def lnDy (a : Dy) : Dy :=
  let l := Nat.log2 a.m.natAbs
  let y : Int := (a.m * 2 ^ fxBits).fdiv (2 ^ l)
  let one : Int := 2 ^ fxBits
  let z := ((y - one) * one).fdiv (y + one)
  ⟨2 * atanhSeries 60 1 (z * z / one) z + ((l : Int) + a.e) * fxLn2, -(fxBits : Int)⟩

/-- Bits of the whole square root of `n`, from bit `k − 1` down. -/
def isqrtBits : Nat → Nat → Nat → Nat
  | 0, _, r => r
  | k + 1, n, r => if (r + 2 ^ k) * (r + 2 ^ k) ≤ n then isqrtBits k n (r + 2 ^ k) else isqrtBits k n r

/-- `√a` of a positive exact value. -/
def sqrtDy (a : Dy) : Dy :=
  let sh : Int := if (a.e % 2 = 0) then 240 else 241
  let n := a.m.natAbs * 2 ^ sh.toNat
  ⟨isqrtBits (Nat.log2 n / 2 + 1) n 0, (a.e - sh) / 2⟩

/-- A reference value: a signed ratio. -/
structure Ratio where
  neg : Bool
  n : Nat
  d : Nat
  deriving DecidableEq, Repr

def Dy.toRatio (a : Dy) : Ratio := ⟨decide (a.m < 0), a.ratio.1, a.ratio.2⟩

/-- `1/(1 + e^(−v))` for fixed-point `v`; far down a value below every FP32 number, which underflows (R49). -/
def sigmoidFx (v : Int) : Ratio :=
  if v > 2 ^ (fxBits + 9) then ⟨false, 1, 1⟩
  else if v < -(2 ^ (fxBits + 9)) then ⟨false, 1, 2 ^ 400⟩
  else
    let a := (expFx (if v < 0 then v else -v)).ratio
    if v < 0 then ⟨false, a.1, a.1 + a.2⟩ else ⟨false, a.2, a.1 + a.2⟩

/-- `tanh` of an exact value; below 2^−16 the value itself is within 2^−33 of it. -/
def tanhDy (a : Dy) : Ratio :=
  let v := a.fx
  if v.natAbs < 2 ^ (fxBits - 16) then a.toRatio
  else if v.natAbs > 2 ^ (fxBits + 9) then ⟨decide (a.m < 0), 1, 1⟩
  else
    let q := (expFx (-2 * (v.natAbs : Int))).ratio
    ⟨decide (a.m < 0), q.2 - q.1, q.2 + q.1⟩

/-- The special functions of Table 2-7, in its order. -/
inductive SfuFn where
  | exp | log | rcp | rsqrt | sqrt | sigm | tanh | silu | gelu
  deriving DecidableEq, Repr

/-- Number of a special function. -/
def SfuFn.num : SfuFn → Nat
  | .exp => 0 | .log => 1 | .rcp => 2 | .rsqrt => 3 | .sqrt => 4
  | .sigm => 5 | .tanh => 6 | .silu => 7 | .gelu => 8

/-- Maximum error in units in the last place (Table 2-7). -/
def SfuFn.ulps : SfuFn → Nat
  | .exp | .log | .sigm | .tanh => 2
  | .rcp | .rsqrt | .sqrt => 1
  | .silu | .gelu => 3

/-- Reference result at an exact operand; none where the function has no finite value there. -/
def SfuFn.ref (f : SfuFn) (neg : Bool) (a : Dy) : Option Ratio :=
  match f with
  | .exp =>
    let v := a.fx
    if v > 2 ^ (fxBits + 9) then some ⟨false, 2 ^ 200, 1⟩
    else if v < -(2 ^ (fxBits + 9)) then some ⟨false, 1, 2 ^ 400⟩
    else some (expFx v).toRatio
  | .log => if a.m ≤ 0 then none else some (lnDy a).toRatio
  | .rcp => if a.m = 0 then none else let q := a.ratio; some ⟨neg, q.2, q.1⟩
  | .rsqrt => if a.m ≤ 0 then none else let q := (sqrtDy a).ratio; some ⟨false, q.2, q.1⟩
  | .sqrt => if a.m < 0 then none else if a.m = 0 then some ⟨neg, 0, 1⟩ else some (sqrtDy a).toRatio
  | .sigm => some (sigmoidFx a.fx)
  | .tanh => some (tanhDy a)
  | .silu => let q := a.ratio; let s := sigmoidFx a.fx; some ⟨neg, q.1 * s.n, q.2 * s.d⟩
  | .gelu =>
    let x := a.fx
    let one : Int := 2 ^ fxBits
    let u := x + 44715 * ((x * x / one) * x / one) / 1000000
    let q := a.ratio
    let s := sigmoidFx (2 * (fxGelu * u / one))
    some ⟨neg, q.1 * s.n, q.2 * s.d⟩

/-- One unit in the last place of FP32 at the magnitude `n / d`: an exponent of two. -/
def ulpExp (n d : Nat) : Int :=
  if n = 0 then -149
  else let e := floorLog2 n d; (if e < -126 then -126 else e) - 23

/-- Is FP32 `w` within `k / j` units of `2^e` of the signed ratio `r`? -/
def within (w : R32) (r : Ratio) (k : Nat) (e : Int) : Bool :=
  match f32Val w with
  | .fin neg m x =>
    let (wn, wd) := Dy.ratio ⟨m, x⟩
    let (un, ud) := Dy.ratio ⟨1, e⟩
    let a : Int := (if neg then -(wn : Int) else wn) * r.d
    let b : Int := (if r.neg then -(r.n : Int) else r.n) * wd
    decide ((a - b).natAbs * ud ≤ k * un * wd * r.d)
  | _ => false

/-- FP32 nearest to a ratio. -/
def ratioF32 (r : Ratio) : R32 :=
  let c := magCode fp32 r.n r.d
  if c > fp32.maxCode then f32Inf r.neg else f32Of r.neg c

/-- A free value held to a bound around a reference: the free value where it keeps the bound, else the FP32
nearest to the reference. An exact result that overflows or underflows gives infinity or zero (R49). -/
def holdTo (free : R32) (r : Ratio) (k : Nat) (e : Int) : R32 :=
  let c := magCode fp32 r.n r.d
  if c > fp32.maxCode ∨ (c = 0 ∧ r.n ≠ 0) then ratioF32 r
  else if within free r k e then free
  else ratioF32 r

/-- A special function of one lane (R49, Table 2-7). -/
def sfuLane (f : SfuFn) (x : R32) : R32 :=
  match f32Val x with
  | .fin neg m e =>
    (match f.ref neg ⟨if neg then -(m : Int) else m, e⟩ with
     | some r => holdTo (Config.sfu f.num x) r f.ulps (ulpExp r.n r.d)
     | none => Config.sfuCorner f.num x)
  | _ => Config.sfuCorner f.num x

/-- Terms of the sine and cosine series, fixed-point, signs alternating: from term `i` on. -/
def trigSeries : Nat → Int → Int → Int → Int
  | 0, _, _, _ => 0
  | n + 1, i, xx, t => t + trigSeries n (i + 2) xx (-(t * xx / 2 ^ fxBits / ((i + 1) * (i + 2))))

/-- `(cos, sin)` of `p × θ`, fixed-point, reduced modulo 2π (R50). -/
def trigOf (p : Nat) (th : Dy) : Int × Int :=
  let e := th.e + 320
  let ang : Int := if e ≥ 0 then (p : Int) * th.m * 2 ^ e.toNat else ((p : Int) * th.m).fdiv (2 ^ (-e).toNat)
  let x := (ang.emod fxTwoPi).fdiv (2 ^ fxBits)
  let xx := x * x / 2 ^ fxBits
  (trigSeries 40 0 xx (2 ^ fxBits), trigSeries 40 1 xx x)

/-- One component of a rotated pair: the free value, held within 2^−20 (Table 2-7). From 32 on FP32 has no number so near to every
value, and the component is the nearest (log 10). -/
def rotLane (a b : R32) (p : Nat) (theta : R32) (second : Bool) : R32 :=
  let free := Config.rotor a b theta p second
  match f32Val a, f32Val b, f32Val theta with
  | .fin na ma ea, .fin nb mb eb, .fin nt mt et =>
    let cs := trigOf p (FpVal.fin nt mt et).dy
    let da := (FpVal.fin na ma ea).dy
    let db := (FpVal.fin nb mb eb).dy
    let c : Dy := ⟨cs.1, -(fxBits : Int)⟩
    let s : Dy := ⟨cs.2, -(fxBits : Int)⟩
    let r := (if second then Dy.add (da.mul s) (db.mul c) else Dy.add (da.mul c) ((Dy.mul ⟨-1, 0⟩ db).mul s)).toRatio
    let u := ulpExp r.n r.d
    if within free r 1 (if u > -19 then u - 1 else -20) then free else ratioF32 r
  | _, _, _ => free

/-- The merged sum of two (max, sum) pairs, within 2^−21 of it (Table 4-4). -/
def lseSum (m1 s1 m2 s2 : R32) : R32 :=
  let free := Config.vlseSum m1 s1 m2 s2
  match f32Val m1, f32Val s1, f32Val m2, f32Val s2 with
  | .fin na ma ea, .fin nb mb eb, .fin nc mc ec, .fin nd md ed =>
    let a := (FpVal.fin na ma ea).dy
    let c := (FpVal.fin nc mc ec).dy
    let mx := if a.lt c then c else a
    let w (x : Dy) : Dy :=
      let v := (Dy.add x (Dy.mul ⟨-1, 0⟩ mx)).fx
      if v < -(2 ^ (fxBits + 9)) then Dy.zero else expFx v
    let r := (Dy.add ((FpVal.fin nb mb eb).dy.mul (w a)) ((FpVal.fin nd md ed).dy.mul (w c))).toRatio
    let tol : Ratio := ⟨false, r.n, r.d * 2 ^ 21⟩
    let c := magCode fp32 r.n r.d
    if c > fp32.maxCode then ratioF32 r
    else
      match f32Val free with
      | .fin neg m e =>
        let (wn, wd) := Dy.ratio ⟨m, e⟩
        let x : Int := (if neg then -(wn : Int) else wn) * r.d
        let y : Int := (if r.neg then -(r.n : Int) else r.n) * wd
        if (x - y).natAbs * tol.d ≤ tol.n * wd * r.d then free else ratioF32 r
      | _ => ratioF32 r
  | _, _, _, _ => free

end Sys2Proof.Machine
end

