-- ==== Sys2Proof/Syntax.lean ====
section
/-! DEFINITION. The commands the module takes: one constructor per row of spec/opcode_table.json. Operands are
plain numbers, octet strings and records; a cell is named by its number `Y × 528 + X`. -/

namespace Sys2Proof

/-- A message (13 R273, Table 13-4). KIND 0 write, 1 read request, 2 read response, 3 error completion;
VC 0 C, 1 M, 2 A, 3 W; ADDR 48 bits; payload octets. -/
structure Msg where
  kind : Nat
  vc : Nat
  dest : Nat
  src : Nat
  addr : Nat
  payload : List Byte
  deriving DecidableEq, Repr

/-- The preamble of a message that carries values (03 R86): format code, flags, tensor scale. -/
structure LinkFmt where
  fmt : Nat
  flags : Nat
  scale : BitVec 32
  deriving DecidableEq, Repr

/-- Operands of VCVT (02 Table 2-6, 03 R78-R81, 04 R98-R99). `narrow`: from FP32 to `fmt`, else from `fmt` to
FP32; `ts` the scalar register that holds the tensor scale; `site` the quantisation site. -/
structure CvtOp where
  narrow : Bool
  fmt : Nat
  vd : Nat
  va : Nat
  ts : Nat
  site : Nat
  tileEnd : Bool
  rd : Nat
  deriving DecidableEq, Repr

/-- Operands of a dot issue (R46-R48): entry, weight and activation format codes, x register, its half, and the
64-bit part of the half that the 8-bit and 16-bit classes use (log 20). -/
structure DotOp where
  e : Nat
  wf : Nat
  af : Nat
  x : Nat
  h : Nat
  q : Nat
  deriving DecidableEq, Repr


/-- What a read of HBM is for (Table 12-2): a page's home image, a block of a slot's token log, a generation's copy, a mask
source, another HBM-read item of a cell, or none of these. `both`: the other copy is lost as well. -/
inductive HbmUse where
  | page (d : Nat)
  | log (r n : Nat) (both : Bool)
  | gen (guest num : Nat)
  | mask (n : Nat) (both : Bool)
  | item (c : Nat)
  | other
  deriving DecidableEq, Repr

/-- A burst read from HBM: what it is for, and the tag of a management read (12 R258, R259; 13 R275). -/
structure BurstUse where
  use : HbmUse
  rtag : Nat
  deriving DecidableEq, Repr

/-- A message that the entries of an outbound port form: its octets, and the preamble where it carries values (05 R115, 03 R86). -/
structure PortMsg where
  len : Nat
  pre : Option LinkFmt
  deriving DecidableEq, Repr

/-- A verdict word that arrives, and whether its tile came in full before it (04 R101; log 25). -/
structure VerdictIn where
  word : BitVec 64
  tileIn : Bool
  deriving DecidableEq, Repr

/-- A message for an item of a region; of a partial sum, its contributor and their number in the route plan (13 R274, 04 R104). -/
structure Arrival where
  msg : Msg
  red : Option (Nat × Nat)
  deriving DecidableEq, Repr

/-- A flit as a port receives it: 256 octets, the FEC symbols corrected in each lane, and whether the FEC failed (R272, R280). -/
structure RxFlit where
  bytes : List Byte
  corr : List Nat
  uncorr : Bool
  deriving DecidableEq, Repr


/-- What the Lintel reads in a housekeeping round (R344): junction sensors as pane, T0 and T1; memory-wafer diodes by field; stack
temperatures (all in 0.125 °C, R341); busbar voltage in 0.1 V, input and wafer power in W; the two pair currents in A (R441); each
pane's lowest voltage sensor in mV; and the voltage sensors whose mean drop exceeds the model's prediction by more than 12 mV, as pane,
sensor and excess in mV (R321). A channel that is not listed reads as before. -/
structure Readings where
  sens : List (Nat × Int × Int) := []
  diodes : List (Nat × Int) := []
  hbm : List (Nat × Int) := []
  vin : Nat := 540
  pin : Nat := 0
  pwafer : Nat := 0
  pair0 : Nat := 0
  pair1 : Nat := 0
  vmin : List (Nat × Nat) := []
  drops : List (Nat × Nat × Nat) := []
  deriving DecidableEq, Repr

/-- What a boot stage finds (19 R402-R413, 01 R38): whether a firmware part of the armed slot fails its digest; the power-on test of the
Keeper that failed (Table 18-3), or not 0 where the Lintel did not start; structures of Table 18-15 whose tags fail; defects that BIST
found, as entries of Table 1-5; HBM channels that did not train, as controller and channel. -/
structure BootFinds where
  digestBad : Bool := false
  fail : Nat := 0
  tags : List Nat := []
  found : List Nat := []
  chans : List (Nat × Nat) := []
  deriving DecidableEq, Repr

/-- The commands (spec/opcode_table.json). -/
inductive Instr where
  /-- ADD: Scalar add (R43). -/
  | add (c rd ra rb : Nat)
  /-- SUB: Scalar subtract (R43). -/
  | sub (c rd ra rb : Nat)
  /-- AND: Scalar AND (R43). -/
  | sAnd (c rd ra rb : Nat)
  /-- OR: Scalar OR (R43). -/
  | sOr (c rd ra rb : Nat)
  /-- XOR: Scalar XOR (R43). -/
  | sXor (c rd ra rb : Nat)
  /-- SHL: Scalar shift left (R43). -/
  | shl (c rd ra rb : Nat)
  /-- SHR: Scalar shift right (R43). -/
  | shr (c rd ra rb : Nat)
  /-- CMP: Scalar compare (R43). -/
  | cmp (c rd ra rb : Nat)
  /-- MOVI: Load a 20-bit immediate, sign-extended (Table 2-3). -/
  | movi (c rd imm : Nat)
  /-- MUL: Low 32 bits of a product (Table 2-3). -/
  | mul (c rd ra rb : Nat)
  /-- JMP: Unconditional branch (R45). -/
  | jmp (c target : Nat)
  /-- BR: Conditional branch (R45). -/
  | br (c rs target : Nat)
  /-- LOOP: Push a hardware loop (R45). -/
  | loop (c : Nat) (fromReg : Bool) (count last : Nat)
  /-- AWAIT: Take a variable item (R112). -/
  | await (c item : Nat)
  /-- STEPWAIT: Stop issue until the next step (R111). -/
  | stepwait (c : Nat)
  /-- DOT_W: Dot issue with weights from a bank (R46, R47). -/
  | dotW (c : Nat) (o : DotOp) (waddr saddr : Nat)
  /-- DOT_L: Dot issue with weights from the latch (R48). -/
  | dotL (c : Nat) (o : DotOp) (grp : Nat)
  /-- DOT_FLUSH: Write entries e and e + 1 to partial-sum memory (Table 2-5). -/
  | dotFlush (c e paddr : Nat)
  /-- DOT_FLUSHADD: Add entries e and e + 1 to a partial-sum word (Table 2-5). -/
  | dotFlushAdd (c e paddr : Nat)
  /-- DOT_CLR: Clear all accumulator entries (Table 2-5). -/
  | dotClr (c : Nat)
  /-- VADD: Lane-wise FP32 sum (Table 2-6). -/
  | vadd (c vd va vb : Nat)
  /-- VSUB: Lane-wise FP32 difference (Table 2-6). -/
  | vsub (c vd va vb : Nat)
  /-- VMUL: Lane-wise FP32 product (Table 2-6). -/
  | vmul (c vd va vb : Nat)
  /-- VFMA: Lane-wise fused product and sum (Table 2-6). -/
  | vfma (c vd va vb vc : Nat)
  /-- VMAX: Lane-wise maximum (Table 2-6). -/
  | vmax (c vd va vb : Nat)
  /-- VMIN: Lane-wise minimum (Table 2-6). -/
  | vmin (c vd va vb : Nat)
  /-- VCMP: Lane-wise compare (Table 2-6). -/
  | vcmp (c vd va vb : Nat)
  /-- VSEL: Lane-wise select (Table 2-6). -/
  | vsel (c vd va vb vc : Nat)
  /-- VAND: Bitwise AND (Table 2-6). -/
  | vand (c vd va vb : Nat)
  /-- VOR: Bitwise OR (Table 2-6). -/
  | vor (c vd va vb : Nat)
  /-- VPERM: Lane permutation (Table 2-6). -/
  | vperm (c vd va vb : Nat)
  /-- VBCAST: Broadcast of one lane (Table 2-6). -/
  | vbcast (c vd va lane : Nat)
  /-- VRED_SUM: Sum of 16 lanes in every lane (Table 2-6). -/
  | vredSum (c vd va : Nat)
  /-- VRED_MAX: Maximum of 16 lanes in every lane (Table 2-6). -/
  | vredMax (c vd va : Nat)
  /-- VCVT: Conversion to or from a narrow format (R78). -/
  | vcvt (c : Nat) (o : CvtOp)
  /-- VLSE: Log-sum-exp merge (Table 2-6). -/
  | vlse (c vd va vb : Nat)
  /-- EXP: e^x (R49). -/
  | exp (c vd va : Nat)
  /-- LOG: ln x (R49). -/
  | log (c vd va : Nat)
  /-- RCP: 1/x (R49). -/
  | rcp (c vd va : Nat)
  /-- RSQRT: 1/sqrt x (R49). -/
  | rsqrt (c vd va : Nat)
  /-- SQRT: sqrt x (R49). -/
  | sqrt (c vd va : Nat)
  /-- SIGM: Logistic sigmoid (R49). -/
  | sigm (c vd va : Nat)
  /-- TANH: Hyperbolic tangent (R49). -/
  | tanh (c vd va : Nat)
  /-- SILU: x times sigmoid x (R49). -/
  | silu (c vd va : Nat)
  /-- GELU: GELU by the tanh approximation (R49). -/
  | gelu (c vd va : Nat)
  /-- ROT: Rotate 8 pairs by a position (R50). -/
  | rot (c vd va rs base : Nat) (split : Bool)
  /-- LDA: Activation word to a v register half or an x register (Table 2-9). -/
  | lda (c addr : Nat) (toX : Bool) (r h : Nat)
  /-- STA: v register half to an activation word (Table 2-9). -/
  | sta (c v h addr : Nat)
  /-- STG: v register half to a word of a staging slot (R59). -/
  | stg (c v h idx : Nat)
  /-- LDP: Partial-sum word to a v register (Table 2-9). -/
  | ldp (c vd addr : Nat)
  /-- STP: v register to a partial-sum word (Table 2-9). -/
  | stp (c v addr : Nat)
  /-- LDW: Weight word to a v register (Table 2-9). -/
  | ldw (c vd addr : Nat)
  /-- SEND: 256 bits onto a mesh link (R33, Table 2-9). -/
  | send (c route v h : Nat)
  /-- RECV: Inbound latch (src 0) or a boundary FIFO (side 1-4) to a v register half (R110, R462). -/
  | recv (c vd h src : Nat)
  /-- MOVS: Scalar to or from a vector lane (Table 2-9). -/
  | movs (c r v lane : Nat) (toScalar : Bool)
  /-- LINK_NO_FREE: A link direction has carried 16 consecutive assigned cycles (R34). -/
  | linkNoFree (c dir : Nat)
  /-- BANK_NO_FREE: A bank, or port G of a memory, has carried 64 consecutive scheduled cycles (R57). -/
  | bankNoFree (c mem bank : Nat) (port : Bool)
  /-- BEAT_COMPLETE: A pane has run the cycles of its beat (R107, R109). -/
  | beatComplete (p : Nat)
  /-- BEAT_BEGIN: A pane begins its next beat, or a pause beat (R108, R118). -/
  | beatBegin (p : Nat)
  /-- PAUSE_BEAT_END: A pause beat ends and the next slot is tested (R118). -/
  | pauseBeatEnd (p : Nat)
  /-- AWAIT_RESUME: A pane resumes from an await stall (R112). -/
  | awaitResume (p : Nat)
  /-- OUTBOUND_RESUME: A pane resumes from an outbound stall (R115). -/
  | outboundResume (p : Nat)
  /-- OUTBOUND_PORT_DRAIN: The through-way takes an entry from an outbound message port (R115). -/
  | outboundPortDrain (p : Nat) (last : Bool) (vc dest addr : Nat) (m : PortMsg)
  /-- HOLD_TIMEOUT: A shutter hold reaches the region's watchdog limit (R119). -/
  | holdTimeout (r : Nat)
  /-- ITEM_DELIVERY: A waiting delivery meets its cell and step (R113). -/
  | itemDelivery (r k : Nat)
  /-- BACKGROUND_ACCESS_GRANT: The head of a memory's background queue is granted (R56). -/
  | backgroundAccessGrant (c mem : Nat)
  /-- VERDICT_WORD: A verdict word reaches a consumer cell (R101). -/
  | verdictWord (c : Nat) (w : VerdictIn)
  /-- WLOAD: Start a generation's load (R236, R238). -/
  | wload (g : Nat)
  /-- MANIFEST_VERIFIED: The Keeper's verdict on a manifest (R236). -/
  | manifestVerified (id : Nat) (bytes : List Byte) (ok : Bool)
  /-- SHARD_ARRIVED: The read of a shard ends (R239, R240). -/
  | shardArrived (id k : Nat) (bytes : List Byte)
  /-- SHARD_TIMEOUT: A shard made no progress (R243). -/
  | shardTimeout (id k : Nat)
  /-- SWING: Change a region's current generation (R247). -/
  | swing (g : Nat)
  /-- RETIRE: Forget a generation (R251). -/
  | retire (g : Nat)
  /-- JOIN: Chain message: the downstream module asks for its shards (R240). -/
  | join (m : Msg)
  /-- SHARD: Chain message: octets of a shard (R240). -/
  | shard (m : Msg)
  /-- HOLD: Chain message: the upstream module still holds the chain (R244). -/
  | hold (m : Msg)
  /-- CHAIN_HOLD_TIMER: A HOLD falls due (R244). -/
  | chainHoldTimer (id : Nat)
  /-- CHAIN_ABORT: Chain message: the load ends (R244). -/
  | chainAbort (m : Msg)
  /-- MANIFEST: Chain message: a read of the manifest (R254). -/
  | manifest (m : Msg)
  /-- MANIFEST_READ_TIMEOUT: A held manifest read is answered with an error (R254). -/
  | manifestReadTimeout (id k : Nat)
  /-- SHARD_ACK: Chain message: the downstream module has a shard (R240). -/
  | shardAck (m : Msg)
  /-- CHAIN_JOIN_TIMEOUT: No JOIN came (R244). -/
  | chainJoinTimeout (id : Nat)
  /-- LOAD: Load a Glazing image into a region (R137). -/
  | load (g : Nat) (hdr : List Byte)
  /-- IMAGE_COPY_COMPLETE: The image is copied and measured (R137). -/
  | imageCopyComplete (r : Nat) (bytes : List Byte)
  /-- SIGNATURE_VERIFIED: The Keeper's verdict on an image (R131, R137). -/
  | signatureVerified (r : Nat) (ok : Bool)
  /-- LOAD_ADMISSION_TIMEOUT: The panes of a load were not admitted in 100 ms (R138). -/
  | loadAdmissionTimeout (r : Nat)
  /-- CELL_WRITES_COMPLETE: Scrub and writes of a load end (R137). -/
  | cellWritesComplete (r : Nat)
  /-- RELEASE: Release a region (R142). -/
  | release (g : Nat)
  /-- SCRUB_COMPLETE: The scrub of a release ends (R141). -/
  | scrubComplete (r : Nat)
  /-- GUEST_CREATE: Create a guest (R143). -/
  | guestCreate (g : Nat)
  /-- GUEST_LIMITS: Change a guest's allowances (R144). -/
  | guestLimits (g : Nat)
  /-- GUEST_DELETE: Delete a guest (R146). -/
  | guestDelete (g : Nat)
  /-- GUEST_DELETE_COMPLETE: The deletion of a guest ends (R146). -/
  | guestDeleteComplete (n : Nat)
  /-- STEP: A STEP entry starts (R159, R167). -/
  | step (g : Nat)
  /-- PREFILL: A PREFILL entry starts (R170, R171). -/
  | prefill (g : Nat)
  /-- SEQ_OPEN: Open a slot (R165). -/
  | seqOpen (g : Nat)
  /-- SEQ_CLOSE: Close a slot (R176). -/
  | seqClose (g : Nat)
  /-- SEQ_CLOSE_TAKES_EFFECT: A close that waited takes effect (R176). -/
  | seqCloseTakesEffect (r n : Nat)
  /-- CANCEL: Cancel a slot (R177). -/
  | cancel (g : Nat)
  /-- CANCEL_ALL: Cancel every slot of a region (R178). -/
  | cancelAll (g : Nat)
  /-- PARK: Park a sequence (R204). -/
  | park (g : Nat)
  /-- PARK_TAKES_EFFECT: A park that waited takes effect (R204). -/
  | parkTakesEffect (r n : Nat)
  /-- RESUME: Resume a parked sequence (R206). -/
  | resume (g : Nat)
  /-- FORK: Fork a sequence (R197). -/
  | fork (g : Nat)
  /-- FORK_TAKES_EFFECT: A fork that waited takes effect (R197). -/
  | forkTakesEffect (r n : Nat)
  /-- TRIM: Trim a sequence (R198). -/
  | trim (g : Nat)
  /-- TRIM_TAKES_EFFECT: A trim that waited takes effect (R198). -/
  | trimTakesEffect (r n : Nat)
  /-- STEP_ADMISSION: The next step of a region is admitted (R167); cells and items of the wave table and mask item, octets of a prompt chunk. -/
  | stepAdmission (r : Nat) (waveAt maskAt : List (Nat × Nat)) (prompt : List Byte)
  /-- STEP_START: The admitted step begins (R111). -/
  | stepStart (r : Nat)
  /-- SHARD_CANDIDATES: A shard's candidates reach Campion (R220). -/
  | shardCandidates (r : Nat) (bytes : List Byte)
  /-- CAMPION_RESULT: A lane returns the token of a position (R222). -/
  | campionResult (r q : Nat)
  /-- STEP_COMMIT: The step in flight commits (R172, R173). -/
  | stepCommit (r : Nat)
  /-- SCATTER_COMPLETE: The oldest scatter of a region ends (R195). -/
  | scatterComplete (r : Nat)
  /-- PROMOTION_COMPLETE: The promotions of a KV layer end (R193). -/
  | promotionComplete (r k : Nat)
  /-- EPOCH_PASSED: A page descriptor is reclaimed (R199). -/
  | epochPassed (d : Nat)
  /-- PARK_EXPIRY: A park record expires (R205). -/
  | parkExpiry (k : Nat)
  /-- DRAFT_RECORD: A draft record arrives (R225). -/
  | draftRecord (m : Msg)
  /-- VERIFY_RECORD: A verify record arrives (R229). -/
  | verifyRecord (m : Msg)
  /-- DEAD_CELL_DETECT: A cell dies (R27, R432). -/
  | deadCellDetect (c : Nat)
  /-- ROW_SHIFT_COPY_COMPLETE: The first row-shift of a region ends (R28, R31). -/
  | rowShiftCopyComplete (r : Nat)
  /-- MEM_DATA_READ: A MEM_DATA read of a cell window (R63); rtag is the request's tag. -/
  | memDataRead (src c rtag : Nat)
  /-- MEM_DATA_WRITE: A MEM_DATA write of a cell window (R63). -/
  | memDataWrite (src c : Nat) (w : BitVec 64)
  /-- CLEAR_BANK_COUNTERS: CELL_CONTROL clears the bank counters (R61). -/
  | clearBankCounters (src c : Nat)
  /-- CLEAR_FAULT_LATCH: CELL_CONTROL clears FAULT_LATCH (Table 2-14). -/
  | clearFaultLatch (src c : Nat)
  /-- COMMAND_LIST_INTAKE: A command list arrives at an intake (R148). -/
  | commandListIntake (m : Msg)
  /-- NOP: A NOP entry, or one whose opcode its engine does not list (R151). -/
  | nop (g e : Nat)
  /-- WAIT: A WAIT entry starts (R155). -/
  | wait (g e : Nat)
  /-- WAIT_TIMEOUT: The limit of a WAIT passes (R155). -/
  | waitTimeout (g e seq idx : Nat)
  /-- AUTH: An AUTH entry starts (R156). -/
  | auth (g e : Nat)
  /-- COMPLETION_RECORD_TIMEOUT: The k-th waiting message is a record its sink does not take (R162). -/
  | completionRecordTimeout (k : Nat)
  /-- MASK_SOURCE_LOAD: A write of AUT_CMD of guest g with OP 0b01 (R218). -/
  | maskSourceLoad (src g val : Nat)
  /-- MASK_SOURCE_LOAD_COMPLETE: The fetch of a mask source ends, with its octets or without (R218). -/
  | maskSourceLoadComplete (n : Nat) (got : Option (List Byte))
  /-- MASK_SOURCE_FREE: A write of AUT_CMD of guest g with OP 0b10 (R218). -/
  | maskSourceFree (src g val : Nat)
  /-- SAMPLING_ENTRY_COMMIT: The word at +0 of a sampling entry is written (R221). -/
  | samplingEntryCommit (src g e : Nat) (w : BitVec 64)
  /-- HBM_READ: A burst is read for a use: clean 0, corrected 1, uncorrectable 2 (R259, R260). -/
  | hbmRead (a src master outcome : Nat) (use : BurstUse)
  /-- HBM_WRITE: A burst is written (R265). -/
  | hbmWrite (a src master : Nat) (data : List Byte)
  /-- UE_RETRY: A held burst is read again (R260). -/
  | ueRetry (n k outcome : Nat)
  /-- HBM_UNIT_ZERO: A freed unit is zeroed (R258). -/
  | hbmUnitZero (u : Nat)
  /-- PATROL_SCRUB: A controller reads its next unit (R259). -/
  | patrolScrub (n corrected : Nat) (bad : Option Nat)
  /-- CLOSE: PWR_CMD closes a channel or bank (R264). -/
  | close (src n val : Nat)
  /-- OPEN: PWR_CMD opens a channel or bank (R266). -/
  | hbmOpen (src n val : Nat)
  /-- CLOSING_COMPLETE: A CLOSING target is empty (R264). -/
  | closingComplete (n c : Nat) (bank : Option Nat)
  /-- OPENING_COMPLETE: Self-refresh exit ends (R263). -/
  | openingComplete (n c : Nat) (bank : Option Nat)
  /-- BW_CTL_WRITE: BW_CTL of port or HBM controller n is written (R421). -/
  | bwCtlWrite (src : Nat) (port : Bool) (n val : Nat)
  /-- BW_WINDOW_END: A bandwidth window of port or HBM controller n ends (R421). -/
  | bwWindowEnd (port : Bool) (n : Nat)
  /-- PEER_SIGNAL_DETECT: A DOWN port detects peer signal (R270). -/
  | peerSignalDetect (p : Nat)
  /-- TRAINING_COMPLETE: Training and alignment end, with the lanes' lock, polarity and SNR (R271). -/
  | trainingComplete (p lock pol : Nat) (snr : List Nat)
  /-- TRAIN_FAIL: Lanes not trained within 500 ms (R290). -/
  | trainFail (p lock : Nat)
  /-- LANE_LOSS: An ACTIVE port loses a lane (R269). -/
  | laneLoss (p lane : Nat)
  /-- RETRAIN_COMPLETE: A retrain ends, with the lanes that lock (R271). -/
  | retrainComplete (p lock : Nat)
  /-- RETRAIN_TIMEOUT: A retrain is not complete within 2 ms (R270). -/
  | retrainTimeout (p : Nat)
  /-- PORT_ENABLE: A write of PORT_CONTROL that changes ENABLE (R270). -/
  | portEnable (src p val : Nat)
  /-- RETRAIN: A write of PORT_CONTROL with RETRAIN (R269). -/
  | retrain (src p val : Nat)
  /-- FULLWIDTH: A write of PORT_CONTROL with FULLWIDTH (R269). -/
  | fullwidth (src p val : Nat)
  /-- REKEY: A write of PORT_CONTROL with REKEY (R284). -/
  | rekey (src p val : Nat)
  /-- REKEY_DUE: A key has served 2^31 runs or 1 h (R284). -/
  | rekeyDue (p : Nat)
  /-- RUN_LIMIT_EXHAUSTED: A key has served 2^32 runs (R284). -/
  | runLimitExhausted (p : Nat)
  /-- SECURING_TIMEOUT: 25 ms of SECURING without a completed exchange (R284). -/
  | securingTimeout (p : Nat)
  /-- FLIT_TRANSMIT: One flit slot of a port (R276). -/
  | flitTransmit (p : Nat)
  /-- DATA_FLIT_RECEIVE: A sequenced flit, or a bad flit, arrives (R280). -/
  | dataFlitReceive (p : Nat) (f : RxFlit)
  /-- IDLE: An IDLE flit arrives (R277). -/
  | idle (p : Nat) (f : RxFlit)
  /-- SEAL: A SEAL arrives (R282). -/
  | seal (p : Nat) (f : RxFlit)
  /-- RETRY_REQ: A RETRY_REQ arrives (R280). -/
  | retryReq (p : Nat) (f : RxFlit)
  /-- RETRY_REQ_REPEAT: 64 flit slots without a REPLAY (R280). -/
  | retryReqRepeat (p : Nat)
  /-- REPLAY: A REPLAY arrives (R280). -/
  | replay (p : Nat) (f : RxFlit)
  /-- CREDIT_STALL: The k-th message of a channel of an output port has waited 2 ms (R278). -/
  | creditStall (p vc k : Nat)
  /-- QUICK_READ: A quick read arrives (R285). -/
  | quickRead (p : Nat) (f : RxFlit)
  /-- REGION_ARRIVAL: A message addressed to an item of a region arrives (R274). -/
  | regionArrival (m : Arrival)
  /-- ERROR_COMPLETION: An error completion reaches this module; load is the weight load whose manifest read it answers (R275). -/
  | errorCompletion (m : Msg) (load : Option Nat)
  /-- KNOCK: A knock arrives (R294). -/
  | knock (p : Nat) (m : Msg)
  /-- ANSWER: An answer arrives (R295). -/
  | answer (p : Nat) (m : Msg)
  /-- KNOCK_RETRY: A knock is due again (R295). -/
  | knockRetry (p : Nat)
  /-- FABRIC_ADDR_WRITE: FABRIC_ADDR is written (R293). -/
  | fabricAddrWrite (src val : Nat)
  /-- BRIDGE_WRITE: BRIDGE is written (R303). -/
  | bridgeWrite (src val : Nat)
  /-- BRIDGE_BEAT_TIMER: The active bridge's beat is due (R303). -/
  | bridgeBeatTimer
  /-- BRIDGE_BEAT: A BRIDGE_BEAT arrives (R304). -/
  | bridgeBeat (m : Msg)
  /-- BRIDGE_TAKEOVER: 3 ms without a BRIDGE_BEAT (R304). -/
  | bridgeTakeover
  /-- BRIDGE_ANNOUNCE: A BRIDGE_ANNOUNCE arrives (R304). -/
  | bridgeAnnounce (m : Msg)
  /-- MULTICAST_RECEIVE: A multicast message from a port, or from this module (R306). -/
  | multicastReceive (inp : Option Nat) (m : Msg)
  /-- MC_ACK: An MC_ACK arrives from a branch (R308). -/
  | mcAck (p : Nat) (m : Msg)
  /-- ARRIVE: A barrier ARRIVE arrives (R310). -/
  | arrive (p : Nat) (m : Msg)
  /-- RELEASE_BARRIER: A barrier RELEASE arrives (R310). -/
  | releaseBarrier (p : Nat) (m : Msg)
  /-- BAR_ARRIVE: BAR_ARRIVE is written (R310). -/
  | barArrive (src val : Nat)
  /-- BARRIER_TIMEOUT: TIMEOUT of a barrier tree passes (R311). -/
  | barrierTimeout (t : Nat)
  /-- HELLO: The Keeper's verdicts on a peer's HELLO (R391). -/
  | hello (p : Nat) (certOk credOk : Bool)
  /-- ENCAP: A peer's ENCAP is decapsulated (R392). -/
  | encap (p : Nat)
  /-- FINISH: A peer's FINISH is checked; engineOk is the cipher engine's test (R392). -/
  | finish (p : Nat) (engineOk : Bool)
  /-- LINK_ABORT: A peer's ABORT arrives (R392). -/
  | linkAbort (p : Nat)
  /-- LINK_AUTH_RETRY: A failed exchange begins again after 1 s (R392). -/
  | linkAuthRetry (p : Nat)
  /-- FAULT_FORWARD: The module's fault message of a 1 ms window (R313). -/
  | faultForward
  /-- FAULT_MESSAGE_RETRY: The k-th unacknowledged fault message is 10 ms old (R313). -/
  | faultMessageRetry (k : Nat)
  /-- FAULT_MESSAGE: A fault message reaches the bridge (R314). -/
  | faultMessage (m : Msg)
  /-- FAULT_ACK: The bridge's acknowledgement arrives (R435). -/
  | faultAck (m : Msg)
  /-- FAULT_SINK_WRITE: The bridge writes its next sink entry (R314). -/
  | faultSinkWrite
  /-- FAULT_REPORT: The Lintel takes the k-th waiting report (R434). -/
  | faultReport (k : Nat)
  /-- FAULT_ENTRY_SETTLE: The LAST_TIME of entry k becomes 1 ms old (R435). -/
  | faultEntrySettle (k : Nat)
  /-- ALERT_CAUSE_CLEAR: ALERT_CAUSE is written (R437). -/
  | alertCauseClear (src val : Nat)
  /-- IBI_ACK: The tray acknowledges an In-Band Interrupt (R438). -/
  | ibiAck
  /-- SHELF_STATUS_RETRY: A shelf status write was not acknowledged (R439). -/
  | shelfStatusRetry
  /-- FT_META_READ: FT_META is read; rtag is the request's tag (R436). -/
  | ftMetaRead (src rtag : Nat)
  /-- INPUT_LOW: Busbar voltage vin, in 0.1 V, has been below 46 V for 1 ms (R316). -/
  | inputLow (vin : Nat)
  /-- INPUT_LOW_RELEASE: Busbar voltage at or above 47 V for 100 ms after INPUT_LOW (R316). -/
  | inputLowRelease (vin : Nat)
  /-- INPUT_LOW_SHUTDOWN: Busbar voltage below 46 V for 5 s, or below 42 V (R351). -/
  | inputLowShutdown (vin : Nat)
  /-- INPUT_HIGH: Busbar voltage above 60 V for 1 ms, or above 63 V (R316). -/
  | inputHigh (vin : Nat)
  /-- CONVERTER_FAIL: Converter c of segment k is lost (R316). -/
  | converterFail (k c : Nat)
  /-- BOOST: A droop of 25 mV fires the boost of pane p (R319). -/
  | boost (p vmin : Nat)
  /-- CLOCK_STRETCH: A droop of 50 mV halves the clock of pane p, and its end restores it (R319). -/
  | clockStretch (p vmin : Nat)
  /-- SHUNT: An overshoot of 25 mV engages the shunt of pane p (R319). -/
  | shunt (p vmax : Nat)
  /-- DROOP: A droop of pane p has lasted over 1 µs (R319). -/
  | droop (p vmin : Nat)
  /-- LOAD_STEP_RAISE: A mark's lead is reached in pane p (R320). -/
  | loadStepRaise (p : Nat)
  /-- LOAD_STEP_RAISE_END: A raise of pane p ends, or lapses in a long stop (R320). -/
  | loadStepRaiseEnd (p : Nat)
  /-- PHASE_FAIL: Phase ph of pane p fails, for cause why of Table 15-13 (R323). -/
  | phaseFail (p ph why : Nat)
  /-- ADMISSION_TEST: The first admission test of region r's request (R328). -/
  | admissionTest (r : Nat)
  /-- ADMISSION_RETEST: A later test of it (R330). -/
  | admissionRetest (r : Nat)
  /-- RAMP_STEP: The next step of region r's ramp (R329). -/
  | rampStep (r : Nat)
  /-- SEGMENT_OVER: Segment k has been above its rating for 1 ms (R331). -/
  | segmentOver (k : Nat)
  /-- POWER_FAST_SAMPLE: The nine segment currents, in A, and the bus voltage, in mV, are sampled (R328, R368). -/
  | powerFastSample (amps : List Nat) (bus : Nat)
  /-- POWER_STATE_LOWER: The Lintel chooses and enters a lower power state for region r (R333). -/
  | powerStateLower (r : Nat)
  /-- IDLE_ESCALATION: IDLE_SHUT or IDLE_SEAL of region r has passed (R333). -/
  | idleEscalation (r : Nat)
  /-- PLANNED_WAKE: The planned wake of region r is due (R333). -/
  | plannedWake (r : Nat)
  /-- POWER_STATE_ENTRY_COMPLETE: Region r has entered its lower state (R334). -/
  | powerStateEntryComplete (r : Nat)
  /-- WAKE_COMPLETE: The wake of region r ends (R332). -/
  | wakeComplete (r : Nat)
  /-- SEALED_WAKE_REWRITE: The rewrite after a Sealed wake of region r ends (R335). -/
  | sealedWakeRewrite (r : Nat)
  /-- FORCE_BOARDED: A write of FORCE = Boarded in REGION_PWR of region r (R336). -/
  | forceBoarded (src r : Nat)
  /-- FORCE_AUTO: A write of FORCE = auto (R336). -/
  | forceAuto (src r : Nat)
  /-- FORCE_OPEN: A write of FORCE = open (R336). -/
  | forceOpen (src r : Nat)
  /-- AUTH_GO: AUTH_GO is written (R339). -/
  | authGo (src val : Nat)
  /-- AUTH_GO_RESULT: The Keeper's check of the limit change ends (R339). -/
  | authGoResult
  /-- LINTEL_ROUND: One 10 ms supervision round with the readings taken in it (R339) -/
  | lintelRound (rd : Readings)
  /-- RATE_SAMPLE: A 1 ms sample: each sill and its two pane sensors' readings in hundredths (R344) -/
  | rateSample (sens : List (Nat × Int × Int))
  /-- TRAY_REPORT: The host writes the tray report's octets (R341) -/
  | trayReport (b : List Byte)
  /-- REPORT_LOST: More than 30 s since the last tray report (R341) -/
  | reportLost
  /-- COOLANT_STOP_TIMEOUT: A declared coolant stop has run for 30 s (R343) -/
  | coolantStopTimeout
  /-- PROFILE: The next unstarted PROFILE entry of that guest's queue (R365) -/
  | profile (g : Nat)
  /-- PANE_CLOCK_SWITCH: One pane of a region that changes profile switches its clock (R367) -/
  | paneClockSwitch (p vmin : Nat)
  /-- GRANT_RENEWAL: The Lintel asks the shelf for its grant, with the answer, if any (R369) -/
  | grantRenewal (ans : Option (Nat × Nat × Nat))
  /-- SMBALERT: SMBALERT asserted; the grant read again, with the answer, if any (R370) -/
  | smbalert (ans : Option (Nat × Nat × Nat))
  /-- GRANT_LEASE_EXPIRY: The grant's lease runs out (R369) -/
  | grantLeaseExpiry
  /-- SPRINT_MS_EXPIRY: That region's Sprint time is spent (R375) -/
  | sprintMsExpiry (r : Nat)
  /-- CRED_GET: The Keeper serves that window's CRED_GET request (R391) -/
  | credGet (g : Nat)
  /-- ATTEST: The Keeper begins that window's ATTEST request (R394) -/
  | attest (g : Nat)
  /-- OWNER_CLAIM: The Keeper serves that window's OWNER_CLAIM request (R390) -/
  | ownerClaim (g : Nat)
  /-- KEY_INSTALL: The Keeper serves that window's KEY_INSTALL request (R390) -/
  | keyInstall (g : Nat)
  /-- KEY_ENROLL: The Keeper serves that window's KEY_ENROLL request (R390) -/
  | keyEnroll (g : Nat)
  /-- KEY_REVOKE: The Keeper serves that window's KEY_REVOKE request (R390) -/
  | keyRevoke (g : Nat)
  /-- TAP_UNLOCK: The Keeper serves that window's TAP_UNLOCK request (R397) -/
  | tapUnlock (g : Nat)
  /-- TAP_LOCK: The Keeper serves that window's TAP_LOCK request (R397) -/
  | tapLock (g : Nat)
  /-- TAP_RELOCK: The seconds of an unlocked TAP are over (R397) -/
  | tapRelock
  /-- APPROVED_ENTER: The Keeper serves that window's APPROVED_ENTER request (R385) -/
  | approvedEnter (g : Nat)
  /-- APPROVED_LEAVE: The Keeper serves that window's APPROVED_LEAVE request (R386) -/
  | approvedLeave (g : Nat)
  /-- ZEROISE: The Keeper begins that window's ZEROISE request (R395) -/
  | zeroise (g : Nat)
  /-- DECOMMISSION: The Keeper begins that window's DECOMMISSION request (R395) -/
  | decommission (g : Nat)
  /-- FW_ACTIVATE: The Keeper begins that window's FW_ACTIVATE request (R409) -/
  | fwActivate (g : Nat)
  /-- RESERVATION_WRITE_COMPLETE: A background write of that key's P ends (R389) -/
  | reservationWriteComplete (g : Nat)
  /-- CONDITIONAL_TEST_FAIL: A conditional test of Table 18-3 fails (R381) -/
  | conditionalTestFail (n sub : Nat)
  /-- DRBG_RESEED: The generator reseeds (R383) -/
  | drbgReseed
  /-- TAMPER: A cover switch opens (R396) -/
  | tamper (sw : Nat)
  /-- KEEPER_RESTART: The rerun of the power-on tests ends: the failed test, 0 none (R381) -/
  | keeperRestart (fail : Nat)
  /-- MB_STATUS_DONE: A long mailbox request ends, with what its fetch brought (R387) -/
  | mbStatusDone (bundle : Option (List Byte)) (sigOk : Bool)
  /-- POWER_ON: Busbar power in range, in 0.1 V, after it was away (R399) -/
  | powerOn (vin : Nat)
  /-- RESET_N: RESET_N has been held low, or rises (R401) -/
  | resetN (low : Bool)
  /-- MODULE_RESET: A write of MODULE_RESET (R401) -/
  | moduleReset (src val : Nat)
  /-- LINTEL_WATCHDOG: The Lintel watchdog expires (R405) -/
  | lintelWatchdog
  /-- BOOT_STAGE_COMPLETE: The present boot stage ends (R402) -/
  | bootStageComplete (f : BootFinds)
  /-- FW_ATTEMPT: One second after both copies failed in an attempt (R411) -/
  | fwAttempt
  /-- REGISTER_WRITE: A management write of a register, of len octets (R12, R424) -/
  | registerWrite (src addr len val : Nat)
  /-- PMC_FREEZE: A write of FREEZE in PMC_CTL of cell c (Table 20-2) -/
  | pmcFreeze (src c : Nat) (freeze : Bool)
  /-- PMC_CLEAR: A write of CLEAR = 1 in PMC_CTL of cell c, with the FREEZE it carries (Table 20-2) -/
  | pmcClear (src c : Nat) (freeze : Bool)
  /-- QUICK_WORD_REFRESH: Sill n refreshes its shadow of the quick words (R287) -/
  | quickWordRefresh (n : Nat)
  /-- MESSAGE_ROUTE: The oldest unrouted message of a channel, of an input port or of this module, is routed (R298) -/
  | messageRoute (inp : Option Nat) (vc : Nat)
  /-- DIRECTED_MESSAGE: A directed message is here from port p (R297) -/
  | directedMessage (p : Nat) (m : Msg)
  /-- BUSBAR_IMBALANCE: One busbar pair has carried more than 65 % for 100 ms (R441) -/
  | busbarImbalance
  /-- CABLE_PRESENCE: CAB_PRES_N of port p changes (R443) -/
  | cablePresence (p : Nat) (present : Bool)
  /-- CABLE_POWER: CAB_3V3 of connector c has been above 3.5 A for 1 ms (R444) -/
  | cablePower (c : Nat)
  /-- ENTDAA: The module wins a round of ENTDAA and is given an address (R448) -/
  | entdaa (addr : Nat)
  /-- SETDASA: SETDASA to a static address (R448) -/
  | setdasa (static addr : Nat)
  /-- RSTDAA: RSTDAA (R448) -/
  | rstdaa
  /-- ENEC: ENEC, broadcast or to an address (R448) -/
  | enec (addr : Option Nat) (events : Nat)
  /-- DISEC: DISEC, broadcast or to an address (R448) -/
  | disec (addr : Option Nat) (events : Nat)
  /-- GETPID: GETPID to an address (R448) -/
  | getpid (addr : Nat)
  /-- GETBCR: GETBCR to an address (R448) -/
  | getbcr (addr : Nat)
  /-- GETDCR: GETDCR to an address (R448) -/
  | getdcr (addr : Nat)
  /-- GETSTATUS: GETSTATUS to an address (R448) -/
  | getstatus (addr : Nat)
  /-- TRST_N: TRST_N changes (R446) -/
  | trstN (low : Bool)
  /-- BYPASS: The TAP loads BYPASS (R452) -/
  | bypass
  /-- IDCODE: The TAP loads IDCODE (R453) -/
  | idcode
  /-- SAMPLE_PRELOAD: The TAP loads SAMPLE/PRELOAD and scans once (R452) -/
  | samplePreload (sample shift : Nat)
  /-- EXTEST: The TAP loads EXTEST and scans once (R454) -/
  | extest (sample shift : Nat)
  /-- EXTEST_PULSE: The TAP loads EXTEST_PULSE and scans once (R454) -/
  | extestPulse (sample shift : Nat)
  /-- EXTEST_TRAIN: The TAP loads EXTEST_TRAIN and scans once (R454) -/
  | extestTrain (sample shift : Nat)
  /-- CLAMP: The TAP loads CLAMP (R454) -/
  | clamp
  /-- HIGHZ: The TAP loads HIGHZ (R454) -/
  | highz
  /-- DBG_MGMT: The TAP makes a management access (R452) -/
  | dbgMgmt (addr : Nat) (write : Bool) (data : Nat)
  /-- DBG_LINTEL_HALT: The TAP loads DBG_LINTEL_HALT (R452) -/
  | dbgLintelHalt
  /-- DBG_TRACE: The TAP loads DBG_TRACE (R452) -/
  | dbgTrace
  deriving DecidableEq, Repr

end Sys2Proof
end

