-- ==== Sys2Proof/Machine/State.lean ====
section
/-! DEFINITION. The state of the module, as plain data, and its state at reset (INVENTORY.md, State). -/

namespace Sys2Proof.Machine

/-- Why a step stops with a fault: for no reason. Every command has an effect on every state, if only the answer that no such part
exists (log 44); the spec names no error that stops the module. -/
inductive Fault where
  deriving DecidableEq, Repr

/-- Why a step is refused. -/
inductive Refusal where
  /-- A command whose meaning is not written. Raised by Dispatch only. Safe: the model stops. -/
  | notModelled (mnemonic : String)
  deriving DecidableEq, Repr

/-! ### Fault records and messages -/

/-- A fault record (Table 5-8). DETAIL as two 64-bit halves. -/
structure FaultRec where
  cls : Nat
  code : Nat
  region : Nat := 0
  guest : Nat := 0
  count : Nat := 1
  x : Nat := 0x3FF
  y : Nat := 0x1FF
  pane : Nat := 0x3FF
  iaddr : Nat := 0x3FF
  step : Nat := 0
  beat : Nat := 0
  cycle : Nat := 0
  detHi : Nat := 0
  detLo : Nat := 0
  first : Nat := 0
  last : Nat := 0
  deriving DecidableEq, Repr

/-- A report a unit holds until the Lintel takes it (R433): the unit and the record. -/
structure Report where
  unit : Nat
  fr : FaultRec
  deriving DecidableEq, Repr

/-- One entry of the fault table (R434). STATE 0 FREE, 1 OPEN, 2 SENT, 3 SETTLED. -/
structure FtEntry where
  state : Nat
  eseq : Nat
  acked : Bool := false      -- acknowledged, waiting for its 1 ms (R435)
  fr : FaultRec
  deriving DecidableEq, Repr
/-! ### Clocks, rails and sensors of a pane -/

/-- Clock of a pane (17 R360, 15 R319, 16 R356). -/
structure PaneClock where
  mhz : Nat := 2400
  stepMhz : Nat := 2400                  -- at the start of the step (R130)
  stretched : Bool := false
  oscTrim : Rat := 0
  refTrim : Rat := 0
  deriving DecidableEq, Repr

/-- Rail of a pane (PANE_PWR, Table 15-12; 15 R318-R326). -/
structure PanePower where
  failed : List Nat := []                -- failed phases
  cap : Nat := 0                         -- 0 none, 1 capped at Balanced, 2 dark
  base : Nat := 0                        -- setpoint the core rail goes to, mV, without a load-step raise; 0 off
  from_ : Nat := 0                       -- where its last ramp began, and when (R365)
  rampAt : Nat := 0
  vmin : Nat := 0                        -- lowest sensor, mV
  joint : Nat := 0                       -- sensors flagged (R321)
  jointRounds : SMap Nat := []           -- consecutive rounds of excess drop, by sensor
  boosts : Nat := 0
  stretch : Nat := 0
  shunts : Nat := 0
  boostAt : Option Nat := none           -- last boost
  raises : List Nat := []                -- load-step raises in force: the running cycle in which each ends (R320)
  raiseOff : Bool := false               -- a stop of more than 20 µs suspends them
  droopSent : Bool := false              -- DROOP was raised in this round (R319)
  deriving DecidableEq, Repr

/-- Sensors of a pane (16 Table 16-10). -/
structure PaneThermal where
  t0 : Int := 0
  t1 : Int := 0
  rate : Int := 0
  failed0 : Bool := false
  failed1 : Bool := false
  subst : Bool := false
  hist0 : List Int := []                 -- last samples of the sensors, newest first (R349)
  hist1 : List Int := []
  mismatch : Nat := 0                    -- rounds in which they differed by more than 15 °C (R342)
  deriving DecidableEq, Repr

/-! ### Counters and cells -/

/-- A 48-bit counter with its WRAP bit (Table 2-17). -/
structure Counter where
  count : Nat := 0
  wrap : Bool := false
  deriving DecidableEq, Repr

/-- Who asks: the owner, or a guest 1-63 (R425). -/
abbrev Requester := Nat

/-- One scheduled access of a cell (R55): the running cycle it occupies, memory, port, bank (Table 5-9 codes),
issuing slot, bundle index, byte offset, and whether it moves less than a bank's width. -/
structure Access where
  cycle : Nat
  mem : Nat
  port : Nat
  bank : Nat
  slot : Nat
  iaddr : Nat
  offset : Nat
  narrow : Bool
  deriving DecidableEq, Repr

/-- A pipeline's effect that lands at the end of a running cycle (R43). -/
inductive Act where
  | sReg (r : Nat) (v : R32)
  | vReg (r : Nat) (v : W512)
  | vHalf (r h : Nat) (v : W256)
  | vLane (r lane : Nat) (v : R32)
  | xReg (r : Nat) (v : W256)
  | latch (v : W512)
  | scales (l : List (Nat × Nat))
  | accClear (es : List Nat)
  | accAdd (e : Nat) (vals : List FpVal)
  | store (mem offset : Nat) (data : List Byte) (iaddr slot port : Nat)
  | flushRead (offset : Nat) (vals : List R32)
  | stgStore (slot index : Nat) (data : List Byte) (iaddr : Nat)
  | hop (route inSide src : Nat) (data : W256)   -- `src`: the cell that sent it
  deriving DecidableEq, Repr

/-- An effect due at the end of running cycle `due` of the cell's pane. -/
structure CellEv where
  due : Nat
  act : Act
  deriving DecidableEq, Repr

/-- An open run of the run adder (R89-R92): its entry and formats, the products held, its last issue, the
64 bins of the 8 lanes (key 64 × lane + bin), the exponent constant, special products and scale octets by lane. -/
structure RunRec where
  entry : Nat
  wf : Nat
  af : Nat
  products : Nat
  last : Nat
  bins : SMap Int
  cexp : Int
  special : List FpVal
  scales : List Nat
  deriving DecidableEq, Repr

/-- One hardware loop (R45): first bundle, end index, iterations left. -/
structure LoopRec where
  first : Nat
  last : Nat
  left : Nat
  deriving DecidableEq, Repr

/-- One KV staging slot (Tables 2-10, 2-19). STATE 0 FREE, 1 FILLING, 2 SEALED, 3 DRAINING. -/
structure Staging where
  state : Nat := 0
  step : Nat := 0
  size : Nat := 0
  base : Nat := 0
  deriving DecidableEq, Repr

/-- One route entry of a router (Table 6-6). -/
structure RouteEnt where
  inn : Nat
  out : Nat
  deriving DecidableEq, Repr

/-- What a background access is for (R55). -/
inductive BgFor where
  | window (src : Nat) (req : Requester) (rtag : Nat)
  | delivery (item tag : Nat) (lastWord : Bool)
  | fill (master guest : Nat)
  deriving DecidableEq, Repr

/-- One background access: memory, byte offset, octets to write (none: a read of 8 octets), purpose, and the
periods it has waited at its queue's head (R56, R61). -/
structure BgReq where
  mem : Nat
  offset : Nat
  data : Option (List Byte)
  purpose : BgFor
  waited : Nat := 0
  deriving DecidableEq, Repr

/-- A boundary FIFO's entry: the sender's beat number modulo 4 and 256 bits (R110). -/
structure FifoEnt where
  tag : Nat
  data : W256
  deriving DecidableEq, Repr

/-- A repeat slot of a cell in the step in flight (R101, R102): verdict words received, those with WIDEN = 1, and wider tiles that
are in. -/
structure RepeatState where
  words : Nat := 0
  widened : Nat := 0
  tiles : Nat := 0
  deriving DecidableEq, Repr

/-- Totals of the tile a site is converting (R99). -/
structure SiteTotals where
  blocks : Nat := 0
  sat : Nat := 0
  flush : Nat := 0
  blkSat : Bool := false
  blkFlush : Bool := false
  deriving DecidableEq, Repr

/-- FAULT_LATCH (Table 2-15). -/
structure FaultLatch where
  valid : Bool := false
  iaddr : Nat := 0
  code : Nat := 0
  beat : Nat := 0
  cycle : Nat := 0
  deriving DecidableEq, Repr

/-- One cell (Table 2-1 and 02, 04, 05, 06, 20), by logical coordinate. -/
structure Cell where
  sreg : SMap R32 := []
  vreg : SMap W512 := []
  xreg : SMap W256 := []
  acc : SMap R32 := []                      -- key 16 × lane + entry
  run : Option RunRec := none
  latch : W512 := 0
  scales : SMap Nat := []
  loops : List LoopRec := []                -- innermost first
  pc : Nat := 0
  branch : Option Nat := none               -- target after the delay bundle now being issued
  branchNext : Option (Option Nat) := none  -- a branch issued in this bundle, and its target when taken
  inDelay : Bool := false
  stepwait : Bool := false
  entryPc : Nat := 0
  sfuFree : Nat := 0                        -- first running cycle in which the special-function unit is free
  evs : List CellEv := []
  accs : List Access := []
  issued : List Nat := []                   -- slots used in the present running cycle (Table 2-2 order)
  faultCycle : Option Nat := none           -- running cycle whose writes a failed check suppressed (R123)
  faultCodes : List Nat := []               -- codes reported in that cycle: one record a code (R124)
  wmem : Mem := {}
  amem : Mem := {}
  pmem : Mem := {}
  imem : Mem := {}
  rotor : Mem := {}
  bg : List BgReq := []                     -- background accesses, oldest first
  bgMesh : List BgReq := []                 -- those the mesh still holds because their memory's queue is full (R56)
  granted : List Nat := []                   -- memories whose port G served a background access in this period
  grantAsk : List Nat := []                 -- memories to serve at the end of this running cycle where no scheduled access stands against it
  awaiting : Option Nat := none             -- item of an AWAIT of this cycle that found no delivery ready (R112)
  inLatch : W256 := 0
  fifo : SMap (List FifoEnt) := []          -- by side: 1 north, 2 east, 3 south, 4 west
  stg0 : Staging := {}
  stg1 : Staging := {}
  items : List Nat := []                    -- item declarations, 64-bit words (Table 6-7)
  closed : List Nat := []                   -- items whose guard range is closed (R113)
  ready : List (Nat × Nat) := []            -- deliveries ready: item and step tag
  taken : List Nat := []                    -- items taken in this step
  sites : List Nat := []                    -- site entries (Table 4-6)
  totals : SMap SiteTotals := []
  repeats : List Nat := []                  -- repeat slot entries (Table 6-8)
  repState : SMap RepeatState := []
  routes : SMap RouteEnt := []
  linkUse : List Nat := []                  -- link directions used in this cycle
  linkRun : SMap Nat := []                  -- consecutive assigned cycles by direction (R34)
  bankRun : SMap Nat := []                  -- consecutive scheduled cycles: 16 × memory + bank (R57)
  portRun : SMap Nat := []                  -- the same of port G, by memory
  latchReg : FaultLatch := {}
  bankSel : Nat := 0x4220                   -- BANKCNT_SEL (Table 2-16)
  bankCnt : SMap Counter := []              -- 4 × (memory − 1) + {ACCESS, NARROW, DEFER, MAXWAIT}
  memAddr : Nat := 0                        -- MEM_ADDR (Table 2-18)
  freeze : Bool := false                    -- PMC_CTL
  pmc : SMap Counter := []
  pmcSel : SMap Nat := []                   -- PMC_SEL; an unlisted one reads 0x7F << 42
  pmcRange : SMap Nat := []
  stale : Counter := {}
  dead : Bool := false
  deriving DecidableEq, Repr

/-- Why a pane's running cycles stand (R111, R116). -/
inductive RunCond where
  | stopped                                 -- between steps, or no step yet
  | running
  | complete                                -- beat complete, waiting (R108)
  | paused (left : Nat)                     -- a pause beat: periods left (R118)
  | awaitStall (waits : List (Nat × Nat))   -- cells and items (R112)
  | outStall                                -- outbound message port full (R115)
  | faultHold
  deriving DecidableEq, Repr

/-- One pane 0-785. -/
structure Pane where
  power : Nat := 4                          -- 0 Open … 4 Boarded (Table 2-13); R337 for a pane of no region
  region : Option Nat := none
  lastGuest : Option Nat := none            -- none: unknown (R141)
  phase : Nat := 0                          -- model's own: clock phase, 1/4000 periods at 250 ps
  cond : RunCond := .stopped
  runCycles : Nat := 0                      -- running cycles since cold boot (R416)
  ranAt : Nat := 0                          -- model's own: time of the last of them
  wrapsCleared : Nat := 0                   -- wraps of the count whose WRAP bit was cleared
  base : Nat := 0                           -- BASE (R416)
  guestCleared : Nat := 0                   -- wraps of the count from BASE whose WRAP bit was cleared
  beat : Nat := 0                           -- the beat last begun
  begun : Nat := 0                          -- model's own: beats begun since the load
  cyc : Nat := 0                            -- running cycles of the beat that have ended
  slotJ : Nat := 0                          -- slot counter (R118)
  kNow : Nat := 0                           -- pause level the pane applies (R118)
  resumeAt : Option Nat := none             -- module time at which a stall may end
  outPort : List W256 := []
  outWait : List (Nat × W256) := []         -- entries that found the port full, each with the cell that sent it (R115, R119)
  outMsg : List W256 := []                  -- entries drained of a message still being assembled
  clk : PaneClock := {}
  pwr : PanePower := {}
  therm : PaneThermal := {}
  deriving DecidableEq, Repr
/-! ### Regions, sequence slots and steps -/

/-- A step template (Table 6-10). -/
structure StepTpl where
  kind : Nat
  tpl : Nat
  beats : Nat
  waves : Nat
  waveSlots : Nat
  draft : Nat
  deriving DecidableEq, Repr

/-- A load-step mark (Table 6-11): region-local pane, template, cycle and rise. -/
structure Mark where
  pane : Nat
  tpl : Nat
  cyc : Nat
  delta : Nat
  deriving DecidableEq, Repr

/-- Names one entry of a queue: guest, engine, list sequence number, entry index. -/
structure EntryId where
  guest : Nat
  engine : Nat
  seq : Nat
  idx : Nat
  deriving DecidableEq, Repr

/-- One KV layer of an image (R187): its KIND 2 entry, and its frame count F. -/
structure KvLayer where
  layer : Nat
  fmt : Nat
  firstCell : Nat
  cells : Nat
  offset : Nat                           -- bytes
  units : Nat
  item : Nat
  frames : Nat
  deriving DecidableEq, Repr

/-- What an image declares, as its header and sections say it (06). -/
structure Image where
  bytes : List Byte := []                -- the retained copy (R138)
  measure : List Byte := []              -- SHA-256 measurement (R131)
  cls : Nat := 0                         -- timing class (R120)
  beatLen : Nat := 32
  rowshift : Bool := false
  bind : Nat := 0x7F
  slots : Nat := 1
  wlayout : List Byte := []
  tpls : List StepTpl := []
  marks : List Mark := []
  memmap : List Nat := []                -- MEMMAP entries, 128-bit (Table 6-9)
  kv : List KvLayer := []                -- KIND 2 entries, in MEMMAP order
  deriving DecidableEq, Repr

/-- One position of a step's wave table (Table 8-2): its slot, none for a null position, its position and token,
and its index among the slot's drafted positions. -/
structure StepPos where
  slot : Option Nat
  pos : Nat
  token : Nat
  draftIdx : Nat := 0
  deriving DecidableEq, Repr

/-- The step in flight (R167). -/
structure Flight where
  number : Nat
  tpl : StepTpl
  gen : Nat
  window : Nat := 0                      -- weight window of the generation (R235)
  entry : Option EntryId                 -- the STEP or PREFILL entry; none for a recompute step (R182)
  positions : List StepPos
  started : Bool := false
  firstBeat : Nat := 0
  params : SMap Nat := []                -- sampling entry of each position, as admitted; 0 none valid (R221)
  sampled : SMap Nat := []               -- Campion's result of a position (R222)
  cands : SMap (List (List Byte)) := []  -- candidate shards received, by position (R220)
  cancelled : List Nat := []             -- slots whose CANCEL wins over the commit (R177)
  nulls : List Nat := []                 -- slots whose positions run as null (R207)
  allNull : Bool := false                -- CANCEL with ALL (R178)
  lastChunk : Bool := false              -- last chunk of a PREFILL with FINAL = 1, or of a recompute
  prefill : Bool := false
  recompute : Option Nat := none         -- the WAITING slot being recomputed
  beatsOver : Bool := false              -- every pane completed the last beat with no fault hold (R172)
  lanes : SMap Nat := []                 -- Campion lane of each position (R212)
  resv : List (Nat × Nat × Nat × Nat) := []  -- reserved descriptors: slot, KV layer index, page, descriptor (R193)
  promos : List (Nat × Nat × Nat) := []  -- pages to promote: KV layer index, page, descriptor reserved with it (R193)
  kvReady : List Nat := []               -- KV layers whose frame list is written (R193)
  unfed : List (Nat × Nat) := []         -- streamed slices whose copy cannot be read: MEMMAP entry and index (R245)
  deriving DecidableEq, Repr

/-- A started STEP or PREFILL entry with steps left (R136). -/
structure RunEntry where
  id : EntryId
  prefill : Bool
  tpl : Nat
  left : Nat
  slot : Nat := 0
  srcFa : Nat := 0
  srcAddr : Nat := 0
  tokens : Nat := 0
  pos : Nat := 0
  done : Nat := 0                        -- tokens of the prompt already run
  final : Bool := false
  quiet : Nat := 0
  deferred : Bool := false
  lastStep : Nat := 0
  ran : Bool := false                    -- a step of it has ended (R159)
  held : Bool := false                   -- its slot waits for a recompute (R182)
  deriving DecidableEq, Repr

/-- Sequence slot states (Table 8-1), coded as SLOT_STATE of Table 21-5. -/
structure SeqSlot where
  state : Nat := 0                       -- 0 FREE 1 OPEN 2 READY 3 STEPPING 4 WAITING 5 ENDED
  guest : Nat := 0
  length : Nat := 0
  genPin : Nat := 0
  rngKey : Nat := 0
  sample : Nat := 0
  mask : Nat := 0x3FF
  maxtok : Nat := 0
  draft : Nat := 0
  depth : Nat := 0                       -- adaptive draft depth (R229)
  generated : Nat := 0
  nextInput : Nat := 0
  log : List (Nat × Nat) := []           -- token log: token, and G (R203)
  logBlocks : List (Nat × Nat) := []     -- HBM units of its two copies (R203)
  auto : Nat := 0                        -- automaton state (R214)
  failCount : Nat := 0
  retryCount : Nat := 0
  drafts : List Nat := []                -- draft buffer (R225)
  pages : SMap (List Nat) := []          -- page list of each KV layer: descriptor numbers (R190)
  lists : SMap (List Nat) := []          -- list blocks of each KV layer's chain, by layer index (R190)
  sink : Option EntryId := none          -- list of the last step entry that ran the slot (R177)
  sinkFa : Nat := 0xFFFF
  sinkAddr : Nat := 0
  lastGen : Nat := 0
  lastStep : Nat := 0                    -- step that last ran the slot
  redo : Option Nat := none              -- next position of a recompute (R202)
  logLost : Bool := false                -- both copies of a log block were lost (R207)
  specDepth : Option Nat := none         -- depth of the last verify record (R229)
  specMade : Nat := 0                    -- drafts committed since then (R229)
  verify : Option (Nat × Nat × Nat) := none   -- a verify record not yet applied: length, token, depth (R229)
  ops : List (EntryId × Nat) := []       -- entries waiting on the slot, in start order, with OP
  deriving DecidableEq, Repr

/-- One weight window of a region (11 R234, Table 11-1): state as WINDOWS codes it (Table 21-5), and generation. -/
structure Window where
  state : Nat := 0                       -- 0 FREE 1 FILLING 2 HELD 3 CURRENT 4 DRAINING
  owner : Nat := 0                       -- guest of the generation
  gen : Nat := 0
  deriving DecidableEq, Repr

/-- A load in progress (06 R137). -/
structure LoadRec where
  entry : EntryId
  guest : Nat
  phase : Nat                            -- 1 queued behind a release, 2 copying, 3 verifying, 4 admission, 5 writing
  anyPlace : Bool
  anchorX : Nat
  anchorY : Nat
  srcFa : Nat
  srcAddr : Nat
  len : Nat
  bytes : List Byte := []
  measure : List Byte := []
  panes : List Nat := []                 -- panes reserved by the placement
  image : Option Image := none
  reload : Bool := false
  oldState : Nat := 0
  rails : List (Nat × Nat × Nat × Nat) := []   -- base, ramp origin and ramp time of the panes' rails before the load (R139)
  since : Nat := 0                       -- module time of the last phase
  deriving DecidableEq, Repr

/-- One in-place row-shift (01 R27-R31): the dead cell, its pane row, the physical column, and the place in time that its fault record shows. -/
structure ShiftRec where
  cell : Nat
  pane : Nat
  prow : Nat
  pcol : Nat
  cycle : Nat
  deriving DecidableEq, Repr

/-- An admission request of a region (15 R328-R330). -/
structure AdmReq where
  kind : Nat                             -- 0 wake for a step, 1 load, 2 profile raise, 3 planned wake, 4 force open
  since : Nat
  tested : Option Nat := none            -- last test
  deriving DecidableEq, Repr

/-- Power of a region (REGION_PWR, Table 15-11, and 15 R328-R336). -/
structure RegPower where
  state : Nat := 4
  trans : Nat := 0
  target : Nat := 0
  transAt : Nat := 0                     -- when the transition began
  pendRaise : Nat := 0
  force : Nat := 0
  quiet : Nat := 0
  idleSince : Nat := 0
  plannedWake : Option Nat := none
  req : Option AdmReq := none
  ramp : Option Nat := none              -- ramp steps done (R329)
  rampAt : Nat := 0
  rewritten : Bool := true               -- contents rewritten after a Sealed wake (R335)
  pendCur : Nat := 0                     -- admission current per pane, 0.1 A, admitted and not ramped (R328)
  admittedAt : Nat := 0
  due : Bool := false                    -- the choice of R333 is to be made
  deriving DecidableEq, Repr

/-- Profile of a region (REGION_PROF, Table 17-8). -/
structure RegProfile where
  profile : Nat := 1
  target : Nat := 1
  admitted : Nat := 1                    -- profile the region's panes are admitted at (R327)
  stage : Nat := 0                       -- 0 none, 1 waiting for the grant, 2 for admission, 3 panes switch (R365)
  since : Nat := 0
  entry : Option EntryId := none         -- the PROFILE entry that takes effect
  sprintMs : Nat := 0
  sprintUntil : Option Nat := none
  ending : Nat := 0                      -- end of Sprint (R375): 1 cause known, 2 held and lowering, 3 lowered
  queue : List (EntryId × Nat × Nat) := []   -- PROFILE entries waiting in order: profile, SPRINT_MS
  deriving DecidableEq, Repr

/-- Region totals (Table 20-8). -/
structure RegTotals where
  steps : Counter := {}
  tokens : Counter := {}
  abandoned : Counter := {}
  holdNs : Counter := {}
  pauseBeats : Counter := {}
  widen : Counter := {}
  framed : Nat := 0
  home : Nat := 0
  absent : Nat := 0
  reclaim : Nat := 0
  deriving DecidableEq, Repr

/-- A scatter append in progress (09 R195): the step, and the rows to append by slot. -/
structure Scatter where
  step : Nat
  stg : Nat                              -- staging slot it drains
  rows : List (Nat × Nat × Nat)          -- slot, wave-table position q, sequence position p
  resv : List (Nat × Nat × Nat × Nat) := []
  lost : List Nat := []                  -- cells whose staging slot was lost (R60, R208)
  deriving DecidableEq, Repr

/-- A Casement-arrival or HBM-read delivery the sill keeps (05 R113, 08 R180): cell, item, tag, octets, sender. -/
structure Delivery where
  cell : Nat
  item : Nat
  tag : Nat
  data : List Byte
  src : Nat := 0xFFFF
  deriving DecidableEq, Repr

/-- A reduction of partial sums at the receiving sill (R88, R104): the item it fills, its contributions, the next in turn, the FP32
sums so far, contributions that came early, and elements counted as saturated. -/
structure Reduction where
  cell : Nat
  item : Nat
  tag : Nat
  src : Nat
  total : Nat
  next : Nat := 0
  sum : List R32 := []
  held : List (Nat × List R32) := []
  sat : Nat := 0
  deriving DecidableEq, Repr

/-- One region 0-63 (06, 21 Table 21-5). STATE 0 FREE 1 LOADING 2 LOADED 3 RUNNING 4 STOPPED 5 RELEASING. -/
structure Region where
  state : Nat := 0
  guest : Nat := 0
  panes : List Nat := []                 -- panes in SHAPE order
  image : Option Image := none
  load : Option LoadRec := none
  loadPending : List LoadRec := []
  relEntry : Option EntryId := none
  holdSince : Option Nat := none         -- module time the shutter hold began (R116)
  wdogMs : Nat := 50
  shifts : List ShiftRec := []
  stepNext : Nat := 0
  flight : Option Flight := none
  runs : List RunEntry := []             -- started STEP and PREFILL entries, in start order
  recno : Nat := 0
  cancelAlls : List EntryId := []        -- CANCEL entries with ALL = 1 that wait for the step's end (R178)
  slots : SMap SeqSlot := []
  cursor : SMap Nat := []                -- slot admitted last, by 65536 × template + generation (R167, R249)
  lastPinned : Nat := 0                  -- generation whose step ran last (R249)
  wspan : Nat := 1                       -- WSPAN in 64 KiB units (R234)
  windows : List Window := []
  swings : List (EntryId × Nat) := []    -- pending swings in order (R248)
  kTh : Nat := 0
  kRate : Nat := 0
  kEnv : Nat := 0
  kPwr : Nat := 0
  kHold : Nat := 0                       -- floor of K_PWR while a capped region steps down (R324)
  tRegion : Int := 0                     -- T_REGION of the last round (R344)
  power : RegPower := {}
  prof : RegProfile := {}
  rcfg : Nat := 0                        -- RCFG (Table 10-7)
  dpair : Nat := 0                       -- DPAIR (Table 10-7)
  deliveries : List Delivery := []       -- waiting for a later step
  reductions : List Reduction := []      -- partial sums of which not all are in (R104)
  kept : List Delivery := []             -- kept for replay (R180)
  scatters : List Scatter := []
  contract : Bool := false               -- a CONTRACT fault stopped it (R115)
  totals : RegTotals := {}
  deriving DecidableEq, Repr
/-! ### Guests, queues, Campion tables -/

/-- One entry of a list: its 256-bit word (Table 7-3), progress 0 waiting, 1 started, 2 complete, and its status,
result and start time. -/
structure Entry where
  word : Nat
  prog : Nat := 0
  status : Nat := 0
  result : Nat := 0
  startAt : Nat := 0
  ran : Bool := false                    -- a STEP entry of which a step has ended (R159)
  deriving DecidableEq, Repr

/-- One list held by a queue (R149). -/
structure ListRec where
  seq : Nat
  tag : Nat
  sinkFa : Nat
  sinkAddr : Nat
  entries : List Entry
  failSent : Bool := false               -- the first failing entry's record was sent (R161)
  deriving DecidableEq, Repr

/-- The queue of one guest and engine (Table 7-14). -/
structure Queue where
  lists : List ListRec := []
  nextSeq : Nat := 1
  dropped : Nat := 0
  refused : Nat := 0
  deriving DecidableEq, Repr

/-- A guest's command key (18 R378, R389): the key, the last accepted counter LAC, the persisted P, whether a
write of P is in progress, consecutive failures and the time the Keeper answers again. -/
structure CmdKey where
  key : List Byte
  lac : Nat := 0
  persisted : Nat := 0
  writing : Bool := false
  fails : Nat := 0
  busyUntil : Nat := 0
  deriving DecidableEq, Repr

/-- One guest 0-63 (R143). GSTATE 0 ABSENT, 1 ACTIVE, 2 DELETING. -/
structure Guest where
  gstate : Nat := 0
  panes : Nat := 0
  slots : Nat := 0
  hbm : Nat := 0
  src0 : Nat := 0xFFFF
  src1 : Nat := 0xFFFF
  queues : SMap Queue := []              -- by engine
  delEntry : Option EntryId := none      -- the GUEST_DELETE entry in progress
  createWait : List EntryId := []        -- GUEST_CREATE entries waiting for the deletion (R146)
  autCmd : Nat := 0                      -- outcome fields of AUT_CMD (Table 10-7)
  autSrc : Nat := 0                      -- AUT_SRC (Table 10-7)
  sampling : SMap Nat := []              -- sampling entries of 256 bits (Table 10-8)
  staged : SMap Nat := []                -- words written and not in effect, by 4 × entry + word (R221)
  deriving DecidableEq, Repr

/-- One mask source 0x000-0x2FF (10 R218, Table 10-6). STATE 0 FREE 1 LOADING 2 READY 3 FAILED. -/
structure MaskSource where
  state : Nat := 0
  guest : Nat := 0
  err : Nat := 0
  image : List Byte := []
  srcFa : Nat := 0
  srcAddr : Nat := 0
  len : Nat := 0
  copy0 : List (Nat × Nat) := []         -- HBM units of the two copies: first unit and number of each run (Table 12-2)
  copy1 : List (Nat × Nat) := []
  deriving DecidableEq, Repr

/-- Campion (10): mask sources, per-unit counters and the lane cursor. -/
structure Campion where
  sources : SMap MaskSource := []
  counters : SMap Counter := []          -- 16 × unit + register
  laneNext : Nat := 0
  cached : List (Nat × Nat) := []        -- mask rows in the row cache: source and row (R214)
  deriving DecidableEq, Repr

/-- The four engines' arbitration (R154): guest served last, and when the next start may come. -/
structure Arb where
  last : Nat := 0
  nextAt : Nat := 0
  deriving DecidableEq, Repr

/-! ### Cache and Weight engines -/

/-- A page descriptor (Table 9-3). TIER 0 absent, 1 home, 2 frame and home, 3 moving. `units` is the length of
the home image, fixed by the page's layer. -/
structure Desc where
  tier : Nat := 0
  valid : Bool := false
  frozen : Bool := false
  zpend : Bool := false                  -- the home at `loc` was released and has not been zeroed or given out (R189)
  reclaim : Bool := false
  guest : Nat := 0
  region : Nat := 0
  unbound : Bool := false
  refcnt : Nat := 0
  fill : Nat := 0
  layer : Nat := 0
  frame : Nat := 0
  loc : Nat := 0
  units : Nat := 0
  epoch : Nat := 0
  deriving DecidableEq, Repr

/-- A park record (Table 9-8); what it restores to a slot stands in `slot`. STATE 0 free, 1 parked, 2 resuming,
3 expired. -/
structure ParkRec where
  state : Nat := 0
  uses : Nat := 0
  guest : Nat := 0
  region : Nat := 0
  gen : Nat := 0
  meas : List Byte := []
  expiry : Nat := 0
  slot : SeqSlot := {}
  deriving DecidableEq, Repr

/-- A block of the page-list pool (Table 9-2): in a sequence's chains, or free with the entries of its last guest, which are zeroed
before another guest has it (R190, R210). -/
structure ListBlock where
  held : Bool
  guest : Nat
  deriving DecidableEq, Repr

/-- The Cache engine (09): page descriptors, page-list blocks, park records, and frames released by demotion that wait for their
epoch: region, layer, frame, stamp (R199). -/
structure CacheEng where
  desc : SMap Desc := []
  blocks : SMap ListBlock := []          -- page-list blocks, by number (R190)
  parks : SMap ParkRec := []
  frameHolds : List (Nat × Nat × Nat × Nat) := []
  unitHolds : List (Nat × Nat × Nat × Nat) := []   -- homes released by a drop or loss: region, first unit, units, stamp
  deriving DecidableEq, Repr

/-- A run of HBM units in one state of the unit map (12 R257): 0 free and zeroed, with its last guest, 1 allocated, 2 free with zeroing pending, 3 retired. -/
structure Extent where
  start : Nat
  len : Nat
  st : Nat
  guest : Nat
  deriving DecidableEq, Repr

/-- One generation a guest holds (11 R233): its manifest and measurement, and its HBM copy. -/
structure Generation where
  guest : Nat
  num : Nat
  manifest : List Byte := []
  measure : List Byte := []
  staged : Bool := false                 -- the whole blob is in HBM
  streamed : Bool := false               -- only its KIND 1 tensors are in HBM (R246)
  maps : List Nat := []                  -- MEMMAP entries of the KIND 1 tensors of a copy of those alone, in its order (R246)
  runs : List (Nat × Nat) := []          -- HBM units of the copy in its order: first unit and number of each run
  bad : List Nat := []                   -- units, counted within the copy, whose read failed twice (R245)
  deriving DecidableEq, Repr

/-- One shard of a load (11 R238-R245). `source` is a place in the manifest's source list, 8 for the upstream module,
9 for the STAGED copy. -/
structure ShardRec where
  state : Nat := 0                       -- 0 wanted 1 requested 2 verified 3 neither wanted nor held (R233)
  attempts : Nat := 0
  source : Nat := 0
  at_ : Nat := 0                         -- module time of its last progress (R243)
  data : List Byte := []
  deriving DecidableEq, Repr

/-- A generation's load in progress: a WLOAD, or the fill a SWING needs (11 R238, R247). -/
structure WloadRec where
  id : Nat
  entry : Option EntryId                 -- none: the fill of a SWING
  guest : Nat
  gen : Nat
  target : Nat
  region : Nat
  srcFa : Nat
  srcAddr : Nat
  fwdFa : Nat
  phase : Nat := 0                       -- 0 manifest 1 shards
  manifest : List Byte := []
  measure : List Byte := []
  shards : List ShardRec := []
  window : Option Nat := none
  runs : List (Nat × Nat) := []          -- HBM units reserved by this load
  startAt : Nat := 0
  joined : Option Nat := none            -- first shard the joined downstream module needs (R240)
  nextFwd : Nat := 0                     -- next shard to forward
  forwarded : Nat := 0
  rooms : SMap (List (Nat × Nat)) := []  -- transient room of a shard held for the downstream module alone (R238, R240)
  manLen : Nat := 0                      -- length of the second MANIFEST read, once sent (R238)
  filled : Bool := false                 -- its own targets are complete (R238 step 5, R241)
  holdAt : Nat := 0
  held : List (Msg × Nat) := []          -- MANIFEST reads held, with their time (R254)
  deriving DecidableEq, Repr

/-- The Weight engine (11). -/
structure WeightEng where
  gens : List Generation := []
  loads : List WloadRec := []
  nextId : Nat := 0
  deriving DecidableEq, Repr

/-! ### Wafer -/

/-- The repair maps (01 R37-R40): entries of Table 1-5 as 64-bit numbers. `running` holds repairs applied in the
running map only (R39). -/
structure Wafer where
  fused : List Nat := []
  field : List Nat := []
  running : List Nat := []
  tagOk : Bool := true
  boots : Nat := 1                       -- cold-boot count (Table 19-8)
  deriving DecidableEq, Repr

/-! ### Bandwidth blocks and HBM controllers (20 R421, 12) -/

/-- The bandwidth block of a port or a controller (Table 20-7). `cur` counts the octets of the present window: of a port by
4 × direction + channel, of a controller by direction; direction 0 is transmit or read. -/
structure BwBlock where
  ctl : Nat := 1000 * 2 ^ 44
  range : Nat := 0
  startAt : Nat := 0
  cur : SMap Nat := []
  last : SMap Nat := []
  peak : SMap Nat := []
  total : SMap Counter := []
  filtCur : Nat := 0
  filtLast : Nat := 0
  filtTotal : Counter := {}
  windows : Nat := 0
  deriving DecidableEq, Repr

/-- A channel or a bank (Table 12-7). STATE 0 ACTIVE, 1 CLOSING, 2 CLOSED, 3 OPENING, 4 FAILED. -/
structure HbmTarget where
  state : Nat := 0
  pend : Nat := 0
  ce : Nat := 0
  times : List Nat := []                 -- a bank's corrections of the last 24 h (R259)
  deriving DecidableEq, Repr

/-- A read that is held for its retry (R260). -/
structure HeldRead where
  addr : Nat
  use : HbmUse
  deriving DecidableEq, Repr

/-- An access that waits for its OPENING target: a read with its outcome and use, or a write with its octets (R265). -/
structure HbmWait where
  addr : Nat
  src : Nat
  master : Nat
  read : Option (Nat × HbmUse)
  rtag : Nat := 0
  data : List Byte := []
  deriving DecidableEq, Repr

/-- One HBM controller (12 R259-R266, Tables 12-5 to 12-8); banks by 64 × channel + bank. -/
structure HbmCtl where
  trained : Bool := false
  refresh2x : Bool := false
  halved : Bool := false                 -- command rate halved at 100 °C (R345)
  result : Nat := 0
  temp : Nat := 0
  ueCount : Nat := 0
  logValid : Bool := false
  logLost : Bool := false
  logAddr : Nat := 0
  chans : SMap HbmTarget := []
  banks : SMap HbmTarget := []
  held : List HeldRead := []
  waiting : List HbmWait := []           -- accesses that wait for ACTIVE, in order (R265)
  patrol : Nat := 0                      -- next unit of the stack that patrol reads
  bw : BwBlock := {}
  deriving DecidableEq, Repr
/-! ### Casement ports (13, 14, 18 R391-R393) -/

/-- A flit: its 96-bit header and its 240 payload octets (R272). -/
structure Flit where
  hdr : Nat
  payload : List Byte
  deriving DecidableEq, Repr

/-- A lane (LANE_STATUS, Table 13-15). -/
structure Lane where
  lock : Bool := false
  polInv : Bool := false
  snr : Nat := 0
  corr : Nat := 0
  deriving DecidableEq, Repr

/-- A message queued at an output port: the octets of it that are here, whether its end is, flits sent, the time it was
queued, and its input port when it is forwarded. `queue`: a completion or token record's queue; `mc`: the group and
MCSEQ of a multicast copy. -/
structure TxMsg where
  msg : Msg
  eom : Bool := true
  sent : Nat := 0
  since : Nat := 0
  src : Option Nat := none
  queue : Option (Nat × Nat) := none
  mc : Option (Nat × Nat) := none
  deriving DecidableEq, Repr

/-- A message that arrives at a port: its octets so far, its flits, whether it is whole, and where it goes: undecided (none),
an output port, or 96 where it is discarded (R298). -/
structure RxMsg where
  msg : Msg
  flits : Nat := 1
  eom : Bool := false
  out : Option Nat := none
  deriving DecidableEq, Repr

/-- The keys of a link (R392): transmit and receive key and salt, and the confirm key. -/
structure LinkKeys where
  txKey : List Byte := []
  rxKey : List Byte := []
  txSalt : List Byte := []
  rxSalt : List Byte := []
  confirm : List Byte := []
  deriving DecidableEq, Repr

/-- A link exchange (R391, R392): contents of both HELLOs and ENCAPs, the two shared secrets, whether the FINISH was sent,
the peer's IDENT, and when a failed exchange begins again. -/
structure LinkAuth where
  helloOut : List Byte := []
  helloIn : List Byte := []
  encapOut : List Byte := []
  encapIn : List Byte := []
  secretOut : List Byte := []
  secretIn : List Byte := []
  prior : List Byte := []                -- transcript hash of the exchange before (rekey)
  keys : Option LinkKeys := none         -- keys derived and not yet confirmed
  retryAt : Option Nat := none
  failed : Bool := false
  rekey : Bool := false
  deriving DecidableEq, Repr

/-- The discovery state of a port (R294-R296, Table 14-4): 0 NONE 1 KNOCKING 2 SILENT 3 KNOWN 4 LOOP 5 CONFLICT. -/
structure Neighbour where
  state : Nat := 0
  rec_ : List Byte := []                 -- the neighbour record, 64 octets
  nonce : Nat := 0
  sends : Nat := 0
  sentAt : Nat := 0
  deriving DecidableEq, Repr

/-- What a port sends (R276-R282). -/
structure TxSide where
  queues : SMap (List TxMsg) := []       -- by channel
  seq : Nat := 0                         -- sequence number of the next sequenced flit
  buf : List (Nat × Flit) := []          -- replay buffer
  replayDue : Bool := false              -- the REPLAY of a requested replay waits for its slot (R276)
  replay : List Flit := []               -- flits a running replay has still to send
  replayRef : Option Nat := none         -- SEQREF of the running replay
  sent : SMap Nat := []                  -- flits sent since ACTIVE, by channel
  freed : SMap Nat := []                 -- buffers the peer has freed, by channel
  run : List Flit := []                  -- the flits of the open run, as sent
  bulk : Nat := 0                        -- flits of M, A and W in it
  sealDue : Bool := false
  runNo : Nat := 0
  keyFlits : List (List Byte) := []      -- payloads of KEY flits that wait
  retryReq : Bool := false               -- a RETRY_REQ waits
  answers : List Flit := []              -- quick answers that wait
  mcWait : List (Nat × Nat × Nat) := []  -- multicast copies sent and not yet accepted: last flit, group, MCSEQ (R308)
  crSent : Nat := 0                      -- the CR fields last reported in full (R277)
  crWait : Nat := 0                      -- flit slots for which freed buffers have gone unreported
  served : Nat := 0                      -- weighted round robin: A and W flits sent in the present turn
  wire : Option Flit := none             -- the flit last put on the wire
  deriving DecidableEq, Repr

/-- What a port receives (R273, R279-R283). -/
structure RxSide where
  seq : Nat := 0                         -- sequence number expected
  ack : Nat := 4095                      -- last sequence number acknowledged
  run : List Flit := []                  -- flits of the run that waits for its SEAL, as received
  runSeq : Nat := 0                      -- sequence number of its first flit
  runNo : Nat := 0
  failedRun : Option Nat := none         -- run whose tag failed once
  discard : Bool := false                -- waiting for a REPLAY
  reqRef : Nat := 4096                   -- SEQREF of the last request, none yet
  requests : Nat := 0                    -- successive requests for it
  slots : Nat := 0                       -- flit slots since the last request
  msgs : List RxMsg := []                -- messages that arrive, oldest first
  freed : SMap Nat := []                 -- buffers freed since ACTIVE, by channel
  keyIn : List Byte := []                -- content of the KEY message being assembled
  keyMsgs : List (Nat × List Byte) := [] -- whole KEY messages: MSG and content
  deriving DecidableEq, Repr

/-- One Casement port (Tables 13-2, 13-11 to 13-15; 22 R443, R444). -/
structure Port where
  state : Nat := 1
  width : Nat := 3
  lanes : Nat := 0                       -- lanes in use
  cleartext : Bool := false
  peerFa : Nat := 0xFFFF
  retrains : Nat := 0
  enable : Bool := true
  clear : Bool := false
  laneOff : Nat := 0
  weightA : Nat := 3
  weightW : Nat := 1
  keyState : Nat := 0                    -- Table 13-14
  epoch : Nat := 0
  keyAt : Nat := 0                       -- when the present key was taken into use
  keys : LinkKeys := {}
  stagedTx : Option LinkKeys := none     -- new keys that wait for a KEY_SWITCH of each direction
  stagedRx : Option LinkKeys := none
  cipherOff : Bool := false              -- cipher engine disabled until cold boot (R381)
  auth : LinkAuth := {}
  peerIdent : Option (List Byte) := none -- authenticated IDENT
  counters : SMap Counter := []          -- by offset 0x100-0x170
  lane : SMap Lane := []
  since : Nat := 0                       -- time of the last change of state
  want : Nat := 3                        -- widest width a retrain tries
  tx : TxSide := {}
  rx : RxSide := {}
  nbr : Neighbour := {}
  bw : BwBlock := {}
  cable : Bool := true                   -- CAB_PRES_N low
  deriving DecidableEq, Repr
/-! ### Fabric (14) -/

/-- One barrier tree (Table 14-10, R310, R311): its entry without GEN, the generation, the child ports that have arrived in it
and early in the next, the local arrival, the first arrival's time, and the failure the generation carries. -/
structure Barrier where
  entry : Nat := 0xFFFF * 2 ^ 209
  gen : Nat := 0
  arrived : List Nat := []
  early : List (Nat × Nat × Nat) := []   -- port, STATUS and FAILED_FA of an ARRIVE of the next generation
  here : Bool := false
  first : Option Nat := none
  failed : Bool := false
  failedFa : Nat := 0
  up : Bool := false                     -- ARRIVE sent to the parent
  deriving DecidableEq, Repr

/-- A multicast message in the buffer (R307, R308): the branches that have not completed and those that have not sent their
copy, and the failures: branch, STUCK_FA and branches failed below it. -/
structure McMsg where
  group : Nat
  seq : Nat
  msg : Msg
  branches : List Nat
  unsent : List Nat
  fails : List (Nat × Nat × Nat) := []
  deriving DecidableEq, Repr

/-- A fault message not yet acknowledged (R313): its sequence, octets, entries and time. -/
structure FaultMsg where
  seq : Nat
  data : List Byte
  entries : List Nat
  sentAt : Nat
  deriving DecidableEq, Repr

/-- A record of 512 bits the active bridge has still to write into FAULT_SINK, and its source (R314). -/
structure SinkRec where
  rec_ : Nat
  src : Nat
  deriving DecidableEq, Repr

/-- The way back of an answer to a directed message (R297): who asked, its tag or address, the port, and the path octets. -/
structure ReplyPath where
  dest : Nat
  addr : Nat
  port : Nat
  path : List Byte
  deriving DecidableEq, Repr

/-- The fabric registers and the bridge (Table 14-12, R303, R304, R313, R314). -/
structure Fabric where
  role : Nat := 0
  hostPort : Nat := 0
  partner : Nat := 0xFFFF
  epoch : Nat := 0
  bridgeFa : Nat := 0xFFFF
  sinkFa : Nat := 0xFFFF
  sinkAddr : Nat := 0
  faultSeq : Nat := 0
  beatAt : Nat := 0                      -- last BRIDGE_BEAT sent or received, or the role taken
  groupLocal : SMap Nat := []            -- local group table (R299)
  memberLocal : SMap Nat := []
  groupTab : SMap Nat := []              -- by 512 × port + group
  memberTab : SMap Nat := []             -- by 64 × port + index
  mcTab : SMap Nat := []                 -- multicast entries (Table 14-7)
  bars : SMap Barrier := []
  mcBuf : List McMsg := []
  mcDone : List (Nat × Nat × Nat × Nat) := []  -- completions reported to a local originator: group, MCSEQ, STUCK_FA, FAILED
  msgSeq : Nat := 0                      -- sequence of the last fault message
  unacked : List FaultMsg := []
  window : Option Nat := none            -- 1 ms window of the last fault message
  sources : SMap Nat := []               -- last fault sequence accepted, by source
  sinkQ : List SinkRec := []
  sinkSec : Nat := 0                     -- second of the entries counted in sinkCount
  sinkCount : Nat := 0
  replyPaths : List ReplyPath := []
  deriving DecidableEq, Repr

/-! ### Fault table and alerts (21 R433-R439) -/

/-- The Lintel's fault table, alerts and shelf status. -/
structure Mgmt where
  ft : SMap FtEntry := []                -- entries that are not FREE, by index
  eseq : Nat := 0
  sel : SMap Nat := []                   -- selectors (R426): 256 × requester + register
  ftCopy : SMap FtEntry := []            -- copies of FT_META reads, by requester
  cause : Nat := 0                       -- ALERT_CAUSE
  alertEn : Nat := 0xF3E8
  ibi : Option Nat := none               -- the pending In-Band Interrupt, with the byte last sent
  shelfBits : Nat := 0                   -- bits of the last 0xD2 write
  shelfAt : Option Nat := none           -- when it was sent, none once retried
  deriving DecidableEq, Repr

/-! ### The Keeper (18) -/

/-- An enrolled public key (R390): kind 1 image, 2 manifest, 3 endpoint root; `by_` is the enrolling party. -/
structure Enrolled where
  keyid : List Byte
  kind : Nat
  mask : Nat
  pub : List Byte
  by_ : Nat
  deriving DecidableEq, Repr

/-- A mailbox window (Tables 18-6, 18-7). STATE 0 IDLE, 1 BUSY, 2 DONE. -/
structure Mailbox where
  state : Nat := 0
  result : Nat := 0
  respLen : Nat := 0
  req : Mem := {}
  resp : List Byte := []
  deriving DecidableEq, Repr

/-- A mailbox operation that is being served and ends later: window, OP, result and response (R387, R394). -/
structure MbJob where
  guest : Nat
  op : Nat
  result : Nat
  resp : List Byte
  startAt : Nat := 0
  deriving DecidableEq, Repr

/-- The Keeper. STATE 1 SELFTEST, 2 OPERATIONAL, 3 ERROR, 4 DECOMMISSIONED (Table 18-2). -/
structure Keeper where
  st : Nat := 1
  approved : Bool := false
  leave : Bool := false                  -- APPROVED_LEAVE pending (R386)
  standby : Bool := false
  tap : Nat := 0
  tapUntil : Nat := 0
  tamper : Bool := false
  entropyOk : Bool := false
  stFail : Nat := 0
  restarted : Bool := false              -- the one rerun of R381 has been used
  keys : SMap CmdKey := []               -- command keys: 0 the owner's, 1-63 the guests'
  enrolled : List Enrolled := []
  mail : SMap Mailbox := []
  queue : List Nat := []                 -- windows whose MB_GO waits, in order; the first is served
  job : Option MbJob := none
  kemNo : Nat := 0                       -- number of the session KEM key pair (log 13)
  drbgCount : Nat := 0
  drbgAt : Nat := 0
  decommissioned : Bool := false         -- fuse (R395)
  zeroing : Option Nat := none           -- a zeroisation that awaits its guests and regions: 1 ZEROISE, 2 tamper, 3 DECOMMISSION
  deriving DecidableEq, Repr

/-! ### Power (15) -/

/-- A 12 V segment (SEG_STATUS, Table 15-10): converters lost, the currents sampled in the last 100 µs with their
times, and since when the newest lies above the rating. -/
structure Segment where
  lost : List Nat := []                  -- converters lost
  samples : List (Nat × Nat) := []
  overSince : Option Nat := none
  overSent : Bool := false
  deriving DecidableEq, Repr

/-- Module power (Tables 15-8, 15-9). RESULT 0 OK, 1 AUTH_FAILED, 2 RANGE, 3 BUSY. -/
structure Power where
  vin : Nat := 0
  pin : Nat := 0
  pwafer : Nat := 0
  inputLow : Bool := false
  lowSince : Option Nat := none          -- since when the input lies below 46 V, once INPUT_LOW was raised
  limSustained : Nat := 26000
  limPeak : Nat := 34000
  idleShut : Nat := 1000
  idleSeal : Nat := 0
  authAddr : Nat := 0
  authValue : Nat := 0
  authCounter : Nat := 0
  authTagLo : Nat := 0
  authTagHi : Nat := 0
  authResult : Nat := 0
  segs : SMap Segment := []
  phaseMap : List Nat := []              -- failed phases in flash: 4 × pane + phase (R323)
  phaseTagOk : Bool := true
  overRound : Bool := false              -- SEGMENT_OVER was raised since the last round (R439)
  powerOff : Bool := false               -- power-off is imminent (R439)
  deriving DecidableEq, Repr
/-! ### Thermal (16) -/

/-- Thermal state of the module (Tables 16-6 to 16-8). Temperatures count 0.125 °C, flows 0.1 L/min, powers W; Rth is in µK/W.
`rth` and `cap` are exact (log 40). -/
structure Thermal where
  lastReport : Option Nat := none        -- module time of the last accepted tray report (R6, R343)
  seq : Option Nat := none               -- its SEQ (R449)
  inlet : Int := 0
  outlet : Int := 0
  flow : Nat := 0
  flows : List (Nat × Nat) := []         -- reports of the last 100 ms, newest first: time and flow (R354)
  outside : Bool := false                -- the last report lay outside the envelope (R343)
  stopAt : Option Nat := none            -- declaration of the sudden stop in force (R355)
  good : Nat := 0                        -- consecutive reports of 75 % flow since
  envAt : Option Nat := none             -- last COOLANT_ENVELOPE (R343)
  rth : Rat := 3000                      -- µK/W
  cap : Option Rat := none               -- W; none before the first round
  frozen : Bool := false
  margin : Nat := 5
  flowNom : Nat := 40
  diodes : SMap Int := []                -- memory-wafer diodes by field
  warned : List Nat := []                -- channels in warning: 10000 × kind + number
  tHot : Int := 0                        -- highest junction reading of the last round
  kCool : Nat := 0                       -- K_ENV from coolant (R355)
  sampleNo : Nat := 0                    -- samples of R349, modulo 4
  fast : List Nat := []                  -- regions with a rate of 2.0 °C/ms in the present 100 µs
  rose : List Nat := []                  -- regions with a rate of 1.0 °C/ms since the last round
  roseFast : List Nat := []              -- the same, 2.0 °C/ms
  emerg : SMap Nat := []                 -- regions held at K_RATE 31: quiet rounds so far (R350)
  log : List Nat := []                   -- event records, oldest first, at most 512 (Table 16-4)
  logNext : Nat := 0
  logSel : Nat := 0
  deriving DecidableEq, Repr

/-! ### Profiles and the shelf grant (17) -/

/-- Module-wide power enforcement, heat integrator and wear ledger (R367-R374), and the shelf (R369, R370). -/
structure Prof where
  rounds : List Nat := []                -- P_ROUND of the last 2,000 rounds, newest first
  pfast : Nat := 0
  heat : Rat := 0
  heatMax : Rat := 0                     -- I_MAX of the last round
  wear : List Nat := []                  -- ledger days, the present one first, in half milliseconds (R373)
  reserve : Nat := 0                     -- half milliseconds committed ahead and not used
  ledgerBad : Bool := false              -- the ledger's tag failed: taken as spent
  days : Nat := 0
  dayTime : Nat := 0                     -- half milliseconds of the present day
  allow : Nat := 1                       -- SPRINT_ALLOW
  shelfAddr : Nat := 0x58
  granted : Nat := 0
  lease : Nat := 0
  grantSeq : Nat := 0                    -- sequence number of the last request
  asked : Nat := 0                       -- W of the last request
  grant : Bool := false
  leaseEnd : Nat := 0
  renewAt : Nat := 0                     -- last request
  misses : Nat := 0
  imbalance : Bool := false              -- K_PWR rises for the busbar pairs (R441)
  deriving DecidableEq, Repr
/-! ### Start-up, reset and firmware (19) -/

/-- A firmware slot (R407, R409, R411): 0 EMPTY, 1 ARMED, 2 REJECTED, 3 bootable as active or fallback; its bundle version and
the SVN, version and digest of its parts. -/
structure FwSlot where
  state : Nat := 0
  bversion : Nat := 0
  svns : List Nat := []
  versions : List Nat := []
  digests : List (List Byte) := []
  deriving DecidableEq, Repr

/-- Boot and firmware (Tables 19-1, 19-7 to 19-10). -/
structure Boot where
  stage : Nat := 0                       -- STAGE of BOOT_STATUS
  ready : Bool := false
  cause : Nat := 0
  startAt : Nat := 0
  stageAt : Nat := 0                     -- when the present stage began
  readyMs : Nat := 0
  off : Bool := false                    -- the converters have stopped
  pwrOk : Bool := false                  -- PWR_OK
  busAt : Nat := 0                       -- from when the module answers on the tray bus, while PWR_OK (R448)
  hold : Bool := false                   -- the last shutdown was critical: thermal hold at this boot (R352)
  resetLow : Bool := false               -- RESET_N is held low
  fails : Nat := 0                       -- boots in succession that failed to reach READY with no attempt armed (R405)
  reached : Bool := false                -- this boot has reached READY
  servedAt : Nat := 0                    -- when the Lintel last served its watchdog
  bothFailed : Option Nat := none        -- both copies failed during an attempt, since when (R411)
  active : Nat := 0                      -- 0 A, 1 B
  slotA : FwSlot := { state := 3 }
  slotB : FwSlot := {}
  attempts : Nat := 0
  last : Nat := 0
  attempting : Bool := false             -- this boot runs the armed slot
  svn : List Nat := [0, 0, 0, 0, 0, 0, 0]
  deriving DecidableEq, Repr

/-! ### Module interface (22) -/

/-- A management access the trace keeps (R452): address, whether it writes, and the value written. -/
structure TraceRec where
  addr : Nat
  write : Bool
  val : Nat
  deriving DecidableEq, Repr

/-- Tray bus, TAP, service UART, busbar pairs and cable supplies. -/
structure Iface where
  i3cAddr : Option Nat := none           -- dynamic address (R448)
  ibiEn : Bool := true
  i3cOut : List Nat := []                -- octets of the last answer on the bus
  trst : Bool := false                   -- TRST_N is low
  inst : Nat := 1                        -- TAP instruction in force
  refused : Bool := false                -- B (R452)
  dr : Nat := 0                          -- data register of the last access
  bsr : Nat := 0                         -- boundary-scan register, 1,557 bits
  pins : Nat := 0                        -- 0 functional, 1 driven by the register, 2 held (CLAMP), 3 high impedance, 4 pulse, 5 train
  halted : Bool := false                 -- the Lintel processor is halted
  trace : List TraceRec := []            -- last 64 management accesses, newest first (R452)
  uart : List Nat := []                  -- what the service UART has sent, oldest first (R447)
  pair0 : Nat := 0
  pair1 : Nat := 0
  pairSince : Option Nat := none         -- since when one pair carries more than 65 % (R441)
  cabOff : List Nat := []                -- connectors whose CAB_3V3 tripped (R444)
  shelfOut : List (Nat × List Byte) := []  -- block writes on the shelf bus: command and octets
  deriving DecidableEq, Repr

/-! ### The module -/

/-- A message the module originated, its time, and the queue whose completion or token record it is: guest and engine
(R162, R174). -/
structure OutMsg where
  time : Nat
  msg : Msg
  queue : Option (Nat × Nat) := none
  deriving DecidableEq, Repr

/-- A management access to a cell window that a row-shift holds (R31): its cell and offset, the value of a write, its source, and the
tag of a read. -/
structure HeldAcc where
  cell : Nat
  off : Nat
  val : Option Nat
  src : Nat
  rtag : Nat := 0
  deriving DecidableEq, Repr

/-- The module. -/
structure State where
  pending : List Instr := []
  time : Nat := 0                        -- module time, quarter-nanoseconds since cold boot (log 1)
  freeCount : Nat := 0                   -- model's own: number of the next free value (log 8)
  outbox : List OutMsg := []             -- messages originated and not yet routed (R298)
  delivered : List Msg := []             -- messages that ended at this module, oldest first (log 15)
  cells : SMap Cell := []
  panes : SMap Pane := []
  regions : SMap Region := []
  guests : SMap Guest := []
  arb : SMap Arb := []
  campion : Campion := {}
  cache : CacheEng := {}
  weight : WeightEng := {}
  hbm : Mem := {}                        -- HBM contents by address (R256)
  extents : List Extent := []            -- unit map, rising: every unit a guest has had, or that is retired (R257)
  hbmCtl : SMap HbmCtl := []
  retired : List Nat := []               -- retired units in flash (R261)
  retiredTagOk : Bool := true
  wafer : Wafer := {}
  keeper : Keeper := {}
  power : Power := {}
  thermal : Thermal := {}
  prof : Prof := {}
  ports : SMap Port := []
  fabric : Fabric := {}
  quick : SMap (Nat × List Nat) := []      -- shadow quick words of each sill, with the time of their refresh (R287)
  mgmt : Mgmt := {}
  boot : Boot := {}
  iface : Iface := {}
  windowHeld : List HeldAcc := []        -- accesses of cell windows held by a row-shift, in arrival order (R31)
  snap : SMap Cell := []                 -- cells that issued in the present running cycle, as they stood before it (R123)
  spareMem : SMap Mem := []              -- weight memory of each pane row's position that no logical column occupies (R32)
  fabricAddr : Nat := 0xFFFF
  ownerSrc : SMap (Bool × Nat) := []
  stepping : Nat := 0
  reports : List Report := []
  lost : Nat := 0
  lostClass : Nat := 0
  deriving DecidableEq, Repr

def State.reset : State := {}

end Sys2Proof.Machine
end

