-- ==== Sys2Proof/Machine/Ops.lean ====
section
/-! DEFINITION. Named operations over the module's state: reading and changing cells, panes, regions and guests,
counters, fault reports and messages. -/

namespace Sys2Proof.Machine

/-- What a meaning answers. -/
abbrev Out := Host.Outcome State Fault Refusal

/-! ### Parts -/

def State.cell (s : State) (c : Nat) : Cell := mget {} s.cells c
def State.setCell (s : State) (c : Nat) (x : Cell) : State := { s with cells := mset s.cells c x }
def State.modCell (s : State) (c : Nat) (f : Cell → Cell) : State := s.setCell c (f (s.cell c))

/-- A pane that nothing has changed yet: core panes are Boarded (R337), sill panes Open. -/
def freshPane (p : Nat) : Pane := if p < 738 then {} else { power := 0 }

def State.pane (s : State) (p : Nat) : Pane := mget (freshPane p) s.panes p
def State.setPane (s : State) (p : Nat) (x : Pane) : State := { s with panes := mset s.panes p x }
def State.modPane (s : State) (p : Nat) (f : Pane → Pane) : State := s.setPane p (f (s.pane p))

def State.region (s : State) (r : Nat) : Region := mget {} s.regions r
def State.setRegion (s : State) (r : Nat) (x : Region) : State := { s with regions := mset s.regions r x }
def State.modRegion (s : State) (r : Nat) (f : Region → Region) : State := s.setRegion r (f (s.region r))

/-- Guest 0, the owner, is always ACTIVE (R143). -/
def freshGuest (g : Nat) : Guest := if g = 0 then { gstate := 1 } else {}

def State.guest (s : State) (g : Nat) : Guest := mget (freshGuest g) s.guests g
def State.setGuest (s : State) (g : Nat) (x : Guest) : State := { s with guests := mset s.guests g x }
def State.modGuest (s : State) (g : Nat) (f : Guest → Guest) : State := s.setGuest g (f (s.guest g))

/-- Change every cell of a pane. -/
def State.modPaneCells (s : State) (p : Nat) (f : Nat → Cell → Cell) : State :=
  (List.range 256).foldl (fun a i => let c := paneCell p (i / 16) (i % 16); a.modCell c (f c)) s

/-- Change every cell of a region. -/
def State.modRegionCells (s : State) (r : Nat) (f : Nat → Cell → Cell) : State :=
  (s.region r).panes.foldl (fun a p => a.modPaneCells p f) s

/-- Change every pane of a region. -/
def State.modRegionPanes (s : State) (r : Nat) (f : Nat → Pane → Pane) : State :=
  (s.region r).panes.foldl (fun a p => a.modPane p (f p)) s

/-- Change the listed cells of a region; the change must leave a cell that is not listed as it is. -/
def State.modListed (s : State) (r : Nat) (f : Nat → Cell → Cell) : State :=
  let ps := (s.region r).panes
  { s with cells := mmap (fun c x => if ps.contains (paneOfCell c) then f c x else x) s.cells }

/-- The region a cell belongs to. -/
def State.regionOfCell (s : State) (c : Nat) : Option Nat := (s.pane (paneOfCell c)).region

/-- A region's beat length and timing class, from its image. -/
def Region.beatLen (r : Region) : Nat := match r.image with | some i => i.beatLen | none => 32
def Region.cls (r : Region) : Nat := match r.image with | some i => i.cls | none => 0

/-- The region-local cell index of a cell, and back (06, below Table 6-3). -/
def Region.localIndex (r : Region) (c : Nat) : Option Nat :=
  (r.panes.findIdx? (· == paneOfCell c)).map (fun p => 256 * p + 16 * prowOf c + pcolOf c)

def Region.localCell (r : Region) (i : Nat) : Option Nat :=
  (r.panes[i / 256]?).map (fun p => paneCell p (i % 256 / 16) (i % 16))

/-- K_PWR: the demand of power enforcement, and the floor of R324 (16 R346). -/
def Region.kPower (r : Region) : Nat := max r.kPwr r.kHold

/-- Pause level in force: the largest of the demands (16 R346, Table 16-9). -/
def Region.k (r : Region) : Nat := max (max r.kTh r.kRate) (max r.kEnv r.kPower)

/-! ### Time (quarter-nanoseconds) -/

def ns (n : Nat) : Nat := 4 * n
def us (n : Nat) : Nat := 4000 * n
def ms (n : Nat) : Nat := 4000000 * n
def secs (n : Nat) : Nat := 4000000000 * n

/-- Module time in ns (TIME). -/
def State.nowNs (s : State) : Nat := s.time / 4

/-! ### Free values -/

/-- A fresh free value (log 8). -/
def State.free (s : State) : BitVec 64 := Config.freeWord s.freeCount
def State.useFree (s : State) : State := { s with freeCount := s.freeCount + 1 }

/-! ### Counters -/

/-- Add to a 48-bit counter; passing 2^48 − 1 wraps and sets WRAP (Table 2-17, R420). -/
def Counter.add (c : Counter) (n : Nat) : Counter :=
  { count := (c.count + n) % 2 ^ 48, wrap := c.wrap || decide (c.count + n ≥ 2 ^ 48) }

/-- The register of a counter (Table 2-17). -/
def Counter.word (c : Counter) : Nat := bit c.wrap * 2 ^ 63 + c.count

/-- An event of Table 20-6 with its master, its requester and its place (R417). -/
structure PmcEv where
  cls : Nat
  ev : Nat
  master : Nat := 0
  byOwner : Bool := false
  byGuest : Bool := true
  loc : Option (Nat × Nat) := none
  deriving DecidableEq, Repr

/-- PMC_SEL n (Table 20-4): MASTER resets to 0x7F. -/
def Cell.pmcSelOf (c : Cell) (n : Nat) : Nat := mget (0x7F * 2 ^ 42) c.pmcSel n

/-- Does counter `n` count an event (R417)? -/
def Cell.pmcHit (c : Cell) (n : Nat) (e : PmcEv) : Bool :=
  let sel := c.pmcSelOf n
  let rng := mget 0 c.pmcRange n
  let priv := bits sel 41 40
  bitAt sel 63 && bits sel 62 57 == e.cls && bits sel 56 49 == e.ev && bitAt sel (42 + e.master) &&
    (priv == 0 || (priv == 1 && e.byOwner) || (priv == 2 && e.byGuest)) &&
    (!bitAt sel 39 ||
      (match e.loc with
       | none => false
       | some (mem, off) => bits rng 63 60 == mem && decide (bits rng 39 20 ≤ off) && decide (off ≤ bits rng 19 0)))

/-- Count an event in the programmable counters of a cell (R417). -/
def Cell.countEv (c : Cell) (e : PmcEv) (n : Nat) : Cell :=
  if c.freeze then c
  else
    let step (m : SMap Counter) (i : Nat) := if c.pmcHit i e then mset m i ((mget {} m i).add n) else m
    { c with pmc := (List.range 8).foldl step c.pmc }

/-- The event of a cell's own program: scheduled master, the guest of its region (R417). -/
def schedEv (cls ev : Nat) : PmcEv := { cls := cls, ev := ev }

/-! ### Accesses of a cell's memories, counted (R61, R417) -/

/-- Memory codes: 1 weight, 2 activation, 3 partial-sum, 4 instruction, 5 rotor table (Table 2-18). -/
def memSize (mem : Nat) : Nat := lget 0 [0, 1048576, 196608, 32768, 16384, 512] mem

/-- Width of a word in octets (Table 2-8). -/
def memWidth (mem : Nat) : Nat := lget 1 [1, 64, 32, 64, 16, 8] mem

def memBanks (mem : Nat) : Nat := lget 1 [1, 16, 8, 4, 1, 1] mem

/-- Bank of a byte offset (R52). -/
def bankOf (mem offset : Nat) : Nat := offset / memWidth mem % memBanks mem

/-- Do the bank counters of a memory cover a bank (BANKCNT_SEL, Table 2-16)? -/
def Cell.bankHit (x : Cell) (mem bank : Nat) : Bool :=
  match mem with
  | 1 => bitAt x.bankSel 14 || bits x.bankSel 13 10 == bank
  | 2 => bitAt x.bankSel 9 || bits x.bankSel 8 6 == bank
  | 3 => bitAt x.bankSel 5 || bits x.bankSel 4 3 == bank
  | _ => false

/-- Add accesses, and narrow ones among them, to a memory's bank counters (R61). -/
def Cell.countBank (x : Cell) (mem n narrow : Nat) : Cell :=
  let k := 4 * (mem - 1)
  let m := if n = 0 then x.bankCnt else mset x.bankCnt k ((mget {} x.bankCnt k).add n)
  { x with bankCnt := if narrow = 0 then m else mset m (k + 1) ((mget {} m (k + 1)).add narrow) }

/-- Count one access in the MEMORY class: granted, narrow, granted in the background (Table 20-6). -/
def Cell.countMem (x : Cell) (ev : PmcEv) (mem offset : Nat) (narrow bg : Bool) : Cell :=
  let e (i : Nat) : PmcEv := { ev with cls := 3, ev := i, loc := some (mem, offset) }
  let x := x.countEv (e 1) 1
  let x := if narrow then x.countEv (e 2) 1 else x
  if bg then x.countEv (e 4) 1 else x

/-- Words below `n` that lie in a bank that the counters of a memory cover. -/
def Cell.coveredBelow (x : Cell) (mem n : Nat) : Nat :=
  ((List.range (memBanks mem)).map (fun b => if x.bankHit mem b then (n + memBanks mem - 1 - b) / memBanks mem else 0)).sum

/-- Background accesses of an engine to `len` octets of a memory, one for each word they touch: a staging read, an image write, a copy,
a scrub (R55, R61). They are counted, and do not stand in the queue of R56 (log 76). -/
def Cell.countBulk (x : Cell) (mem off len : Nat) (ev : PmcEv) : Cell :=
  if len = 0 ∨ memSize mem = 0 then x
  else
    let w := memWidth mem
    let first := off / w
    let last := (off + len - 1) / w
    let part (k : Nat) : Bool := decide (k * w < off) || decide (off + len < (k + 1) * w)
    let ends := ([first, last].eraseDups).filter part
    let x := x.countBank mem (x.coveredBelow mem (last + 1) - x.coveredBelow mem first)
      (ends.filter (fun k => x.bankHit mem (k % memBanks mem))).length
    if (List.range 8).any (fun i => bitAt (x.pmcSelOf i) 63 && bits (x.pmcSelOf i) 62 57 == 3) then
      (List.range (last + 1 - first)).foldl (fun y i => y.countMem ev mem ((first + i) * w) (part (first + i)) true) x
    else x

/-! ### Messages -/

/-- Addresses bound to the owner (R425, R428). -/
def State.ownerBound (s : State) (src : Nat) : Bool := s.ownerSrc.any (fun q => q.2.1 && q.2.2 == src)

/-- Does a guest bind a source address (Table 7-16)? -/
def State.guestBound (s : State) (g src : Nat) : Bool :=
  let x := s.guest g
  x.gstate == 1 && src != 0xFFFF && (x.src0 == src || x.src1 == src)

/-- Requester of an access by its source: the owner, a guest, or none (Table 21-2). -/
def State.requester (s : State) (src : Nat) : Option Requester :=
  if s.ownerBound src || !s.ownerSrc.any (fun q => q.2.1) then some 0
  else ((List.range 64).drop 1).find? (fun g => s.guestBound g src)

/-- Requester of a management access; before READY no access of a register with an owner is served (R404). -/
def State.accessor (s : State) (src : Nat) : Option Requester := if s.boot.ready then s.requester src else none

/-- A message the module originates (R298). -/
def State.sendMsg (s : State) (m : Msg) : State := { s with outbox := s.outbox ++ [{ time := s.time, msg := m }] }

/-- Send a completion or token record of a queue, on channel M (R161, R174). -/
def State.sendRecord (s : State) (q : Nat × Nat) (dest addr : Nat) (data : List Byte) : State :=
  let m : Msg := { kind := 0, vc := 1, dest := dest, src := s.fabricAddr, addr := addr % 2 ^ 48, payload := data }
  { s with outbox := s.outbox ++ [{ time := s.time, msg := m, queue := some q }] }

/-- Send a write message from this module. -/
def State.sendWrite (s : State) (vc dest addr : Nat) (data : List Byte) : State :=
  s.sendMsg { kind := 0, vc := vc, dest := dest, src := s.fabricAddr, addr := addr % 2 ^ 48, payload := data }

/-- The error completion that answers a failed message (R275): a write names the failed address, a read its
RTAG. -/
def State.sendError (s : State) (m : Msg) (code : Nat) : State :=
  let rd := m.kind = 1
  s.sendMsg { kind := 3, vc := m.vc, dest := m.src, src := s.fabricAddr,
              addr := if rd then leAt m.payload 4 4 else m.addr,
              payload := natLE 2 code ++ [if rd then 1 else 0, 0, 0, 0, 0, 0] }

/-- The error completion of a management access: a read names its tag, a write its address (R275). -/
def State.rejectAccess (s : State) (src addr rtag : Nat) (rd : Bool) (code : Nat) : State :=
  s.sendMsg { kind := 3, vc := 1, dest := src, src := s.fabricAddr, addr := if rd then rtag else addr,
              payload := natLE 2 code ++ [if rd then 1 else 0, 0, 0, 0, 0, 0] }

/-- The trace keeps the last 64 management accesses (22 R452). -/
def State.traced (s : State) (addr : Nat) (write : Bool) (val : Nat) : State :=
  { s with iface := { s.iface with trace := ({ addr := addr, write := write, val := val } :: s.iface.trace).take 64 } }

/-- The read response of a read request (R275). -/
def State.sendResponse (s : State) (m : Msg) (data : List Byte) : State :=
  s.sendMsg { kind := 2, vc := m.vc, dest := m.src, src := s.fabricAddr,
              addr := leAt m.payload 4 4, payload := data }

/-! ### Fault reports -/

/-- What a report collapses by, beside its time (R434). -/
def FaultRec.key (f : FaultRec) : List Nat :=
  [f.cls, f.code, f.region, f.guest, f.x, f.y, f.pane] ++
    (if f.cls = 2 ∨ f.cls = 3 ∨ f.cls = 8 then [f.detHi]
     else if f.cls = 7 then [if f.code = 1 then f.detHi / 256 * 256 else f.detHi]
     else if f.cls = 6 then
       (if f.code = 5 then [f.detHi % 65536] else if f.code = 6 then [f.detHi % 64]
        else if f.code = 7 ∨ f.code = 8 ∨ f.code = 9 ∨ f.code = 10 then [f.detHi / 2 ^ 57] else [])
     else [])

/-- A unit hands a report to the Lintel: it joins a pending one of its key, takes one of the unit's 8 places, or
is lost (R433). -/
def State.report (s : State) (unit : Nat) (f : FaultRec) : State :=
  let f := { f with first := s.nowNs, last := s.nowNs }
  let mine := s.reports.filter (fun p => p.unit == unit)
  if mine.any (fun p => p.fr.key == f.key) then
    { s with reports := s.reports.map (fun p =>
        if p.unit == unit && p.fr.key == f.key then { p with fr := { p.fr with count := p.fr.count + f.count, last := f.last } } else p) }
  else if mine.length ≥ 8 then
    { s with lost := satTo (2 ^ 32 - 1) (s.lost + 1), lostClass := f.cls }
  else { s with reports := s.reports ++ [⟨unit, f⟩] }

/-- Units that report: cells by number, then panes, ports, controllers, regions, the module. -/
def unitPane (p : Nat) : Nat := 1000000 + p
def unitPort (p : Nat) : Nat := 1001000 + p
def unitHbm (n : Nat) : Nat := 1002000 + n
def unitEngine (e : Nat) : Nat := 1003000 + e
def unitModule : Nat := 1004000

/-- A SECURITY report whose subject is the module (R398). -/
def State.security (s : State) (code detHi : Nat) : State :=
  s.report unitModule { cls := 6, code := code, detHi := detHi }

/-- STEP, BEAT and CYCLE of a record whose subject lies in a running region (R431). -/
def State.stamp (s : State) (r p : Nat) (f : FaultRec) : FaultRec :=
  let g := s.region r
  let f := { f with region := r, guest := g.guest }
  if g.state = 3 ∨ (g.state = 4 ∧ f.cls = 0) then
    { f with step := (match g.flight with | some fl => fl.number | none => g.stepNext - 1),
             beat := (s.pane p).beat, cycle := min (s.pane p).cyc (g.beatLen - 1) }
  else f

/-- A record whose subject is a cell (Table 21-9). -/
def State.cellRec (s : State) (c : Nat) (f : FaultRec) : FaultRec :=
  let f := { f with x := cellX c, y := cellY c, pane := paneOfCell c }
  match s.regionOfCell c with
  | some r => s.stamp r (paneOfCell c) f
  | none => f

/-- A record whose subject is a pane. -/
def State.paneRec (s : State) (p : Nat) (f : FaultRec) : FaultRec :=
  let f := { f with pane := p }
  match (s.pane p).region with
  | some r => s.stamp r p f
  | none => f

/-- FAULT_LATCH keeps the first fault after it was last cleared (Table 2-15). -/
def Cell.latchFault (x : Cell) (f : FaultRec) : Cell :=
  if x.latchReg.valid then x
  else { x with latchReg := { valid := true, iaddr := f.iaddr % 1024, code := f.code,
                              beat := f.beat % 2 ^ 25, cycle := f.cycle % 128 } }

end Sys2Proof.Machine
end

