-- ==== Sys2Proof/Machine/Repair.lean ====
section
/-! DEFINITION. The repair maps: rows, spares, crossing links, and recording a dead position (01 R22-R26, R36-R40). -/

namespace Sys2Proof.Machine

/-- Entries of the repair maps in force; a field repair map whose tag failed is left out (R38). -/
def Wafer.all (w : Wafer) : List Nat := w.fused ++ (if w.tagOk then w.field else []) ++ w.running

def entKind (e : Nat) : Nat := bits e 63 60
def entPane (e : Nat) : Nat := if bits e 57 51 < 6 then 738 + 4 * bits e 57 51 + bits e 50 47
  else if bits e 57 51 < 88 then 9 * (bits e 57 51 - 6) + bits e 50 47 else 738 + 4 * (bits e 57 51 - 82) + bits e 50 47

/-- Is a pane disabled for cell use (R26)? -/
def Wafer.disabled (w : Wafer) (p : Nat) : Bool :=
  w.all.any (fun e => (entKind e == 5 || entKind e == 6) && entPane e == p)

/-- Mapped-out physical columns of a pane row, and whether its spare is recorded bad (R22, R26). -/
def Wafer.mapped (w : Wafer) (p row : Nat) : List Nat :=
  ((w.all.filter (fun e => entKind e == 1 && entPane e == p && bits e 46 43 == row)).map (fun e => bits e 42 38)).eraseDups
def Wafer.spareBad (w : Wafer) (p row : Nat) : Bool :=
  w.all.any (fun e => entKind e == 2 && entPane e == p && bits e 46 43 == row)

/-- Current physical column of a logical column (R23). -/
def Wafer.physCol (w : Wafer) (p row j : Nat) : Nat :=
  match w.mapped p row with
  | d :: _ => if j < d then j else j + 1
  | [] => j

/-- Field and pane index in the field, of a pane (Tables 1-2, 1-3). -/
def fieldOfPane (p : Nat) : Nat :=
  if p < 738 then 6 + p / 9 else let s := (p - 738) / 4; if s < 6 then s else s + 82
def indexInField (p : Nat) : Nat := if p < 738 then p % 9 else (p - 738) % 4

/-- The crossing link an entry of KIND 3 or 4 names (Table 1-5). -/
def entCross (e : Nat) : Nat × Nat × Nat := crossName (bits e 57 51) (bits e 37 36) (bits e 22 20)

/-- Is the crossing link a cell sends over on side `d` disabled at that position (R36)? -/
def Wafer.crossDisabled (w : Wafer) (c d : Nat) : Bool :=
  (match neighbour c d with
   | none => (sillAcross c d).isSome
   | some n => !sameField c n) &&
    w.all.any (fun e => entKind e == 4 && entCross e == crossAt c d)

/-- Is the through-way of a pane down (R21)? -/
def Wafer.wayDown (w : Wafer) (p : Nat) : Bool := w.all.any (fun e => entKind e == 6 && entPane e == p)

/-- A repair map entry of KIND 1 to 5 (Table 1-5). -/
def repairEntry (kind source pane row pcol boot : Nat) : Nat :=
  kind * 2 ^ 60 + source * 2 ^ 58 + fieldOfPane pane * 2 ^ 51 + indexInField pane * 2 ^ 47 + row * 2 ^ 43 + pcol * 2 ^ 38 +
    boot % 65536 * 2 ^ 4

/-- An entry without its SOURCE and BOOT: what makes entries identical (R38). -/
def entryKey (e : Nat) : Nat := bits e 63 60 * 2 ^ 58 + bits e 57 20

/-- Record a repair: in the field repair map, or, when that is full, in the running map only with a REPAIR_MAP_FULL
fault (R37, R39). With a field repair map whose tag failed, the running map takes it as well. -/
def State.addRepair (s : State) (f : FaultRec) (e : Nat) : State :=
  if s.wafer.all.any (fun x => entryKey x == entryKey e) then s
  else if !s.wafer.tagOk then { s with wafer := { s.wafer with running := s.wafer.running ++ [e] } }
  else if s.wafer.field.length < 4096 then { s with wafer := { s.wafer with field := s.wafer.field ++ [e] } }
  else ({ s with wafer := { s.wafer with running := s.wafer.running ++ [e] } }).report unitModule { f with cls := 1, code := 4 }

/-- Is a pane row unrepairable (R26)? -/
def Wafer.unrepairable (w : Wafer) (p row : Nat) : Bool :=
  decide (2 ≤ (w.mapped p row).length) || (!(w.mapped p row).isEmpty && w.spareBad p row)

/-- DETAIL of a CELL fault: physical column and pane row (R432). -/
def cellDetail (prow pcol : Nat) : Nat := pcol + prow * 2 ^ 8

/-- Record the position of a dead cell from a run (SOURCE 0b10), and the pane as disabled when its row has become
unrepairable (R26, R27). -/
def State.mapOut (s : State) (c prow pcol : Nat) : State :=
  let p := paneOfCell c
  let f := s.cellRec c { cls := 1, code := 4, detHi := cellDetail prow pcol }
  let s := s.addRepair f (repairEntry 1 2 p prow pcol s.wafer.boots)
  if s.wafer.unrepairable p prow then s.addRepair f (repairEntry 5 2 p 0 0 s.wafer.boots) else s

/-- Is the cell's row being shifted (R31)? -/
def State.rowShifting (s : State) (c : Nat) : Bool :=
  match s.regionOfCell c with
  | some r => (s.region r).shifts.any (fun q => q.pane == paneOfCell c && q.prow == prowOf c)
  | none => false

/-- Address of a cell's window (02, Cell window). -/
def windowAddr (c off : Nat) : Nat := 0x1000000000 + cellY c * 2 ^ 22 + cellX c * 2 ^ 12 + off

/-- The error completion of an access to a cell's window (R15, R275). -/
def State.windowError (s : State) (c off src rtag : Nat) (rd : Bool) (code : Nat) : State :=
  s.rejectAccess src (windowAddr c off) rtag rd code

/-- Accesses held by a row-shift that does not come to its end: error completions, and no change (R31). -/
def State.dropHeld (s : State) (r : Nat) : State :=
  let hit (c : Nat) : Bool := s.regionOfCell c == some r && s.rowShifting c
  (s.windowHeld.filter (fun h => hit h.cell)).foldl (fun a h => a.windowError h.cell h.off h.src h.rtag h.val.isNone 4)
    { s with windowHeld := s.windowHeld.filter (fun h => !hit h.cell) }

end Sys2Proof.Machine
end

