-- ==== Sys2Proof/Machine/Queue.lean ====
section
/-! DEFINITION. Queues of the four engines: starting and completing entries, completion records (07 R149-R163). -/

namespace Sys2Proof.Machine

/-! ### Status codes (Tables 7-18, 17-2) -/

def stOK : Nat := 0
def stDeferred : Nat := 1
def stSkipped : Nat := 2
def stCancelled : Nat := 3
def stBadList : Nat := 0x10
def stBadEntry : Nat := 0x11
def stQueueFull : Nat := 0x12
def stNotPermitted : Nat := 0x13
def stWaitTimeout : Nat := 0x14
def stNoRegion : Nat := 0x15
def stGuestDeleted : Nat := 0x16
def stGuestExists : Nat := 0x17
def stNoGuest : Nat := 0x18
def stAuthFailed : Nat := 0x20
def stNoImageSpace : Nat := 0x30
def stBadSignature : Nat := 0x31
def stBadFormat : Nat := 0x32
def stWrongPart : Nat := 0x33
def stClassMismatch : Nat := 0x34
def stGuestMismatch : Nat := 0x35
def stPlaceIncompat : Nat := 0x36
def stPlaceConflict : Nat := 0x37
def stQuotaExceeded : Nat := 0x38
def stRegionBusy : Nat := 0x39
def stPowerDeferred : Nat := 0x3A
def stLoadAborted : Nat := 0x3B
def stSlotInUse : Nat := 0x40
def stSlotNotOpen : Nat := 0x41
def stSlotQuota : Nat := 0x42
def stTemplateKind : Nat := 0x43
def stShardFailed : Nat := 0x50
def stShardTimeout : Nat := 0x51
def stSwingRefused : Nat := 0x52
def stGenUnknown : Nat := 0x53
def stGenInUse : Nat := 0x54
def stParkExpired : Nat := 0x60
def stNoPages : Nat := 0x61
def stHandleUnknown : Nat := 0x62
def stProfileCapped : Nat := 0x70
def stNoGrant : Nat := 0x71
def stSprintHeat : Nat := 0x72
def stWearSpent : Nat := 0x73

/-! ### Entry fields (Table 7-3) -/

def Entry.op (e : Entry) : Nat := bits e.word 255 248
def Entry.fence (e : Entry) : Bool := bitAt e.word 247
def Entry.notify (e : Entry) : Bool := bitAt e.word 246

def State.queue (s : State) (g e : Nat) : Queue := mget {} (s.guest g).queues e
def State.setQueue (s : State) (g e : Nat) (q : Queue) : State :=
  s.modGuest g (fun x => { x with queues := mset x.queues e q })

/-- DONE_SEQ: lists 1 to n have all retired (R155). -/
def Queue.doneSeq (q : Queue) : Nat := q.lists.foldl (fun a l => min a (l.seq - 1)) (q.nextSeq - 1)

/-- Lists held (Table 7-14). -/
def Queue.depth (q : Queue) : Nat := q.lists.length

/-- The list of a sequence number. -/
def Queue.list (q : Queue) (seq : Nat) : Option ListRec := q.lists.find? (fun l => l.seq == seq)

/-- The first entry of a queue that has not started, with its list and index (R152). -/
def Queue.next (q : Queue) : Option (ListRec × Nat × Entry) :=
  q.lists.findSome? (fun l =>
    (l.entries.findIdx? (fun e => e.prog == 0)).bind (fun i => (l.entries[i]?).map (fun e => (l, i, e))))

/-- Has every entry before the first waiting one completed (FENCE, R152)? A critical entry does not wait for its own
AUTH (DEDUCED, log 26). -/
def Queue.earlierDone (q : Queue) (seq idx : Nat) : Bool :=
  q.lists.all (fun l => (List.range l.entries.length).all (fun i =>
    match l.entries[i]? with
    | some e => e.prog != 1 || (l.seq == seq && i + 1 == idx && e.op == 2)
    | none => true))

/-- The entry of a queue that may start now: the next one, when its FENCE is satisfied (R152). -/
def Queue.mayStart (q : Queue) : Option (ListRec × Nat × Entry) :=
  match q.next with
  | some (l, i, e) => if e.fence && !q.earlierDone l.seq i then none else some (l, i, e)
  | none => none

/-- Critical opcodes, and owner-only ones (Table 7-4). -/
def opCritical (op : Nat) : Bool := [0x21, 0x40, 0x41, 0x48, 0x49, 0x4A].contains op
def opOwner (op : Nat) : Bool := [0x48, 0x49, 0x4A].contains op

def State.modKeeper (s : State) (f : Keeper → Keeper) : State := { s with keeper := f s.keeper }
def State.cmdKey (s : State) (g : Nat) : Option CmdKey := (s.keeper.keys.find? (fun p => p.1 == g)).map (·.2)

/-- May the Keeper check a pair of this key now, or does it delay it (R378)? A Keeper that is not OPERATIONAL refuses it at once
(R379). -/
def State.keyReady (s : State) (g : Nat) : Bool :=
  s.keeper.st != 2 || (match s.cmdKey g with | none => true | some k => decide (k.busyUntil ≤ s.time))

/-- Does a queue have an entry that may start now? A critical one waits while the Keeper delays its key's checks (R154, R378). -/
def State.queueReady (s : State) (g e : Nat) : Bool :=
  match (s.queue g e).mayStart with
  | some (_, _, x) => !opCritical x.op || s.keyReady g
  | none => false

/-- Is it this guest's turn: the owner first, then round robin after the guest served last (R154)? -/
def State.turn (s : State) (g e : Nat) : Bool :=
  let a := mget {} s.arb e
  let ready (h : Nat) : Bool := s.queueReady h e
  let dist (h : Nat) : Nat := (h + 63 - a.last) % 64
  decide (a.nextAt ≤ s.time) &&
    (g == 0 || (!ready 0 && (List.range 64).all (fun h => h == 0 || !ready h || decide (dist g ≤ dist h))))

/-- Arbitration cycle of an engine: 10 ns for Step, 50 ns for the others (R154). -/
def arbCycle (e : Nat) : Nat := if e = 0 then ns 10 else ns 50

/-- Names of the entry at the head of a queue. -/
def State.entry (s : State) (id : EntryId) : Option Entry :=
  ((s.queue id.guest id.engine).list id.seq).bind (fun l => l.entries[id.idx]?)

/-- Change one entry. -/
def State.modEntry (s : State) (id : EntryId) (f : Entry → Entry) : State :=
  let q := s.queue id.guest id.engine
  s.setQueue id.guest id.engine { q with lists := q.lists.map (fun l =>
    if l.seq == id.seq then { l with entries := l.entries.modify id.idx f } else l) }

/-- A completion record (Table 7-17) as 32 octets. -/
def compRecord (seq tag engine guest idx : Nat) (isList : Bool) (status result time : Nat) : List Byte :=
  natLE 32 (seq % 2 ^ 48 * 2 ^ 208 + tag % 2 ^ 32 * 2 ^ 176 + engine % 4 * 2 ^ 174 + guest % 64 * 2 ^ 168 +
    idx % 2 ^ 11 * 2 ^ 157 + bit isList * 2 ^ 156 + status % 2 ^ 16 * 2 ^ 128 +
    result % 2 ^ 64 * 2 ^ 64 + time % 2 ^ 64)

/-- Send the record of an entry (R161). RESULT is stated for a STEP of which a step has ended, and for a WLOAD or PARK that completes with
OK; any other is a free value (R159, log 30). -/
def State.sendEntryRecord (s : State) (l : ListRec) (id : EntryId) (status result : Nat) : State :=
  let e := (l.entries[id.idx]?).getD { word := 0 }
  let known := (e.op == 0x10 && e.ran && status != stDeferred) || (status == 0 && (e.op == 0x20 || e.op == 0x30))
  let res := if known then result else (Config.recordResult l.seq id.idx).toNat
  s.sendRecord (id.guest, id.engine) l.sinkFa (l.sinkAddr + 8192 + 32 * id.idx)
    (compRecord l.seq l.tag id.engine id.guest id.idx false status res s.nowNs)

/-- Send the record of a list (R161). -/
def State.sendListRecord (s : State) (l : ListRec) (engine guest status result : Nat) : State :=
  s.sendRecord (guest, engine) l.sinkFa (l.sinkAddr + 32 * (l.seq % 256))
    (compRecord l.seq l.tag engine guest 0x7FF true status result s.nowNs)

/-- The first entry of a list that is not complete with OK, where every entry before it is complete: with another status it is the
list's first failing entry, whose record is sent (R153, R161). -/
def State.sendFirstFail (s : State) (id : EntryId) : State :=
  let q := s.queue id.guest id.engine
  match q.list id.seq with
  | none => s
  | some l =>
    if l.failSent then s
    else
      match l.entries.findIdx? (fun x => x.prog != 2 || x.status != 0) with
      | none => s
      | some k =>
        let x := (l.entries[k]?).getD { word := 0 }
        if x.prog ≠ 2 then s
        else
          let s := s.setQueue id.guest id.engine { q with lists := q.lists.map (fun m =>
            if m.seq == id.seq then { m with failSent := true } else m) }
          if x.notify then s else s.sendEntryRecord l { id with idx := k } x.status x.result

/-- Mark one entry complete, and send its record when it asks for one; the record of the list's first failing entry goes out too
(R161). -/
def State.finishOne (s : State) (id : EntryId) (status result : Nat) : State :=
  match (s.queue id.guest id.engine).list id.seq with
  | none => s
  | some l =>
    let e := (l.entries[id.idx]?).getD { word := 0 }
    let s := s.modEntry id (fun e => { e with prog := 2, status := status, result := result })
    (if e.notify then s.sendEntryRecord l id status result else s).sendFirstFail id

/-- Retire a list whose entries are all complete: its list record, and its place in the queue (R149, R161). -/
def State.retireList (s : State) (g e seq : Nat) : State :=
  let q := s.queue g e
  match q.list seq with
  | none => s
  | some l =>
    if l.entries.all (fun x => x.prog == 2) then
      let status := ((l.entries.find? (fun x => x.status != 0)).map (·.status)).getD 0
      let okCount := (l.entries.filter (fun x => x.status == 0)).length
      (s.setQueue g e { q with lists := q.lists.filter (fun m => m.seq != seq) }).sendListRecord l e g status okCount
    else s

/-- Entries of a list: which of them `p` holds for. -/
def State.entriesOf (s : State) (id : EntryId) (p : Nat → Entry → Bool) : List Nat :=
  match (s.queue id.guest id.engine).list id.seq with
  | none => []
  | some l => (List.range l.entries.length).filter (fun i =>
      match l.entries[i]? with | some x => p i x | none => false)

/-- An AUTH entry that has started completes with the status of the entry after it (R157). -/
def State.settleAuth (s : State) (id : EntryId) : State :=
  (s.entriesOf id (fun _ x => x.op == 2 && x.prog == 1)).foldl (fun a i =>
    match a.entry { id with idx := i + 1 } with
    | some y => if y.prog = 2 then a.finishOne { id with idx := i } y.status 0 else a
    | none => a) s

/-- The WAIT entries of a guest that have started, with their words (R155). -/
def State.startedWaits (s : State) (g : Nat) : List (EntryId × Nat) :=
  [0, 1, 2, 3].flatMap (fun e =>
    (s.queue g e).lists.flatMap (fun l =>
      (List.range l.entries.length).filterMap (fun i =>
        match l.entries[i]? with
        | some x => if x.op = 1 ∧ x.prog = 1 then some (⟨g, e, l.seq, i⟩, x.word) else none
        | none => none)))

/-- Has the list a WAIT awaits retired, with every list before it (R155)? -/
def State.waitMet (s : State) (g w : Nat) : Bool := decide (bits w 221 174 ≤ (s.queue g (bits w 223 222)).doneSeq)

/-- WAIT entries whose DONE_SEQ is reached complete with OK (R155). The number bounds them. -/
def State.settleWaits (s : State) (g : Nat) : Nat → State
  | 0 => s
  | n + 1 =>
    match (s.startedWaits g).find? (fun q => s.waitMet g q.2) with
    | none => s
    | some (id, _) => ((s.finishOne id stOK 0).retireList id.guest id.engine id.seq).settleWaits g n

/-- Complete an entry with a final status (R153, R161): its AUTH entry with the same status before it (R157), its
record, SKIPPED for later entries of its list that have not started when it failed, and the list's record with the
last. -/
def State.complete (s : State) (id : EntryId) (status result : Nat) : State :=
  match s.entry id with
  | none => s
  | some e =>
    if e.prog = 2 then s
    else
      let s := match s.entry { id with idx := id.idx - 1 } with
        | some a => if 0 < id.idx ∧ a.op = 2 ∧ a.prog = 1 then s.finishOne { id with idx := id.idx - 1 } status 0 else s
        | none => s
      let s := s.finishOne id status result
      let s := if status = 0 then s
        else
          let later := s.entriesOf id (fun i x => decide (id.idx < i) && x.prog == 0)
          (later.foldl (fun a i => a.finishOne { id with idx := i } stSkipped 0) s).settleAuth id
      let s := s.retireList id.guest id.engine id.seq
      s.settleWaits id.guest (s.startedWaits id.guest).length

/-- An interim DEFERRED record (R159). -/
def State.sendDeferred (s : State) (id : EntryId) : State :=
  match (s.queue id.guest id.engine).list id.seq with
  | none => s
  | some l => s.sendEntryRecord l id stDeferred 0

/-- Mark the entry started, and note the arbitration: the owner's turns leave the round of the guests where it is (R152, R154). -/
def State.startEntry (s : State) (id : EntryId) : State :=
  let s := s.modEntry id (fun e => { e with prog := 1, startAt := s.time })
  let last := if id.guest = 0 then (mget {} s.arb id.engine).last else id.guest
  { s with arb := mset s.arb id.engine ⟨last, s.time + arbCycle id.engine⟩ }

/-- Start the next entry of queue (g, e) when its OP is one of `ops` and it is its turn; `f` gets the state with
the entry started, its name and its word. Anything else leaves the state as it is. -/
def withEntry (g e : Nat) (ops : List Nat) (s : State) (f : State → EntryId → Nat → State) : Out :=
  if 64 ≤ g ∨ 4 ≤ e then .next s
  else
    match (s.queue g e).mayStart with
    | some (l, i, x) =>
      if x.op ∈ ops ∧ s.turn g e ∧ s.boot.ready then
        let id : EntryId := ⟨g, e, l.seq, i⟩
        .next (f (s.startEntry id) id x.word)
      else .next s
    | none => .next s

/-- May the queue's guest name this region, and does its state allow the command (R151, R460)? -/
def State.regionOk (s : State) (g r : Nat) (states : List Nat) : Bool :=
  let x := s.region r
  (g == 0 || (x.guest == g && x.state != 0)) && x.state ∈ states

end Sys2Proof.Machine
end

