-- ==== Sys2Proof/Machine/Kv.lean ====
section
/-! DEFINITION. HBM units and KV pages: allocation, reservation, sharing, freeing, demotion, dropping, appending
(09 R186-R211, 12 R256-R258). Free things are taken lowest first (log 21). -/

namespace Sys2Proof.Machine

/-! ### HBM units (12 R256-R258) -/

/-- Units of the module (R256). -/
def hbmUnits : Nat := 375000000

/-- Take the units `a` to `a + n − 1` out of the runs. -/
def cutExtents : List Extent → Nat → Nat → List Extent
  | [], _, _ => []
  | x :: r, a, n =>
    (if x.start + x.len ≤ a ∨ a + n ≤ x.start then [x]
     else
      (if x.start < a then [{ x with len := a - x.start }] else []) ++
      (if a + n < x.start + x.len then [{ x with start := a + n, len := x.start + x.len - (a + n) }] else [])) ++
      cutExtents r a n

/-- Put a run among the runs, by first unit. -/
def insExtent : List Extent → Extent → List Extent
  | [], e => [e]
  | x :: r, e => if e.start ≤ x.start then e :: x :: r else x :: insExtent r e

/-- Lowest first unit, from `cand` up, of `n` units none of which is allocated or retired. -/
def findUnits : List Extent → Nat → Nat → Nat
  | [], cand, _ => cand
  | x :: r, cand, n =>
    if x.st = 0 ∨ x.st = 2 then findUnits r cand n
    else if cand + n ≤ x.start then cand
    else findUnits r (max cand (x.start + x.len)) n

/-- Units allocated to a guest. -/
def State.unitsOf (s : State) (g : Nat) : Nat :=
  s.extents.foldl (fun a x => if x.st = 1 ∧ x.guest = g then a + x.len else a) 0

/-- Does the guest's HBM allowance leave room for `n` more units (R143)? The owner has no allowance. -/
def State.hbmAllows (s : State) (g n : Nat) : Bool :=
  g == 0 || decide ((s.unitsOf g + n) * 4096 ≤ (s.guest g).hbm * 1000000000)

/-- Units `a` to `a + n − 1` have been zeroed or given out: a descriptor whose released home lay there has no more of it pending
(R189, R210). -/
def State.clearPending (s : State) (a n : Nat) : State :=
  let pending (d : Desc) : Bool := s.extents.any (fun x => x.st == 2 && decide (x.start < d.loc + d.units ∧ d.loc < x.start + x.len))
  let clear (d : Desc) : Desc := if d.zpend && decide (d.loc < a + n ∧ a < d.loc + d.units) && !pending d then { d with zpend := false } else d
  { s with cache := { s.cache with desc := (mmap (fun _ d => clear d) s.cache.desc).filter (fun q => q.2.valid || q.2.zpend) } }

/-- Units are zeroed and free; the map keeps their last guest (R257, R258). -/
def State.zeroUnits (s : State) (a n g : Nat) : State :=
  ({ s with hbm := s.hbm.zero (a * 4096) (n * 4096), extents := insExtent (cutExtents s.extents a n) ⟨a, n, 0, g⟩ }).clearPending a n

/-- Mark units allocated; units that held another guest's data are zeroed first (R210, R258). -/
def State.markUnits (s : State) (a n g : Nat) : State :=
  let dirty := s.extents.filter (fun x => x.st == 2 && x.guest != g && decide (x.start < a + n ∧ a < x.start + x.len))
  let hbm := dirty.foldl
    (fun m x => let lo := max x.start a; let hi := min (x.start + x.len) (a + n); m.zero (lo * 4096) ((hi - lo) * 4096)) s.hbm
  ({ s with hbm := hbm, extents := insExtent (cutExtents s.extents a n) ⟨a, n, 1, g⟩ }).clearPending a n

/-! ### Channels and banks (R256, R263) -/

/-- Stack, channel, bank and row of a unit. -/
def unitStack (u : Nat) : Nat := u % 24
def unitChannel (u : Nat) : Nat := u / 24 % 32
def unitBank (u : Nat) : Nat := u / 24 / 32 % 64

def State.hctl (s : State) (n : Nat) : HbmCtl := mget {} s.hbmCtl n
def HbmCtl.chan (h : HbmCtl) (c : Nat) : HbmTarget := mget {} h.chans c
def HbmCtl.bank (h : HbmCtl) (c b : Nat) : HbmTarget := mget {} h.banks (64 * c + b)

/-- State of a bank: as its own commands left it, under its channel's, whose close covers it (R264, R265, Table 12-3). -/
def HbmCtl.bankState (h : HbmCtl) (c b : Nat) : Nat :=
  let p := (h.chan c).state
  let q := (h.bank c b).state
  if p = 4 then 4 else if p = 2 ∨ q = 2 then 2 else if p = 3 ∨ q = 3 then 3 else max p q

/-- State of the bank a unit lies in. -/
def State.unitState (s : State) (u : Nat) : Nat := (s.hctl (unitStack u)).bankState (unitChannel u) (unitBank u)

/-- Does a unit lie in a target: a channel, or one bank of it? -/
def unitIn (n c : Nat) (b : Option Nat) (u : Nat) : Bool :=
  unitStack u == n && unitChannel u == c && (match b with | none => true | some k => unitBank u == k)

/-- The inbound write counter of a target: writes accepted and not yet in the stack, which wait for an OPENING target. Every other write
reaches the stack in its own command (R263; log 37). -/
def HbmCtl.writes (h : HbmCtl) (n c : Nat) (b : Option Nat) : Nat :=
  (h.waiting.filter (fun w => w.read.isNone && unitIn n c b (w.addr / 4096))).length

/-- Is a read held for its retry of a use (R260)? -/
def State.readHeld (s : State) (p : HbmUse → Bool) : Bool := s.hbmCtl.any (fun q => q.2.held.any (fun h => p h.use))

/-- Is some channel or bank not ACTIVE? -/
def State.anyShut (s : State) : Bool :=
  s.hbmCtl.any (fun q => q.2.chans.any (fun t => t.2.state != 0) || q.2.banks.any (fun t => t.2.state != 0))

/-- Lowest first unit, from `lo` up, of `n` free units of ACTIVE targets (R264). `fuel` bounds the tries: 49,152 units pass
every bank of the module. -/
def State.findOpen (s : State) (n : Nat) : Nat → Nat → Nat
  | 0, lo => findUnits s.extents lo n
  | k + 1, lo =>
    let a := findUnits s.extents lo n
    match ((List.range (min n 49152)).find? (fun i => s.unitState (a + i) != 0)) with
    | none => a
    | some i => s.findOpen n k (a + i + 1)

/-- Allocate `n` consecutive units to a guest, from unit `lo` up. -/
def State.allocUnits (s : State) (g n lo : Nat) : Option (Nat × State) :=
  let a := if s.anyShut then s.findOpen n 98304 lo else findUnits s.extents lo n
  if a + n ≤ hbmUnits ∧ (!s.anyShut || (List.range (min n 49152)).all (fun i => s.unitState (a + i) == 0)) ∧ s.hbmAllows g n then some (a, s.markUnits a n g)
  else none

/-- Allocate `n` consecutive units whose stacks differ, place for place, from those of a run that starts at unit `a` (R203, R256). -/
def State.allocOther (s : State) (g n a : Nat) : Nat → Nat → Option (Nat × State)
  | 0, _ => none
  | fuel + 1, lo =>
    match s.allocUnits g n lo with
    | none => none
    | some (b, t) => if b % 24 ≠ a % 24 then some (b, t) else s.allocOther g n a fuel (b + 1)

/-- Free units: they wait for zeroing and keep their guest (R257). A retired unit stays retired. -/
def State.freeUnits (s : State) (a n : Nat) : State :=
  { s with extents := s.extents.flatMap (fun x =>
      if x.st ≠ 1 ∨ x.start + x.len ≤ a ∨ a + n ≤ x.start then [x]
      else
        let lo := max x.start a
        let hi := min (x.start + x.len) (a + n)
        (if x.start < lo then [{ x with len := lo - x.start }] else []) ++
        [{ x with start := lo, len := hi - lo, st := 2 }] ++
        (if hi < x.start + x.len then [{ x with start := hi, len := x.start + x.len - hi }] else [])) }

/-- Can unit `u` be allocated: free, in an ACTIVE target (R264)? -/
def State.unitOpen (s : State) (u : Nat) : Bool :=
  decide (u < hbmUnits) && findUnits s.extents u 1 == u && s.unitState u == 0

/-- `n` units from unit `lo` up, as runs of consecutive ones. `fuel` bounds the runs. -/
def State.takeRuns (s : State) : Nat → Nat → Nat → Option (List (Nat × Nat))
  | _, _, 0 => some []
  | 0, _, _ + 1 => none
  | k + 1, lo, n + 1 =>
    let a := s.findOpen 1 98304 lo
    if s.unitOpen a then
      let len := ((List.range (n + 1)).find? (fun i => !s.unitOpen (a + i))).getD (n + 1)
      (s.takeRuns k (a + len) (n + 1 - len)).map (fun r => (a, len) :: r)
    else none

/-- Allocate `n` units to a guest for a copy that need not be consecutive: one run where there is one, else the lowest units
that can be allocated (R257). -/
def State.allocCopy (s : State) (g n : Nat) : Option (List (Nat × Nat) × State) :=
  match s.allocUnits g n 0 with
  | some (a, t) => some ([(a, n)], t)
  | none =>
    if s.hbmAllows g n then
      (s.takeRuns n 0 n).map (fun l => (l, l.foldl (fun t r => t.markUnits r.1 r.2 g) s))
    else none

/-- Free the units of a copy. -/
def State.freeRuns (s : State) (l : List (Nat × Nat)) : State := l.foldl (fun a r => a.freeUnits r.1 r.2) s

/-- Octets `off` to `off + n − 1` of a copy. -/
def readRuns (m : Mem) : List (Nat × Nat) → Nat → Nat → List Byte
  | [], _, _ => []
  | (a, len) :: r, off, n =>
    if len * 4096 ≤ off then readRuns m r (off - len * 4096) n
    else
      let k := min n (len * 4096 - off)
      m.read (a * 4096 + off) k ++ (if k = n then [] else readRuns m r 0 (n - k))

/-- Write octets into a copy from offset `off`. -/
def writeRuns (m : Mem) : List (Nat × Nat) → Nat → List Byte → Mem
  | [], _, _ => m
  | (a, len) :: r, off, d =>
    if len * 4096 ≤ off then writeRuns m r (off - len * 4096) d
    else
      let k := len * 4096 - off
      let m := m.write (a * 4096 + off) (d.take k)
      if d.length ≤ k then m else writeRuns m r 0 (d.drop k)

/-- Place of a unit within a copy. -/
def placeIn : List (Nat × Nat) → Nat → Option Nat
  | [], _ => none
  | (a, len) :: r, u => if a ≤ u ∧ u < a + len then some (u - a) else (placeIn r u).map (fun k => len + k)

/-- Unit of a place within a copy. -/
def unitAt : List (Nat × Nat) → Nat → Nat
  | [], k => k
  | (a, len) :: r, k => if k < len then a + k else unitAt r (k - len)

/-- A copy with unit `u` in the place of unit `old`. -/
def replaceUnit (old u : Nat) : List (Nat × Nat) → List (Nat × Nat)
  | [] => []
  | (a, len) :: r =>
    if a ≤ old ∧ old < a + len then ([(a, old - a), (u, 1), (old + 1, a + len - old - 1)].filter (fun q => q.2 != 0)) ++ r
    else (a, len) :: replaceUnit old u r

/-- Retire one unit (R260). -/
def State.retireUnit (s : State) (u : Nat) : State :=
  let g := ((s.extents.find? (fun x => decide (x.start ≤ u ∧ u < x.start + x.len))).map (·.guest)).getD 0
  { s with extents := insExtent (cutExtents s.extents u 1) ⟨u, 1, 3, g⟩ }

/-! ### Descriptors -/

def State.desc (s : State) (d : Nat) : Desc := mget {} s.cache.desc d
def State.setDesc (s : State) (d : Nat) (x : Desc) : State :=
  { s with cache := { s.cache with desc := mset s.cache.desc d x } }
def State.modDesc (s : State) (d : Nat) (f : Desc → Desc) : State := s.setDesc d (f (s.desc d))
def State.delDesc (s : State) (d : Nat) : State :=
  { s with cache := { s.cache with desc := mdel s.cache.desc d } }

/-- Lowest number from `k` up that a rising table does not list. -/
def lowestFree {α : Type} : SMap α → Nat → Nat
  | [], k => k
  | (i, _) :: r, k => if i = k then lowestFree r (k + 1) else k

/-- Lowest descriptor that is not allocated (R190). -/
def State.freeDesc (s : State) : Nat := lowestFree (s.cache.desc.filter (fun q => q.2.valid)) 0

/-- Number of the highest step a region has admitted, modulo 2^32 (R199). -/
def Region.epochNow (x : Region) : Nat := (x.stepNext + 2 ^ 32 - 1) % 2 ^ 32

/-- Has a region ended every step up to `e`, counting modulo 2^32 (R199)? -/
def Region.epochPassed (x : Region) (e : Nat) : Bool :=
  match x.flight with
  | none => true
  | some f => decide (0 < (f.number + 2 ^ 32 - e) % 2 ^ 32 ∧ (f.number + 2 ^ 32 - e) % 2 ^ 32 < 2 ^ 31)

/-- Release the frames and homes whose epoch has passed (R199). -/
def State.settleHolds (s : State) : State :=
  let ok (r e : Nat) : Bool := (s.region r).epochPassed e
  let due := s.cache.unitHolds.filter (fun h => ok h.1 h.2.2.2)
  let cache := { s.cache with
    frameHolds := s.cache.frameHolds.filter (fun h => !ok h.1 h.2.2.2)
    unitHolds := s.cache.unitHolds.filter (fun h => !ok h.1 h.2.2.2) }
  due.foldl (fun a h => a.freeUnits h.2.1 h.2.2.1) { s with cache := cache }

/-- Frames of a region's layer that no page and no hold has (R192). -/
def State.freeFrame (s : State) (r : Nat) (l : KvLayer) : Option Nat :=
  let used := (s.cache.desc.filter (fun d => d.2.valid && d.2.region == r && !d.2.unbound && d.2.layer == l.layer && decide (d.2.tier ≥ 2))).map (·.2.frame) ++
    (s.cache.frameHolds.filter (fun h => h.1 == r && h.2.1 == l.layer)).map (·.2.2.1)
  (List.range l.frames).find? (fun f => !used.contains f)

/-- Bytes per slice and units per home image of a layer (R187, R188). -/
def KvLayer.slice (l : KvLayer) : Nat := l.units * 64
def KvLayer.rb (l : KvLayer) : Nat := l.units / 4
def KvLayer.homeUnits (l : KvLayer) : Nat := ceilDiv (l.cells * l.slice) 4096

/-- Layers of a region's image, in MEMMAP order. -/
def Region.kv (x : Region) : List KvLayer := match x.image with | some i => i.kv | none => []

def Region.slot (x : Region) (n : Nat) : SeqSlot := mget {} x.slots n
def State.slot (s : State) (r n : Nat) : SeqSlot := (s.region r).slot n
def State.modSlot (s : State) (r n : Nat) (f : SeqSlot → SeqSlot) : State :=
  s.modRegion r (fun x => { x with slots := mset x.slots n (f (x.slot n)) })

/-- Slots of the step in flight: their pages are pinned (R192). -/
def Region.flightSlots (x : Region) : List Nat :=
  match x.flight with
  | some f => (f.positions.filterMap (·.slot)).eraseDups
  | none => []

/-- Every descriptor a slot refers to, page order within each layer. -/
def SeqSlot.descs (x : SeqSlot) : List Nat := x.pages.flatMap (·.2)

/-- Demote: release the frame of a Framed page under the epoch rule; the home is current (R200). -/
def State.demote (s : State) (d : Nat) : State :=
  let x := s.desc d
  if x.valid && x.tier == 2 then
    let stamp := (s.region x.region).epochNow
    let s := s.setDesc d { x with tier := 1, frame := 0 }
    { s with cache := { s.cache with frameHolds := s.cache.frameHolds ++ [(x.region, x.layer, x.frame, stamp)] } }
  else s

/-- Demote the Framed pages of one unpinned slot, or of one parked sequence, that has such a page of the layer: the one admitted
longest ago (R200). Answers none when there is none. `pinned` are slots being admitted. -/
def State.demoteOne (s : State) (r : Nat) (l : KvLayer) (pinned : List Nat) : Option State :=
  let x := s.region r
  let pins := pinned ++ x.flightSlots
  let pinDescs := pins.flatMap (fun n => (x.slot n).descs)
  let canDemote (d : Nat) : Bool := let y := s.desc d; y.tier == 2 && y.region == r && !y.unbound && !pinDescs.contains d
  let holders := (x.slots.filter (fun p => !pins.contains p.1)).map (·.2) ++ (s.cache.parks.filter (fun p => p.2.state == 1)).map (·.2.slot)
  match holders.filter (fun h => h.descs.any (fun d => canDemote d && (s.desc d).layer == l.layer)) with
  | [] => none
  | c :: cs =>
    let v := cs.foldl (fun a b => if b.lastStep < a.lastStep then b else a) c
    some ((v.descs.filter canDemote).foldl (fun a d => a.demote d) s).settleHolds

/-- A frame of a layer, demoting as R200 says; the demotions stand when none is found. `fuel` bounds the holders demoted. -/
def State.takeFrame (s : State) (r : Nat) (l : KvLayer) (pinned : List Nat) : Nat → Option Nat × State
  | 0 => (s.freeFrame r l, s)
  | n + 1 =>
    match s.freeFrame r l with
    | some f => (some f, s)
    | none =>
      match s.demoteOne r l pinned with
      | some s' => s'.takeFrame r l pinned n
      | none => (none, s)

/-- Drop a page's home: it becomes Absent, its frame and home released under the epoch rule (R201, R207). -/
def State.dropDesc (s : State) (d : Nat) : State :=
  let x := s.desc d
  if x.valid && x.tier != 0 then
    let stamp := (s.region x.region).epochNow
    let s := s.setDesc d { x with tier := 0, frame := 0, zpend := true }
    { s with cache := { s.cache with
        frameHolds := s.cache.frameHolds ++ (if x.tier ≥ 2 then [(x.region, x.layer, x.frame, stamp)] else [])
        unitHolds := s.cache.unitHolds ++ [(x.region, x.loc, x.units, stamp)] } }
  else s

/-- Descriptors of a sequence, last page first (R201). -/
def SeqSlot.lastFirst (x : SeqSlot) : List Nat :=
  let pages := x.pages.foldl (fun a q => max a q.2.length) 0
  (List.range pages).reverse.flatMap (fun j => x.pages.filterMap (fun q => q.2[j]?))

/-- Who may be dropped for a guest, in the order of R201: each victim's pages, last page first. -/
def State.dropOrder (s : State) (g : Nat) (pinned : List Nat) (r : Nat) : List (List Nat) :=
  let slotsOf (st : Nat) : List (Nat × Nat × SeqSlot) :=
    s.regions.flatMap (fun p => (p.2.slots.filter (fun q => q.2.guest == g && q.2.state == st)).map (fun q => (p.1, q.1, q.2)))
  let inSlots := s.regions.flatMap (fun p => p.2.slots.flatMap (fun q => if q.2.state = 0 then [] else q.2.descs))
  let parks := sortBy (fun (a b : ParkRec) => decide (a.expiry ≤ b.expiry))
    ((s.cache.parks.filter (fun p => p.2.guest == g && p.2.state == 1)).map (·.2))
  let pinDescs := (pinned.flatMap (fun n => (s.slot r n).descs)) ++
    s.regions.flatMap (fun p => p.2.flightSlots.flatMap (fun n => (p.2.slot n).descs))
  let free (x : SeqSlot) : List Nat := x.lastFirst.filter (fun d => !pinDescs.contains d)
  parks.map (fun p => p.slot.lastFirst.filter (fun d => !inSlots.contains d)) ++
    (sortBy (fun a b => decide (a.2.1 ≤ b.2.1)) (slotsOf 5)).map (fun q => free q.2.2) ++
    (sortBy (fun a b => decide (a.2.2.lastStep ≤ b.2.2.lastStep)) (slotsOf 2)).map (fun q => free q.2.2)

/-- Drop the whole of one victim's pages after another until the need is met; counts the pages (R201). -/
def dropUntil (ok : State → Bool) : List (List Nat) → State → Nat → State × Nat
  | [], s, n => (s, n)
  | v :: r, s, n =>
    if ok s then (s, n)
    else
      let live := v.filter (fun d => (s.desc d).tier != 0)
      dropUntil ok r (live.foldl (fun a d => a.dropDesc d) s).settleHolds (n + live.length)

/-- Units for a guest, dropping the guest's own pages when there are none; one record for what was dropped, met the need or not
(R194, R201, Table 9-9). -/
def State.takeUnits (s : State) (g n lo : Nat) (pinned : List Nat) (r : Nat) : Option Nat × State :=
  match s.settleHolds.allocUnits g n lo with
  | some (a, t) => (some a, t)
  | none =>
    let (s, k) := dropUntil (fun t => (t.allocUnits g n lo).isSome) (s.dropOrder g pinned r) s.settleHolds 0
    let s := if k = 0 then s else s.report (unitEngine 2) { cls := 8, code := 5, guest := g, detHi := g + k % 2 ^ 32 * 2 ^ 16 }
    match s.allocUnits g n lo with
    | some (a, t) => (some a, t)
    | none => (none, s)

/-- Allocate a page of a layer: Framed when `framed`, else Home (R190, Table 9-6). What was demoted or dropped stands when it fails
(R194). -/
def State.allocPage (s : State) (r g : Nat) (l : KvLayer) (framed : Bool) (pinned : List Nat) : Option Nat × State :=
  if 4194304 ≤ s.freeDesc then (none, s)
  else
    let (frame, s) := if framed then s.takeFrame r l pinned ((s.region r).slots.length + s.cache.parks.length + 1) else (some 0, s)
    match frame with
    | none => (none, s)
    | some f =>
      match s.takeUnits g l.homeUnits 0 pinned r with
      | (none, s) => (none, s)
      | (some a, s) =>
        let d := s.freeDesc
        (some d, s.setDesc d { tier := if framed then 2 else 1, valid := true, guest := g, region := r, refcnt := 1, layer := l.layer,
                               frame := f, loc := a, units := l.homeUnits })

/-- One reference given up; at none the page is in Reclaim, stamped (R199). -/
def State.decRef (s : State) (d : Nat) : State :=
  let x := s.desc d
  if !x.valid || x.refcnt == 0 then s
  else if x.refcnt = 1 then s.setDesc d { x with refcnt := 0, reclaim := true, epoch := (s.region x.region).epochNow }
  else s.setDesc d { x with refcnt := x.refcnt - 1 }

/-- Has the epoch of a descriptor passed (R199)? -/
def State.descPassed (s : State) (d : Nat) : Bool :=
  let x := s.desc d
  if x.unbound || (s.region x.region).state == 4 || (s.region x.region).state == 0 then (s.region x.region).flight.isNone
  else (s.region x.region).epochPassed x.epoch

/-! ### Page lists (R190) -/

/-- A list block goes back to the pool (R190, R210). -/
def State.freeBlock (s : State) (b : Nat) : State :=
  match s.cache.blocks.find? (fun q => q.1 == b) with
  | some (_, k) => { s with cache := { s.cache with blocks := mset s.cache.blocks b { k with held := false } } }
  | none => s

/-- The lowest block that no chain has, for a guest; a former guest's entries in it are zeroed (R190, R210). -/
def State.takeBlock (s : State) (g : Nat) : Option (Nat × State) :=
  let b := lowestFree (s.cache.blocks.filter (fun q => q.2.held)) 0
  if 1048576 ≤ b then none
  else some (b, { s with cache := { s.cache with blocks := mset s.cache.blocks b { held := true, guest := g } } })

/-- Blocks a layer's chain needs: 64 entries in each, and block 0 of the sequence for the names of its log blocks. -/
def SeqSlot.blockNeed (x : SeqSlot) (k pages : Nat) : Nat :=
  max (ceilDiv (max pages (mget [] x.pages k).length) 64) (if k = 0 ∧ x.logBlocks ≠ [] then 1 else 0)

/-- Extend a layer's chain to hold `pages` entries; false where the pool is exhausted. `fuel` bounds the blocks. -/
def State.growList (s : State) (r n k pages : Nat) : Nat → Bool × State
  | 0 => (true, s)
  | fuel + 1 =>
    let x := s.slot r n
    if x.blockNeed k pages ≤ (mget [] x.lists k).length then (true, s)
    else
      match s.takeBlock x.guest with
      | none => (false, s)
      | some (b, s) => (s.modSlot r n (fun y => { y with lists := mset y.lists k (mget [] y.lists k ++ [b]) })).growList r n k pages fuel

/-- Pages that a region's outstanding reservations may add to a slot's layer. -/
def Region.resvPages (x : Region) (n k : Nat) : Nat :=
  ((match x.flight with | some f => f.resv | none => []) ++ x.scatters.flatMap (fun c => c.resv)).foldl
    (fun a q => if q.1 = n ∧ q.2.1 = k then max a (q.2.2.1 + 1) else a) 0

/-- Blocks of a slot's chains that hold no page and serve no reservation go back to the pool. -/
def State.trimLists (s : State) (r n : Nat) : State :=
  let x := s.slot r n
  let keep (k : Nat) : Nat := x.blockNeed k ((s.region r).resvPages n k)
  let s := (x.lists.flatMap (fun q => q.2.drop (keep q.1))).foldl (fun a b => a.freeBlock b) s
  if x.lists.all (fun q => q.2.length ≤ keep q.1) then s
  else s.modSlot r n (fun y => { y with lists := x.lists.map (fun q => (q.1, q.2.take (keep q.1))) })

/-- Free the blocks of a token log and of the page lists (R190, R203). -/
def State.freeLog (s : State) (x : SeqSlot) : State :=
  let s := x.logBlocks.foldl (fun a b => a.freeUnits b.1 16 |>.freeUnits b.2 16) s
  (x.lists.flatMap (·.2)).foldl (fun a b => a.freeBlock b) s

/-- Slots of a region that are open (Table 8-1): every state but FREE. -/
def Region.openSlots (x : Region) : List (Nat × SeqSlot) := x.slots.filter (fun q => q.2.state != 0)

/-- Has window `k` references: open slots pinned to its generation, or the step in flight admitted under it (R235)? -/
def Region.windowUsed (x : Region) (k : Nat) (w : Window) : Bool :=
  x.openSlots.any (fun q => q.2.genPin != 0 && q.2.genPin == w.gen) ||
    (match x.flight with | some f => f.window == k | none => false)

/-- A DRAINING window whose references reach 0 becomes HELD (Table 11-1). -/
def State.settleWindows (s : State) (r : Nat) : State :=
  s.modRegion r (fun x =>
    let step (k : Nat) (w : Window) : Window :=
      if w.state = 4 ∧ x.windowUsed k w = false then { w with state := 2 } else w
    { x with windows := x.windows.mapIdx step })

/-- What a slot's record keeps when the slot is closed, cancelled or parked: automaton state, depth, failure count, the steps left at
depth 0, and draft buffer (R231). -/
def SeqSlot.leave (y : SeqSlot) : SeqSlot :=
  { ops := y.ops, auto := y.auto, depth := y.depth, failCount := y.failCount, retryCount := y.retryCount, drafts := y.drafts }

/-- Free a slot's pages and log, and make the slot FREE; a window it was pinned to may end its draining (R176, R177, R250,
Table 11-1). Entries that wait on the slot stay. -/
def State.freeSlot (s : State) (r n : Nat) : State :=
  let x := s.slot r n
  let s := x.descs.foldl (fun a d => a.decRef d) s
  ((s.freeLog x).modSlot r n SeqSlot.leave).settleWindows r

/-! ### Token log (R203) -/

/-- A block of `n` units that keeps to other stacks than the block at `a`, from unit `lo` up. `fuel` bounds the tries. -/
def State.takeOther (s : State) (g n a lo : Nat) (pinned : List Nat) (r : Nat) : Nat → Option Nat × State
  | 0 => (none, s)
  | fuel + 1 =>
    match s.takeUnits g n lo pinned r with
    | (none, s) => (none, s)
    | (some b, t) => if b % 24 ≠ a % 24 then (some b, t) else s.takeOther g n a (b + 1) pinned r fuel

/-- Blocks for a log of `n` entries, in two copies on different stacks; false where one cannot be had. -/
def State.ensureLog (s : State) (r slotNo n : Nat) (pinned : List Nat) : Nat → Bool × State
  | 0 => (true, s)
  | fuel + 1 =>
    let x := s.slot r slotNo
    if x.logBlocks.length * 16384 ≥ n then (true, s)
    else
      match s.takeUnits x.guest 16 0 pinned r with
      | (none, s) => (false, s)
      | (some a, s) =>
        match s.takeOther x.guest 16 a 0 pinned r 49152 with
        | (none, s) => (false, s.freeUnits a 16)
        | (some b, s) => (s.modSlot r slotNo (fun y => { y with logBlocks := y.logBlocks ++ [(a, b)] })).ensureLog r slotNo n pinned fuel

/-- The 4-byte form of a log entry (R203). -/
def logWord (e : Nat × Nat) : Nat := e.1 % 2 ^ 18 + e.2 % 2 * 2 ^ 31

/-- Append entries to a slot's log, in both copies (R173 step 4, R203). -/
def State.appendLog (s : State) (r n : Nat) (es : List (Nat × Nat)) : State :=
  es.foldl (fun a e =>
    let x := a.slot r n
    let i := x.log.length
    let blk := lget (0, 0) x.logBlocks (i / 16384)
    let off := 4 * (i % 16384)
    let a := if i / 16384 < x.logBlocks.length then
        { a with hbm := (a.hbm.writeLE (blk.1 * 4096 + off) 4 (logWord e)).writeLE (blk.2 * 4096 + off) 4 (logWord e) }
      else a
    a.modSlot r n (fun y => { y with log := y.log ++ [e] })) s

/-! ### Reservation and append (R193-R196) -/

/-- Rows that scatters in progress will still add to page `j` of a slot. -/
def Region.pendingRows (x : Region) (n j : Nat) : Nat :=
  x.scatters.foldl (fun a sc => a + (sc.rows.filter (fun q => q.1 == n && q.2.2 / 256 == j)).length) 0

/-- Pages `a` to `b`. -/
def pageRange (a b : Nat) : List Nat := (List.range (b + 1 - a)).map (· + a)

/-- What a reservation has taken so far: descriptors for pages to open or copy, and pages to promote with the descriptor reserved for
each (R193). `ok` is false once something could not be had. -/
structure Taking where
  s : State
  ok : Bool := true
  resv : List (Nat × Nat × Nat × Nat) := []
  promos : List (Nat × Nat × Nat) := []

/-- One thing more, while everything was had. -/
def Taking.andThen (t : Taking) (f : State → Taking) : Taking :=
  if t.ok then let u := f t.s; { u with resv := t.resv ++ u.resv, promos := t.promos ++ u.promos } else t

/-- A frame for a Home page, which is then Moving, and a free descriptor (R193, Table 9-5). -/
def State.reservePromo (s : State) (r k d : Nat) (l : KvLayer) (pinned : List Nat) : Taking :=
  let e := s.freeDesc
  if 4194304 ≤ e then { s := s, ok := false }
  else
    match s.takeFrame r l pinned ((s.region r).slots.length + s.cache.parks.length + 1) with
    | (none, s) => { s := s, ok := false }
    | (some f, s) =>
      let y := s.desc d
      { s := (s.setDesc d { y with tier := 3, frame := f }).setDesc e { valid := true, guest := y.guest, region := r, refcnt := 1, layer := l.layer }
        promos := [(k, d, e)] }

/-- Reserve what a slot's step may need in one layer: a frame and a descriptor for each Home page, a page for each that the step's
positions `p` to `p + n − 1` may open or copy, and the list blocks that name them (R190, R193). -/
def State.reserveLayer (s : State) (r slotNo k p n : Nat) (l : KvLayer) (pinned : List Nat) : Taking :=
  let x := s.slot r slotNo
  let list := mget [] x.pages k
  let homes := list.filter (fun d => (s.desc d).tier == 1)
  let t := homes.foldl (fun (a : Taking) d => a.andThen (fun s => s.reservePromo r k d l pinned)) { s := s }
  let need (t : State) (j : Nat) : Bool :=
    let held : Option Nat := list[j]?
    let row := if j = p / 256 then p % 256 else 0
    match held with
    | some d =>
      let y := t.desc d
      !(y.refcnt == 1 && !y.frozen && y.fill + (t.region r).pendingRows slotNo j == row)
    | none => (t.region r).pendingRows slotNo j == 0
  if n = 0 then t
  else
    let t := (pageRange (p / 256) ((p + n - 1) / 256)).foldl (fun (a : Taking) j => a.andThen (fun s =>
      if need s j then
        match s.allocPage r x.guest l true pinned with
        | (some d, s) => { s := s, resv := [(slotNo, k, j, d)] }
        | (none, s) => { s := s, ok := false }
      else { s := s })) t
    t.andThen (fun s => let (ok, s) := s.growList r slotNo k ((p + n - 1) / 256 + 1) 1100; { s := s, ok := ok })

/-- Give back reserved descriptors that no append used, with their list blocks (R193). -/
def State.returnResv (s : State) (r : Nat) (rs : List (Nat × Nat × Nat × Nat)) : State :=
  let s := rs.foldl (fun a q =>
    let x := a.desc q.2.2.2
    if x.valid && x.fill == 0 && x.refcnt == 1 then (a.delDesc q.2.2.2).freeUnits x.loc x.units else a) s
  (rs.map (·.1)).eraseDups.foldl (fun a n => a.trimLists r n) s

/-- Promotions that end: each reserved descriptor is free again, and a page still Moving is Home, its frame unused (R193, R207). -/
def State.returnPromos (s : State) (ps : List (Nat × Nat × Nat)) : State :=
  ps.foldl (fun a q =>
    let y := a.desc q.2.1
    (if y.tier = 3 then a.setDesc q.2.1 { y with tier := 1, frame := 0 } else a).delDesc q.2.2) s

/-- Reserve for a slot in every layer, and room in its token log. Where something cannot be had the rest is given back; what was
demoted or dropped for it stays so (R193, R194). -/
def State.reserveSlot (s : State) (r slotNo p n : Nat) (pinned : List Nat) : Taking :=
  let ls := (s.region r).kv
  let (ok, s) := s.ensureLog r slotNo (p + n + 1) pinned 1100
  let t := ({ s := s, ok := ok } : Taking).andThen (fun s => let (ok, s) := s.growList r slotNo 0 0 2; { s := s, ok := ok })
  let t := (List.range ls.length).foldl (fun (a : Taking) k => a.andThen (fun s =>
    match ls[k]? with
    | none => { s := s }
    | some l => s.reserveLayer r slotNo k p n l pinned)) t
  if t.ok then t
  else { s := (((t.s.returnPromos t.promos).returnResv r t.resv).trimLists r slotNo), ok := false }

/-- Bytes of rows 0 to `n − 1` of each slice of a home, copied to another home (R196). -/
def copyHome (m : Mem) (l : KvLayer) (src dst n : Nat) : Mem :=
  (List.range l.cells).foldl (fun a k =>
    let o := k * l.slice
    a.write (dst * 4096 + o) (a.read (src * 4096 + o) (n * l.rb))) m

/-- Write a row's bytes of one slice to the home, and to the frame when there is one (R188). -/
def State.writeRow (s : State) (r d k row : Nat) (l : KvLayer) (data : List Byte) : State :=
  let x := s.desc d
  let s := if x.tier = 0 then s
    else { s with hbm := s.hbm.write (x.loc * 4096 + k * l.slice + row * l.rb) data }
  if x.tier = 2 then
    match (s.region r).localCell (l.firstCell + k) with
    | some c => s.modCell c (fun y => { y with amem := y.amem.write (l.offset + x.frame * l.slice + row * l.rb) data }.countBulk 2
        (l.offset + x.frame * l.slice + row * l.rb) data.length { cls := 3, ev := 1, master := 2 })
    | none => s
  else s

/-- Copy a home image into a frame, slice by slice (promotion, R193). -/
def State.fillFrame (s : State) (r d : Nat) (l : KvLayer) : State :=
  let x := s.desc d
  (List.range l.cells).foldl (fun a k =>
    match (a.region r).localCell (l.firstCell + k) with
    | some c =>
      let data := a.hbm.read (x.loc * 4096 + k * l.slice) l.slice
      a.modCell c (fun y => { y with amem := y.amem.write (l.offset + x.frame * l.slice) data }.countBulk 2 (l.offset + x.frame * l.slice) data.length
        { cls := 3, ev := 1, master := 2 })
    | none => a) s

/-- Append one row of a slot at position `p` in layer index `k` (R195, R196); `rows` are the bytes of each slice. A page that is
Absent, or that a recompute has freed, keeps no row: its slot is recomputed, and no copy of a lost source is made (R202, R207). -/
def State.appendRow (s : State) (r k : Nat) (l : KvLayer) (slotNo p : Nat) (resv : List (Nat × Nat × Nat × Nat))
    (rows : List (List Byte)) : State :=
  let j := p / 256
  let row := p % 256
  let x := s.slot r slotNo
  let list := mget [] x.pages k
  let inPlace := match list[j]? with
    | some d => let y := s.desc d; y.refcnt == 1 && !y.frozen && y.fill == row && y.tier != 0
    | none => false
  let fresh := (resv.find? (fun q => q.1 == slotNo && q.2.1 == k && q.2.2.1 == j)).map (·.2.2.2)
  let lost : Bool := match list[j]? with | some d => (s.desc d).tier == 0 | none => decide (list.length < j)
  let s := if inPlace || lost then s
    else match fresh with
      | none => s
      | some d' =>
        let s := match list[j]? with
          | some d =>
            let y := s.desc d
            let s := { s with hbm := copyHome s.hbm l y.loc (s.desc d').loc row }
            let s := if (s.desc d').tier = 2 then s.fillFrame r d' l else s
            s.decRef d
          | none => s
        let s := s.modDesc d' (fun z => { z with fill := row })
        s.modSlot r slotNo (fun z => { z with pages := mset z.pages k (if j < list.length then list.set j d' else list ++ [d']) })
  let d := ((mget [] (s.slot r slotNo).pages k)[j]?).getD 4194304
  if lost || decide (d ≥ 4194304) then s
  else
    let s := (List.range l.cells).foldl (fun a i => a.writeRow r d i row l (lget [] rows i)) s
    s.modDesc d (fun z => { z with fill := row + 1, frozen := z.frozen || decide (row + 1 = 256) })

/-- A row that a lost staging slot held: the page it would have reached becomes Absent (R208). -/
def State.loseRow (s : State) (r k n p : Nat) : State :=
  match (mget [] (s.slot r n).pages k)[p / 256]? with
  | some d => s.dropDesc d
  | none => s

/-- Rows of a scatter whose staging a scrub has cleared: each takes its place in its slot's pages, as an append does, and the page is
Absent (R181, R195, R209). -/
def State.loseScatter (s : State) (r : Nat) (c : Scatter) : State :=
  let s := (List.range (s.region r).kv.length).foldl (fun a k =>
    match (a.region r).kv[k]? with
    | none => a
    | some l => c.rows.foldl (fun b q => (b.appendRow r k l q.1 q.2.2 c.resv []).loseRow r k q.1 q.2.2) a) s
  s.returnResv r c.resv

end Sys2Proof.Machine
end

