-- ==== Sys2Proof/Machine/Slots.lean ====
section
/-! DEFINITION. Sequence slots: token records, and the entries that name a slot, which take effect in start order
(07 R152, 08 R164, R165, R174, R177, 09 R197, R198, R204, R206, 10 R213, R221, R231, 11 R248). -/

namespace Sys2Proof.Machine

/-! ### Token records (08 R174) -/

/-- A token record (Table 8-4) as 16 octets. -/
def tokenRecord (token slot pos region gen endCode spec recno : Nat) : List Byte :=
  natLE 16 (token % 2 ^ 18 * 2 ^ 110 + slot % 2 ^ 14 * 2 ^ 96 + pos % 2 ^ 24 * 2 ^ 72 + region % 64 * 2 ^ 66 +
    gen % 2 ^ 16 * 2 ^ 50 + endCode % 8 * 2 ^ 47 + spec % 16 * 2 ^ 43 + recno % 2 ^ 32)

/-- Send a token record with the region's next record number to a sink (R174). -/
def State.sendToken (s : State) (r : Nat) (sinkFa sinkAddr token slot pos gen endCode spec : Nat) : State :=
  let n := (s.region r).recno
  let guest := match (s.slot r slot).sink with | some id => id.guest | none => (s.region r).guest
  let s := s.sendRecord (guest, 0) sinkFa (sinkAddr + 40960 + 16 * (n % 65536)) (tokenRecord token slot pos r gen endCode spec n)
  s.modRegion r (fun x => { x with recno := n + 1, totals := { x.totals with tokens := x.totals.tokens.add 1 } })

/-- The record of a slot that ends without a token: END 0b011 cancelled or 0b100 lost, to the sink of the last step
entry that ran it, else to `other` (R177, R182). A sink of fabric address 0xFFFF is none. -/
def State.sendEndTo (s : State) (r slotNo endCode : Nat) (other : Nat × Nat) : State :=
  let x := s.slot r slotNo
  let to_ := if x.sinkFa = 0xFFFF then other else (x.sinkFa, x.sinkAddr)
  if to_.1 = 0xFFFF then s else s.sendToken r to_.1 to_.2 0 slotNo x.length x.lastGen endCode 0

/-- The record of a cancelled or lost slot to the sink of the last step entry that ran it, if one has (R177). -/
def State.sendEnd (s : State) (r slotNo endCode : Nat) : State := s.sendEndTo r slotNo endCode (0xFFFF, 0)

/-! ### Allowances, mask sources and sampling entries -/

/-- Slots of the module that are open: of a guest, or of every guest (R143, R164). -/
def State.slotsOpen (s : State) (p : SeqSlot → Bool) : Nat :=
  s.regions.foldl (fun a q => a + (q.2.openSlots.filter (fun y => p y.2)).length) 0

/-- May a guest open one more slot (R143, R164)? -/
def State.slotAllowed (s : State) (g : Nat) : Bool :=
  decide (s.slotsOpen (fun _ => true) < 65536) &&
    (g == 0 || decide (s.slotsOpen (fun y => y.guest == g) < (s.guest g).slots))

def State.source (s : State) (n : Nat) : MaskSource := mget {} s.campion.sources n

/-- May a slot of guest `g` name this mask source (R213)? -/
def State.maskUsable (s : State) (g m : Nat) : Bool :=
  m == 0x3FF || (decide (m < 0x300) && (s.source m).state == 2 && (s.source m).guest == g)

/-- START of an automaton image (Table 10-2); a list has no state. -/
def State.maskStart (s : State) (m : Nat) : Nat := if m < 0x100 then bits (leAt (s.source m).image 0 64) 393 374 else 0

/-- FP32 values of sampling parameters: finite, and between two bounds. -/
def f32Between (v lo hi : Nat) : Bool := decide (v < 2 ^ 31) && decide (lo ≤ v) && decide (v ≤ hi)

/-- VALID as a sampling entry reads: its values lie in their ranges (R221, Table 10-8). Positive FP32 numbers stand in
the order of their bit patterns. -/
def samplingValid (v : Nat) : Bool :=
  bitAt v 107 &&
    (f32Between (bits v 255 224) 0 0x7F7FFFFF || bits v 255 224 == 2 ^ 31) &&
    f32Between (bits v 223 192) 1 0x3F800000 &&
    (f32Between (bits v 191 160) 0 0x3F7FFFFF || bits v 191 160 == 2 ^ 31) &&
    f32Between (bits v 159 128) 0x3F800000 0x7F7FFFFF &&
    decide (bits v 127 117 ≤ 1024) && decide (bits v 116 108 ≤ 256) && bits v 68 65 != 0

/-- A sampling entry as it reads: VALID = 0 where a value lies outside its range (R221). -/
def samplingRead (v : Nat) : Nat := if bitAt v 107 && !samplingValid v then v - 2 ^ 107 else v

/-- A guest's sampling entry, when it is valid (R221). -/
def State.samplingOf (s : State) (g i : Nat) : Option Nat :=
  let v := mget 0 (s.guest g).sampling i
  if i < 256 ∧ samplingValid v then some v else none

/-! ### What an entry does to its slot -/

/-- SEQ_OPEN: the checks, and the slot in OPEN at length zero (R165, R213, R221, R250). -/
def State.openSlot (s : State) (r n : Nat) (id : EntryId) (w : Nat) : State × Nat :=
  let x := s.slot r n
  let g := id.guest
  let pin := bits w 203 188
  if x.state ≠ 0 then (s, stSlotInUse)
  else if !s.slotAllowed g then (s, stSlotQuota)
  else if !s.maskUsable g (bits w 107 98) || (s.samplingOf g (bits w 123 108)).isNone then (s, stBadEntry)
  else if pin ≠ 0 ∧ !(s.region r).windows.any (fun v => v.gen == pin && (v.state == 3 || v.state == 4)) then (s, stGenUnknown)
  else
    (s.modSlot r n (fun y => { ops := y.ops, state := 1, guest := g, genPin := pin, rngKey := bits w 187 124,
                               sample := bits w 123 108, mask := bits w 107 98, maxtok := bits w 97 74,
                               draft := bits w 73 70, depth := bits w 73 70, auto := s.maskStart (bits w 107 98) }), stOK)

/-- Has a slot left its step, and has the last scatter of its rows ended (R195, R197, R198, R204)? -/
def State.slotSettled (s : State) (r n : Nat) : Bool :=
  (s.slot r n).state != 3 && !(s.region r).scatters.any (fun c => c.rows.any (fun q => q.1 == n))

/-- RESUME's copies: each page bound to another region with further referrers gets a descriptor of its own in the target
region (R206). Answers the new page lists, and false once an allocation fails. -/
def State.copyPages (s : State) (r g : Nat) (kv : List KvLayer) : List (Nat × Nat) → Bool × State × List (Nat × Nat × Nat)
  | [] => (true, s, [])
  | (k, d) :: rest =>
    let y := s.desc d
    let (made, s) : Option Nat × State :=
      if y.unbound ∨ y.region = r ∨ y.refcnt ≤ 1 then (some d, s)
      else
        match kv[k]? with
        | none => (none, s)
        | some l =>
          if y.tier = 0 then
            if 4194304 ≤ s.freeDesc then (none, s)
            else (some s.freeDesc, s.setDesc s.freeDesc { valid := true, guest := g, region := r, refcnt := 1, layer := l.layer, units := y.units,
                                                          fill := y.fill, frozen := decide (y.fill = 256) })
          else
            match s.allocPage r g l false [] with
            | (none, s) => (none, s)
            | (some e, s) => (some e, ({ s with hbm := copyHome s.hbm l y.loc (s.desc e).loc y.fill }).modDesc e
                (fun z => { z with fill := y.fill, frozen := decide (y.fill = 256) }))
    match made with
    | none => (false, s, [])
    | some e =>
      let (ok, s, moved) := s.copyPages r g kv rest
      (ok, s, (k, d, e) :: moved)

/-- A page is bound to the target region: it gives up a frame it holds elsewhere (R206). -/
def State.rebind (s : State) (r d : Nat) : State :=
  let s := if (s.desc d).region ≠ r ∨ (s.desc d).unbound then s.demote d else s
  s.modDesc d (fun y => { y with region := r, unbound := false })

def State.setPark (s : State) (i : Nat) (p : ParkRec) : State :=
  { s with cache := { s.cache with parks := mset s.cache.parks i p } }

/-- Park record that a RESUME names. -/
def resumeIndex (w : Nat) : Nat := bits w 165 134 / 65536

/-- RESUME's tests at its start, in the order of R206, with the first that fails. -/
def State.resumeTest (s : State) (r n guest w : Nat) : Nat :=
  let p := mget {} s.cache.parks (resumeIndex w)
  let slots := match (s.region r).image with | some im => im.slots | none => 0
  if p.state = 0 ∨ p.state = 2 ∨ p.uses ≠ bits w 165 134 % 65536 ∨ p.guest ≠ guest then stHandleUnknown
  else if p.state = 3 then stParkExpired
  else if slots ≤ n then stBadEntry
  else if (s.slot r n).state ≠ 0 then stSlotInUse
  else if !s.slotAllowed guest then stSlotQuota
  else stOK

/-- A RESUME claims its record, or gives it back with EXPIRY unchanged (R206). -/
def State.claimPark (s : State) (w st : Nat) : State :=
  let p := mget {} s.cache.parks (resumeIndex w)
  s.setPark (resumeIndex w) { p with state := st }

/-- RESUME of a record it has claimed, when its turn on the slot has come: the copies, the rebinding, and the slot in READY (R152,
R206). A slot taken meanwhile, or an allowance spent, turns it away (DEDUCED, log 35). -/
def State.resumeSlot (s : State) (r n : Nat) (id : EntryId) (w : Nat) : State × Nat :=
  let i := resumeIndex w
  let p := mget {} s.cache.parks i
  if p.state ≠ 2 ∨ p.uses ≠ bits w 165 134 % 65536 then (s, stHandleUnknown)
  else
    match (s.region r).image with
    | none => (s.claimPark w 1, stNoRegion)
    | some im =>
      if (s.slot r n).state ≠ 0 then (s.claimPark w 1, stSlotInUse)
      else if !s.slotAllowed id.guest then (s.claimPark w 1, stSlotQuota)
      else if im.measure.take 16 ≠ p.meas then (s.claimPark w 1, stBadEntry)
      else
        let pages := p.slot.pages.flatMap (fun q => q.2.map (fun d => (q.1, d)))
        let (ok, t, moved) := s.copyPages r p.guest im.kv pages
        if !ok then (((moved.filter (fun q => q.2.1 != q.2.2)).foldl (fun a q => a.decRef q.2.2) t).claimPark w 1, stNoPages)
        else
          let t := moved.foldl (fun a q => if q.2.1 = q.2.2 then a.rebind r q.2.2 else a.decRef q.2.1) t
          let lists := p.slot.pages.map (fun q => (q.1, (moved.filter (fun m => m.1 == q.1)).map (·.2.2)))
          let t := t.modSlot r n (fun y => { p.slot with ops := y.ops, state := 2, genPin := 0, pages := lists, guest := p.guest,
                                                         sink := none, sinkFa := 0xFFFF, sinkAddr := 0, lastStep := 0 })
          (t.setPark i { uses := p.uses }, stOK)

/-- Extend a slot's chains to hold the pages of its lists, layer by layer; false where the pool is exhausted. -/
def State.growLists (s : State) (r n : Nat) (pages : SMap (List Nat)) : Bool × State :=
  (0 :: pages.map (·.1)).foldl (fun a k => if a.1 then a.2.growList r n k (mget [] pages k).length 65537 else a) (true, s)

/-- FORK: the checks at its effect, and the destination (R197, R231). -/
def State.forkSlot (s : State) (r src dst : Nat) (id : EntryId) (len : Nat) : State × Nat :=
  let x := s.slot r src
  if x.state = 0 then (s, stSlotNotOpen)
  else if (s.slot r dst).state ≠ 0 then (s, stSlotInUse)
  else if x.length < len then (s, stBadEntry)
  else if !s.slotAllowed id.guest then (s, stSlotQuota)
  else
    let log := x.log.take (len + 1)
    let pages := x.pages.map (fun q => (q.1, q.2.take (ceilDiv len 256)))
    let s1 := s.modSlot r dst (fun y => { ops := y.ops, guest := id.guest })
    let (ok, s2) := s1.ensureLog r dst (max 1 log.length) [src] 1100
    let (ok, s2) := if ok then s2.growLists r dst pages else (ok, s2)
    if !ok then ((s2.freeLog (s2.slot r dst)).modSlot r dst (fun y => { ops := y.ops }), stNoPages)
    else
      let s3 := (pages.flatMap (·.2)).foldl (fun a d => a.modDesc d (fun y => { y with refcnt := y.refcnt + 1, frozen := true })) s2
      let s4 := s3.modSlot r dst (fun y => { x with
        ops := y.ops
        guest := id.guest
        state := if log.length = len + 1 then 2 else 1
        length := len
        rngKey := Nat.xor x.rngKey ((dst + 1) * 2 ^ 48) % 2 ^ 64
        generated := x.generated - ((x.log.drop (len + 1)).filter (fun e => e.2 == 1)).length
        nextInput := (lget (0, 0) log len).1
        log := []
        logBlocks := y.logBlocks
        lists := y.lists
        pages := pages
        redo := none
        sink := none
        sinkFa := 0xFFFF
        sinkAddr := 0
        lastStep := 0 })
      (s4.appendLog r dst log, stOK)

/-- The automaton's state after a token: NEXT of a listed transition, or DEFAULT (R217). -/
def nextAuto (img : List Byte) (st token : Nat) : Nat :=
  let h := leAt img 0 64
  let e := leAt img (64 + 16 * st) 16
  let base := 64 + 16 * bits h 463 443 + 8 * bits e 63 32
  let ts := (List.range (bits e 18 0)).map (fun i => leAt img (base + 8 * i) 8)
  match ts.find? (fun t => bits t 63 46 == token) with
  | some t => bits t 45 26
  | none => bits e 109 90

/-- The slot's automaton after tokens: a list or no source has none (R217). -/
def State.advanceAuto (s : State) (m st : Nat) (tokens : List Nat) : Nat :=
  if m < 0x100 then tokens.foldl (nextAuto (s.source m).image) st else st

/-- TRIM of a slot to a shorter length (R198, R231). -/
def State.trimSlot (s : State) (r n len : Nat) : State :=
  let x := s.slot r n
  if x.length ≤ len then s
  else
    let keep := ceilDiv len 256
    let s := (x.pages.flatMap (fun q => q.2.drop keep)).foldl (fun a d => a.decRef d) s
    let pages := x.pages.map (fun q => (q.1, q.2.take keep))
    let lasts := pages.filterMap (fun q => q.2.getLast?)
    let s := lasts.foldl (fun a d => a.modDesc d (fun y => { y with frozen := y.frozen || decide (len % 256 < y.fill) })) s
    let log := x.log.take (len + 1)
    (s.modSlot r n (fun y => { y with
      length := len
      pages := pages
      log := log
      nextInput := (lget (0, 0) log len).1
      generated := x.generated - ((x.log.drop (len + 1)).filter (fun e => e.2 == 1)).length
      auto := s.advanceAuto x.mask (s.maskStart x.mask) ((log.filter (fun e => e.2 == 1)).map (·.1)) })).trimLists r n

/-- PARK: the sequence moves into a free park record; answers the handle (R204). -/
def State.parkSlot (s : State) (r n ttl : Nat) : State × Nat × Nat :=
  let x := s.slot r n
  let free := (List.range 65536).find? (fun i => let p := mget {} s.cache.parks i; p.state == 0 || p.state == 3)
  if x.state = 0 then (s, stSlotNotOpen, 0)
  else if x.state = 1 then (s, stBadEntry, 0)
  else
    match free with
    | none => (s, stNoPages, 0)
    | some i =>
      let uses := ((mget {} s.cache.parks i).uses + 1) % 65536
      let held := ((s.region r).openSlots.filter (fun q => q.1 != n)).flatMap (fun q => q.2.descs)
      let s := (x.descs.filter (fun d => !held.contains d)).foldl (fun a d => a.demote d) s
      let meas := match (s.region r).image with | some im => im.measure.take 16 | none => []
      let s := s.setPark i { state := 1, uses := uses, guest := x.guest, region := r, gen := x.lastGen, meas := meas,
                             expiry := s.nowNs + ttl * 1000000000, slot := { x with ops := [], drafts := [], redo := none } }
      (((s.modSlot r n SeqSlot.leave).settleWindows r), stOK, i * 65536 + uses)

/-! ### Entries that wait on a slot (R152) -/

/-- An entry leaves its slot's waiting entries. -/
def State.popOp (s : State) (r n : Nat) (id : EntryId) : State :=
  s.modSlot r n (fun x => { x with ops := x.ops.filter (fun o => o.1 != id) })

/-- An entry takes effect: it leaves the slot's waiting entries and completes. -/
def State.opDone (s : State) (r n : Nat) (id : EntryId) (status result : Nat) : State :=
  (s.popOp r n id).complete id status result

/-- Operand word of an entry. -/
def State.wordOf (s : State) (id : EntryId) : Nat := match s.entry id with | some e => e.word | none => 0

/-- A CANCEL first on its slot has taken effect: its record is sent and it completes with OK; the slot is freed by what follows
(R177). -/
def State.endCancel (s : State) (r n : Nat) : State :=
  match (s.slot r n).ops with
  | (id, 0x14) :: _ => (s.sendEnd r n 3).opDone r n id stOK 0
  | _ => s

/-- The waiting entries at the head of a slot that need no event of their own take effect: SEQ_OPEN, RESUME and CANCEL
(R152, R177, R206). OP 0xFF frees the slot for a CANCEL with ALL (R178). The number bounds them. -/
def State.settleOps (s : State) (r n : Nat) : Nat → State
  | 0 => s
  | k + 1 =>
    match (s.slot r n).ops with
    | [] => s
    | (id, op) :: _ =>
      if op = 0x12 then
        let (t, st) := s.openSlot r n id (s.wordOf id)
        (t.opDone r n id st 0).settleOps r n k
      else if op = 0x31 then
        let (t, st) := s.resumeSlot r n id (s.wordOf id)
        (t.opDone r n id st 0).settleOps r n k
      else if op = 0x14 then
        if (s.slot r n).state = 0 then (s.opDone r n id stSlotNotOpen 0).settleOps r n k
        else if (s.slot r n).state = 3 then
          s.modRegion r (fun x => { x with flight := x.flight.map (fun f => { f with cancelled := f.cancelled ++ [n] }) })
        else if s.slotSettled r n then
          (((s.sendEnd r n 3).freeSlot r n).opDone r n id stOK 0).settleOps r n k
        else s
      else if op = 0xFF then
        if s.slotSettled r n then ((s.freeSlot r n).popOp r n id).settleOps r n k else s
      else s

def State.settleSlot (s : State) (r n : Nat) : State := s.settleOps r n ((s.slot r n).ops.length + 1)

/-- An entry begins to wait on a slot: at the end, but a CANCEL does not wait for a PREFILL (R177). -/
def State.pushOp (s : State) (r n : Nat) (id : EntryId) (op : Nat) : State :=
  s.modSlot r n (fun x =>
    let front := op == 0x14 && x.ops.all (fun o => o.2 == 0x11)
    { x with ops := if front then (id, op) :: x.ops else x.ops ++ [(id, op)] })

/-- Is an entry the first that waits on a slot? -/
def State.opFirst (s : State) (r n : Nat) (id : EntryId) : Bool :=
  match (s.slot r n).ops with | (i, _) :: _ => i == id | [] => false

/-- SEQ_CLOSE, PARK, TRIM or FORK, first on its slot with the slot settled, takes effect (R176, R197, R198, R204). -/
def State.opEffect (s : State) (r n : Nat) (id : EntryId) (op : Nat) : State :=
  let w := s.wordOf id
  let x := s.slot r n
  let s :=
    if op = 0x13 then
      if x.state = 0 then s.opDone r n id stSlotNotOpen 0 else (s.freeSlot r n).opDone r n id stOK 0
    else if op = 0x30 then
      let (t, st, h) := s.parkSlot r n (bits w 133 117)
      t.opDone r n id st h
    else if op = 0x33 then
      if x.state = 0 then s.opDone r n id stSlotNotOpen 0
      else if x.length < bits w 189 166 then s.opDone r n id stBadEntry 0
      else (s.trimSlot r n (bits w 189 166)).opDone r n id stOK 0
    else
      let dst := bits w 203 190
      let (t, st) := s.forkSlot r n dst id (bits w 189 166)
      ((t.popOp r dst id).opDone r n id st 0).settleSlot r dst
  s.settleSlot r n

/-- May the waiting entry take effect now? -/
def State.opReady (s : State) (r n : Nat) (id : EntryId) (op : Nat) : Bool :=
  s.opFirst r n id && s.slotSettled r n && (op != 0x32 || s.opFirst r (bits (s.wordOf id) 203 190) id)

/-- A waiting entry of one opcode at the head of a slot takes effect when it may. -/
def State.takeEffect (s : State) (r n op : Nat) : State :=
  match (s.slot r n).ops with
  | (id, o) :: _ =>
    if o = op ∧ s.opReady r n id op ∧ (op ≠ 0x32 ∨ n = bits (s.wordOf id) 217 204) then s.opEffect r n id op else s
  | [] => s

/-! ### Started STEP and PREFILL entries -/

/-- A RUNNING region with no step in flight and no further step to run is LOADED (R136). -/
def State.settleIdle (s : State) (r : Nat) : State :=
  let x := s.region r
  if x.state = 3 ∧ x.flight.isNone ∧ x.runs.isEmpty then
    s.modRegion r (fun y => { y with state := 2, power := { y.power with idleSince := s.time, due := true } })
  else s

/-- A started STEP or PREFILL entry ends: it leaves the region, and its slot when it is a PREFILL (R152, R159). -/
def State.endRun (s : State) (r : Nat) (e : RunEntry) (status result : Nat) : State :=
  let s := s.modRegion r (fun x => { x with runs := x.runs.filter (fun q => q.id != e.id) })
  let s := s.modEntry e.id (fun x => { x with ran := e.ran })
  let s := if e.prefill then (s.opDone r e.slot e.id status result).settleSlot r e.slot else s.complete e.id status result
  s.settleIdle r

/-! ### Swings (11 R247, R248) -/

/-- Window of a generation in a region. -/
def Region.windowOf (x : Region) (owner gen : Nat) : Option Nat :=
  x.windows.findIdx? (fun w => w.state != 0 && w.gen == gen && w.owner == owner)

/-- The first pending swing takes effect: its window becomes CURRENT, the old one DRAINING or HELD, and it completes. -/
def State.swingNow (s : State) (r k : Nat) (id : EntryId) : State :=
  let x := s.region r
  let step (j : Nat) (w : Window) : Window :=
    if j = k then { w with state := 3 }
    else if w.state = 3 then { w with state := if x.windowUsed j w then 4 else 2 } else w
  (s.modRegion r (fun y => { y with windows := y.windows.mapIdx step, swings := y.swings.drop 1 })).complete id stOK 0

/-- Pending swings that may take effect, in start order (R248). `n` bounds their number. -/
def State.applySwings (s : State) (r : Nat) : Nat → State
  | 0 => s
  | n + 1 =>
    let x := s.region r
    match x.swings with
    | [] => s
    | (id, gen) :: _ =>
      match x.windowOf id.guest gen with
      | none => s
      | some k =>
        match (lget ({} : Window) x.windows k).state with
        | 2 | 4 => (s.swingNow r k id).applySwings r n
        | 3 => ((s.modRegion r (fun y => { y with swings := y.swings.drop 1 })).complete id stOK 0).applySwings r n
        | _ => s

/-- Swings take effect at once where no step is in flight or in admission (R248). -/
def State.settleSwings (s : State) (r : Nat) : State :=
  if (s.region r).flight.isNone then s.applySwings r ((s.region r).swings.length) else s

end Sys2Proof.Machine
end

