-- ==== Sys2Proof/Machine/Steps.lean ====
section
/-! DEFINITION. Steps, slots and stops shared by many commands: shutter hold, the abandoning of a
step, the stop of a region (08 R177, R181, 05 R116-R119). -/

namespace Sys2Proof.Machine

/-- Is a pane stopped for a cause other than a beat wait (Table 5-4)? -/
def RunCond.holds : RunCond → Bool
  | .awaitStall _ | .outStall | .paused _ | .faultHold => true
  | _ => false

/-- Shutter hold runs from the first such stop in the region until the last ends (R116); its ns are totalled
(Table 20-8). -/
def State.settleHold (s : State) (r : Nat) : State :=
  let g := s.region r
  let held := g.state != 4 && g.panes.any (fun p => (s.pane p).cond.holds)
  match g.holdSince with
  | none => if held then s.modRegion r (fun x => { x with holdSince := some s.time }) else s
  | some t =>
    if held then s
    else s.modRegion r (fun x => { x with
      holdSince := none
      totals := { x.totals with holdNs := x.totals.holdNs.add ((s.time - t) / 4) } })

/-- Staging slots that a step filled and does not commit go to FREE (Table 2-10). -/
def Cell.discard (x : Cell) : Cell :=
  { x with
    stg0 := if x.stg0.state = 1 then { x.stg0 with state := 0 } else x.stg0
    stg1 := if x.stg1.state = 1 then { x.stg1 with state := 0 } else x.stg1 }

/-- Free a slot, now or when its last scatter ends (R178, R195), with no record but the one of a CANCEL that has started on it
(R177). -/
def State.freeQuiet (s : State) (r n : Nat) : State :=
  let s := s.endCancel r n
  if s.slotSettled r n then s.freeSlot r n
  else s.modSlot r n (fun x => { x with ops := (⟨64, 0, 0, 0⟩, 0xFF) :: x.ops })

/-- A slot's step has ended without commit, or with every position null: it returns to its state, or is freed for a
CANCEL with ALL, except when its PARK has started; entries that wait on it go on (R177, R178, R181). -/
def State.leaveStep (s : State) (r n : Nat) (f : Flight) : State :=
  let x := s.slot r n
  let s :=
    if x.state ≠ 3 then s
    else
      let s := s.modSlot r n (fun y => { y with state := if f.recompute = some n then 4 else 2 })
      if f.allNull && !x.ops.any (fun o => o.2 == 0x30) then s.freeQuiet r n else s
  s.settleSlot r n

/-- The run of an entry, by name. -/
def Region.runOf (x : Region) (id : Option EntryId) : Option RunEntry := x.runs.find? (fun e => some e.id == id)

/-- The step in flight is abandoned without replay: its slots return to READY at their last committed length,
cancelled slots end, reservations are returned, staging is discarded, and the step counts in ABANDONED (R181, R193). Under
a CANCEL with ALL its entry ends as CANCELLED (R178). -/
def State.abandonFlight (s : State) (r : Nat) : State :=
  match (s.region r).flight with
  | none => s
  | some f =>
    let slots := (f.positions.filterMap (·.slot)).eraseDups
    let s := s.modRegion r (fun x => { x with
      flight := none
      kept := []
      totals := { x.totals with abandoned := x.totals.abandoned.add 1 } })
    let s := (((s.returnPromos f.promos).returnResv r f.resv).settleWindows r).modListed r (fun _ x => x.discard)
    let s := slots.foldl (fun a n => a.leaveStep r n f) s
    let s := if f.allNull then
        match (s.region r).runOf f.entry with
        | some e => s.endRun r e stCancelled e.lastStep
        | none => s
      else s
    s.settleSwings r

/-- Complete every started STEP and PREFILL entry of a region with a status (R181, R142). -/
def State.endRuns (s : State) (r status : Nat) : State :=
  (s.region r).runs.foldl (fun a e => a.endRun r e status e.lastStep) s

/-- A region stops (R123, R181): every pane stands, the step in flight does not commit, its entries complete with
NO_REGION. A step whose every pane has completed the last beat still commits (R172). A row-shift in progress is abandoned,
its dead positions recorded (R30, R31, R125). -/
def State.stopRegion (s : State) (r : Nat) : State :=
  let g := s.region r
  if g.state = 2 ∨ g.state = 3 then
    let s := (g.shifts.foldl (fun a q => a.mapOut q.cell q.prow q.pcol) (s.dropHeld r)).modRegion r (fun x => { x with state := 4, shifts := [], contract := false })
    let s := s.modRegionPanes r (fun _ p => { p with cond := .faultHold, resumeAt := none })
    let s := s.settleHold r
    if (match g.flight with | some f => f.beatsOver | none => false) then s
    else
      let s := s.abandonFlight r
      let s := s.endRuns r stNoRegion
      let s := (s.region r).cancelAlls.foldl (fun a id => a.complete id stOK 0) s
      s.modRegion r (fun x => { x with cancelAlls := [] })
  else s

/-- A region stops for a CONTRACT fault (R115, R123). -/
def State.stopContract (s : State) (r : Nat) : State :=
  if (s.region r).state = 4 then s else (s.stopRegion r).modRegion r (fun x => { x with contract := decide (x.state = 4) })

/-- A cell whose check failed in running cycle `n` (R123 step 1): its registers and memories as before the cycle, its counters as
they are (R419), and what would land in the cycle suppressed. `old`: the cell before the cycle. -/
def Cell.suppress (x old : Cell) (n : Nat) (codes : List Nat) : Cell :=
  { old with
    evs := old.evs.filter (fun e => decide (n < e.due))
    accs := x.accs
    issued := x.issued
    wmem := x.wmem, amem := x.amem, pmem := x.pmem, imem := x.imem, rotor := x.rotor
    bg := x.bg, bgMesh := x.bgMesh, granted := x.granted, grantAsk := x.grantAsk, ready := x.ready
    latchReg := x.latchReg, bankSel := x.bankSel, bankCnt := x.bankCnt, memAddr := x.memAddr
    freeze := x.freeze, pmc := x.pmc, pmcSel := x.pmcSel, pmcRange := x.pmcRange, stale := x.stale, dead := x.dead
    awaiting := none
    faultCycle := some n
    faultCodes := if x.faultCycle = some n then x.faultCodes ++ codes else codes }

/-- One failed check of Table 5-7: code and DETAIL. -/
structure Chk where
  code : Nat
  hi : Nat := 0
  lo : Nat := 0
  iaddr : Option Nat := none
  deriving DecidableEq, Repr

/-- The first check of each code. -/
def firstOfCode (chks : List Chk) : List Chk :=
  chks.foldl (fun l k => if l.any (fun j => j.code == k.code) then l else l ++ [k]) []

/-- Failed checks of a cell in its present running cycle (R123, R124): one record per code in ascending order, the latch, and the
suppressed writes. The other cells of the pane go through their cycle, and its end stops the region; where no running cycle is
under way the region stops at once. -/
def State.failCell (s : State) (c : Nat) (chks : List Chk) : State :=
  match s.regionOfCell c with
  | none => s
  | some r =>
    let q := s.pane (paneOfCell c)
    let n := q.runCycles
    let x := s.cell c
    let seen := if x.faultCycle = some n then x.faultCodes else []
    let sorted := sortBy (fun (a b : Chk) => decide (a.code ≤ b.code)) ((firstOfCode chks).filter (fun k => !seen.contains k.code))
    let s := sorted.foldl (fun a k =>
      let f := a.cellRec c { cls := 0, code := k.code, iaddr := k.iaddr.getD (min x.pc 1023), detHi := k.hi, detLo := k.lo }
      (a.report c f).modCell c (fun x =>
        if x.faultCycle = some n ∧ seen.contains x.latchReg.code ∧ k.code < x.latchReg.code then
          ({ x with latchReg := {} }).latchFault f
        else x.latchFault f)) s
    let s := s.modCell c (fun y => y.suppress (mget y s.snap c) n (sorted.map (·.code)))
    if q.cond = .running ∧ q.cyc < (s.region r).beatLen ∧ (s.region r).state = 3 then s else s.stopContract r

end Sys2Proof.Machine
end

