-- ==== Sys2Proof/Machine/CellPipe.lean ====
section
/-! DEFINITION. Issue and pipelines of a cell: what an issue checks and schedules, and what lands at the end of a
running cycle (02 R41-R57, 05 R109-R115, R122-R124). -/

namespace Sys2Proof.Machine

/-! ### Registers -/

def Cell.s (x : Cell) (r : Nat) : R32 := if r = 0 then 0 else mget 0 x.sreg r
def Cell.v (x : Cell) (r : Nat) : W512 := mget 0 x.vreg r
def Cell.xr (x : Cell) (r : Nat) : W256 := mget 0 x.xreg r
def Cell.accOf (x : Cell) (lane e : Nat) : R32 := mget 0 x.acc (16 * lane + e)

/-- Lane `i` of a vector register. -/
def vlane (v : W512) (i : Nat) : R32 := v.extractLsb' (32 * i) 32

/-- A vector register of 16 lanes. -/
def vpack (f : Nat → R32) : W512 :=
  (List.range 16).foldl (fun a i => a ||| ((f i).setWidth 512 <<< (32 * i))) 0

/-- Half `h` of a vector register. -/
def vhalf (v : W512) (h : Nat) : W256 := v.extractLsb' (256 * h) 256

def setHalf (v : W512) (h : Nat) (d : W256) : W512 :=
  if h = 0 then (vhalf v 1 ++ d) else (d ++ vhalf v 0)

def setLane (v : W512) (i : Nat) (d : R32) : W512 := vpack (fun j => if j = i then d else vlane v j)

/-- Octets of a vector word. -/
def bytesOf (n : Nat) {w : Nat} (v : BitVec w) : List Byte := natLE n v.toNat

/-! ### Memories -/

def Cell.mem (x : Cell) (mem : Nat) : Mem :=
  match mem with
  | 1 => x.wmem | 2 => x.amem | 3 => x.pmem | 4 => x.imem | _ => x.rotor

def Cell.setMem (x : Cell) (mem : Nat) (m : Mem) : Cell :=
  match mem with
  | 1 => { x with wmem := m } | 2 => { x with amem := m } | 3 => { x with pmem := m }
  | 4 => { x with imem := m } | _ => { x with rotor := m }

/-- The bundle at an index, 128 bits (R41). -/
def Cell.bundle (x : Cell) (pc : Nat) : Nat := x.imem.readLE (16 * (pc % 1024)) 16

/-! ### Staging slots, items, sites -/

def Cell.stg (x : Cell) (k : Nat) : Staging := if k = 0 then x.stg0 else x.stg1
def Cell.setStg (x : Cell) (k : Nat) (v : Staging) : Cell := if k = 0 then { x with stg0 := v } else { x with stg1 := v }

/-- Fields of an item declaration (Table 6-7). -/
def itemClass (w : Nat) : Nat := bits w 63 60
def itemBase (w : Nat) : Nat := bits w 44 32
def itemSize (w : Nat) : Nat := bits w 24 16

/-- Item whose closed guard range holds the activation word of an offset (R114). -/
def Cell.guardHit (x : Cell) (offset : Nat) : Option Nat :=
  x.closed.find? (fun i =>
    let w := lget 0 x.items i
    decide (itemBase w ≤ offset / 32 ∧ offset / 32 < itemBase w + itemSize w))

/-! ### Issue -/

/-- What an issue sees: the cell, its pane's running cycle, its region, and the step in flight. -/
structure Ctx where
  x : Cell
  n : Nat
  reg : Region
  step : Nat
  beat : Nat

/-- Step number of a region's step in flight. -/
def Region.stepNo (g : Region) : Nat := match g.flight with | some f => f.number | none => g.stepNext - 1

/-- Weight window base of the step in flight (R235). -/
def Region.windowBase (g : Region) : Nat :=
  match g.flight with
  | none => 0
  | some f => f.window * g.wspan * 65536

/-- May slot `slot` of the cell's bundle issue in the present cycle (R41, R44)? -/
def State.slotLive (s : State) (c slot : Nat) : Bool :=
  let x := s.cell c
  let p := s.pane (paneOfCell c)
  match p.region with
  | none => false
  | some r =>
    let g := s.region r
    g.state == 3 && p.cond == .running && decide (p.cyc < g.beatLen) && !x.dead && !x.stepwait &&
      decide (x.pc < 1024) && !x.issued.contains slot

/-- Has the cell's present running cycle already failed a check (R124)? -/
def State.failed (s : State) (c : Nat) : Bool := (s.cell c).faultCycle == some (s.pane (paneOfCell c)).runCycles

/-- The cell as it stands before its first issue of a running cycle is kept until the cycle ends (R123). -/
def State.keepSnap (s : State) (c : Nat) : State :=
  if (s.cell c).issued.isEmpty then { s with snap := mset s.snap c (s.cell c) } else s

def State.ctx (s : State) (c : Nat) : Ctx :=
  let p := s.pane (paneOfCell c)
  let g := s.region (p.region.getD 64)
  ⟨s.cell c, p.runCycles, g, g.stepNo, p.beat⟩

/-- UNDEFINED_OP, with the bundle (R42, Table 5-9). -/
def Ctx.undefinedOp (k : Ctx) : Chk :=
  let b := k.x.bundle k.x.pc
  { code := 1, hi := b / 2 ^ 64, lo := b % 2 ^ 64 }

/-- LOOP_MISUSE (R45). -/
def Ctx.loopMisuse (k : Ctx) : Chk := { k.undefinedOp with code := 2 }

/-- Checks every slot shares: operands the operation can use, and bundle bits 3:0 zero (R42). -/
def Ctx.base (k : Ctx) (ok : Bool) : List Chk :=
  if ok && k.x.bundle k.x.pc % 16 == 0 then [] else [k.undefinedOp]

/-- Two scheduled accesses in one cycle: BANK_DOUBLE and PORT_DOUBLE (R55). -/
def clash (a b : Access) : List Chk :=
  if a.cycle = b.cycle ∧ a.mem = b.mem then
    (if a.bank = b.bank then
      [{ code := 3, hi := a.mem * 2 ^ 56 + a.bank * 2 ^ 48 + a.port * 2 ^ 40 + a.slot * 2 ^ 32 + b.port * 2 ^ 24 + b.slot * 2 ^ 16,
         lo := a.iaddr * 2 ^ 32 + b.iaddr }] else []) ++
    (if a.port = b.port then
      [{ code := 4, hi := a.mem * 2 ^ 56 + a.port * 2 ^ 40 + a.slot * 2 ^ 32 + b.slot * 2 ^ 16,
         lo := a.iaddr * 2 ^ 32 + b.iaddr }] else [])
  else []

/-- Clashes among a list of accesses, each pair once. -/
def clashes : List Access → List Chk
  | [] => []
  | a :: r => r.flatMap (clash a) ++ clashes r

/-- A scheduled access at `delay` cycles from issue. -/
def Ctx.access (k : Ctx) (mem port slot offset delay : Nat) (narrow : Bool) : Access :=
  ⟨k.n + delay, mem, port, bankOf mem offset, slot, k.x.pc, offset, narrow⟩

/-- ADDR_RANGE of a scheduled access (R52). -/
def Ctx.range (k : Ctx) (mem port slot offset : Nat) : List Chk :=
  if offset < memSize mem then []
  else [{ code := 0x14, hi := mem * 2 ^ 56 + port * 2 ^ 40 + slot * 2 ^ 32 + offset % 2 ^ 32, lo := k.x.pc }]

/-- GUARD_ACCESS of an activation access (R114). -/
def Cell.guardChk (x : Cell) (offset port : Nat) : List Chk :=
  match x.guardHit offset with
  | none => []
  | some i =>
    let w := lget 0 x.items i
    [{ code := 0xD, hi := i * 2 ^ 56 + itemClass w * 2 ^ 48 + port * 2 ^ 40 + offset / 32 % 65536,
       lo := itemBase w * 2 ^ 32 + itemSize w * 2 ^ 16 }]

/-- Remember an access of this or a later cycle. -/
def Cell.addAcc (x : Cell) (a : Access) : Cell := { x with accs := x.accs ++ [a] }

/-- Clashes of an access of the present cycle with those already recorded in it. -/
def Ctx.clashNow (k : Ctx) (a : Access) : List Chk := k.x.accs.flatMap (fun b => clash b a)

/-- Schedule an effect that an operation issued `lat` cycles later reads (R43). -/
def Ctx.land (k : Ctx) (x : Cell) (lat : Nat) (a : Act) : Cell :=
  { x with evs := x.evs ++ [⟨k.n + lat - 1, a⟩] }

/-- Event numbers of class ISSUE by slot (Table 20-6): DOT 2, VEC 3, special function 4, ROT 5, MOV 6. -/
def issueEvent (slot : Nat) (rot : Bool) : List Nat :=
  match slot with
  | 1 => [2] | 2 => [3] | 3 => if rot then [5] else [4] | 4 => [6] | _ => []

/-- Issue one slot of a cell in the present running cycle: checks, then the effect on the cell (R41, R122-R124). In a cycle that has
failed a check already, further checks are made and nothing takes effect. A command that comes when the slot cannot issue leaves
the state as it is (log 5). -/
def issue (c slot : Nat) (f : Ctx → List Chk × Cell) (s : State) (rot : Bool := false) : Out :=
  if s.slotLive c slot then
    let s := s.keepSnap c
    let (chks, x) := f (s.ctx c)
    let mark (y : Cell) : Cell := { y with issued := slot :: y.issued }
    if !chks.isEmpty then .next ((s.modCell c mark).failCell c chks)
    else if s.failed c then .next (s.modCell c mark)
    else .next (s.setCell c ((issueEvent slot rot).foldl (fun a e => a.countEv (schedEv 1 e) 1) (mark x)))
  else .next s

/-! ### What lands at the end of a running cycle -/

/-- Add an exact value to an accumulator entry of a lane, one rounding (R93-R95). -/
def accAddLane (old : R32) (v : FpVal) : R32 :=
  let o := f32Val old
  if o.isNan || v.isNan || (o.isInf && v.isInf && o.neg != v.neg) then f32NanOf (Config.nanBits old 0 2)
  else if o.isInf then old
  else if v.isInf then f32Inf v.neg
  else f32Round (if o.neg = v.neg then o.neg else Config.zeroSign) (Dy.add o.dy v.dy)

/-- Checks of an effect that lands: a store's activation word under a closed guard (R114). -/
def Act.chks (x : Cell) : Act → List Chk
  | .store 2 offset _ _ _ port => x.guardChk offset port
  | .stgStore slot index _ _ => x.guardChk (((x.stg slot).base + index) * 32) 3
  | _ => []

/-- One effect on the cell itself. -/
def Cell.land1 (x : Cell) (n : Nat) (a : Act) : Cell :=
  match a with
  | .sReg r v => if r = 0 then x else { x with sreg := mset x.sreg r v }
  | .vReg r v => { x with vreg := mset x.vreg r v }
  | .vHalf r h v => { x with vreg := mset x.vreg r (setHalf (x.v r) h v) }
  | .vLane r l v => { x with vreg := mset x.vreg r (setLane (x.v r) l v) }
  | .xReg r v => { x with xreg := mset x.xreg r v }
  | .latch v => { x with latch := v }
  | .scales l => { x with scales := l.foldl (fun m p => mset m p.1 p.2) x.scales }
  | .accClear es => { x with acc := es.foldl (fun m e => (List.range 8).foldl (fun m l => mset m (16 * l + e) 0) m) x.acc }
  | .accAdd e vals =>
    let step (y : Cell) (l : Nat) : Cell :=
      let r := accAddLane (y.accOf l e) (lget (.fin false 0 0) vals l)
      let y := { y with acc := mset y.acc (16 * l + e) r }
      if (f32Val r).isFin then y else y.countEv (schedEv 5 6) 1
    (List.range 8).foldl step x
  | .store mem offset data _ _ _ => x.setMem mem ((x.mem mem).write offset data)
  | .flushRead offset vals =>
    let old (i : Nat) : R32 := BitVec.ofNat 32 (x.pmem.readLE (offset + 4 * i) 4)
    let sum := (List.range 16).flatMap (fun i => bytesOf 4 (f32Add (old i) (lget 0 vals i)))
    { x with evs := x.evs ++ [⟨n + 2, .store 3 offset sum 0 1 5⟩] }
  | .stgStore slot index data _ => { x with amem := x.amem.write (((x.stg slot).base + index) * 32) data }
  | .hop _ _ _ _ => x

/-- The exact value a lane's run stands for: `Σ bin × 2^(b + c)` times the block scale, with its NaN or infinity
(R93, R94). -/
def RunRec.value (r : RunRec) (lane : Nat) : FpVal :=
  let sum := (r.bins.filter (fun p => p.1 / 64 == lane)).foldl
    (fun (a : Dy) p => Dy.add a ⟨p.2, (p.1 % 64 : Nat) + r.cexp⟩) Dy.zero
  let v : FpVal := match lget (.fin false 0 0) r.special lane with
    | .fin _ _ _ => .fin (decide (sum.m < 0)) sum.m.natAbs sum.e
    | w => w
  match fmtOf r.wf with
  | some f => if f.scaled then v.mul (f.scale (lget 0 r.scales lane)) else v
  | none => v

/-- End the open run: its promotion is visible 5 cycles after its last issue (R92, R93; log 22). -/
def Cell.closeRun (x : Cell) : Cell :=
  match x.run with
  | none => x
  | some r =>
    { x with run := none, evs := x.evs ++ [⟨r.last + 4, .accAdd r.entry ((List.range 8).map r.value)⟩] }

/-- Next bundle in sequence after `pc`, with the loop stack (R41, R45). -/
def seqNext : List LoopRec → Nat → Nat × List LoopRec
  | [], pc => (pc + 1, [])
  | l :: r, pc =>
    if pc = l.last then
      if l.left > 1 then (l.first, { l with left := l.left - 1 } :: r) else seqNext r pc
    else (pc + 1, l :: r)

/-- The sequencer's place after a cycle (R41, R45, Table 2-3). -/
def Cell.advance (x : Cell) : Cell :=
  if x.stepwait then { x with pc := x.entryPc, branch := none, branchNext := none, inDelay := false }
  else
    let (q, ls) := seqNext x.loops x.pc
    if x.inDelay then
      match x.branch with
      | some t => { x with pc := t, branch := none, inDelay := false, loops := ls }
      | none => { x with pc := q, inDelay := false, loops := ls }
    else
      match x.branchNext with
      | some t => { x with pc := q, loops := ls, branch := t, branchNext := none, inDelay := true }
      | none => { x with pc := q, loops := ls }

/-- Count an access in the bank counters and the MEMORY class (R61, Table 20-6). -/
def Cell.countAcc (x : Cell) (a : Access) (bg : Bool) (ev : PmcEv) : Cell :=
  (x.countBank a.mem (if x.bankHit a.mem a.bank then 1 else 0) (if a.narrow && x.bankHit a.mem a.bank then 1 else 0)).countMem ev a.mem a.offset a.narrow bg

/-- Consecutive scheduled cycles of each bank and of each memory's port G, after a cycle with accesses `l` (R57). -/
def Cell.countRuns (x : Cell) (l : List Access) : Cell :=
  let banks := [1, 2, 3, 4].flatMap (fun m => (List.range (memBanks m)).map (fun b => 16 * m + b))
  let stepB (m : SMap Nat) (k : Nat) : SMap Nat :=
    if l.any (fun a => 16 * a.mem + a.bank == k) then mset m k (mget 0 m k + 1) else mdel m k
  let stepP (m : SMap Nat) (k : Nat) : SMap Nat :=
    if l.any (fun a => a.mem == k && a.port == 3) then mset m k (mget 0 m k + 1) else mdel m k
  { x with bankRun := banks.foldl stepB x.bankRun, portRun := [1, 2, 3].foldl stepP x.portRun }

/-- Consecutive assigned cycles of each link direction (R34). -/
def Cell.countLinks (x : Cell) : Cell :=
  let step (m : SMap Nat) (d : Nat) : SMap Nat :=
    if x.linkUse.contains d then mset m d (mget 0 m d + 1) else mdel m d
  { x with linkRun := [1, 2, 3, 4].foldl step x.linkRun }

/-- A background access that waited in a cycle (R56, R61): the head of each memory's queue. -/
def Cell.waitBg (x : Cell) : Cell :=
  let heads := [1, 2, 3, 4].filterMap (fun m => x.bg.findIdx? (fun b => b.mem == m))
  let step (y : Cell) (i : Nat) : Cell :=
    match y.bg[i]? with
    | none => y
    | some b =>
      let w := b.waited + 1
      let hit := y.bankHit b.mem (bankOf b.mem b.offset)
      let k := 4 * (b.mem - 1)
      let m := if hit then mset y.bankCnt (k + 2) ((mget {} y.bankCnt (k + 2)).add 1) else y.bankCnt
      let old := mget {} m (k + 3)
      let m := if hit then mset m (k + 3) { old with count := max old.count (satTo (2 ^ 48 - 1) w) } else m
      ({ y with bg := y.bg.set i { b with waited := w }, bankCnt := m }).countEv
        { cls := 3, ev := 3, loc := some (b.mem, b.offset) } 1
  { heads.foldl step x with granted := [], grantAsk := [] }

/-- Link directions that an entry takes at a router (Table 6-6), with its route. -/
def Cell.hopLinks (x : Cell) (route inSide : Nat) : List (Nat × Nat) :=
  match x.routes.find? (fun p => p.1 == route) with
  | none => []
  | some (_, e) =>
    if e.inn ≠ inSide then [] else ([1, 2, 3, 4].filter (fun d => bitAt e.out d)).map (fun d => (d, route))

/-- LINK_COLLISION: two entries of a cycle that need one link direction of a router (R461, Tables 5-7 and 5-9). -/
def linkClashes : List (Nat × Nat) → List Chk
  | [] => []
  | u :: r =>
    (r.filter (fun w => w.1 == u.1)).map (fun w =>
      ({ code := 5, hi := (7 + u.1) * 2 ^ 56 + u.2 * 2 ^ 16 + w.2 } : Chk)) ++ linkClashes r

/-- A mesh entry at a router in the present cycle (R33, R110, R115, Table 6-6): it takes the route's outputs. One that crosses to a
sill field leaves the cells (R35), and one for a pane whose through-way is down is lost (R21). -/
def State.meshHop (s : State) (c route inSide src : Nat) (data : W256) (n : Nat) : State :=
  match (s.cell c).routes.find? (fun p => p.1 == route) with
  | none => s
  | some (_, e) =>
    if e.inn ≠ inSide then s
    else
      let p := paneOfCell c
      let beat := (s.pane p).beat
      let side (s : State) (d : Nat) : State :=
        if bitAt e.out d then
          let s := s.modCell c (fun x => { x with linkUse := x.linkUse ++ [d] })
          match neighbour c d with
          | none => if hasLink c d then s.modCell c (fun x => x.countEv (schedEv 4 3) 1) else s
          | some m =>
            if s.wafer.wayDown (paneOfCell m) then s
            else if paneOfCell m = p then
              s.modCell m (fun x => { x with evs := x.evs ++ [⟨n + 1, .hop route (opposite d) src data⟩] })
            else
              (s.modCell m (fun x => { x with
                fifo := mset x.fifo (opposite d) (mget [] x.fifo (opposite d) ++ [⟨beat % 4, data⟩]) })).modCell c
                (fun x => x.countEv (schedEv 4 3) 1)
        else s
      let s := if bitAt e.out 0 then s.modCell c (fun x => { x with inLatch := data }) else s
      let s := [1, 2, 3, 4].foldl side s
      if bitAt e.out 5 then
        let s := s.modCell c (fun x => x.countEv (schedEv 4 4) 1)
        let q := s.pane p
        if q.outPort.length < 16 then s.setPane p { q with outPort := q.outPort ++ [data] }
        else s.setPane p { q with outWait := q.outWait ++ [(src, data)] }
      else s

/-- Is a bundle undefined by its bits: bits 3:0, a slot of opcode zero with operand bits, or a slot that spells no operation (R41,
R42, Table 2-2)? -/
def bundleBad (b : Nat) : Bool :=
  let slot (i hi lo op : Nat) : Bool :=
    let v := bits b hi lo
    v != 0 && (bits b hi op == 0 || !Config.slotDefined i v)
  b % 16 != 0 || slot 0 127 100 122 || slot 1 99 76 95 || slot 2 75 48 70 || slot 3 47 32 44 || slot 4 31 4 26

/-- Links and banks that this cycle would take past the free-cycle rules: 16 consecutive assigned cycles of a link direction, 64
scheduled ones of a bank or of a port G (R34, R57, Table 5-9). -/
def Cell.freeChks (x : Cell) (links : List Nat) (now : List Access) : List Chk :=
  ([1, 2, 3, 4].filter (fun d => links.contains d && decide (15 ≤ mget 0 x.linkRun d))).map (fun d =>
    ({ code := 6, hi := (7 + d) * 2 ^ 56, lo := mget 0 x.linkRun d + 1 } : Chk)) ++
  ((now.map (fun a => (a.mem, a.bank))).eraseDups.filter (fun k => decide (63 ≤ mget 0 x.bankRun (16 * k.1 + k.2)))).map (fun k =>
    ({ code := 7, hi := k.1 * 2 ^ 56 + k.2 * 2 ^ 48, lo := mget 0 x.bankRun (16 * k.1 + k.2) + 1 } : Chk)) ++
  (((now.filter (fun a => a.port == 3)).map (fun a => a.mem)).eraseDups.filter (fun m => decide (63 ≤ mget 0 x.portRun m))).map (fun m =>
    ({ code := 7, hi := m * 2 ^ 56 + 3 * 2 ^ 40, lo := mget 0 x.portRun m + 1 } : Chk))

/-- Links that the effects landing in running cycle `n` take, with their routes. -/
def Cell.linksNow (x : Cell) (n : Nat) : List (Nat × Nat) :=
  (x.evs.filter (fun e => decide (e.due ≤ n))).flatMap (fun e =>
    match e.act with | .hop route i _ _ => x.hopLinks route i | _ => [])

/-- Scheduled accesses of running cycle `n`. -/
def Cell.accsNow (x : Cell) (n : Nat) : List Access := x.accs.filter (fun a => a.cycle == n)

/-- A crossing entry left unread: an entry of the beat before the pane's, at its completion (Table 5-7). -/
def Cell.staleFifo (x : Cell) (beat : Nat) : List Chk :=
  [1, 2, 3, 4].flatMap (fun d =>
    let q := mget [] x.fifo d
    if q.any (fun e => e.tag == (beat + 3) % 4) then
      [{ code := 9, hi := (7 + d) * 2 ^ 56 + q.length * 2 ^ 32 + (beat + 3) % 4 * 2 ^ 16 + (beat + 3) % 4 }]
    else [])

/-- Last beat of the step in flight (R111). -/
def Region.lastBeat (g : Region) : Nat :=
  match g.flight with
  | some f => f.firstBeat + f.tpl.beats - 1
  | none => 0

/-- Cells of a pane in STEPWAIT. -/
def State.waitingCells (s : State) (p : Nat) : Nat :=
  (s.cells.filter (fun q => paneOfCell q.1 == p && q.2.stepwait)).length

/-- Checks at the last running cycle of a beat: CROSS_STALE, and STEP_MISALIGNED at the step's last beat (R111). -/
def State.beatChks (s : State) (c : Nat) : List Chk :=
  let p := paneOfCell c
  let q := s.pane p
  match q.region with
  | none => []
  | some r =>
    let g := s.region r
    let x := s.cell c
    if q.cyc + 1 ≠ g.beatLen then []
    else
      (if q.beat = 0 then [] else x.staleFifo q.beat) ++
        (if q.beat = g.lastBeat ∧ !x.stepwait ∧ !x.dead then [{ code := 0x11, hi := s.waitingCells p * 2 ^ 48, lo := g.lastBeat }] else [])

/-- The end of a running cycle of one cell: the checks of Table 5-7 that no issue makes, then the effects that land in it in issue
order, the mesh, the counters, and the sequencer's next place (R43, R122-R124). -/
def State.endCycle (s : State) (c : Nat) : State :=
  let n := (s.pane (paneOfCell c)).runCycles
  let x := s.cell c
  let live := !x.stepwait && !x.dead
  let due := x.evs.filter (fun e => decide (e.due ≤ n))
  let now := x.accsNow n
  let op : List Chk :=
    if !live || (x.stepwait && x.issued.isEmpty) then []
    else if 1024 ≤ x.pc then [{ code := 0x15, iaddr := some 1023 }]
    else
      let b := (mget x s.snap c).bundle x.pc
      if bundleBad b then [{ code := 1, hi := b / 2 ^ 64, lo := b % 2 ^ 64 }] else []
  let links := x.linksNow n
  let chks := op ++ clashes now ++ linkClashes links ++ x.freeChks (links.map (·.1)) now ++ due.flatMap (fun e => e.act.chks x) ++ s.beatChks c
  let s := if chks.isEmpty then s else s.failCell c chks
  let x := s.cell c
  let x := { x with evs := x.evs.filter (fun e => decide (n < e.due)), accs := x.accs.filter (fun a => decide (n < a.cycle)) }
  let s := { s with snap := mdel s.snap c }.setCell c x
  if s.failed c then s.modCell c (fun y => { y with issued := [], linkUse := [] })
  else
    let x := due.foldl (fun y e => y.land1 n e.act) x
    let x := now.foldl (fun y a => y.countAcc a false (schedEv 3 1)) (x.countRuns now)
    let x := match x.run with
      | some r => if r.last < n then x.closeRun else x
      | none => x
    let s := due.foldl (fun a e => match e.act with | .hop route i src d => a.meshHop c route i src d n | _ => a) (s.setCell c x)
    let x := s.cell c
    let x := if x.stepwait || x.dead then x else x.countEv (schedEv 1 1) 1
    let x := if x.dead then x else x.advance
    s.setCell c { x.countLinks with issued := [], linkUse := [] }

/-! ### Background accesses (R56) -/

/-- A background access joins its memory's queue of four; the mesh holds what finds it full. -/
def Cell.pushBg (x : Cell) (b : BgReq) : Cell :=
  if (x.bg.filter (fun q => q.mem == b.mem)).length < 4 && !x.bgMesh.any (fun q => q.mem == b.mem) then { x with bg := x.bg ++ [b] }
  else { x with bgMesh := x.bgMesh ++ [b] }

/-- The queue entry `i` is gone: the oldest access of its memory that the mesh holds takes a place. -/
def Cell.popBg (x : Cell) (i : Nat) : Cell :=
  let mem := match x.bg[i]? with | some b => b.mem | none => 0
  let x := { x with bg := x.bg.eraseIdx i }
  match x.bgMesh.findIdx? (fun q => q.mem == mem) with
  | none => x
  | some k =>
    match x.bgMesh[k]? with
    | none => x
    | some b => { x with bg := x.bg ++ [b], bgMesh := x.bgMesh.eraseIdx k }

/-- Forget background accesses that a test does not keep, queued or held. -/
def Cell.keepBg (x : Cell) (keep : BgReq → Bool) : Cell :=
  let l := (x.bg ++ x.bgMesh).filter keep
  l.foldl Cell.pushBg { x with bg := [], bgMesh := [] }

def State.queueBg (s : State) (c : Nat) (b : BgReq) : State := s.modCell c (fun x => x.pushBg b)

end Sys2Proof.Machine
end

