-- ==== Sys2Proof/Machine/CtlOps.lean ====
section
/-! DEFINITION. Sequencer operations, CTL slot (02 Table 2-3, R43, R45, 05 R111-R114). -/

namespace Sys2Proof.Machine

/-- A scalar operation of latency `lat` into `rd` (R43); `s0` discards writes (Table 2-3). -/
def scalarOp (c rd : Nat) (ok : Bool) (lat : Nat) (f : Cell → R32) (s : State) : Out :=
  issue c 0 (fun k => (k.base (ok && decide (rd < 32)), k.land k.x lat (.sReg rd (f k.x)))) s

/-- Two source registers that exist. -/
def twoRegs (ra rb : Nat) : Bool := decide (ra < 32) && decide (rb < 32)

/-- ADD: the sum, low 32 bits. -/
def execAdd (c rd ra rb : Nat) (s : State) : Out := scalarOp c rd (twoRegs ra rb) 1 (fun x => x.s ra + x.s rb) s

/-- SUB: the difference, low 32 bits. -/
def execSub (c rd ra rb : Nat) (s : State) : Out := scalarOp c rd (twoRegs ra rb) 1 (fun x => x.s ra - x.s rb) s

/-- AND. -/
def execSAnd (c rd ra rb : Nat) (s : State) : Out := scalarOp c rd (twoRegs ra rb) 1 (fun x => x.s ra &&& x.s rb) s

/-- OR. -/
def execSOr (c rd ra rb : Nat) (s : State) : Out := scalarOp c rd (twoRegs ra rb) 1 (fun x => x.s ra ||| x.s rb) s

/-- XOR. -/
def execSXor (c rd ra rb : Nat) (s : State) : Out := scalarOp c rd (twoRegs ra rb) 1 (fun x => x.s ra ^^^ x.s rb) s

/-- A shift by less than 32; for a count of 32 or more the spec states no result (log 9). -/
def shiftVal (right : Bool) (a b : R32) : R32 :=
  if b.toNat < 32 then (if right then a >>> b.toNat else a <<< b.toNat) else Config.longShift right a b

/-- SHL. -/
def execShl (c rd ra rb : Nat) (s : State) : Out :=
  scalarOp c rd (twoRegs ra rb) 1 (fun x => shiftVal false (x.s ra) (x.s rb)) s

/-- SHR, zeros shifted in. PRESUMED (log 9). -/
def execShr (c rd ra rb : Nat) (s : State) : Out :=
  scalarOp c rd (twoRegs ra rb) 1 (fun x => shiftVal true (x.s ra) (x.s rb)) s

/-- CMP: the spec states no result (log 9). -/
def execCmp (c rd ra rb : Nat) (s : State) : Out :=
  scalarOp c rd (twoRegs ra rb) 1 (fun x => Config.cmpResult (x.s ra) (x.s rb)) s

/-- MOVI: a 20-bit immediate, sign-extended. -/
def execMovi (c rd imm : Nat) (s : State) : Out :=
  scalarOp c rd (decide (imm < 2 ^ 20)) 1 (fun _ => (BitVec.ofNat 20 imm).signExtend 32) s

/-- MUL: low 32 bits of the product, 3 cycles. -/
def execMul (c rd ra rb : Nat) (s : State) : Out := scalarOp c rd (twoRegs ra rb) 3 (fun x => x.s ra * x.s rb) s

/-- LOOP_MISUSE of a branch: issued in a delay bundle, or with a loop's end index in its own (R45). -/
def Ctx.branchChk (k : Ctx) : List Chk :=
  let d := (seqNext k.x.loops k.x.pc).1
  if k.x.inDelay || k.x.loops.any (fun l => l.last == d) then [k.loopMisuse] else []

/-- JMP: the next bundle in sequence, then the target (Table 2-3). -/
def execJmp (c target : Nat) (s : State) : Out :=
  issue c 0 (fun k => (k.base (decide (target < 1024)) ++ k.branchChk, { k.x with branchNext := some (some target) })) s

/-- BR: as JMP when taken; the condition is not stated (log 9). -/
def execBr (c rs target : Nat) (s : State) : Out :=
  issue c 0 (fun k => (k.base (decide (target < 1024) && decide (rs < 32)) ++ k.branchChk,
    { k.x with branchNext := some (if Config.branchTaken (k.x.s rs) then some target else none) })) s

/-- LOOP: 1-65,535 iterations of the bundles from the next one to `last`; the count is an immediate or a register
(R45). -/
def execLoop (c : Nat) (fromReg : Bool) (count last : Nat) (s : State) : Out :=
  issue c 0 (fun k =>
    let n := if fromReg then (k.x.s count).toNat else count
    let bad := decide (k.x.loops.length ≥ 4) || decide (n = 0) || decide (n > 65535) ||
      (k.x.inDelay && last == k.x.pc)
    (k.base (decide (last < 1024) && (!fromReg || decide (count < 32))) ++ (if bad then [k.loopMisuse] else []),
      { k.x with loops := ⟨k.x.pc + 1, last, n⟩ :: k.x.loops })) s

/-- A take of an item: recorded, its guard opens, its delivery is used up (R112, R113). -/
def Cell.take (x : Cell) (item step : Nat) : Cell :=
  { x with taken := item :: x.taken, closed := x.closed.filter (· != item),
           ready := x.ready.filter (· != (item, step)) }.countEv (schedEv 1 7) 1

/-- Checks of AWAIT (R114). -/
def Ctx.awaitChk (k : Ctx) (item : Nat) : List Chk :=
  let w := lget 0 k.x.items item
  let hi := item % 256 * 2 ^ 56 + itemClass w * 2 ^ 48
  let lo := itemBase w * 2 ^ 32 + itemSize w * 2 ^ 16
  k.base (decide (item < 32)) ++
  (if item ≥ k.x.items.length then [{ code := 0xB, hi := item % 256 * 2 ^ 56 }]
   else if k.x.taken.contains item then [{ code := 0xC, hi := hi, lo := lo }] else [])

/-- AWAIT: with a delivery of this step ready, the take is recorded; otherwise the pane's running cycles stop at the end of the
cycle where none has become ready in it (R112). -/
def execAwait (c item : Nat) (s : State) : Out :=
  issue c 0 (fun k =>
    (k.awaitChk item,
      if k.x.ready.contains (item, k.step) then k.x.take item k.step else { k.x with awaiting := some item })) s

/-- STEPWAIT: issue stops until the region's next step; outside the step's last beat it is STEP_MISALIGNED
(R111). -/
def execStepwait (c : Nat) (s : State) : Out :=
  let n := s.waitingCells (paneOfCell c)
  issue c 0 (fun k =>
    (k.base true ++ (if k.beat = k.reg.lastBeat then [] else [{ code := 0x11, hi := n * 2 ^ 48, lo := k.reg.lastBeat }]),
      { k.x with stepwait := true })) s

end Sys2Proof.Machine
end

