-- ==== Sys2Proof/Machine/Crypto.lean ====
section
/-! DEFINITION. SHA-256 (FIPS 180-4) and HMAC-SHA-256 (FIPS 198-1), named by 18 Table 18-4 and not given there
(PRESUMED, log 13); the rotations use plain numbers below 2^32. -/

namespace Sys2Proof.Machine

/-- Of the numbers below `x + 2^i` the largest whose `k`-th power is at most `n`, where `x` is one and its low `i` bits are 0. -/
def rootFrom (k n : Nat) : Nat → Nat → Nat
  | 0, x => x
  | i + 1, x => rootFrom k n i (if (x + 2 ^ i) ^ k ≤ n then x + 2 ^ i else x)

/-- The first 32 bits of the fraction of the `k`-th root of `p`, as FIPS 180-4 defines the constants of SHA-256. -/
def rootFraction (k p : Nat) : Nat := rootFrom k (p * 2 ^ (32 * k)) 36 0 % 2 ^ 32

/-- The primes below 312, of which there are 64. -/
def smallPrimes : List Nat := (List.range 312).filter (fun n => decide (2 ≤ n) && (List.range 18).all (fun d => decide (d < 2 ∨ n ≤ d) || n % d != 0))

/-- Round constants of SHA-256: of the cube roots of the first 64 primes. -/
def shaK : List Nat := smallPrimes.map (rootFraction 3)

/-- Initial hash value of SHA-256: of the square roots of the first 8 primes. -/
def shaInit : List Nat := (smallPrimes.take 8).map (rootFraction 2)

/-- The exclusive or of a 32-bit number turned right by each of some amounts. -/
def turns (x : Nat) (l : List Nat) : Nat := l.foldl (fun a n => a ^^^ (x / 2 ^ n + x * 2 ^ (32 - n) % 2 ^ 32)) 0

/-- The sum of words. -/
def sum32 (l : List Nat) : Nat := l.foldl (· + ·) 0 % 2 ^ 32

/-- The word that follows 16 words of the message schedule. -/
def shaNext (w : List Nat) : Nat :=
  let far := lget 0 w 1
  let near := lget 0 w 14
  sum32 [lget 0 w 0, turns far [7, 18] ^^^ far / 8, lget 0 w 9, turns near [17, 19] ^^^ near / 1024]

/-- Message schedule: the last 16 words, oldest first, `n` rounds to go; gives the words in order. -/
def shaSchedule : Nat → List Nat → List Nat
  | 0, _ => []
  | n + 1, w => w.take 1 ++ shaSchedule n (w.drop 1 ++ [shaNext w])

/-- One round over the eight working variables, with the sum of its constant and its word: the last one leaves, and a new first one
comes, while the fourth takes part of it. -/
def shaRound (v : List Nat) (kw : Nat) : List Nat :=
  let x (i : Nat) : Nat := lget 0 v i
  let choice := x 6 ^^^ (x 4 &&& (x 5 ^^^ x 6))
  let most := (x 0 &&& (x 1 ||| x 2)) ||| (x 1 &&& x 2)
  let part := sum32 [x 7, turns (x 4) [6, 11, 25], choice, kw]
  (sum32 [part, turns (x 0) [2, 13, 22], most] :: v.take 7).set 4 (sum32 [x 3, part])

/-- One 64-octet block. -/
def shaBlock (h : List Nat) (blk : List Byte) : List Nat :=
  let w := shaSchedule 64 ((List.range 16).map (fun i => beNat ((blk.drop (4 * i)).take 4)))
  let r := (List.zipWith (· + ·) shaK w).foldl shaRound h
  List.zipWith (fun a b => sum32 [a, b]) h r

/-- All blocks; `n` bounds their number. -/
def shaBlocks : Nat → List Nat → List Byte → List Nat
  | 0, h, _ => h
  | n + 1, h, l => if l.isEmpty then h else shaBlocks n (shaBlock h (l.take 64)) (l.drop 64)

/-- SHA-256 of an octet string, 32 octets. -/
def sha256 (l : List Byte) : List Byte :=
  let n := l.length
  let pad := l ++ [0x80] ++ zeros ((119 - n % 64) % 64) ++ natBE 8 (8 * n)
  (shaBlocks (pad.length / 64 + 1) shaInit pad).flatMap (natBE 4)

/-- HMAC-SHA-256. -/
def hmac (key msg : List Byte) : List Byte :=
  let k0 := if key.length > 64 then sha256 key else key
  let k := k0 ++ zeros (64 - k0.length)
  sha256 (k.map (· ^^^ 0x5C) ++ sha256 (k.map (· ^^^ 0x36) ++ msg))

/-- Fixed-length pieces of a string; a last piece may be short. `n` bounds their number. -/
def chunks (k : Nat) : Nat → List Byte → List (List Byte)
  | 0, _ => []
  | n + 1, l => if l.isEmpty then [] else l.take k :: chunks k n (l.drop k)

/-- Records of `k` octets as little-endian numbers. -/
def records (k : Nat) (l : List Byte) : List Nat := (chunks k (l.length / k) l).map leNat

end Sys2Proof.Machine
end

