-- ==== Sys2Proof/Machine/Packing.lean ====
section
/-! DEFINITION. Interchange packing into weight-memory packing (03 R68-R76, R82, R83): elements and block scales of a
piece, or a format error. -/

namespace Sys2Proof.Machine

/-- The first `count` `k`-bit elements of a little-endian bit string (R82). -/
def unpackBits (k : Nat) : Nat → Nat → List Nat
  | 0, _ => []
  | n + 1, v => v % 2 ^ k :: unpackBits k n (v / 2 ^ k)

/-- Elements as `k`-bit fields of one little-endian number (R82). -/
def packBits (k : Nat) : List Nat → Nat
  | [] => 0
  | e :: r => e % 2 ^ k + 2 ^ k * packBits k r

/-- Octets of elements in `k`-bit containers. -/
def packOctets (k : Nat) (l : List Nat) : List Byte := natLE (ceilDiv (k * l.length) 8) (packBits k l)

/-- The five trit codes of an interchange octet; none for an invalid octet (R68). -/
def tritsOf (b : Nat) : Option (List Nat) :=
  if b ≥ 243 then none
  else
    let code (t : Nat) : Nat := lget 0 [3, 0, 1] t
    some [code (b % 3), code (b / 3 % 3), code (b / 9 % 3), code (b / 27 % 3), code (b / 81 % 3)]

/-- An E4M3 block scale: sign 0 and not NaN (R71). -/
def blockScaleOk (b : Nat) : Bool := decide (b < 0x7F)

/-- An element code of an MX weight block is neither NaN nor infinity (R76). -/
def mxElementOk (el : FpFmt) (code : Nat) : Bool := (fpDecode el code).isFin

/-- Octets of a block in interchange packing, and bits of its elements' containers, for a format with block scales
(Table 3-4, R87); zero for other formats. -/
def blockOctets (code : Nat) : Nat :=
  match code with
  | 0x30 => 9 | 0x31 => 7 | 0x32 => 8 | 0x20 | 0x21 => 33 | 0x22 | 0x23 => 25 | 0x24 => 17 | _ => 0

/-- One block: element codes and the scale octet; none for a format error. -/
def splitBlock (code : Nat) (l : List Byte) : Option (List Nat × Nat) :=
  let sc := leNat (l.take 1)
  let v := leNat (l.drop 1)
  if l.length ≠ blockOctets code then none
  else
    match fmtOf code with
    | some (.tb el) => if blockScaleOk sc then some (unpackBits (1 + el.ebits + el.mbits) 16 v, sc) else none
    | some .tbt =>
      let octs := unpackBits 8 7 v
      match (octs.take 6).mapM tritsOf, lget 0 octs 6 with
      | some ts, last =>
        if blockScaleOk sc ∧ 117 ≤ last ∧ last ≤ 125 then
          some (ts.flatten ++ ((tritsOf last).getD []).take 2, sc)
        else none
      | none, _ => none
    | some (.mx el) =>
      let es := unpackBits (1 + el.ebits + el.mbits) 32 v
      if sc ≠ 0xFF ∧ es.all (mxElementOk el) then some (es, sc) else none
    | _ => none

/-- Blocks of a piece. `n` bounds their number. -/
def splitPiece (code : Nat) : Nat → List Byte → Option (List (List Nat × Nat))
  | 0, l => if l.isEmpty then some [] else none
  | n + 1, l =>
    if l.isEmpty then some []
    else
      match splitBlock code (l.take (blockOctets code)), splitPiece code n (l.drop (blockOctets code)) with
      | some b, some r => some (b :: r)
      | _, _ => none

/-- A piece's elements in weight-memory containers, and its block scale array (R83). -/
def convertPiece (code : Nat) (l : List Byte) : Option (List Byte × List Byte) :=
  match fmtOf code with
  | none => none
  | some f =>
    if f.scaled then
      (splitPiece code l.length l).map (fun bs =>
        (packOctets f.container (bs.flatMap (·.1)), bs.map (fun b => BitVec.ofNat 8 b.2)))
    else
      match f with
      | .ternary => (l.mapM (fun b => tritsOf b.toNat)).map (fun ts => (packOctets 2 ts.flatten, []))
      | .fp el =>
        let w := 1 + el.ebits + el.mbits
        if w = f.container then some (l, [])
        else some (packOctets f.container (unpackBits w (8 * l.length / w) (leNat l)), [])
      | _ => some (l, [])

end Sys2Proof.Machine
end

