-- ==== Sys2Proof/Machine/VecOps.lean ====
section
/-! DEFINITION. Vector-unit operations, VEC slot (02 Table 2-6, 03 R77-R81, 04 R98-R99). -/

namespace Sys2Proof.Machine

/-- A vector operation of latency `lat` into `vd` (Table 2-6). -/
def vecOp (c vd : Nat) (srcs : List Nat) (lat : Nat) (f : Cell → W512) (s : State) : Out :=
  issue c 2 (fun k => (k.base (decide (vd < 32) && srcs.all (fun r => decide (r < 32))), k.land k.x lat (.vReg vd (f k.x)))) s

/-- Lane by lane over two registers. -/
def lanes2 (f : R32 → R32 → R32) (a b : W512) : W512 := vpack (fun i => f (vlane a i) (vlane b i))

def execVadd (c vd va vb : Nat) (s : State) : Out := vecOp c vd [va, vb] 4 (fun x => lanes2 f32Add (x.v va) (x.v vb)) s
def execVsub (c vd va vb : Nat) (s : State) : Out := vecOp c vd [va, vb] 4 (fun x => lanes2 f32Sub (x.v va) (x.v vb)) s
def execVmul (c vd va vb : Nat) (s : State) : Out := vecOp c vd [va, vb] 4 (fun x => lanes2 f32Mul (x.v va) (x.v vb)) s

/-- VFMA: `va × vb + vc`, one rounding (Table 4-4). -/
def execVfma (c vd va vb vc : Nat) (s : State) : Out :=
  vecOp c vd [va, vb, vc] 4 (fun x => vpack (fun i => f32Fma (vlane (x.v va) i) (vlane (x.v vb) i) (vlane (x.v vc) i))) s

def execVmax (c vd va vb : Nat) (s : State) : Out :=
  vecOp c vd [va, vb] 4 (fun x => lanes2 (f32MaxMin false) (x.v va) (x.v vb)) s
def execVmin (c vd va vb : Nat) (s : State) : Out :=
  vecOp c vd [va, vb] 4 (fun x => lanes2 (f32MaxMin true) (x.v va) (x.v vb)) s

/-- VCMP: the spec states no result (log 9). -/
def execVcmp (c vd va vb : Nat) (s : State) : Out :=
  vecOp c vd [va, vb] 2 (fun x => lanes2 Config.vcmpResult (x.v va) (x.v vb)) s

/-- VSEL: each lane of `vd` is the lane of `va` or of `vb`, as the lane of `vc` selects (log 9). -/
def execVsel (c vd va vb vc : Nat) (s : State) : Out :=
  vecOp c vd [va, vb, vc] 2 (fun x => vpack (fun i =>
    if Config.selTakesFirst (vlane (x.v vc) i) then vlane (x.v va) i else vlane (x.v vb) i)) s

def execVand (c vd va vb : Nat) (s : State) : Out := vecOp c vd [va, vb] 2 (fun x => x.v va &&& x.v vb) s
def execVor (c vd va vb : Nat) (s : State) : Out := vecOp c vd [va, vb] 2 (fun x => x.v va ||| x.v vb) s

/-- VPERM: each lane is the lane of `va` that the control vector `vb` names (log 9). -/
def execVperm (c vd va vb : Nat) (s : State) : Out :=
  vecOp c vd [va, vb] 2 (fun x => vpack (fun i => vlane (x.v va) (Config.permLane (x.v vb) i).val)) s

/-- VBCAST: one lane in every lane. -/
def execVbcast (c vd va lane : Nat) (s : State) : Out :=
  issue c 2 (fun k => (k.base (decide (vd < 32) && decide (va < 32) && decide (lane < 16)),
    k.land k.x 2 (.vReg vd (vpack (fun _ => vlane (k.x.v va) lane))))) s

/-- A pairwise tree 8, 4, 2, 1 over values (Table 4-4); the order the lanes enter it is not stated (log 9). -/
def pairs (f : R32 → R32 → R32) : List R32 → List R32
  | a :: b :: r => f a b :: pairs f r
  | l => l

def redTree (f : R32 → R32 → R32) (v : W512) : R32 :=
  let l := (List.finRange 16).map (fun i => vlane v (Config.redOrder i).val)
  lget 0 (pairs f (pairs f (pairs f (pairs f l)))) 0

def execVredSum (c vd va : Nat) (s : State) : Out :=
  vecOp c vd [va] 6 (fun x => let r := redTree f32Add (x.v va); vpack (fun _ => r)) s
def execVredMax (c vd va : Nat) (s : State) : Out :=
  vecOp c vd [va] 6 (fun x => let r := redTree (f32MaxMin false) (x.v va); vpack (fun _ => r)) s

/-- VLSE: lanes 2i and 2i + 1 hold a (max, sum) pair (log 23); the merged max and sum (Table 4-4). -/
def execVlse (c vd va vb : Nat) (s : State) : Out :=
  vecOp c vd [va, vb] 6 (fun x =>
    let a := x.v va
    let b := x.v vb
    vpack (fun i =>
      let j := i / 2 * 2
      if i % 2 = 0 then f32MaxMin false (vlane a j) (vlane b j)
      else lseSum (vlane a j) (vlane a (j + 1)) (vlane b j) (vlane b (j + 1)))) s

/-! ### VCVT -/

/-- Bits of one element in the interchange packing. -/
def Fmt.width : Fmt → Nat
  | .fp l | .mx l | .tb l => l.width
  | .int w => w
  | .ternary | .tbt => 2

/-- Elements one VCVT converts: one block, 32 elements of a format without blocks, 16 of a 32-bit format (R80). -/
def Fmt.perOp (f : Fmt) : Nat := if f.width = 32 then 16 else f.block

/-- Trits, five to an octet, as `Σ (tᵢ + 1) × 3^i`; missing ones are 0 (R68, R73). -/
def packTrits : List Nat → List Byte
  | [] => []
  | a :: b :: c :: d :: e :: r =>
    let t (x : Nat) : Nat := if x = 1 then 2 else if x = 3 then 0 else 1
    BitVec.ofNat 8 (t a + 3 * t b + 9 * t c + 27 * t d + 81 * t e) :: packTrits r
  | l =>
    let t (i : Nat) : Nat := let x := lget 0 l i; if x = 1 then 2 else if x = 3 then 0 else 1
    [BitVec.ofNat 8 (t 0 + 3 * t 1 + 9 * t 2 + 27 * t 3 + 81 * t 4)]

/-- Codes of the five trits of an octet (R68). Of an octet 243-255, which only the Weight engine refuses, VCVT reads the base-3 digits
modulo 3 (DESIGN CHOICE, log 23). -/
def unpackTrits (b : Nat) : List Nat :=
  (List.range 5).map (fun i => let d := b / 3 ^ i % 3; if d = 2 then 1 else if d = 0 then 3 else 0)

/-- Codes of `w` bits as one dense little-endian bit string (R82). -/
def packDense (w : Nat) (codes : List Nat) : List Byte :=
  natLE (ceilDiv (w * codes.length) 8) (codes.foldr (fun c a => a * 2 ^ w + c % 2 ^ w) 0)

/-- A converted block in the interchange packing (R73, R82). -/
def packBlock (f : Fmt) (b : CvtBlock) : List Byte :=
  (match b.scale with | some v => [BitVec.ofNat 8 v] | none => []) ++
    (match f with
     | .ternary | .tbt => packTrits (b.els.map (·.code))
     | _ => packDense f.width (b.els.map (·.code)))

/-- Times the tensor scale, in the two-level formats (R70). -/
def Fmt.tensorScaled (f : Fmt) (t : R32) (v : FpVal) : FpVal :=
  match f with
  | .tb _ | .tbt => v.mul (f32Val t)
  | _ => v

/-- Element values of a block in the interchange packing, each times its block scale and its tensor scale (R70, R75, R76). -/
def unpackBlock (f : Fmt) (t : R32) (data : List Byte) : List FpVal :=
  let n := f.perOp
  let body := if f.scaled then data.drop 1 else data
  let scale : FpVal := if f.scaled then f.scale (leAt data 0 1) else .fin false 1 0
  let codes : List Nat := match f with
    | .ternary | .tbt => ((body.take 7).flatMap (fun b => unpackTrits b.toNat)).take n
    | _ => let v := leNat body; (List.range n).map (fun i => v / 2 ^ (f.width * i) % 2 ^ f.width)
  codes.map (fun c => if f.scaled then f.tensorScaled t ((f.element c).mul scale) else f.element c)

/-- Fields of a site entry (Table 4-6). -/
def siteFmt (w : Nat) : Nat := bits w 7 0
def siteCeil (w : Nat) : Nat := bits w 23 16
def siteFp6 (w : Nat) : Nat := bits w 9 9
def siteFp8 (w : Nat) : Nat := bits w 8 8

/-- The verdict code of a tile converted in format `fmt` (R99). -/
def verdictCode (w fmt : Nat) (t : SiteTotals) : Nat :=
  let tileSat := bits w 47 36
  let tileFlush := bits w 35 24
  let pass := t.blkSat || t.blkFlush || (tileSat != 0xFFF && decide (t.sat > tileSat)) ||
    (tileFlush != 0xFFF && decide (t.flush > tileFlush))
  if !pass || fmt == siteCeil w then 0 else (nextRung fmt (siteFp6 w) (siteFp8 w)).getD 0

/-- A block's counts added to its site's tile totals (R99). -/
def SiteTotals.addBlock (t : SiteTotals) (w sat flush : Nat) : SiteTotals :=
  let bs := bits w 63 56
  let bf := bits w 55 48
  { blocks := t.blocks + 1, sat := t.sat + sat, flush := t.flush + flush,
    blkSat := t.blkSat || (bs != 0xFF && decide (sat > bs)),
    blkFlush := t.blkFlush || (bf != 0xFF && decide (flush > bf)) }

/-- Elements that count as saturated, and those that count as flushed only (R80). -/
def cvtCounts (els : List CvtEl) : Nat × Nat := ((els.filter (·.sat)).length, (els.filter (fun e => e.flush && !e.sat)).length)

/-- A converted block in the NUMERIC class (R80, Table 20-6). -/
def Cell.countCvt (x : Cell) (els : List CvtEl) : Cell :=
  let n := cvtCounts els
  ((x.countEv (schedEv 5 1) 1).countEv (schedEv 5 2) n.1).countEv (schedEv 5 3) n.2

/-- The site's part of a VCVT: counts, and at a tile's end the verdict into `rd` after 5 cycles (R99). -/
def Ctx.site (k : Ctx) (x : Cell) (o : CvtOp) (b : CvtBlock) : Cell :=
  let w := lget 0 x.sites o.site
  let n := cvtCounts b.els
  let t := (mget {} x.totals o.site).addBlock w n.1 n.2
  if o.tileEnd || decide (t.blocks ≥ 128) then
    let v := verdictCode w o.fmt t
    let x := if v = 0 then x else x.countEv (schedEv 5 4) 1
    k.land { x with totals := mdel x.totals o.site } 5 (.sReg o.rd (BitVec.ofNat 32 v))
  else { x with totals := mset x.totals o.site t }

/-- SITE_FORMAT: a destination off the site's ladder from FMT to CEIL (R99). -/
def Ctx.siteChk (k : Ctx) (o : CvtOp) : List Chk :=
  let w := lget 0 k.x.sites o.site
  if onLadder 6 (siteFmt w) o.fmt (siteFp6 w) (siteFp8 w) && onLadder 6 o.fmt (siteCeil w) (siteFp6 w) (siteFp8 w) then []
  else [{ code := 0x13, hi := o.site % 64 * 2 ^ 58 + o.fmt % 256 * 2 ^ 48 + siteFmt w * 2 ^ 40 + siteCeil w * 2 ^ 32 }]

/-- VCVT: one block from FP32 lanes to a narrow format in the interchange packing, or back, each direction rounded once and counted
(R70, R76-R81, R98, R99). A block of 32 elements lies in `va` and `va + 1`, and goes to `vd` and `vd + 1` in the decode: the spec places
it nowhere (DESIGN CHOICE, log 23). -/
def execVcvt (c : Nat) (o : CvtOp) (s : State) : Out :=
  match fmtOf o.fmt with
  | none => issue c 2 (fun k => ([k.undefinedOp], k.x)) s
  | some f =>
    let two := f.perOp = 32
    let regs := o.vd < 32 ∧ o.va < 32 ∧ o.ts < 32 ∧ o.rd < 32
    if o.narrow then
      let sited := f.width ≠ 32
      let free := s.free.toNat % 127
      issue c 2 (fun k =>
        let x := k.x
        let src := (List.range 16).map (fun i => f32Val (vlane (x.v o.va) i)) ++
          (if two then (List.range 16).map (fun i => f32Val (vlane (x.v (o.va + 1)) i)) else [])
        let b := cvtBlock f (x.s o.ts) free src
        let y := k.land x 5 (.vReg o.vd (BitVec.ofNat 512 (leNat (packBlock f b))))
        let ok := decide regs && (!two || decide (o.va < 31)) && (!sited || decide (o.site < x.sites.length))
        let y := y.countCvt b.els
        (k.base ok ++ (if sited && ok then k.siteChk o else []), if sited then k.site y o b else y)) s.useFree
    else
      issue c 2 (fun k =>
        let els := (unpackBlock f (k.x.s o.ts) (bytesOf 64 (k.x.v o.va))).map (fun v => cvtEl (.fp fp32) v 1 1)
        let vals := els.map (fun e => BitVec.ofNat 32 e.code)
        let y := k.land (k.x.countCvt els) 5 (.vReg o.vd (vpack (fun i => lget 0 vals i)))
        let y := if two then k.land y 5 (.vReg (o.vd + 1) (vpack (fun i => lget 0 vals (i + 16)))) else y
        (k.base (decide regs && (!two || decide (o.vd < 31))), y)) s

end Sys2Proof.Machine
end

