-- ==== Sys2Proof/Machine/Preamble.lean ====
section
/-! DEFINITION. Values on Casement links: the preamble, the units of a flit, and the reduction of partial sums
(03 R86-R88, Table 3-8, 04 R104; log 77). -/

namespace Sys2Proof.Machine

/-- Octets of a unit that no flit boundary divides (Table 3-8). INT32, INT2 and ternary, which the table leaves out, go by element,
by group of 4 and by group of 5 (DESIGN CHOICE, log 77). -/
def unitOctets (code : Nat) : Nat :=
  if blockOctets code ≠ 0 then blockOctets code
  else match code with
    | 0x05 | 0x06 | 0x08 => 3
    | 0x01 | 0x02 => 2
    | 0x00 | 0x10 => 4
    | _ => 1

/-- Octets of whole units in `room` octets of a flit. -/
def unitRoom (code room : Nat) : Nat := room / unitOctets code * unitOctets code

/-- The preamble of a message (R86). -/
def preambleOctets (f : LinkFmt) : List Byte := natLE 1 f.fmt ++ natLE 1 f.flags ++ [0, 0] ++ natLE 4 f.scale.toNat

/-- Are the values partial sums destined for a reduction (R86)? -/
def partialSums (f : LinkFmt) : Bool := bitAt f.flags 0

/-- Data cut at flits: `room` octets of units in the first, the rest of its `size` octets zero, then flits of 240 (R87). `n` bounds
their number. -/
def cutFlits (code : Nat) : Nat → Nat → List Byte → List Byte
  | 0, _, l => l
  | n + 1, size, l =>
    let room := unitRoom code size
    if l.length ≤ room then l
    else l.take room ++ List.replicate (size - room) 0 ++ cutFlits code n 240 (l.drop room)

/-- Units of a message's flits without their padding (R87). -/
def joinFlits (code : Nat) : Nat → Nat → List Byte → List Byte
  | 0, _, _ => []
  | n + 1, size, l => (l.take size).take (unitRoom code size) ++ joinFlits code n 240 (l.drop size)

/-- The payload of a message that carries values: preamble, units, padding (R86, R87). -/
def valuesPayload (f : LinkFmt) (data : List Byte) : List Byte := preambleOctets f ++ cutFlits f.fmt data.length 232 data

/-- The preamble of a payload; none where it is cut short or its format code is reserved (R64, R86). -/
def readPreamble (p : List Byte) : Option LinkFmt :=
  if p.length < 8 ∨ (fmtOf (leAt p 0 1)).isNone then none
  else some ⟨leAt p 0 1, leAt p 1 1, BitVec.ofNat 32 (leAt p 4 4)⟩

/-- The values' octets of a payload. -/
def valuesOf (f : LinkFmt) (p : List Byte) : List Byte := joinFlits f.fmt p.length 232 (p.drop 8)

/-- Exact values of packed octets (R65, R70, R75). -/
def decodeValues (code : Nat) (t : R32) (data : List Byte) : List FpVal :=
  match fmtOf code with
  | none => []
  | some f =>
    if f.scaled then (chunks (blockOctets code) (data.length / blockOctets code) data).flatMap (fun b => unpackBlock f t b)
    else
      match f with
      | .ternary => (data.flatMap (fun b => unpackTrits b.toNat)).map f.element
      | _ => (unpackBits f.width (8 * data.length / f.width) (leNat data)).map f.element

/-- FP32 words added one by one; a contribution that is shorter adds nothing past its end (R88). -/
def addWords : List R32 → List R32 → List R32
  | [], b => b
  | a, [] => a
  | x :: a, y :: b => f32Add x y :: addWords a b

/-- A contribution to a reduction: added at its turn, held before it (R104). -/
def Reduction.take (r : Reduction) : Nat → Reduction
  | 0 => r
  | k + 1 =>
    match r.held.find? (fun h => h.1 == r.next) with
    | none => r
    | some h =>
      Reduction.take { r with
        sum := if r.next = 0 then h.2 else addWords r.sum h.2
        next := r.next + 1
        held := r.held.filter (fun q => q.1 != r.next) } k

/-- A contribution of index `i` arrives, decoded to FP32; its NaNs, infinities and clamped values count as saturated (R88, R104). -/
def Reduction.add (r : Reduction) (i : Nat) (vals : List FpVal) : Reduction :=
  let els := vals.map (fun v => cvtEl (.fp fp32) v 1 1)
  let r := { r with
    sat := r.sat + (els.filter (·.sat)).length
    held := r.held ++ [(i, els.map (fun e => BitVec.ofNat 32 e.code))] }
  Reduction.take r r.held.length

end Sys2Proof.Machine
end

