-- ==== Sys2Proof/Machine/Auth.lean ====
section
/-! DEFINITION. Entry operands (07 R151, Tables 7-5 to 7-16) and critical commands (07 R156-R158, 18 R378, R379,
R389). -/

namespace Sys2Proof.Machine

/-- Opcodes an engine lists (Table 7-4). -/
def opListed (e op : Nat) : Bool :=
  [0, 1, 2].contains op ||
  (match e with
   | 0 => [0x10, 0x11, 0x12, 0x13, 0x14].contains op
   | 1 => [0x20, 0x21, 0x22].contains op
   | 2 => [0x30, 0x31, 0x32, 0x33].contains op
   | _ => [0x40, 0x41, 0x42, 0x48, 0x49, 0x4A].contains op)

/-- Reserved bits clear and operands in their stated ranges (R151). -/
def operandsOk (op w : Nat) : Bool :=
  bits w 245 224 == 0 &&
  (match op with
   | 0x00 => bits w 223 0 == 0
   | 0x01 => bits w 221 174 != 0 && bits w 173 158 != 0 && bits w 157 0 == 0
   | 0x02 => bits w 31 0 == 0
   | 0x10 => bits w 213 198 != 0 && bits w 173 0 == 0
   | 0x11 => bits w 135 112 != 0 && decide (bits w 111 88 + bits w 135 112 ≤ 2 ^ 24) && bits w 86 0 == 0
   | 0x12 => bits w 97 74 != 0 && decide (bits w 73 70 ≤ 8) && bits w 69 0 == 0 && decide (bits w 123 108 < 256) &&
       (decide (bits w 107 98 < 0x300) || bits w 107 98 == 0x3FF)
   | 0x13 => bits w 203 0 == 0
   | 0x14 => bits w 202 0 == 0
   | 0x20 => bits w 223 208 != 0 && bits w 207 206 != 3 && bits w 119 0 == 0
   | 0x21 => bits w 223 208 != 0 && bits w 201 0 == 0
   | 0x22 => bits w 223 208 != 0 && bits w 207 0 == 0
   | 0x30 => bits w 203 134 == 0 && bits w 133 117 != 0 && decide (bits w 133 117 ≤ 86400) && bits w 116 0 == 0
   | 0x31 => bits w 203 166 == 0 && bits w 133 0 == 0
   | 0x32 => bits w 165 0 == 0
   | 0x33 => bits w 203 190 == 0 && bits w 165 0 == 0
   | 0x40 => decide (bits w 133 104 ≤ 2 ^ 29) && bits w 85 0 == 0
   | 0x41 | 0x42 => bits w 217 217 == 0 && bits w 85 0 == 0
   | 0x48 | 0x4A => bits w 223 218 != 0 && decide (bits w 217 208 ≤ 738) && decide (bits w 207 191 ≤ 65536) &&
       decide (bits w 190 180 ≤ 1536) && bits w 179 164 != 0xFFFF && bits w 147 0 == 0
   | 0x49 => bits w 223 218 != 0 && bits w 217 208 == 0 && decide (bits w 207 191 ≤ 65536) && decide (bits w 190 180 ≤ 1536) &&
       bits w 147 0 == 0
   | _ => false)

/-! ### Command keys -/

/-- A key as KEY_INSTALL leaves it: LAC 0, P 131,072 (R389). -/
def newKey (key : List Byte) : CmdKey := { key := key, persisted := 131072 }

/-- Why a pair is refused: 0 accepted, 1 tag, 2 counter not above LAC, 3 above P (Table 18-14). -/
def State.pairVerdict (s : State) (g counter : Nat) (tag body : List Byte) : Nat :=
  match s.cmdKey g with
  | none => 1
  | some k =>
    let msg := natLE 2 s.fabricAddr ++ natLE 1 g ++ natLE 8 counter ++ body
    if (hmac k.key msg).take 16 ≠ tag then 1
    else if counter ≤ k.lac then 2
    else if k.persisted < counter then 3
    else 0

/-- A refused pair: its SECURITY record (Table 18-14), and the count of failures under its key (R378). -/
def State.pairRefused (s : State) (g counter reason : Nat) : State :=
  let s := s.security 6 (g + reason * 2 ^ 8 + counter % 2 ^ 32 * 2 ^ 32)
  match s.cmdKey g with
  | none => s
  | some k =>
    let k' := { k with fails := k.fails + 1, busyUntil := if k.fails + 1 ≥ 16 then s.time + ms 100 else k.busyUntil }
    s.modKeeper (fun x => { x with keys := mset x.keys g k' })

/-- Does P advance when LAC is `lac`: P − LAC below 65,536, and P not at its end (R389)? -/
def CmdKey.advances (k : CmdKey) (lac : Nat) : Bool := decide (k.persisted - lac < 65536) && decide (k.persisted < 2 ^ 64 - 1)

/-- The Keeper checks a pair (R157, R389): the counter is taken when it is accepted, and an advance of P begins when
P − LAC falls below 65,536. While it is not OPERATIONAL every check fails (R379). -/
def State.checkPair (s : State) (g counter : Nat) (tag body : List Byte) : State × Bool :=
  if s.keeper.st ≠ 2 then (s, false)
  else
    match s.pairVerdict g counter tag body, s.cmdKey g with
    | 0, some k =>
      let k' := { k with lac := counter, fails := 0, writing := k.writing || k.advances counter }
      (s.modKeeper (fun x => { x with keys := mset x.keys g k' }), true)
    | reason, _ => (s.pairRefused g counter reason, false)

/-- An entry of one opcode starts: operands checked (R151), then its own effect. -/
def withCommand (g e op : Nat) (s : State) (f : State → EntryId → Nat → State) : Out :=
  withEntry g e [op] s (fun s id w => if operandsOk op w then f s id w else s.complete id stBadEntry 0)

/-- A critical entry starts (R156, R157): its AUTH pair is checked before its role and operands. -/
def withCritical (g e op : Nat) (s : State) (f : State → EntryId → Nat → State) : Out :=
  if 64 ≤ g ∨ 4 ≤ e then .next s
  else if !s.keyReady g then .next s
  else
    withEntry g e [op] s (fun s id w =>
      let prev := if id.idx = 0 then none else s.entry { id with idx := id.idx - 1 }
      match prev.filter (fun a => a.op == 2 && a.prog == 1) with
      | none =>
        let s := if s.keeper.st = 2 then s.pairRefused g 0 4 else s
        s.complete id stAuthFailed 0
      | some a =>
        let (s, ok) := s.checkPair g (bits a.word 223 160) (natLE 16 (bits a.word 159 32)) (natLE 32 w)
        if !ok then s.complete id stAuthFailed 0
        else if opOwner op && g != 0 then s.complete id stNotPermitted 0
        else if !operandsOk op w then s.complete id stBadEntry 0
        else f s id w)

/-- Is a key enrolled for a purpose and permitted for a binding (R131, R236)? Only a key for all guests signs what is
unbound or bound to a reserved number. -/
def Keeper.keyPermits (k : Keeper) (kind : Nat) (keyid : List Byte) (bind : Nat) : Bool :=
  k.enrolled.any (fun e => e.keyid == keyid && e.kind == kind &&
    (e.mask == 2 ^ 64 - 1 || (decide (bind < 64) && bitAt e.mask bind)))

end Sys2Proof.Machine
end

