-- ==== Sys2Proof/Machine/PowerReq.lean ====
section
/-! DEFINITION. Segments, admission, and the raising and lowering of a region's power state: what the commands of 15
share (15 R316, R327-R337). -/

namespace Sys2Proof.Machine

def State.modPower (s : State) (f : Power → Power) : State := { s with power := f s.power }

/-! ### Segments (Table 15-1) -/

/-- Segment of a pane: its core row, or segment 8 for a sill pane. -/
def segOf (p : Nat) : Nat := if p < 738 then rowOfField (6 + p / 9) else 8

/-- Converters of a segment, and its rating with all of them, in A. -/
def segConverters (k : Nat) : Nat := lget 4 [3, 4, 4, 4, 4, 4, 4, 3, 3] k
def segFullRating (k : Nat) : Nat := lget 0 [324, 360, 396, 396, 396, 396, 360, 324, 240] k

def State.seg (s : State) (k : Nat) : Segment := mget {} s.power.segs k
def State.setSeg (s : State) (k : Nat) (x : Segment) : State := s.modPower (fun p => { p with segs := mset p.segs k x })

/-- Rating in force: one converter may be lost without effect, each further one costs 166 A (R316). -/
def State.segRating (s : State) (k : Nat) : Nat :=
  segFullRating k - 166 * ((s.seg k).lost.length - 1)

/-- Highest current sampled in the last 100 µs (R328). -/
def State.segMeasured (s : State) (k : Nat) : Nat :=
  ((s.seg k).samples.filter (fun q => decide (s.time ≤ q.1 + us 100))).foldl (fun a q => max a q.2) 0

/-- Admission current of a pane in 0.1 A, by profile (Table 15-5). -/
def admissionCurrent (profile : Nat) : Nat := lget 40 [22, 40, 51, 64] profile

/-- Panes a region's request wakes: those of its load in admission, else its own. -/
def Region.wakePanes (x : Region) : List Nat :=
  match x.load with
  | some l => if l.phase = 4 then l.panes else x.panes
  | none => x.panes

/-- Panes of a list in a segment. -/
def panesInSeg (ps : List Nat) (k : Nat) : Nat := (ps.filter (fun p => segOf p == k)).length

/-- Profile a request asks to be admitted at: of a raise the one to be entered (R364, R365). -/
def Region.admProfile (x : Region) : Nat :=
  match x.power.req with
  | some q => if q.kind = 2 then x.prof.target else x.prof.profile
  | none => x.prof.profile

/-- Admission current a request needs for each pane, in 0.1 A: an Open or Ajar region keeps its admission and needs the
difference only (R327, R364, R365). -/
def Region.admCurrent (x : Region) : Nat :=
  admissionCurrent x.admProfile - (if x.power.state ≤ 1 ∧ x.load.isNone then admissionCurrent x.prof.admitted else 0)

/-- Steps of a ramp: one from Shuttered, 8 from a deeper state (R329). -/
def Region.rampSteps (x : Region) : Nat := if x.power.state = 2 ∧ x.load.isNone then 1 else 8

/-- Is a ramp complete? -/
def Region.rampOver (x : Region) (now : Nat) : Bool :=
  match x.power.ramp with
  | some i => decide (x.rampSteps ≤ i ∧ x.power.rampAt + us (5 * x.rampSteps) ≤ now)
  | none => false

/-- Admission current, in 0.1 A, of ramps admitted and not complete, in a segment (R328). -/
def State.segPending (s : State) (k : Nat) : Nat :=
  s.regions.foldl (fun a q => if q.2.rampOver s.time then a else a + panesInSeg q.2.wakePanes k * q.2.power.pendCur) 0

/-- Does a request fit every segment that holds its panes: `H ≥ N × I` (R328)? -/
def State.fits (s : State) (r : Nat) : Bool :=
  let x := s.region r
  let ps := x.wakePanes
  (List.range 9).all (fun k =>
    let n := panesInSeg ps k
    n == 0 || decide (n * x.admCurrent + 10 * s.segMeasured k + s.segPending k ≤ 10 * s.segRating k))

/-- A request deferred for longer than 50 ms holds back every later one on its segments (R328). -/
def State.heldBack (s : State) (r : Nat) : Bool :=
  match (s.region r).power.req with
  | none => false
  | some q =>
    s.regions.any (fun o => o.1 != r && (match o.2.power.req with
      | some p => decide (p.since + ms 50 < s.time ∧ p.since < q.since) &&
          (List.range 9).any (fun k => decide (0 < panesInSeg o.2.wakePanes k ∧ 0 < panesInSeg (s.region r).wakePanes k))
      | none => false))

/-! ### Raising and lowering -/

def State.modRegPower (s : State) (r : Nat) (f : RegPower → RegPower) : State :=
  s.modRegion r (fun x => { x with power := f x.power })

/-- Ask that a region's panes be brought to Open: from Ajar they wake, from a deeper state they wait for admission, and
while they are lowering the request is queued (R327, R334). -/
def State.askRaise (s : State) (r kind : Nat) : State :=
  let p := (s.region r).power
  if p.trans = 1 then s.modRegPower r (fun p => { p with pendRaise := 1 })
  else if p.trans ≠ 0 ∨ p.state = 0 then s
  else if p.state = 1 ∧ (s.region r).prof.profile ≤ (s.region r).prof.admitted then
    s.modRegPower r (fun p => { p with trans := 2, target := 0, transAt := s.time })
  else s.modRegPower r (fun p => { p with trans := 3, target := 0, req := some { kind := kind, since := s.time } })

/-- Begin lowering a region's panes to a deeper state (R333, R334): ignored while they are raising. -/
def State.askLower (s : State) (r target : Nat) : State :=
  let p := (s.region r).power
  if p.trans ≠ 0 ∨ p.req.isSome ∨ target ≤ p.state then s
  else s.modRegPower r (fun p => { p with trans := 1, target := target, transAt := s.time, plannedWake := none })

/-- Is a region Open and standing so? -/
def Region.isOpen (x : Region) : Bool := x.power.state == 0 && x.power.trans == 0

/-- Every pane of a region, or of its load in admission, is Open now. -/
def State.setOpen (s : State) (r : Nat) : State :=
  let ps := (s.region r).wakePanes
  let s := ps.foldl (fun a p => a.modPane p (fun q => { q with power := 0 })) s
  s.modRegPower r (fun p => { p with state := 0, trans := 0, ramp := none, req := none, pendCur := 0, rewritten := true })

/-- A fill or an access of a cell's window wakes its region, unless it is Boarded (R333, R336). -/
def State.touch (s : State) (c : Nat) : State :=
  match s.regionOfCell c with
  | none => s
  | some r =>
    let x := s.region r
    if (x.state = 2 ∨ x.state = 3) ∧ !x.isOpen ∧ x.power.state ≠ 4 ∧ x.power.target ≠ 4 then s.askRaise r 3 else s

end Sys2Proof.Machine
end

