-- ==== Sys2Proof/Machine/Weights.lean ====
section
/-! DEFINITION. Weight generations: manifests, windows, shards, chain messages, and the operations that the commands
of the Weight engine share (11 R233-R254). -/

namespace Sys2Proof.Machine

/-! ### The manifest (R236, R237) -/

structure Manifest where
  hdr : Nat
  sources : List (Nat × Nat)
  tensors : List Nat
  digests : List (List Byte)
  sig : List Byte
  deriving DecidableEq, Repr

/-- Octets of a shard (R236). -/
def shardSize : Nat := 67108864

/-- Split a manifest; none where its length does not fit its header. -/
def parseManifest (b : List Byte) : Option Manifest :=
  let h := leNat (b.take 128)
  let nsrc := bits h 920 917
  let nt := bits h 916 904
  let ns := bits h 903 887
  let r := b.drop 128
  let t := r.drop (8 * nsrc)
  let d := t.drop (32 * nt)
  if b.length = 128 + 8 * nsrc + 32 * nt + 32 * ns + 7880 then
    some { hdr := h
           sources := (records 8 (r.take (8 * nsrc))).map (fun v => (bits v 63 48, bits v 47 0))
           tensors := records 32 (t.take (32 * nt))
           digests := chunks 32 ns (d.take (32 * ns))
           sig := d.drop (32 * ns) }
  else none

def Manifest.blobLen (m : Manifest) : Nat := bits m.hdr 831 768
def Manifest.layout (m : Manifest) : List Byte := natLE 16 (bits m.hdr 767 640)
/-- Shard progress limit in ms. -/
def Manifest.timeout (m : Manifest) : Nat := if bits m.hdr 886 872 = 0 then 2000 else bits m.hdr 886 872
def Manifest.shardLen (m : Manifest) (i : Nat) : Nat := min shardSize (m.blobLen - shardSize * i)

/-- Header of Table 11-2, for a load of `gen` by `guest`. -/
def Manifest.headerOk (m : Manifest) (gen guest : Nat) : Bool :=
  let h := m.hdr
  let t := bits h 886 872
  let ns := bits h 903 887
  bits h 1023 992 == 0x574D4E46 && bits h 991 976 == 1 && bits h 975 944 == 0x9424 && bits h 943 928 == gen &&
    (bits h 927 921 == 0x7F || bits h 927 921 == guest) && decide (1 ≤ bits h 920 917 ∧ bits h 920 917 ≤ 8) &&
    decide (1 ≤ bits h 916 904 ∧ bits h 916 904 ≤ 4096) && decide (1 ≤ ns ∧ ns ≤ 65536) &&
    ns == ceilDiv m.blobLen shardSize && (t == 0 || decide (100 ≤ t ∧ t ≤ 30000)) && bits h 871 832 == 0 && bits h 639 0 == 0

/-- Fields of a tensor entry (Table 11-3). -/
def tensorPiece (t : Nat) : Nat := bits t 127 96
def tensorLen (t : Nat) : Nat := bits t 225 208 * tensorPiece t
def tensorEnd (t : Nat) : Nat := bits t 95 48 + tensorLen t
/-- Octets of a piece that hold elements: FP32 scales of the channels follow them (R237). -/
def tensorElems (t : Nat) : Nat := tensorPiece t - (if bitAt t 231 then 4 * bits t 175 160 else 0)
def tensorScales (t : Nat) : Nat := if bitAt t 231 then bits t 175 160 else 1

/-- Octets of converted elements and of the block scale array, from a piece's element octets. -/
def convertedLen (code n : Nat) : Nat × Nat :=
  match fmtOf code with
  | none => (0, 0)
  | some f =>
    if f.scaled then
      let k := n / blockOctets code
      (k * f.block * f.container / 8, k)
    else
      match f with
      | .ternary => (ceilDiv (10 * n) 8, 0)
      | .fp el => (8 * n / (1 + el.ebits + el.mbits) * f.container / 8, 0)
      | _ => (n, 0)

/-- One tensor entry by itself, and within the blob. -/
def Manifest.tensorOk (m : Manifest) (t : Nat) : Bool :=
  bits t 230 226 == 0 && bits t 47 0 == 0 && bits t 225 208 != 0 && (fmtOf (bits t 239 232)).isSome &&
    (bitAt t 231 || bits t 175 160 == 0) && decide (tensorEnd t ≤ m.blobLen) &&
    decide (4 * bits t 175 160 ≤ tensorPiece t) &&
    m.tensors.all (fun u => bits u 255 240 == bits t 255 240 || decide (tensorEnd t ≤ bits u 95 48 ∨ tensorEnd u ≤ bits t 95 48)) &&
    (m.tensors.filter (fun u => bits u 255 240 == bits t 255 240)).length == 1

/-- The tensor of a MEMMAP entry, when it matches the entry and its slice fits (R237). -/
def Manifest.tensorFor (m : Manifest) (v : Nat) : Option Nat :=
  m.tensors.find? (fun t =>
    let c := convertedLen (bits t 239 232) (tensorElems t)
    bits t 255 240 == bits v 127 112 && bits t 239 232 == bits v 111 104 && bitAt t 231 == bitAt v 103 &&
      bits t 225 208 == bits v 81 64 && decide (c.1 ≤ bits v 49 35 * 64) &&
      (c.2 == 0 || decide (bits t 207 192 * 64 + c.2 ≤ bits v 49 35 * 64)) &&
      decide (bits t 191 176 * 64 + 4 * tensorScales t ≤ bits v 49 35 * 64))

/-- Weight entries of a region's image: KIND 0, or KIND 1. -/
def Image.maps (i : Image) (kind : Nat) : List Nat := i.memmap.filter (fun v => bits v 102 100 == kind)

/-- Every weight entry of an image has its tensor (R237). -/
def Manifest.fits (m : Manifest) (i : Image) : Bool :=
  (i.maps 0 ++ i.maps 1).all (fun v => (m.tensorFor v).isSome)

/-! ### Windows (R234, R235, Table 11-1) -/

def Region.current (x : Region) : Option (Nat × Window) :=
  (x.windows.findIdx? (fun w => w.state == 3)).bind (fun k => (x.windows[k]?).map (fun w => (k, w)))

/-- Take a window for a fill: the lowest FREE one, else the lowest HELD one that no pending SWING awaits (R238;
DEDUCED, log 27). -/
def Region.takeWindow (x : Region) : Option Nat :=
  match x.windows.findIdx? (fun w => w.state == 0) with
  | some k => some k
  | none => x.windows.findIdx? (fun w => w.state == 2 && !x.swings.any (fun q => q.2 == w.gen && q.1.guest == w.owner))

def State.modWindow (s : State) (r k : Nat) (f : Window → Window) : State :=
  s.modRegion r (fun x => { x with windows := x.windows.modify k f })

/-! ### Generations and loads -/

def State.modWeight (s : State) (f : WeightEng → WeightEng) : State := { s with weight := f s.weight }
def State.generation (s : State) (guest gen : Nat) : Option Generation :=
  s.weight.gens.find? (fun g => g.guest == guest && g.num == gen)
def State.modGen (s : State) (guest gen : Nat) (f : Generation → Generation) : State :=
  s.modWeight (fun w => { w with gens := w.gens.map (fun g => if g.guest == guest && g.num == gen then f g else g) })
def State.wload (s : State) (id : Nat) : Option WloadRec := s.weight.loads.find? (fun l => l.id == id)
def State.modWload (s : State) (id : Nat) (f : WloadRec → WloadRec) : State :=
  s.modWeight (fun w => { w with loads := w.loads.map (fun l => if l.id == id then f l else l) })

/-- A WEIGHT report: the module is its subject, GUEST the generation's guest (R253). -/
def State.weightFault (s : State) (l : WloadRec) (code detHi : Nat) : State :=
  s.report (unitEngine 1) { cls := 7, code := code, region := if l.target = 0 then 0 else l.region, guest := l.guest, detHi := detHi }

/-- Chain header (Table 11-8). -/
def chainHeader (meas : List Byte) (shard offset status : Nat) : List Byte :=
  slice meas 0 32 ++ natLE 4 shard ++ natLE 4 offset ++ natLE 2 status ++ zeros 22

/-- ADDR of a chain message (R254). -/
def chainAddr (typ gen : Nat) : Nat := 2 * 2 ^ 46 + 2 ^ 42 + typ * 2 ^ 34 + gen % 2 ^ 16 * 2 ^ 18

def State.sendChain (s : State) (dest typ gen : Nat) (payload : List Byte) : State :=
  s.sendWrite 3 dest (chainAddr typ gen) payload

/-- Is the load a downstream link of a chain: SRC_FA a module and SRC_ADDR 0 (R238)? -/
def WloadRec.downstream (l : WloadRec) : Bool := decide (l.srcFa < 32768) && l.srcAddr == 0

/-- The manifest of a load. -/
def WloadRec.man (l : WloadRec) : Option Manifest := parseManifest l.manifest

/-- Fabric address of a shard source. -/
def WloadRec.sourceFa (l : WloadRec) (m : Manifest) (src : Nat) : Nat :=
  if src = 8 then l.srcFa else if src = 9 then 0xFFFF else (lget (0xFFFF, 0) m.sources src).1

/-- Undo one load that failed (R244): fetches abandoned, its window FREE, its HBM freed, its generation gone when it was the only one to
hold it, an abort downstream; it completes with the status, and so do SWINGs that wait on its fill. A load whose own targets are complete
leaves them as they are. -/
def State.undoOne (s : State) (l : WloadRec) (status : Nat) : State :=
  let s := s.modWeight (fun w => { w with loads := w.loads.filter (fun q => q.id != l.id) })
  let s := l.held.foldl (fun a q => a.sendError q.1 1) s
  let s := match (if l.filled then none else l.window) with
    | some k => s.modWindow l.region k (fun _ => {})
    | none => s
  let s := (mvals l.rooms).foldl (fun a r => a.freeRuns r) (if l.filled then s else s.freeRuns l.runs)
  let kept (g : Generation) : Bool := g.guest != l.guest || g.num != l.gen || g.staged || g.streamed ||
    s.regions.any (fun q => q.2.windows.any (fun w => w.state != 0 && w.gen == g.num && w.owner == g.guest)) ||
    s.weight.loads.any (fun q => q.guest == g.guest && q.gen == g.num)
  let s := s.modWeight (fun w => { w with gens := w.gens.filter kept })
  let s := if l.fwdFa = 0xFFFF then s else s.sendChain l.fwdFa 4 l.gen (chainHeader l.measure 0 0 status)
  let waiting := if l.window.isNone ∨ l.filled then []
    else (s.region l.region).swings.filter (fun q => q.2 == l.gen && q.1.guest == l.guest)
  let s := s.modRegion l.region (fun x => { x with swings := x.swings.filter (fun q => !waiting.contains q) })
  let s := waiting.foldl (fun a q => a.complete q.1 status 0) s
  match l.entry with
  | some e => s.complete e status 0
  | none => s

/-- Loads of the same generation that wait for the window another load fills (R233). -/
def State.windowWaiters (s : State) (l : WloadRec) : List WloadRec :=
  s.weight.loads.filter (fun q => q.id != l.id && q.guest == l.guest && q.gen == l.gen && q.region == l.region && q.target != 0 &&
    q.phase == 1 && q.window.isNone && !q.filled)

/-- Undo a load that failed, with the loads that wait for its window (R244; DEDUCED, log 27). A later swing may now take effect
(R248). -/
def State.undoLoad (s : State) (id status : Nat) : State :=
  match s.wload id with
  | none => s
  | some l =>
    let also := if l.window.isNone || l.filled then [] else s.windowWaiters l
    ((l :: also).foldl (fun a q => a.undoOne q status) s).settleSwings l.region

/-- Octets `off` to `off + n − 1` of the blob, when every shard they lie in is verified. -/
def WloadRec.blob (l : WloadRec) (off n : Nat) : Option (List Byte) :=
  let a := off / shardSize
  let b := (off + n - 1) / shardSize
  let ss := (pageRange a b).map (fun i => lget {} l.shards i)
  if ss.all (fun x => x.state == 2) then some (slice (ss.flatMap (·.data)) (off - a * shardSize) n) else none

/-- An FP32 tensor scale that a two-level format may have (R71). -/
def tensorScaleOk (v : Nat) : Bool := decide (0 < v ∧ v < 0x7F800000)

/-- One cell slice of a tensor from its piece; none for a format error (R237, R71). -/
def sliceOf (t units : Nat) (piece : List Byte) : Option (List Byte) :=
  let code := bits t 239 232
  let two := match fmtOf code with | some (.tb _) | some .tbt => true | _ => false
  let scales := if bitAt t 231 then (piece.drop (tensorElems t)).take (4 * bits t 175 160) else natLE 4 (bits t 159 128)
  if two && (records 4 scales).any (fun v => !tensorScaleOk v) then none
  else
    (convertPiece code (piece.take (tensorElems t))).map (fun c =>
      let put (img : List Byte) (off : Nat) (d : List Byte) : List Byte :=
        if d.isEmpty then img else img.take off ++ d ++ img.drop (off + d.length)
      (put (put (put (zeros (units * 64)) 0 c.1) (bits t 207 192 * 64) c.2) (bits t 191 176 * 64) scales).take (units * 64))

/-- Octets of one part of a piece that is in form or not by itself: a block, or an octet of trits; 0 where any octets are in form. -/
def partOctets (code : Nat) : Nat :=
  match fmtOf code with
  | some .ternary => 1
  | _ => blockOctets code

/-- Are the blocks, trit octets and tensor scales that shard `i` holds in form (R69, R71, R74, R76, R237)? One that reaches into a shard
not yet verified is checked when that shard arrives. -/
def WloadRec.unitsOk (l : WloadRec) (m : Manifest) (i : Nat) : Bool :=
  m.tensors.all (fun t =>
    let code := bits t 239 232
    let u := partOctets code
    let two := match fmtOf code with | some (.tb _) | some .tbt => true | _ => false
    let inShard (off n : Nat) : Bool := n != 0 && decide (shardSize * i < off + n ∧ off < shardSize * (i + 1))
    let here (off n : Nat) (ok : List Byte → Bool) : Bool :=
      if inShard off n then (match l.blob off n with | some b => ok b | none => true) else true
    let e := tensorElems t
    (!two || bitAt t 231 || tensorScaleOk (bits t 159 128) || !inShard (bits t 95 48) (tensorLen t)) &&
      (List.range (bits t 225 208)).all (fun c =>
        let at_ := bits t 95 48 + c * tensorPiece t
        (u == 0 || (List.range (ceilDiv e u)).all (fun j => here (at_ + j * u) (min u (e - j * u)) (fun b => (convertPiece code b).isSome))) &&
          (!two || !bitAt t 231 || (List.range (bits t 175 160)).all (fun j => here (at_ + e + 4 * j) 4 (fun b => tensorScaleOk (leNat b))))))

/-- Parts of the streamed tensors that lie in shard `i`: offset in a copy that holds those tensors alone, offset in the shard, and octets
(R246; log 29). `acc`: octets of the tensors before. -/
def Manifest.streamParts (m : Manifest) (i : Nat) : List Nat → Nat → List (Nat × Nat × Nat)
  | [], _ => []
  | v :: r, acc =>
    match m.tensorFor v with
    | none => m.streamParts i r acc
    | some t =>
      let a := max (bits t 95 48) (shardSize * i)
      let b := min (tensorEnd t) (shardSize * (i + 1))
      (if a < b then [(acc + (a - bits t 95 48), a - shardSize * i, b - a)] else []) ++ m.streamParts i r (acc + tensorLen t)

/-- Shards whose octets unit `u` of a generation's copy holds (R245). -/
def Generation.shardsOf (g : Generation) (m : Manifest) (u : Nat) : List Nat :=
  if g.staged then [u / 16384]
  else (List.range m.digests.length).filter (fun i =>
    (m.streamParts i g.maps 0).any (fun p => decide (4096 * u < p.1 + p.2.2 ∧ p.1 < 4096 * (u + 1))))

/-- Write a verified shard into a copy: the whole of it, or its parts of the streamed tensors (R238, R246). -/
def writeShard (mem : Mem) (m : Manifest) (runs : List (Nat × Nat)) (maps : Option (List Nat)) (i : Nat) (data : List Byte) : Mem :=
  match maps with
  | none => writeRuns mem runs (shardSize * i) data
  | some l => (m.streamParts i l 0).foldl (fun a p => writeRuns a runs p.1 (slice data p.2.1 p.2.2)) mem

/-- Background writes of one cell slice, one for each 64-byte word (R56, R238). -/
def fillReqs (off : Nat) (data : List Byte) (master guest : Nat) : List BgReq :=
  (List.range (ceilDiv data.length 64)).map (fun i =>
    { mem := 1, offset := off + 64 * i, data := some ((data.drop (64 * i)).take 64), purpose := .fill master guest })

/-- Pieces of the KIND 0 tensors that shard `i` completes: the region-local cell, the byte offset in weight memory, and
the slice, none for a format error. -/
def WloadRec.piecesOf (l : WloadRec) (m : Manifest) (x : Region) (i k : Nat) : List (Nat × Nat × Option (List Byte)) :=
  let maps := match x.image with | some im => im.maps 0 | none => []
  maps.flatMap (fun v =>
    match m.tensorFor v with
    | none => []
    | some t => (List.range (bits t 225 208)).filterMap (fun c =>
        let off := bits t 95 48 + c * tensorPiece t
        let n := tensorPiece t
        if n ≠ 0 ∧ off / shardSize ≤ i ∧ i ≤ (off + n - 1) / shardSize then
          (l.blob off n).map (fun p =>
            (bits v 99 82 + c, (k * x.wspan * 65536 + bits v 63 50 * 64) % 2 ^ 20, sliceOf t (bits v 49 35) p))
        else none))

/-- Queue the writes of the pieces that a verified shard completes; they wake the region (R333). -/
def State.fillPieces (s : State) (l : WloadRec) (ps : List (Nat × Nat × Option (List Byte))) : State :=
  ps.foldl (fun a p =>
    match (a.region l.region).localCell p.1, p.2.2 with
    | some c, some d => (fillReqs p.2.1 d 1 l.guest).foldl (fun b q => b.queueBg c q) (a.touch c)
    | _, _ => a) s

/-- Does a fill still wait to be written into a region's cells? -/
def State.fillsPending (s : State) (r : Nat) : Bool :=
  let ps := (s.region r).panes
  s.cells.any (fun q => ps.contains (paneOfCell q.1) && (q.2.bg ++ q.2.bgMesh).any (fun b => match b.purpose with | .fill _ _ => true | _ => false))

/-- Send the shards a joined downstream module may have: every verified one that the load holds, in ascending order (R240). `n` bounds
their number. -/
def State.forwardShards (s : State) (id : Nat) : Nat → State
  | 0 => s
  | n + 1 =>
    match s.wload id with
    | none => s
    | some l =>
      match l.joined, l.shards[l.nextFwd]? with
      | some _, some x =>
        if x.state < 2 ∨ l.fwdFa = 0xFFFF then s
        else if x.state = 3 then (s.modWload id (fun y => { y with nextFwd := y.nextFwd + 1 })).forwardShards id n
        else
          let parts := chunks 8388608 8 x.data
          let msgs := parts.mapIdx (fun j d => chainHeader l.measure l.nextFwd (8388608 * j) 0 ++ d)
          let s := msgs.foldl (fun a d => a.sendChain l.fwdFa 2 l.gen d) s
          (s.modWload id (fun y => { y with nextFwd := y.nextFwd + 1, forwarded := y.forwarded + 1 })).forwardShards id n
      | _, _ => s

/-- Make the next wanted shards requested, up to 8 in flight (R238). -/
def State.requestShards (s : State) (id : Nat) : State :=
  s.modWload id (fun l =>
    let free := 8 - (l.shards.filter (fun x => x.state == 1)).length
    let wanted := ((List.range l.shards.length).filter (fun i => (lget {} l.shards i).state == 0)).take free
    { l with shards := l.shards.mapIdx (fun i x =>
        if wanted.contains i then { x with state := 1, attempts := x.attempts + 1, at_ := s.time } else x) })

/-! ### The end of a load (R238 step 5, R241) -/

/-- KIND 1 MEMMAP entries of a load's target region. -/
def WloadRec.maps (l : WloadRec) (s : State) : List Nat :=
  match (s.region l.region).image with
  | some i => i.maps 1
  | none => []

/-- The targets of a load are complete: its window becomes HELD and its copy STAGED; units of an earlier copy that the new
one replaces are given up (R238 step 5). -/
def State.fillDone (s : State) (l : WloadRec) : State :=
  let s := match l.window with
    | some k => if (lget ({} : Window) (s.region l.region).windows k).state = 1 then
        s.modWindow l.region k (fun w => { w with state := 2 }) else s
    | none => s
  let s := match (if l.runs = [] then none else s.generation l.guest l.gen) with
    | some g => s.freeRuns g.runs
    | none => s
  let s := s.modGen l.guest l.gen (fun g =>
    let g := { g with staged := g.staged || l.target == 0 || l.target == 2
                      streamed := g.streamed || l.target == 1
                      maps := if l.target = 1 ∧ l.runs ≠ [] then l.maps s else g.maps }
    if l.runs = [] then g else { g with runs := l.runs, bad := [] })
  (s.modWload l.id (fun y => { y with filled := true })).settleSwings l.region

/-- A load whose shards are all verified and written, in a window of its own or one that another load has filled, has its targets
complete; when nothing is left to forward, it completes with the number forwarded, and the room of shards held for the downstream module
is given up (R233, R238 step 5, R240, R241). -/
def State.finishOneLoad (s : State) (id : Nat) : State :=
  match s.wload id with
  | none => s
  | some l =>
    let x := s.region l.region
    let waits := l.target != 0 && l.window.isNone && (match x.windowOf l.guest l.gen with
      | some k => (lget ({} : Window) x.windows k).state == 1
      | none => false)
    if l.phase = 1 ∧ l.shards.all (fun x => decide (2 ≤ x.state)) ∧ (l.filled ∨ (!waits ∧ (l.window.isNone ∨ !s.fillsPending l.region))) then
      let s := if l.filled then s else s.fillDone l
      let tmo := match l.man with | some m => m.timeout | none => 2000
      let done := l.fwdFa == 0xFFFF || decide (l.shards.length ≤ l.nextFwd) ||
        (l.joined.isNone && decide (l.startAt + ms tmo ≤ s.time))
      if done then
        let s := s.modWeight (fun w => { w with loads := w.loads.filter (fun q => q.id != id) })
        let s := (mvals l.rooms).foldl (fun a r => a.freeRuns r) s
        match l.entry with
        | some e => s.complete e stOK l.forwarded
        | none => s
      else s
    else s

/-- A load that may end, then those that waited for the window it filled. -/
def State.finishLoad (s : State) (id : Nat) : State :=
  match s.wload id with
  | none => s
  | some l => (s.windowWaiters l).foldl (fun a q => a.finishOneLoad q.id) (s.finishOneLoad id)

/-- Every load that may end now. -/
def State.finishLoads (s : State) : State := s.weight.loads.foldl (fun a l => a.finishLoad l.id) s

end Sys2Proof.Machine
end

