-- ==== Sys2Proof/Machine/BeatOps.lean ====
section
/-! DEFINITION. Beats, holds, items and background accesses (05 R107-R119, 02 R34, R56, R57, 04 R101-R102). -/

namespace Sys2Proof.Machine

/-- A pane number that exists. -/
def paneOk (p : Nat) : Bool := decide (p < 786)

/-- The region of a core pane in RUNNING. -/
def State.runningRegion (s : State) (p : Nat) : Option Nat :=
  (s.pane p).region.filter (fun r => (s.region r).state == 3)

/-- Failed checks of a cell, where there are any. -/
def State.failNow (s : State) (c : Nat) (l : List Chk) : State := if l.isEmpty then s else s.failCell c l

/-- LINK_NO_FREE: in the running cycle under way a link direction would be assigned for the 16th cycle in a row (R34); the check is
made at the cycle's end too, whether this event comes or not (R122). -/
def execLinkNoFree (c dir : Nat) (s : State) : Out :=
  let n := (s.pane (paneOfCell c)).runCycles
  let x := s.cell c
  match s.runningRegion (paneOfCell c) with
  | some _ => .next (s.failNow c ((x.freeChks ((x.linksNow n).map (·.1)) []).filter (fun k => k.hi == (7 + dir) * 2 ^ 56)))
  | none => .next s

/-- BANK_NO_FREE: in the running cycle under way a bank, or a port G, would be scheduled for the 64th cycle in a row (R57); the check
is made at the cycle's end too. -/
def execBankNoFree (c mem bank : Nat) (port : Bool) (s : State) : Out :=
  let n := (s.pane (paneOfCell c)).runCycles
  let x := s.cell c
  let hi := mem * 2 ^ 56 + (if port then 3 * 2 ^ 40 else bank * 2 ^ 48)
  match s.runningRegion (paneOfCell c) with
  | some _ => .next (s.failNow c ((x.freeChks [] (x.accsNow n)).filter (fun k => k.hi == hi)))
  | none => .next s

/-- Beats a pane has completed since the load. -/
def Pane.completed (p : Pane) : Nat :=
  match p.cond with
  | .complete | .stopped | .paused _ => p.begun
  | _ => p.begun - 1

/-- BEAT_COMPLETE: the pane has run the B cycles of its beat; after the step's last beat it stops, and when every pane
has, the step's beats are over (R107, R109, R111, R172). -/
def execBeatComplete (p : Nat) (s : State) : Out :=
  match s.runningRegion p with
  | none => .next s
  | some r =>
    let g := s.region r
    let q := s.pane p
    if q.cond = .running ∧ q.cyc = g.beatLen then
      let isLast := q.beat = g.lastBeat
      let s := s.setPane p { q with cond := if isLast then .stopped else .complete }
      let g := s.region r
      if isLast ∧ g.panes.all (fun i => (s.pane i).cond == .stopped && (s.pane i).beat == g.lastBeat) then
        .next (s.modRegion r (fun x => { x with flight := x.flight.map (fun f => { f with beatsOver := true }) }))
      else .next s
    else .next s

/-- Is slot `j` of a frame at pause level `k` a pause beat (R118)? -/
def pauseSlot (j k : Nat) : Bool := decide ((j + 1) * k / 32 > j * k / 32)

/-- The test a pane makes where it would begin a beat: a pause beat or the beat (R118). -/
def State.beginOrPause (s : State) (p r : Nat) : State :=
  let g := s.region r
  let q := s.pane p
  let k := g.k
  let q := { q with kNow := k, slotJ := (q.slotJ + 1) % 32 }
  if pauseSlot (s.pane p).slotJ k then
    ((s.setPane p { q with cond := .paused g.beatLen }).modRegion r (fun x =>
      { x with totals := { x.totals with pauseBeats := x.totals.pauseBeats.add 1 } })).settleHold r
  else
    (s.setPane p { q with cond := .running, beat := q.begun, begun := q.begun + 1, cyc := 0 }).settleHold r

/-- Have the pane's neighbours of its region completed the beat it has completed (R108)? -/
def State.neighboursDone (s : State) (p : Nat) (g : Region) : Bool :=
  (edgePanes p).all (fun q => !g.panes.contains q || decide ((s.pane p).begun ≤ (s.pane q).completed))

/-- BEAT_BEGIN: both conditions of R108 hold; the next beat begins, or a pause beat (R118). -/
def execBeatBegin (p : Nat) (s : State) : Out :=
  match s.runningRegion p with
  | none => .next s
  | some r =>
    if (s.pane p).cond = .complete ∧ s.neighboursDone p (s.region r) then .next (s.beginOrPause p r) else .next s

/-- PAUSE_BEAT_END: the B clock periods have passed; the next slot is tested (R118). -/
def execPauseBeatEnd (p : Nat) (s : State) : Out :=
  match s.runningRegion p with
  | none => .next s
  | some r => if (s.pane p).cond = .paused 0 then .next (s.beginOrPause p r) else .next s

/-- `n` periods of a pane's clock, in quarter-nanoseconds, rounded up. -/
def Pane.cycles (p : Pane) (n : Nat) : Nat := ceilDiv (4000 * n) (if p.clk.stretched then p.clk.mhz / 2 else p.clk.mhz)

/-- When every item a stalled pane waits for is ready, it may resume 2 cycles later (R112). -/
def State.noteReady (s : State) (p : Nat) : State :=
  let q := s.pane p
  match q.cond, q.region with
  | .awaitStall ws, some r =>
    let n := (s.region r).stepNo
    if ws.all (fun w => (s.cell w.1).ready.contains (w.2, n)) then
      s.setPane p { q with resumeAt := some (s.time + q.cycles 2) }
    else s
  | _, _ => s

/-- A delivery of an item becomes ready for a step (R112). -/
def State.makeReady (s : State) (c item tag : Nat) : State :=
  (s.modCell c (fun x => { x with ready := x.ready ++ [(item, tag)] })).noteReady (paneOfCell c)

/-- An awaited delivery is taken (R112). -/
def State.takeAwaited (s : State) (c item n : Nat) : State :=
  s.modCell c (fun x => { (x.take item n) with awaiting := none })

/-- AWAIT_RESUME: 2 cycles after the delivery became ready the pane goes on at the same cycle, and the take is recorded
(R112). -/
def execAwaitResume (p : Nat) (s : State) : Out :=
  let q := s.pane p
  match q.cond, q.resumeAt, s.runningRegion p with
  | .awaitStall ws, some t, some r =>
    if t ≤ s.time then
      let n := (s.region r).stepNo
      let s := ws.foldl (fun a w => a.takeAwaited w.1 w.2 n) s
      .next ((s.setPane p { q with cond := .running, resumeAt := none }).settleHold r)
    else .next s
  | _, _, _ => .next s

/-- OUTBOUND_RESUME: 2 cycles after an entry freed and the waiting entry was written, the pane goes on (R115). -/
def execOutboundResume (p : Nat) (s : State) : Out :=
  let q := s.pane p
  match q.resumeAt, s.runningRegion p with
  | some t, some r =>
    if q.cond = .outStall ∧ q.outWait = [] ∧ t ≤ s.time then
      .next ((s.setPane p { q with cond := .running, resumeAt := none }).settleHold r)
    else .next s
  | _, _ => .next s

/-- OUTBOUND_PORT_DRAIN: the through-way takes the oldest entry; the waiting entry is written. The entries up to one
marked last form a message of `m.len` octets, whose channel and address the command names: the spec states no addressing
of the port's entries (log 24; R115). On channel A a message that carries values goes out with its preamble `m.pre`, in whole units a
flit (R86, R87). -/
def execOutboundPortDrain (p : Nat) (last : Bool) (vc dest addr : Nat) (m : PortMsg) (s : State) : Out :=
  let q := s.pane p
  match q.outPort with
  | [] => .next s
  | e :: rest =>
    let msg := q.outMsg ++ [e]
    let (port, wait) := match q.outWait with
      | w :: ws => (rest ++ [w.2], ws)
      | [] => (rest, [])
    let resume := if q.cond = .outStall ∧ wait = [] ∧ q.resumeAt = none then some (s.time + q.cycles 2) else q.resumeAt
    let s := s.setPane p { q with
      outPort := port
      outWait := wait
      resumeAt := resume
      outMsg := if last then [] else msg }
    let data := (msg.flatMap (bytesOf 32)).take m.len
    let data := match m.pre with
      | some f => if vc % 4 = 2 then valuesPayload f data else data
      | none => data
    .next (if last then s.sendWrite (vc % 4) dest addr data else s)

/-- The cells of a region that stand at an AWAIT, or whose SEND waits at the port, with cause, item and class (R119). -/
def State.stalledCells (s : State) (g : Region) : List (Nat × Nat × Nat × Nat) :=
  g.panes.flatMap (fun p =>
    match (s.pane p).cond with
    | .awaitStall ws => ws.map (fun w => (w.1, 1, w.2, itemClass (lget 0 (s.cell w.1).items w.2)))
    | .outStall => (s.pane p).outWait.map (fun w => (w.1, 2, 0, 0))
    | _ => [])

/-- HOLD_TIMEOUT: a shutter hold as long as the watchdog limit, outside a row-shift, raises a CONTRACT fault and stops
the region (R119). -/
def execHoldTimeout (r : Nat) (s : State) : Out :=
  let g := s.region r
  match g.holdSince with
  | none => .next s
  | some t =>
    if g.state = 3 ∧ g.shifts = [] ∧ t + ms g.wdogMs ≤ s.time then
      let len := (s.time - t) / 4000
      let low : Option (Nat × Nat × Nat × Nat) := (s.stalledCells g).foldl
        (fun a w => match a with | none => some w | some b => if w.1 < b.1 then some w else some b) none
      match low with
      | some (c, cause, item, cl) =>
        let f := s.cellRec c { cls := 0, code := 0x10, iaddr := min (s.cell c).pc 1023,
                               detHi := cause * 2 ^ 56 + item * 2 ^ 48 + cl * 2 ^ 40, detLo := len }
        .next (((s.report c f).modCell c (fun x => x.latchFault f)).stopContract r)
      | none =>
        let p := (g.panes.filter (fun i => (s.pane i).cond.holds)).foldl min 785
        let f := s.paneRec p { cls := 0, code := 0x10, detHi := 3 * 2 ^ 56, detLo := len }
        .next ((s.report (unitPane p) f).stopContract r)
    else .next s

/-- A repeat slot whose words are all in, and every tile that a word with WIDEN = 1 announced, makes its item ready (R101). -/
def State.slotCheck (s : State) (c decl : Nat) : State :=
  let t := mget {} (s.cell c).repState (bits decl 63 58)
  match s.regionOfCell c with
  | some r => if t.words = bits decl 57 50 ∧ t.widened ≤ t.tiles then s.makeReady c (bits decl 49 45) (s.region r).stepNo else s
  | none => s

/-- A verdict word at its consumer (R101, R103). A word too many, and one after the slot's AWAIT, is REPEAT_OVERFLOW (R102); so is one of
a slot that the cell does not declare, which the model takes as a slot of no tiles (DESIGN CHOICE, log 25). -/
def State.verdict (s : State) (c v : Nat) (tileIn : Bool) : State :=
  match s.runningRegion (paneOfCell c) with
  | none => s
  | some r =>
    let x := s.cell c
    let slot := bits v 57 52
    let widen := bitAt v 31
    let det := bits v 63 58 * 2 ^ 58 + slot * 2 ^ 52 + bits v 51 40 * 2 ^ 40
    let decl := (x.repeats.find? (fun e => bits e 63 58 == slot)).getD (slot * 2 ^ 58 + 32 * 2 ^ 45)
    let tiles := bits decl 57 50
    let t := mget {} x.repState slot
    if x.taken.contains (bits decl 49 45) || decide (t.words ≥ tiles) then
      s.failCell c [{ code := 0xF, hi := det, lo := tiles }]
    else
      let t := { t with words := t.words + 1, widened := t.widened + bit widen, tiles := t.tiles + bit (widen && tileIn) }
      let x := { x with repState := mset x.repState slot t }
      let s := s.setCell c (if widen then x.countEv (schedEv 5 5) 1 else x)
      let s := if widen then s.modRegion r (fun y =>
          { y with totals := { y.totals with widen := y.totals.widen.add 1 } }) else s
      s.slotCheck c decl

/-- A delivery is whole in its guard range: the item is ready, or a wider tile of its repeat slot is in (R101, R112). -/
def State.itemWritten (s : State) (c item tag : Nat) : State :=
  let x := s.cell c
  if itemClass (lget 0 x.items item) = 3 then
    match x.repeats.find? (fun e => bits e 49 45 == item) with
    | none => s
    | some decl =>
      let slot := bits decl 63 58
      let t := mget {} x.repState slot
      (s.setCell c { x with repState := mset x.repState slot { t with tiles := t.tiles + 1 } }).slotCheck c decl
  else s.makeReady c item tag

/-- Is a delivery a verdict word from another module (R101 step 4)? -/
def State.isVerdict (s : State) (d : Delivery) : Bool :=
  itemClass (lget 0 (s.cell d.cell).items d.item) == 3 && d.data.length == 8

/-- Queue the writes of a delivery, one for each 256-bit word of the guard range (R113); with no octets the item is
ready at once. -/
def State.queueDelivery (s : State) (d : Delivery) : State :=
  let w := lget 0 (s.cell d.cell).items d.item
  let n := ceilDiv d.data.length 32
  if n = 0 then s.itemWritten d.cell d.item d.tag
  else
    let reqs := (List.range n).map (fun i =>
      ({ mem := 2, offset := (itemBase w + i) * 32, data := some ((d.data.drop (32 * i)).take 32),
         purpose := .delivery d.item d.tag (i + 1 == n) } : BgReq))
    reqs.foldl (fun a b => a.queueBg d.cell b) s

/-- A delivery of an earlier step is counted (R113). -/
def State.countStale (s : State) (c : Nat) : State :=
  s.modCell c (fun x =>
    { x with stale := if x.freeze then x.stale else x.stale.add 1 }.countEv { cls := 6, ev := 2, master := 6 } 1)

/-- Does the delivery fit an item its cell declares (R113)? -/
def State.deliveryFits (s : State) (d : Delivery) : Bool :=
  let x := s.cell d.cell
  decide (d.item < x.items.length) && decide (d.data.length ≤ itemSize (lget 0 x.items d.item) * 32)

/-- A delivery meets its cell: refused, stale, written, or still waiting (R113); one of a streamed tensor follows the
tensor's own writes (R246). -/
def State.deliver (s : State) (r : Nat) (d : Delivery) : State × Bool :=
  let g := s.region r
  let x := s.cell d.cell
  if !s.deliveryFits d then
    let s := s.modCell d.cell (fun x => x.countEv { cls := 6, ev := 4, master := 6 } 1)
    let code := if d.item < x.items.length then 3 else 1
    (if d.src = 0xFFFF then s
     else s.sendError { kind := 0, vc := 2, dest := s.fabricAddr, src := d.src, addr := 3 * 2 ^ 46 + r * 2 ^ 40 + ((g.localIndex d.cell).getD 0) * 2 ^ 22 + d.item * 2 ^ 17 + d.tag % 2 ^ 17, payload := [] } code, true)
  else
    let now := match g.flight with | some f => if f.started then f.number else f.number - 1 | none => g.stepNext - 1
    let begun : Bool := match g.flight with | some f => f.started | none => false
    let keep := itemClass (lget 0 x.items d.item) == 2 || (itemClass (lget 0 x.items d.item) == 3 && d.src != 0xFFFF)
    let kept (s : State) : State := s.modRegion r (fun y => { y with kept := if keep then y.kept ++ [d] else y.kept })
    if begun ∧ d.tag = now ∧ s.isVerdict d then (kept (s.verdict d.cell (leNat d.data) false), true)
    else if g.stepNext ≠ 0 ∧ (d.tag < now ∨ (d.tag = now ∧ !begun ∧ g.flight = none) ∨ (d.tag = now ∧ x.taken.contains d.item)) then
      (s.countStale d.cell, true)
    else if d.src = 0xFFFF ∧ itemClass (lget 0 x.items d.item) = 1 ∧ s.readHeld (fun u => u == .item d.cell) then (s, false)
    else if itemClass (lget 0 x.items d.item) = 1 ∧ (x.bg ++ x.bgMesh).any (fun b => match b.purpose with | .fill _ _ => true | _ => false) then (s, false)
    else if begun ∧ d.tag = now ∧ x.closed.contains d.item then
      let s := s.modCell d.cell (fun x => x.countEv { cls := 6, ev := 1, master := 6 } 1)
      (kept (s.queueDelivery d), true)
    else (s, false)

/-- ITEM_DELIVERY: the `k`-th waiting delivery of a region (R113). -/
def execItemDelivery (r k : Nat) (s : State) : Out :=
  match (s.region r).deliveries[k]? with
  | none => .next s
  | some d =>
    let (t, gone) := s.deliver r d
    .next (if gone then t.modRegion r (fun x => { x with deliveries := x.deliveries.eraseIdx k }) else t)

/-- The answer of a granted access to whoever asked (R63, R112). -/
def State.answerBg (s : State) (c : Nat) (b : BgReq) (data : List Byte) : State :=
  match b.purpose with
  | .delivery item tag lastWord => if lastWord then s.itemWritten c item tag else s
  | .fill _ _ => s.finishLoads
  | .window src _ rtag =>
    match b.data with
    | some _ => s
    | none => s.sendMsg { kind := 2, vc := 1, dest := src, src := s.fabricAddr, addr := rtag, payload := data }

/-- May a delivery's word still be written: its step is under way and its item's guard closed (R113)? -/
def State.deliveryLive (s : State) (c item tag : Nat) : Bool :=
  match (s.pane (paneOfCell c)).region with
  | none => false
  | some r =>
    match (s.region r).flight with
    | some f => f.started && f.number == tag && (s.cell c).closed.contains item
    | none => false

/-- A granted access: done, counted, and answered (R56, R61). -/
def State.doBg (s : State) (c : Nat) (b : BgReq) : State :=
  let x := s.cell c
  let len := match b.data with | some d => d.length | none => 8
  let acc : Access := ⟨(s.pane (paneOfCell c)).runCycles, b.mem, 3, bankOf b.mem b.offset, 0, 0, b.offset, decide (len < memWidth b.mem)⟩
  let ev : PmcEv := match b.purpose with
    | .delivery _ _ _ => { cls := 3, ev := 1, master := 6 }
    | .fill m q => { cls := 3, ev := 1, master := m, byOwner := q == 0, byGuest := q != 0 }
    | .window _ q _ => { cls := 3, ev := 1, master := 4, byOwner := q == 0, byGuest := q != 0 }
  let m := x.mem b.mem
  let y := match b.data with | some d => x.setMem b.mem (m.write b.offset d) | none => x
  let y := if b.mem = 5 then y else y.countAcc acc true ev
  (s.setCell c y).answerBg c b (m.read b.offset 8)

/-- A cell's memory serves the head of its queue, once a period, where no scheduled access of a running cycle stands against it
(R53, R56). A delivery's word whose step is over or whose guard is open is discarded, and the delivery counted as stale
(R113). -/
def State.serveBg (s : State) (c mem : Nat) : State :=
  let x := s.cell c
  let p := s.pane (paneOfCell c)
  match x.bg.findIdx? (fun b => b.mem == mem) with
  | none => s
  | some i =>
    match x.bg[i]? with
    | none => s
    | some b =>
      let busy := p.cond == .running &&
        (x.accsNow p.runCycles).any (fun a => a.mem == mem && (a.bank == bankOf mem b.offset || a.port == 3))
      if busy || x.granted.contains mem || s.rowShifting c || (p.region.isSome && p.power != 0) then s
      else
        let t := s.setCell c { (x.popBg i) with granted := mem :: x.granted }
        match b.purpose with
        | .delivery item tag lastWord =>
          if s.deliveryLive c item tag then t.doBg c b
          else if lastWord then t.countStale c else t
        | _ => t.doBg c b

/-- Is a running cycle of a pane under way (R107)? -/
def State.inCycle (s : State) (p : Nat) : Bool :=
  let q := s.pane p
  match q.region with
  | none => false
  | some r => q.power == 0 && q.cond == .running && (s.region r).state == 3 && decide (q.cyc < (s.region r).beatLen)

/-- BACKGROUND_ACCESS_GRANT: the head of a memory's queue is served in a period in which neither its bank nor port G
carries a scheduled access, one a period (R44, R53, R56). In a running cycle that is known at its end, when every issue has been
made; in any other period the access is served at once. -/
def execBackgroundAccessGrant (c mem : Nat) (s : State) : Out :=
  if s.inCycle (paneOfCell c) then
    .next (s.modCell c (fun x => if x.grantAsk.contains mem then x else { x with grantAsk := x.grantAsk ++ [mem] }))
  else .next (s.serveBg c mem)

/-- VERDICT_WORD: a word reaches a repeat slot of its consumer; the slot's item is ready when every declared tile is
in (R101). `tileIn`: the wider tile of a word with WIDEN = 1 came over the mesh before it (log 25). -/
def execVerdictWord (c : Nat) (w : VerdictIn) (s : State) : Out := .next (s.verdict c w.word.toNat w.tileIn)

end Sys2Proof.Machine
end

