-- ==== Sys2Proof/Machine/Campion.lean ====
section
/-! DEFINITION. Campion: mask rows and slices, sampling, the draw, acceptance of drafts (10 R212-R231). -/

namespace Sys2Proof.Machine

def State.modCampion (s : State) (f : Campion → Campion) : State := { s with campion := f s.campion }

/-- Registers of a unit's counters (Table 10-7): 0 POSITIONS, 1 CACHE_MISS, 2 NAN_DROPPED, 3 LOW_COVER, 4 MASK_EMPTY,
5 BAD_PARAM, 6 DRAFT_DROPPED. -/
def State.countCampion (s : State) (unit reg n : Nat) : State :=
  s.modCampion (fun c => { c with counters := mset c.counters (16 * unit + reg) ((mget {} c.counters (16 * unit + reg)).add n) })

/-! ### Region registers (Table 10-7) -/

def Region.shards (x : Region) : Nat := bits x.rcfg 63 55
def Region.cand (x : Region) : Nat := bits x.rcfg 54 44
def Region.st (x : Region) : Nat := 256 * bits x.rcfg 43 34
def Region.coverMin (x : Region) : Nat := bits x.rcfg 33 26

/-- Tokens served: VOCAB, 0 or a value above standing for SHARDS × ST. -/
def Region.vocab (x : Region) : Nat :=
  let v := bits x.rcfg 25 7
  if v = 0 then x.shards * x.st else min v (x.shards * x.st)

/-- DPAIR: EN, ROLE, PEER_FA and PEER_REGION. -/
def Region.pairEn (x : Region) : Bool := bitAt x.dpair 63
def Region.role (x : Region) : Nat := bits x.dpair 62 62
def Region.peerFa (x : Region) : Nat := bits x.dpair 61 46
def Region.peerRegion (x : Region) : Nat := bits x.dpair 45 40

/-! ### Masks (R214, R215, R219) -/

/-- A mask row, or what stands for one: every token, or none. -/
inductive MaskRow where
  | every
  | empty
  | row (source index : Nat)
  deriving DecidableEq, Repr

/-- Octet offset of a row in a source's image. -/
def rowBase (m : Nat) (img : List Byte) (i : Nat) : Nat :=
  if m < 0x100 then
    let h := leAt img 0 64
    64 + 16 * bits h 463 443 + 8 * bits h 425 394 + 32768 * i
  else 0

/-- The row that applies in an automaton's state; a list has one row (R214, Table 10-3). -/
def State.rowOf (s : State) (m st : Nat) : MaskRow :=
  if m = 0x3FF then .every
  else if m < 0x100 then .row m (bits (leAt (s.source m).image (64 + 16 * st) 16) 127 112)
  else .row m 0

/-- Does a row allow a token? -/
def State.rowAllows (s : State) (row : MaskRow) (t : Nat) : Bool :=
  match row with
  | .every => true
  | .empty => false
  | .row m i => bitAt (leAt (s.source m).image (rowBase m (s.source m).image i + t / 8) 1) (t % 8)

/-- Octets of shard `k` of a row, tokens at or above VOCAB cleared (R219). -/
def State.maskSlice (s : State) (x : Region) (row : MaskRow) (k : Nat) : List Byte :=
  let n := x.st / 8
  let raw := match row with
    | .every => List.replicate n 0xFF
    | .empty => zeros n
    | .row m i => slice (s.source m).image (rowBase m (s.source m).image i + k * n) n
  let keep (j : Nat) (b : Byte) : Byte :=
    let first := k * x.st + 8 * j
    if first + 8 ≤ x.vocab then b else b &&& BitVec.ofNat 8 (2 ^ (x.vocab - first) - 1)
  raw.mapIdx keep

/-- Does the mask that a position's shards receive allow a token (R219)? -/
def State.maskAllows (s : State) (x : Region) (row : MaskRow) (t : Nat) : Bool := s.rowAllows row t && decide (t < x.vocab)

/-- Rows of a slot's positions: one row along the drafted tokens, and none after a forbidden draft (R217, R219). -/
def State.maskRows (s : State) (x : Region) (m : Nat) : Nat → List Nat → List MaskRow
  | st, [] => [s.rowOf m st]
  | st, t :: r =>
    let row := s.rowOf m st
    row :: (if s.maskAllows x row t then s.maskRows x m (s.advanceAuto m st [t]) r else List.replicate (r.length + 1) .empty)

/-- Drafts up to the first that its mask forbids, where it is rejected (R219). -/
def State.allowedDrafts (s : State) (x : Region) (m : Nat) : Nat → List Nat → List Nat
  | _, [] => []
  | st, t :: r => if s.maskAllows x (s.rowOf m st) t then t :: s.allowedDrafts x m (s.advanceAuto m st [t]) r else []

/-- A row comes into use: one that the row cache lacks is read from HBM and counted. The cache holds 131,072 rows; which of them a
further one displaces is not stated and is a free value (R214; log 79). -/
def State.useRow (s : State) (row : MaskRow) : State :=
  match row with
  | .row m i =>
    if s.campion.cached.contains (m, i) then s
    else
      let full := decide (131072 ≤ s.campion.cached.length)
      let out := s.free.toNat % 131072
      let s := if full then s.useFree else s
      (s.countCampion 0 1 1).modCampion (fun c => { c with cached := (if full then c.cached.eraseIdx out else c.cached) ++ [(m, i)] })
  | _ => s

/-! ### Arithmetic of a lane, in FP32 under R78 -/

/-- FP32 quotient. -/
def f32Div (a b : R32) : R32 :=
  let x := f32Val a
  let y := f32Val b
  if x.isNan || y.isNan || (x.isInf && y.isInf) || (x.isZero && y.isZero) then f32NanOf (Config.nanBits a b 3)
  else if x.isInf || y.isZero then f32Inf (x.neg != y.neg)
  else if y.isInf then f32Of (x.neg != y.neg) 0
  else
    let p := x.dy.ratio
    let q := y.dy.ratio
    ratioF32 ⟨x.neg != y.neg, p.1 * q.2, p.2 * q.1⟩

def f32Lt (a b : R32) : Bool := fpLt (f32Val a) (f32Val b)

/-- A candidate: logit and token. -/
abbrev Cand := R32 × Nat

/-- Descending logit, ties to the lower token. -/
def candLe (a b : Cand) : Bool := f32Lt b.1 a.1 || (!f32Lt a.1 b.1 && decide (a.2 ≤ b.2))

/-- Header and candidates of a shard's octets (Table 10-5). -/
def shardHeader (b : List Byte) : Nat := leAt b 0 16
def shardCands (b : List Byte) : List Cand :=
  (records 8 (b.drop 16)).map (fun v => (BitVec.ofNat 32 (v / 2 ^ 32), bits v 17 0))

/-- Rank of a logit among a shard's candidates: NaN, +∞, finite, −∞ (R220). -/
def logitRank (a : R32) : Nat := let v := f32Val a; if v.isNan then 3 else if v.isInf then (if v.neg then 0 else 2) else 1

/-- Descending order of a shard's candidates, ties to the lower token (R220). -/
def shardBefore (a b : Cand) : Bool :=
  decide (logitRank b.1 < logitRank a.1) ||
    (logitRank a.1 == logitRank b.1 && ((logitRank a.1 == 1 && f32Lt b.1 a.1) || (!f32Lt a.1 b.1 && decide (a.2 < b.2))))

/-- Candidates in a shard's order. -/
def shardSorted : List Cand → Bool
  | a :: b :: r => shardBefore a b && shardSorted (b :: r)
  | _ => true

/-- Do a shard's header and candidates hold to R220: tokens of the shard that the mask allows, each once, in order, as many as there
are up to CAND; LSE_MAX the largest finite logit, and −∞ with LSE_SUM 0 where there is none? -/
def State.shardOk (s : State) (x : Region) (row : MaskRow) (b : List Byte) : Bool :=
  let h := shardHeader b
  let k := bits h 105 98
  let cs := shardCands b
  let allowed := ((List.range x.st).filter (fun i => s.maskAllows x row (k * x.st + i))).length
  let lse := BitVec.ofNat 32 (bits h 63 32)
  let max? := cs.find? (fun c => logitRank c.1 == 1)
  cs.length == min x.cand allowed && shardSorted cs && (cs.map (·.2)).eraseDups.length == cs.length &&
    cs.all (fun c => decide (k * x.st ≤ c.2 ∧ c.2 < (k + 1) * x.st) && s.maskAllows x row c.2) &&
    (match max? with
     | some c => !f32Lt lse c.1 && !f32Lt c.1 lse && logitRank lse == 1
     | none => decide (x.cand < allowed) || (logitRank lse == 0 && bits h 31 0 == 0))

/-- Merge: NaN and minus infinity dropped, plus infinity made finite, the 1,024 highest kept (R222 stage 1). Answers the
set and the number dropped. -/
def mergeCands (l : List Cand) : List Cand × Nat :=
  let bad (c : Cand) : Bool := (f32Val c.1).isNan || ((f32Val c.1).isInf && (f32Val c.1).neg)
  let fin := (l.filter (fun c => !bad c)).map (fun c => if (f32Val c.1).isInf then ((0x7F7FFFFF : R32), c.2) else c)
  ((sortBy candLe fin).take 1024, (l.filter bad).length)

/-- Log-sum-exp of (max, sum) pairs, in their order; none when no pair has a finite logit. The exponential's and the
logarithm's accuracy is not stated (log 10). -/
def lseOf (ps : List (R32 × R32)) : Option R32 :=
  let ps := ps.filter (fun p => (f32Val p.1).isFin)
  match ps with
  | [] => none
  | a :: r =>
    let m := r.foldl (fun x p => if f32Lt x p.1 then p.1 else x) a.1
    let sum := ps.foldl (fun x p => f32Add x (f32Mul p.2 (Config.campionExp (f32Sub p.1 m)))) 0
    some (f32Add m (Config.campionLog sum))

/-- Does the coverage exp(LSE_C − LSE_all) fall below COVER_MIN ÷ 256 (R222 stage 1)? A log-sum-exp of no finite logit is −∞: beside a
finite LSE_all it covers nothing, and above an infinite one the coverage is +∞, or NaN, and not below (DEDUCED, log 10). -/
def lowCover (coverMin : Nat) (shards : List (R32 × R32)) (c : List Cand) : Bool :=
  let floor := f32Round false ⟨coverMin, -8⟩
  match lseOf shards, lseOf (c.map (fun x => (x.1, (0x3F800000 : R32)))) with
  | some all, some own => f32Lt (Config.campionExp (f32Sub own all)) floor
  | some _, none => coverMin != 0
  | none, _ => false

/-- Penalty on the tokens of C that stand in the window (R222 stage 2). -/
def penalise (pen : R32) (win : List Nat) (c : List Cand) : List Cand :=
  c.map (fun x => if win.contains x.2 then ((if (f32Val x.1).neg then f32Mul x.1 pen else f32Div x.1 pen), x.2) else x)

/-- Sum of FP32 values in order. -/
def f32Sum (l : List R32) : R32 := l.foldl f32Add 0

/-- The shortest prefix whose cumulative value meets a test; all of the list when none does. -/
def prefixUntil (ok : R32 → Bool) : R32 → List (R32 × Nat) → List (R32 × Nat)
  | _, [] => []
  | acc, x :: r =>
    let a := f32Add acc x.1
    if ok a then [x] else x :: prefixUntil ok a r

/-- Renormalised probabilities. -/
def renorm (l : List (R32 × Nat)) : List (R32 × Nat) :=
  let t := f32Sum (l.map (·.1))
  l.map (fun x => (f32Div x.1 t, x.2))

/-- Stages 4 to 8 with the draw `u` (R222); `c` is not empty. -/
def drawToken (v : Nat) (u : R32) (c : List Cand) : Nat :=
  let temp := BitVec.ofNat 32 (bits v 255 224)
  let l := sortBy candLe (c.map (fun x => (f32Div x.1 temp, x.2)))
  let l0 := match l with | x :: _ => x.1 | [] => 0
  let es := l.map (fun x => (Config.campionExp (f32Sub x.1 l0), x.2))
  let total := f32Sum (es.map (·.1))
  let ps := es.map (fun x => (f32Div x.1 total, x.2))
  let ps := if bits v 127 117 = 0 then ps else ps.take (bits v 127 117)
  let p0 := match ps with | x :: _ => x.1 | [] => 0
  let floor := f32Mul (BitVec.ofNat 32 (bits v 191 160)) p0
  let ps := ps.filter (fun x => !f32Lt x.1 floor)
  let topP := BitVec.ofNat 32 (bits v 223 192)
  let ps := if bits v 223 192 = 0x3F800000 then ps else prefixUntil (fun a => !f32Lt a topP) 0 (renorm ps)
  let pick := prefixUntil (fun a => f32Lt u a) 0 (renorm ps)
  match pick.getLast? with | some x => x.2 | none => 0

/-- The highest logit, ties to the lower token (R222 stage 3). -/
def greedyToken (c : List Cand) : Nat := match sortBy candLe c with | x :: _ => x.2 | [] => 0

/-! ### The draw (R223): Philox-4×32 with 10 rounds, as its authors published it (PRESUMED, log 13) -/

def philoxRound (c : Nat × Nat × Nat × Nat) (k : Nat × Nat) : Nat × Nat × Nat × Nat :=
  let p0 := 0xD2511F53 * c.1
  let p1 := 0xCD9E8D57 * c.2.2.1
  (Nat.xor (Nat.xor (p1 / 2 ^ 32) c.2.1) k.1, p1 % 2 ^ 32, Nat.xor (Nat.xor (p0 / 2 ^ 32) c.2.2.2) k.2, p0 % 2 ^ 32)

def philox : Nat → Nat × Nat → Nat × Nat × Nat × Nat → Nat × Nat × Nat × Nat
  | 0, _, c => c
  | n + 1, k, c => philox n ((k.1 + 0x9E3779B9) % 2 ^ 32, (k.2 + 0xBB67AE85) % 2 ^ 32) (philoxRound c k)

/-- `u = (r0 >> 8) × 2^-24` for a key and a sequence position (R223). -/
def drawU (key q : Nat) : R32 :=
  f32Round false ⟨((philox 10 (key % 2 ^ 32, key / 2 ^ 32) (q % 2 ^ 32, 0, 0, 0)).1 / 256 : Nat), -24⟩

/-! ### One position (R222) -/

/-- What a lane returns for a position, and what it counts: NaNs dropped, low coverage, empty mask. -/
structure LaneRes where
  token : Nat
  dropped : Nat
  low : Bool
  isEmpty : Bool
  deriving DecidableEq, Repr

/-- The stages of R222 for a position: sampling entry (0: none valid), key, the output's position, the tokens before it,
and the shards' octets. -/
def samplePosition (coverMin v key q : Nat) (before : List Nat) (shards : List (List Byte)) : LaneRes :=
  let (c, dropped) := mergeCands (shards.flatMap shardCands)
  let pairs := shards.map (fun b => (BitVec.ofNat 32 (bits (shardHeader b) 63 32), BitVec.ofNat 32 (bits (shardHeader b) 31 0)))
  let low := lowCover coverMin pairs c
  if c.isEmpty then ⟨if bitAt v 88 then bits v 106 89 else 0, dropped, low, true⟩
  else
    let win := before.drop (before.length - bits v 116 108)
    let pen := if v = 0 ∨ bits v 159 128 = 0x3F800000 then c else penalise (BitVec.ofNat 32 (bits v 159 128)) win c
    let tok := if v = 0 ∨ bits v 254 224 = 0 then greedyToken pen else drawToken v (drawU key q) pen
    ⟨tok, dropped, low, false⟩

/-- How many samples stand: the drafts that match, in order (R227). -/
def matching : List Nat → List Nat → Nat
  | y :: ys, x :: xs => if y = x then matching ys xs + 1 else 0
  | _, _ => 0

end Sys2Proof.Machine
end

