-- ==== Sys2Proof/Machine/StepCmds.lean ====
section
/-! DEFINITION. Commands of the Step and Cache engines that name a slot or a run of steps (07 R152, R159, R460, 08 R165,
R170, R171, R176-R178, 09 R197, R198, R204, R206). -/

namespace Sys2Proof.Machine

/-- Slots of a region's image (R164). -/
def Region.slotsMax (x : Region) : Nat := match x.image with | some i => i.slots | none => 0

/-- An entry that names region [223:218] and slot [217:204] starts: NO_REGION, BAD_ENTRY, or its own effect. -/
def State.slotEntry (s : State) (id : EntryId) (w : Nat) (states : List Nat) (f : State → Nat → Nat → State) : State :=
  let r := bits w 223 218
  let n := bits w 217 204
  if !s.regionOk id.guest r states then s.complete id stNoRegion 0
  else if (s.region r).slotsMax ≤ n then s.complete id stBadEntry 0
  else f s r n

/-- The word of the entry a queue may start next. -/
def State.nextWord (s : State) (g e : Nat) : Nat := match (s.queue g e).mayStart with | some (_, _, x) => x.word | none => 0

/-- A step entry joins its region's runs, and its panes are asked for (R152, R159, R327). While FORCE is Boarded it
completes with NO_REGION (R336). -/
def State.startRun (s : State) (r : Nat) (e : RunEntry) : State :=
  let s := s.modRegion r (fun x => { x with runs := x.runs ++ [e] })
  if (s.region r).isOpen then s else s.askRaise r 0

/-- STEP: COUNT steps of a region (R159, R460). -/
def execStep (g : Nat) (s : State) : Out :=
  withCommand g 0 0x10 s (fun s id w =>
    let r := bits w 223 218
    if !s.regionOk g r [2, 3] || (s.region r).power.force == 2 then s.complete id stNoRegion 0
    else s.startRun r { id := id, prefill := false, tpl := bits w 217 214, left := bits w 213 198, quiet := bits w 197 174 })

/-- PREFILL: the chunks of a prompt; it waits its turn on the slot (R152, R170, R171). -/
def execPrefill (g : Nat) (s : State) : Out :=
  withCommand g 0 0x11 s (fun s id w =>
    let r := bits w 223 218
    let n := bits w 213 200
    if !s.regionOk g r [2, 3] || (s.region r).power.force == 2 then s.complete id stNoRegion 0
    else if (s.region r).slotsMax ≤ n then s.complete id stBadEntry 0
    else (s.pushOp r n id 0x11).startRun r
      { id := id, prefill := true, tpl := bits w 217 214, left := ceilDiv (bits w 135 112) 256, slot := n,
        srcFa := bits w 199 184, srcAddr := bits w 183 136, tokens := bits w 135 112, pos := bits w 111 88,
        final := bitAt w 87 })

/-- SEQ_OPEN (R165). -/
def execSeqOpen (g : Nat) (s : State) : Out :=
  withCommand g 0 0x12 s (fun s id w =>
    s.slotEntry id w [2, 3] (fun s r n => (s.pushOp r n id 0x12).settleSlot r n))

/-- An entry joins its slot's waiting entries, and takes effect at once when it may. -/
def State.joinSlot (s : State) (r n : Nat) (id : EntryId) (op : Nat) : State :=
  let s := s.pushOp r n id op
  if s.opReady r n id op then s.opEffect r n id op else s

/-- SEQ_CLOSE: at once, or when the slot's step and scatter have ended (R176). -/
def execSeqClose (g : Nat) (s : State) : Out :=
  withCommand g 0 0x13 s (fun s id w => s.slotEntry id w [2, 3, 4] (fun s r n => s.joinSlot r n id 0x13))

/-- SEQ_CLOSE_TAKES_EFFECT: a close that waited (R176). -/
def execSeqCloseTakesEffect (r n : Nat) (s : State) : Out :=
  if 64 ≤ r ∨ 16384 ≤ n then .next s else .next (s.takeEffect r n 0x13)

/-- CANCEL of one slot (R177). -/
def execCancel (g : Nat) (s : State) : Out :=
  if 64 ≤ g then .next s
  else if bitAt (s.nextWord g 0) 203 then .next s
  else
    withCommand g 0 0x14 s (fun s id w =>
      s.slotEntry id w [2, 3, 4] (fun s r n => (s.pushOp r n id 0x14).settleSlot r n))

/-- Queued STEP and PREFILL entries of a region that have not started, in every guest's queue; the last of a list
first (R178 step 1). -/
def State.queuedRuns (s : State) (r : Nat) : List EntryId :=
  (List.range 64).flatMap (fun g => (s.queue g 0).lists.flatMap (fun l =>
    ((List.range l.entries.length).reverse).filterMap (fun i =>
      match l.entries[i]? with
      | some x => if x.prog = 0 ∧ (x.op = 0x10 ∨ x.op = 0x11) ∧ bits x.word 223 218 = r then some ⟨g, 0, l.seq, i⟩ else none
      | none => none)))

/-- CANCEL with ALL (R178). -/
def State.cancelAll (s : State) (r : Nat) (id : EntryId) : State :=
  let s := (s.queuedRuns r).foldl (fun a e => a.complete e stCancelled 0) s
  let inFlight := ((s.region r).flight).bind (·.entry)
  let s := ((s.region r).runs.filter (fun e => some e.id != inFlight)).foldl (fun a e => a.endRun r e stCancelled e.lastStep) s
  let s := s.modRegion r (fun x => { x with flight := x.flight.map (fun f => { f with allNull := true }) })
  let idle := ((s.region r).openSlots.filter (fun q => q.2.state != 3 && !q.2.ops.any (fun o => o.2 == 0x30))).map (·.1)
  let s := idle.foldl (fun a n => (a.freeQuiet r n).settleSlot r n) s
  if (s.region r).flight.isNone then s.complete id stOK 0
  else s.modRegion r (fun x => { x with cancelAlls := x.cancelAlls ++ [id] })

/-- CANCEL_ALL: a CANCEL entry with ALL = 1 (R178). -/
def execCancelAll (g : Nat) (s : State) : Out :=
  if 64 ≤ g then .next s
  else if !bitAt (s.nextWord g 0) 203 then .next s
  else
    withCommand g 0 0x14 s (fun s id w =>
      let r := bits w 223 218
      if !s.regionOk g r [2, 3, 4] then s.complete id stNoRegion 0 else s.cancelAll r id)

/-! ### Cache engine -/

/-- PARK (R204). -/
def execPark (g : Nat) (s : State) : Out :=
  withCommand g 2 0x30 s (fun s id w => s.slotEntry id w [2, 3, 4] (fun s r n => s.joinSlot r n id 0x30))

/-- PARK_TAKES_EFFECT: a park that waited (R204). -/
def execParkTakesEffect (r n : Nat) (s : State) : Out :=
  if 64 ≤ r ∨ 16384 ≤ n then .next s else .next (s.takeEffect r n 0x30)

/-- RESUME: tested at its start, when it claims its record; it takes effect in its turn on the slot (R152, R206). -/
def execResume (g : Nat) (s : State) : Out :=
  withCommand g 2 0x31 s (fun s id w =>
    let r := bits w 223 218
    let n := bits w 217 204
    let st := s.resumeTest r n g w
    if !s.regionOk g r [2, 3, 4] then s.complete id stNoRegion 0
    else if st ≠ stOK then s.complete id st 0
    else ((s.claimPark w 2).pushOp r n id 0x31).settleSlot r n)

/-- FORK: it waits on its source and its destination (R152, R197). -/
def execFork (g : Nat) (s : State) : Out :=
  withCommand g 2 0x32 s (fun s id w =>
    s.slotEntry id w [2, 3, 4] (fun s r n =>
      let dst := bits w 203 190
      if (s.region r).slotsMax ≤ dst then s.complete id stBadEntry 0
      else (if dst = n then s else s.pushOp r dst id 0x32).joinSlot r n id 0x32))

/-- FORK_TAKES_EFFECT: a fork that waited, by its source slot (R197). -/
def execForkTakesEffect (r n : Nat) (s : State) : Out :=
  if 64 ≤ r ∨ 16384 ≤ n then .next s else .next (s.takeEffect r n 0x32)

/-- TRIM (R198). -/
def execTrim (g : Nat) (s : State) : Out :=
  withCommand g 2 0x33 s (fun s id w => s.slotEntry id w [2, 3, 4] (fun s r n => s.joinSlot r n id 0x33))

/-- TRIM_TAKES_EFFECT: a trim that waited (R198). -/
def execTrimTakesEffect (r n : Nat) (s : State) : Out :=
  if 64 ≤ r ∨ 16384 ≤ n then .next s else .next (s.takeEffect r n 0x33)

end Sys2Proof.Machine
end

