-- ==== Sys2Proof/Machine/Admission.lean ====
section
/-! DEFINITION. Admission of a step (08 R166-R171, R182, 09 R193, R194, R202, 10 R212, R219, R221, R226, R229, 11 R248,
R249). -/

namespace Sys2Proof.Machine

/-- Template of a number. -/
def Region.tplOf (x : Region) (n : Nat) : Option StepTpl :=
  match x.image with
  | some i => i.tpls.find? (fun t => t.tpl == n)
  | none => none

/-- Positions of a step's wave table. -/
def StepTpl.width (t : StepTpl) : Nat := t.waves * t.waveSlots

/-- Template of a recompute: the lowest-numbered of KIND 4, or of KIND 2 (R182), with 256 positions (R170). -/
def Region.redoTpl (x : Region) : Option StepTpl :=
  let ts := match x.image with | some i => i.tpls | none => []
  let low (k : Nat) : Option StepTpl := (sortBy (fun (a b : StepTpl) => decide (a.tpl ≤ b.tpl)) (ts.filter (fun t => t.kind == k))).head?
  match low 4 with
  | some t => some t
  | none => low 2

/-- Has a tray report been accepted in the last 100 ms (R6)? -/
def State.served (s : State) : Bool :=
  match s.thermal.lastReport with
  | some t => decide (s.time ≤ t + ms 100)
  | none => false

/-- May a region take up its next step (R27, R111, R136, R167)? R6 says that the module serves no work without a recent tray report and
not which work: the model withholds the admission of steps and nothing else (DESIGN CHOICE, log 82). -/
def State.mayAdmit (s : State) (r : Nat) : Bool :=
  let x := s.region r
  (x.state == 2 || x.state == 3) && x.flight.isNone && x.shifts.isEmpty && x.isOpen && x.power.force != 2 && s.served

/-! ### Pages -/

/-- Is page `j` of a slot's layer absent, or missing without a scatter that opens it (R182, R202)? -/
def State.pageAbsent (s : State) (r n k j : Nat) : Bool :=
  match (mget [] (s.slot r n).pages k)[j]? with
  | some d => (s.desc d).tier == 0
  | none => (s.region r).pendingRows n j == 0

/-- Lowest page index that is absent in any layer. -/
def State.absentAt (s : State) (r n : Nat) : Option Nat :=
  (List.range (ceilDiv (s.slot r n).length 256)).find? (fun j =>
    (List.range (s.region r).kv.length).any (fun k => s.pageAbsent r n k j))

/-- Do a layer's frame lists fit its KV-ready guard range in every cell, for these positions' slots (R193, R194)? -/
def State.listsFit (s : State) (r width : Nat) (slots : List Nat) : Bool :=
  let x := s.region r
  (List.range x.kv.length).all (fun k =>
    match x.kv[k]? with
    | none => true
    | some l =>
      let frames := (slots.map (fun n => (mget [] (x.slot n).pages k).length)).sum
      (List.range l.cells).all (fun i =>
        match x.localCell (l.firstCell + i) with
        | some c => decide (2 * width + 2 * frames ≤ 32 * itemSize (lget 0 (s.cell c).items l.item))
        | none => true))

/-! ### Generations (R249) -/

/-- The window a slot's steps run under: its pin, or the CURRENT one. -/
def Region.slotWindow (x : Region) (y : SeqSlot) : Option Nat :=
  if y.genPin = 0 then x.current.map (·.1)
  else x.windows.findIdx? (fun w => (w.state == 3 || w.state == 4) && w.gen == y.genPin)

/-- May the draft slot be admitted: no verify record waits, and fewer drafts than the depth (R229)? -/
def Region.draftGate (x : Region) (y : SeqSlot) : Bool :=
  !(x.pairEn && x.role == 1) || (y.verify.isNone && (match y.specDepth with | some d => decide (y.specMade < d) | none => true))

/-- Does a slot wait for its last scatter alone, to be closed, cancelled, parked, trimmed or forked? -/
def State.leaving (s : State) (r n : Nat) : Bool :=
  match (s.slot r n).ops with
  | [] => false
  | (id, op) :: _ =>
    if op = 0x32 then n == bits (s.wordOf id) 217 204 && s.opFirst r (bits (s.wordOf id) 203 190) id
    else op != 0x11

/-- Slots a decode or verify step may take under window `k`: READY ones (R167 step 2, R229). One whose first entry takes effect when
its last scatter ends is left to that entry, as slot 41 is in Table 9-7 (R152, R176). -/
def State.candidates (s : State) (r k : Nat) : List Nat :=
  let x := s.region r
  (x.slots.filter (fun q => q.2.state == 2 && x.slotWindow q.2 == some k && !s.leaving r q.1 && x.draftGate q.2)).map (·.1)

/-- The window of the next decode or verify step: ascending GEN after the one served last, those without READY slots
skipped; else the CURRENT one (R249). -/
def Region.chooseWindow (x : Region) (current : Nat) : Nat :=
  let live := (List.range x.windows.length).filter (fun k =>
    let w := lget ({} : Window) x.windows k
    (w.state == 3 || w.state == 4) && x.slots.any (fun q => q.2.state == 2 && x.slotWindow q.2 == some k))
  let key (k : Nat) : Nat := let g := (lget ({} : Window) x.windows k).gen; if x.lastPinned < g then g else g + 2 ^ 16
  (sortBy (fun a b => decide (key a ≤ key b)) live).headD current

/-! ### Verify records and lost masks -/

/-- A verify record takes effect on a draft slot that has left its step: trim, next input, depth (R229). A slot shorter
than the trim keeps its length and input (log 31). -/
def State.applyVerify (s : State) (r n : Nat) : State :=
  let x := s.slot r n
  match x.verify with
  | some (len, tok, d) =>
    if !s.slotSettled r n then s
    else if x.length < len - 1 then s.modSlot r n (fun y => { y with verify := none, specDepth := some d, specMade := 0 })
    else
      let s := s.trimSlot r n (len - 1)
      let s := (s.modSlot r n (fun y => { y with log := y.log.take (len - 1), verify := none, specDepth := some d, specMade := 0, nextInput := tok })).appendLog r n [(tok, 1)]
      s.modSlot r n (fun y => { y with auto := s.advanceAuto y.mask (s.maskStart y.mask) ((y.log.filter (fun e => e.2 == 1)).map (·.1)) })
  | none => s

/-- Sink of the list that holds an entry. -/
def State.sinkOf (s : State) (id : EntryId) : Nat × Nat :=
  match (s.queue id.guest id.engine).list id.seq with
  | some l => (l.sinkFa, l.sinkAddr)
  | none => (0xFFFF, 0)

/-- A slot ends without a further token: END 0b100, and ENDED (R182, R207, Table 12-2). The record of one that no entry has stepped
since its RESUME or FORK goes to the sink of entry `id`, at whose step it ends (DEDUCED, log 63). -/
def State.loseSlot (s : State) (r n : Nat) (freePages : Bool) (id : EntryId) : State :=
  let x := s.slot r n
  let s := s.sendEndTo r n 4 (s.sinkOf id)
  let s := if freePages then x.descs.foldl (fun a d => a.decRef d) s else s
  (((s.modSlot r n (fun y => { y with state := 5, redo := none, pages := if freePages then [] else y.pages })).trimLists r n)).settleSlot r n

/-- Has a slot's mask source FAILED (Table 12-2)? -/
def State.maskless (s : State) (r n : Nat) : Bool :=
  let m := (s.slot r n).mask
  decide (m < 0x300) && (s.source m).state == 3

/-- Is a read of a slot's token log, or of a mask source, held for its retry (R260)? -/
def State.logHeld (s : State) (r n : Nat) : Bool := s.readHeld (fun u => match u with | .log a b _ => a == r && b == n | _ => false)
def State.maskHeld (s : State) (m : Nat) : Bool := s.readHeld (fun u => match u with | .mask k _ => k == m | _ => false)

/-- WAITING slots with no page absent and nothing of a recompute left, a TRIM having shortened them, are READY (R182, R198). -/
def State.settleRedo (s : State) (r : Nat) : State :=
  let done (q : Nat × SeqSlot) : Bool := q.2.state == 4 && (s.absentAt r q.1).isNone && decide (q.2.length ≤ q.2.redo.getD q.2.length)
  (((s.region r).slots.filter done).map (·.1)).foldl (fun a n => a.modSlot r n (fun y => { y with state := 2, redo := none })) s

/-! ### Building the step -/

/-- Lane of the next live position: round robin over the 48 lanes of the units that are not dark (R212, R324). -/
def State.nextLane (s : State) : Nat :=
  (((List.range 48).map (fun i => (s.campion.laneNext + i) % 48)).find? (fun l => (s.pane (paneCampion (l / 4))).pwr.cap != 2)).getD
    s.campion.laneNext

/-- Lanes of the live positions, in wave order. -/
def State.assignLanes (s : State) : List (Nat × StepPos) → State × SMap Nat
  | [] => (s, [])
  | (q, p) :: rest =>
    if p.slot.isNone then s.assignLanes rest
    else
      let l := s.nextLane
      let (t, m) := (s.modCampion (fun c => { c with laneNext := (l + 1) % 48 })).assignLanes rest
      (t, (q, l) :: m)

/-- A wave table entry (Table 8-2). -/
def StepPos.word (p : StepPos) : Nat :=
  match p.slot with
  | none => 2 ^ 63
  | some n => n % 2 ^ 14 * 2 ^ 49 + p.pos % 2 ^ 24 * 2 ^ 25 + p.token % 2 ^ 18 * 2 ^ 7

/-- Mask row of each position (R217, R219). -/
def State.rowsFor (s : State) (r : Nat) (prompt : Bool) (ps : List StepPos) : List MaskRow :=
  let drafts (n : Nat) : List Nat := ((ps.filter (fun p => p.slot == some n)).map (·.token)).drop 1
  ps.map (fun p =>
    match p.slot with
    | none => .every
    | some n =>
      let x := s.slot r n
      if prompt then s.rowOf x.mask x.auto else lget .every (s.maskRows (s.region r) x.mask x.auto (drafts n)) p.draftIdx)

/-- A step is admitted: it takes the next number, its slots become STEPPING, its lanes and sampling entries are taken,
and the wave table and the mask item go to the cells and items the command names, since no rule names them (R166-R168,
R212, R219, R221; log 32). -/
def State.admitStep (s : State) (r : Nat) (f : Flight) (waveAt maskAt : List (Nat × Nat)) : State :=
  let x := s.region r
  let n := x.stepNext
  let slots := (f.positions.filterMap (·.slot)).eraseDups
  let list := f.entry.bind (fun id => (s.queue id.guest id.engine).list id.seq)
  let enter (y : SeqSlot) : SeqSlot :=
    match f.recompute, list with
    | none, some l => { y with state := 3, lastStep := n, sink := f.entry, sinkFa := l.sinkFa, sinkAddr := l.sinkAddr }
    | none, none => { y with state := 3, lastStep := n }
    | some _, _ => { y with lastStep := n }
  let s := slots.foldl (fun a k => a.modSlot r k enter) s
  let indexed := (List.range f.positions.length).zip f.positions
  let (s, lanes) := s.assignLanes indexed
  let params := indexed.filterMap (fun q => q.2.slot.map (fun k =>
    let y := s.slot r k; (q.1, (s.samplingOf y.guest y.sample).getD 0)))
  let bad := slots.filter (fun k => let y := s.slot r k; (s.samplingOf y.guest y.sample).isNone)
  let laneOf (k : Nat) : Nat := mget 0 lanes ((indexed.find? (fun q => q.2.slot == some k)).map (·.1) |>.getD 0)
  let s := bad.foldl (fun a k => a.countCampion (laneOf k / 4) 5 1) s
  let rows := s.rowsFor r (f.prefill || f.recompute.isSome) f.positions
  let s := rows.foldl (fun a w => a.useRow w) s
  let wave := f.positions.flatMap (fun p => natLE 8 p.word)
  let masks := rows.flatMap (fun w => (List.range x.shards).flatMap (fun k => s.maskSlice x w k))
  let put (b : List Byte) (at_ : List (Nat × Nat)) : List Delivery := at_.map (fun q => { cell := q.1, item := q.2, tag := n, data := b })
  let run := x.runOf f.entry
  let lastOf := match run with | some e => e.left == 1 | none => false
  let quiet := match run with | some e => e.quiet | none => 0
  s.modRegion r (fun y => { y with
    stepNext := n + 1
    flight := some { f with number := n, lanes := lanes, params := params }
    deliveries := y.deliveries ++ put wave waveAt ++ put masks maskAt
    power := if lastOf then { y.power with quiet := quiet } else y.power })

/-- Positions of one slot: its input and drafts, and null ones up to `group` (R169, R227). -/
def slotPositions (n pos group : Nat) (tokens : List Nat) : List StepPos :=
  let live := tokens.mapIdx (fun i t => ({ slot := some n, pos := pos + i, token := t, draftIdx := i } : StepPos))
  live ++ List.replicate (group - live.length) { slot := none, pos := 0, token := 0 }

/-- Null positions up to the template's width. -/
def padTo (w : Nat) (ps : List StepPos) : List StepPos := ps ++ List.replicate (w - ps.length) { slot := none, pos := 0, token := 0 }

/-- A new step, before its number is taken. -/
def newFlight (x : Region) (t : StepTpl) (window : Nat) (entry : Option EntryId) (ps : List StepPos)
    (k : Taking) : Flight :=
  { number := 0, tpl := t, gen := (lget ({} : Window) x.windows window).gen, window := window, entry := entry, positions := padTo t.width ps,
    resv := k.resv, promos := k.promos }

/-! ### Recompute (R182, R202) -/

/-- Free the pages of a slot from index `j` on, in every layer (R202). -/
def State.freeFrom (s : State) (r n j : Nat) : State :=
  let s' := ((s.slot r n).pages.flatMap (fun q => q.2.drop j)).foldl (fun a d => a.decRef d) s
  (s'.modSlot r n (fun y => { y with pages := y.pages.map (fun q => (q.1, q.2.take j)) })).trimLists r n

/-- One recompute step of a WAITING slot: chunk by chunk from its token log, from the lowest page that is absent, also one lost since
the recompute began (R202). Where its reservation fails, or its frame lists do not fit, the entry at the head ends with NO_PAGES
(R194; DEDUCED, log 33). -/
def State.recompute (s : State) (r n window : Nat) (e : RunEntry) (waveAt maskAt : List (Nat × Nat)) : State :=
  match (s.region r).redoTpl with
  | none => s.loseSlot r n true e.id
  | some t =>
    if (s.slot r n).logLost then s.loseSlot r n true e.id
    else if s.maskless r n then s.loseSlot r n false e.id
    else if s.logHeld r n || s.maskHeld (s.slot r n).mask then s
    else
      let y := s.slot r n
      let low := match s.absentAt r n with | some j => 256 * j | none => y.length
      let start := min low (y.redo.getD low)
      let s := if y.redo = some start then s else (s.freeFrom r n (start / 256)).modSlot r n (fun y => { y with redo := some start })
      let x := s.slot r n
      let k := min (min 256 t.width) (x.length - start)
      if !s.listsFit r t.width (List.replicate k n) then s.endRun r e stNoPages e.lastStep
      else
        let a := s.reserveSlot r n start k [n]
        if !a.ok then a.s.endRun r e stNoPages e.lastStep
        else
          let ps := slotPositions n start k (((x.log.drop start).take k).map (·.1))
          a.s.admitStep r { newFlight (a.s.region r) t window none ps a with
                      recompute := some n, lastChunk := decide (x.length ≤ start + k) } waveAt maskAt

/-- The window a slot is recomputed under (R249). -/
def Region.redoWindow (x : Region) (n current : Nat) : Nat := (x.slotWindow (x.slot n)).getD current

/-! ### Prefill (R170, R171) -/

/-- One chunk of a PREFILL; `prompt` are the octets read from SRC_FA, four for each token (log 28). -/
def State.admitChunk (s : State) (r current : Nat) (e : RunEntry) (t : StepTpl) (waveAt maskAt : List (Nat × Nat)) (prompt : List Byte) : State :=
  let x := s.slot r e.slot
  let k := min 256 (e.tokens - e.done)
  if x.state = 4 ∧ e.held then s.recompute r e.slot ((s.region r).redoWindow e.slot current) e waveAt maskAt
  else if x.state ≠ 1 ∧ x.state ≠ 2 then s.endRun r e stSlotNotOpen e.lastStep
  else if x.length ≠ e.pos + e.done then s.endRun r e stBadEntry e.lastStep
  else if s.maskless r e.slot then (s.loseSlot r e.slot false e.id).endRun r e stSlotNotOpen e.lastStep
  else if (s.absentAt r e.slot).isSome then
    (s.modSlot r e.slot (fun y => { y with state := 4 })).modRegion r (fun y =>
      { y with runs := y.runs.map (fun q => if q.id = e.id then { q with held := true } else q) })
  else
    match (s.region r).slotWindow x with
    | none => s.endRun r e stGenUnknown e.lastStep
    | some w =>
      if prompt.length ≠ 4 * k || s.maskHeld x.mask then s
      else
        if !s.listsFit r t.width (List.replicate k e.slot) then s.endRun r e stNoPages e.lastStep
        else
          let a := s.reserveSlot r e.slot x.length k [e.slot]
          if !a.ok then a.s.endRun r e stNoPages e.lastStep
          else
            let ps := slotPositions e.slot x.length k ((records 4 prompt).map (fun v => bits v 17 0))
            a.s.admitStep r { newFlight (a.s.region r) t w (some e.id) ps a with
                         prefill := true, lastChunk := e.final && decide (e.tokens ≤ e.done + k) } waveAt maskAt

/-! ### Decode and verify (R167, R194, R226) -/

/-- Draft depth of a slot in a step (R226). -/
def draftDepth (t : StepTpl) (x : SeqSlot) : Nat :=
  if t.kind = 3 then min (min x.depth x.drafts.length) (min t.draft x.draft) else 0

/-- Take slots one after another, while the frame lists fit and each one's reservation succeeds (R194). Answers the positions, what was
reserved, and the slots taken; what was demoted or dropped for the slot that could not be taken stands. -/
def State.takeSlots (r : Nat) (t : StepTpl) (group : Nat) :
    List Nat → List StepPos → List Nat → Taking → Taking × List StepPos × List Nat
  | [], ps, taken, a => (a, ps, taken)
  | n :: rest, ps, taken, a =>
    let x := a.s.slot r n
    let d := draftDepth t x
    if !a.s.listsFit r t.width (ps.filterMap (·.slot) ++ List.replicate (d + 1) n) then (a, ps, taken)
    else
      let b := a.s.reserveSlot r n x.length (d + 1) (n :: taken)
      if !b.ok then ({ a with s := b.s }, ps, taken)
      else State.takeSlots r t group rest (ps ++ slotPositions n x.length group (x.nextInput :: x.drafts.take d)) (taken ++ [n])
        { s := b.s, resv := a.resv ++ b.resv, promos := a.promos ++ b.promos }

/-- Slots in the order of a template's cursor: after the one admitted last, wrapping (R167 step 2). -/
def Region.cursorOrder (x : Region) (t : StepTpl) (gen : Nat) (l : List Nat) : List Nat :=
  match (x.cursor.find? (fun q => q.1 == 65536 * t.tpl + gen)).map (·.2) with
  | some c => l.filter (fun n => decide (c < n)) ++ l.filter (fun n => decide (n ≤ c))
  | none => l

/-- Slots in order that a test turns away, up to where `cap` others are taken (R182). -/
def turnedAway (bad : Nat → Bool) : Nat → List Nat → List Nat
  | _, [] => []
  | 0, _ => []
  | cap + 1, n :: rest => if bad n then n :: turnedAway bad (cap + 1) rest else turnedAway bad cap rest

/-- A decode or speculative verify step. Slots whose mask source FAILED end at this admission, and those with absent pages become
WAITING (R182, Table 12-2). -/
def State.admitSlots (s : State) (r current : Nat) (e : RunEntry) (t : StepTpl) (waveAt maskAt : List (Nat × Nat)) : State :=
  let w := (s.region r).chooseWindow current
  let gen := (lget ({} : Window) (s.region r).windows w).gen
  let group := if t.kind = 3 then t.draft + 1 else 1
  let order := (s.region r).cursorOrder t gen (s.candidates r w)
  let lost := turnedAway (s.maskless r) (t.width / group) order
  let s := lost.foldl (fun a n => a.loseSlot r n false e.id) s
  let order := order.filter (fun n => !lost.contains n)
  let absent := turnedAway (fun n => (s.absentAt r n).isSome) (t.width / group) order
  let s := absent.foldl (fun a n => a.modSlot r n (fun y => { y with state := 4 })) s
  match ((s.region r).slots.find? (fun q => q.2.state == 4)).map (·.1) with
  | some n => s.recompute r n ((s.region r).redoWindow n current) e waveAt maskAt
  | none =>
    let order := (order.filter (fun n => !absent.contains n)).take (t.width / group)
    if order.any (fun n => s.maskHeld (s.slot r n).mask) then s
    else
    let (a, ps, taken) := State.takeSlots r t group order [] [] { s := s }
    if taken.isEmpty && !order.isEmpty then a.s.endRun r e stNoPages e.lastStep
    else
      let s := a.s.modRegion r (fun y => { y with
        lastPinned := gen
        cursor := match taken.getLast? with | some n => mset y.cursor (65536 * t.tpl + gen) n | none => y.cursor })
      s.admitStep r (newFlight (s.region r) t w (some e.id) ps a) waveAt maskAt

/-! ### The command -/

/-- The checks and choices of an admission, for the entry at the head of a region's runs (R167, R170, R232, R248). -/
def State.admitNext (s : State) (r : Nat) (e : RunEntry) (waveAt maskAt : List (Nat × Nat)) (prompt : List Byte) : State :=
  match (s.region r).tplOf e.tpl with
  | none => s.endRun r e stTemplateKind e.lastStep
  | some t =>
    let kindOk := if e.prefill then t.kind == 2 && t.width == 256 else t.kind == 1 || t.kind == 3
    if !kindOk then s.endRun r e stTemplateKind e.lastStep
    else if (s.region r).shards = 0 then s.endRun r e stBadEntry e.lastStep
    else
      let s := s.applySwings r ((s.region r).swings.length)
      match (s.region r).current with
      | none => s.endRun r e stGenUnknown e.lastStep
      | some (k, _) =>
        let s := (((s.region r).slots.map (·.1)).foldl (fun a n => a.applyVerify r n) s).settleRedo r
        if e.prefill then s.admitChunk r k e t waveAt maskAt prompt else s.admitSlots r k e t waveAt maskAt

/-- STEP_ADMISSION: the next step of a region's oldest started entry is admitted. Places of the wave table and of the
mask item, and the octets of a prompt chunk, come with the command. -/
def execStepAdmission (r : Nat) (waveAt maskAt : List (Nat × Nat)) (prompt : List Byte) (s : State) : Out :=
  if 64 ≤ r then .next s
  else
    match (s.region r).runs with
    | [] => .next s
    | e :: _ =>
      if s.mayAdmit r ∧ (!e.prefill ∨ s.opFirst r e.slot e.id) then .next (s.admitNext r e waveAt maskAt prompt) else .next s

end Sys2Proof.Machine
end

