-- ==== Sys2Proof/Machine/CellWindow.lean ====
section
/-! DEFINITION. The window of a cell: its registers read and written (02 R61-R63, Tables 2-11 to 2-19, 20 R415-R420). -/

namespace Sys2Proof.Machine

/-- RUNSTATE (Table 2-13): 0 idle, 1 loaded, 2 running, 3 held. Held is a STOPPED region's (log 35). -/
def State.runState (s : State) (c : Nat) : Nat :=
  match s.regionOfCell c with
  | none => 0
  | some r => lget 0 [0, 0, 1, 2, 3, 0] (s.region r).state

/-- CELL_STATUS (Table 2-13). -/
def State.cellStatus (s : State) (c : Nat) : Nat :=
  let x := s.cell c
  let p := s.pane (paneOfCell c)
  let bound := match p.region with
    | some r => let st := (s.region r).state; if st = 2 ∨ st = 3 ∨ st = 4 then 2 ^ 54 + r * 2 ^ 48 + (s.region r).guest * 2 ^ 42 else 0
    | none => 0
  bound + s.runState c * 2 ^ 40 + (if p.region.isNone then 4 else p.power) * 2 ^ 37 + bit (s.rowShifting c) * 2 ^ 36 +
    x.stg0.state * 2 ^ 34 + x.stg1.state * 2 ^ 32 + x.pc % 1024

/-- FAULT_LATCH (Table 2-15). -/
def FaultLatch.word (f : FaultLatch) : Nat :=
  bit f.valid * 2 ^ 63 + f.iaddr % 1024 * 2 ^ 48 + f.code % 65536 * 2 ^ 32 + f.beat % 2 ^ 25 * 2 ^ 7 + f.cycle % 128

/-- STAGING0 and STAGING1 (Table 2-19). -/
def Staging.word (g : Staging) : Nat := g.state * 2 ^ 62 + g.step % 65536 * 2 ^ 32 + g.size % 512 * 2 ^ 16 + g.base % 8192

/-- CYCLE: the pane's running cycles, from BASE for a guest (R416). -/
def Pane.cycleWord (p : Pane) (guest : Bool) : Nat :=
  let n := if guest then p.runCycles - p.base else p.runCycles
  let wraps := n / 2 ^ 48 - (if guest then p.guestCleared else p.wrapsCleared)
  bit (wraps != 0) * 2 ^ 63 + n % 2 ^ 48

/-- A register of a cell window; none for a Reserved offset (Table 2-11, Table 20-1). -/
def State.cellRead (s : State) (c off : Nat) (guest : Bool) : Option Nat :=
  let x := s.cell c
  let idx (base : Nat) : Nat := (off - base) / 8
  if off % 8 ≠ 0 then none
  else if off = 0x000 then
    some (cellX c * 2 ^ 30 + cellY c * 2 ^ 21 + s.stepping * 2 ^ 4 + paneOfCell c * 2 ^ 11 +
      s.wafer.physCol (paneOfCell c) (prowOf c) (pcolOf c) * 2 ^ 6)
  else if off = 0x008 then some (s.cellStatus c)
  else if off = 0x010 then some 0
  else if off = 0x020 then some x.latchReg.word
  else if off = 0x100 then some ((s.pane (paneOfCell c)).cycleWord guest)
  else if off = 0x108 then some x.stale.word
  else if off = 0x110 then some (bit x.freeze * 2 ^ 63)
  else if 0x140 ≤ off ∧ off < 0x180 then some (mget {} x.pmc (idx 0x140)).word
  else if 0x180 ≤ off ∧ off < 0x1C0 then some (x.pmcSelOf (idx 0x180))
  else if 0x1C0 ≤ off ∧ off < 0x200 then some (mget 0 x.pmcRange (idx 0x1C0))
  else if off = 0x200 then some x.bankSel
  else if 0x208 ≤ off ∧ off ≤ 0x260 then some (mget {} x.bankCnt (idx 0x208)).word
  else if off = 0x300 then some x.memAddr
  else if off = 0x400 then some x.stg0.word
  else if off = 0x408 then some x.stg1.word
  else none

/-- A counter whose WRAP is cleared by a 1 (Table 0-4). -/
def Counter.clearWrap (k : Counter) (val : Nat) : Counter := { k with wrap := k.wrap && !bitAt val 63 }

/-- A write of a register of a cell's own window; MEM_DATA, and the two clears of CELL_CONTROL, have commands of their
own but a held write serves here too (R31). `guest` forces PRIV (R418). -/
def Cell.writeReg (x : Cell) (off val : Nat) (guest : Bool) : Cell :=
  let idx (base : Nat) : Nat := (off - base) / 8
  if off = 0x010 then
    let x := if bitAt val 1 then { x with bankCnt := [] } else x
    if bitAt val 0 then { x with latchReg := {} } else x
  else if off = 0x020 then (if bitAt val 63 then { x with latchReg := { x.latchReg with valid := false } } else x)
  else if off = 0x108 then { x with stale := x.stale.clearWrap val }
  else if off = 0x110 then
    let x := { x with freeze := bitAt val 63 }
    if bitAt val 62 then { x with pmc := [], stale := {} } else x
  else if 0x140 ≤ off ∧ off < 0x180 then
    { x with pmc := mset x.pmc (idx 0x140) { (mget {} x.pmc (idx 0x140)).clearWrap val with count := bits val 47 0 } }
  else if 0x180 ≤ off ∧ off < 0x1C0 then
    let v := bits val 63 39 * 2 ^ 39
    let v := if guest then v - bits v 41 40 * 2 ^ 40 + 2 * 2 ^ 40 else v
    { x with pmcSel := mset x.pmcSel (idx 0x180) v }
  else if 0x1C0 ≤ off ∧ off < 0x200 then
    { x with pmcRange := mset x.pmcRange (idx 0x1C0) (bits val 63 60 * 2 ^ 60 + bits val 39 0) }
  else if off = 0x200 then { x with bankSel := bits val 14 3 * 8 }
  else if 0x208 ≤ off ∧ off ≤ 0x260 then
    { x with bankCnt := mset x.bankCnt (idx 0x208) ((mget {} x.bankCnt (idx 0x208)).clearWrap val) }
  else if off = 0x300 then { x with memAddr := bits val 63 60 * 2 ^ 60 + bits val 20 0 }
  else x

/-- A write of a register of a cell window. -/
def State.cellWrite (s : State) (c off val : Nat) (guest : Bool) : State :=
  if off = 0x100 then
    (if !bitAt val 63 then s
     else s.modPane (paneOfCell c) (fun p =>
       if guest then { p with guestCleared := (p.runCycles - p.base) / 2 ^ 48 } else { p with wrapsCleared := p.runCycles / 2 ^ 48 }))
  else s.modCell c (fun x => x.writeReg off val guest)

/-- May a requester reach a cell's window: the owner, or the guest of its region (R63)? -/
def State.windowAllowed (s : State) (c : Nat) (req : Requester) : Bool :=
  req == 0 || (match s.regionOfCell c with | some r => (s.region r).guest == req | none => false)

end Sys2Proof.Machine
end

