-- ==== Sys2Proof/Machine/EngineOps.lean ====
section
/-! DEFINITION. Intakes, the common commands, records that a sink does not take, and the clears and MEM_DATA accesses of a
cell's window (07 R147-R157, R162, 02 R61, R63). -/

namespace Sys2Proof.Machine

/-! ### Intakes (R148, R149) -/

def State.countRefused (s : State) (g e : Nat) : State :=
  let q := s.queue g e
  s.setQueue g e { q with refused := satTo 0xFFFF (q.refused + 1) }

/-- Is a source bound to a queue's guest (R148)? -/
def State.sourceBound (s : State) (g src : Nat) : Bool := if g = 0 then s.requester src == some 0 else s.guestBound g src

/-- The list of a message that the intake has not discarded: refused with a record, or queued (R149). -/
def State.intake (s : State) (g e : Nat) (m : Msg) : State :=
  let h := leNat (m.payload.take 32)
  let q := s.queue g e
  let count := bits h 239 229
  let bad := bits h 255 240 != 0x434C || bits h 228 227 != e || m.payload.length != 32 + 32 * count || bits h 130 0 != 0 ||
    count == 0 || decide (1024 < count)
  let refuse (status : Nat) : State :=
    (s.countRefused g e).sendListRecord { seq := 0, tag := bits h 162 131, sinkFa := bits h 226 211, sinkAddr := bits h 210 163, entries := [] } e g status 0
  if bad then refuse stBadList
  else if q.lists.length ≥ 256 then refuse stQueueFull
  else
    let entries := (records 32 (m.payload.drop 32)).map (fun w => ({ word := w } : Entry))
    s.setQueue g e { q with
      lists := q.lists ++ [{ seq := q.nextSeq, tag := bits h 162 131, sinkFa := bits h 226 211, sinkAddr := bits h 210 163, entries := entries }]
      nextSeq := (q.nextSeq + 1) % 2 ^ 48 }

/-- COMMAND_LIST_INTAKE: a write message to an intake window (R147-R149); before READY it is discarded (R404). -/
def execCommandListIntake (m : Msg) (s : State) : Out :=
  let a := m.addr
  if m.kind ≠ 0 ∨ bits a 47 32 ≠ 1 ∨ bits a 31 30 ≠ 0 ∨ !s.boot.ready then .next s
  else
    let g := bits a 29 24
    let e := bits a 23 22
    let bound := s.sourceBound g m.src
    let known := (s.guest g).gstate != 0
    let stranger := if known then !bound else (s.requester m.src).isNone
    if bits a 21 0 ≠ 0 ∨ m.vc ≠ 1 ∨ (s.guest g).gstate ≠ 1 ∨ !bound then
      let s := if known then s.countRefused g e else s
      .next (if stranger then s.security 5 m.src else s)
    else .next (s.intake g e m)

/-! ### Common commands -/

/-- NOP: no effect; an entry whose OP its engine does not list completes with BAD_ENTRY (R151). -/
def execNop (g e : Nat) (s : State) : Out :=
  let op := bits (match (s.queue g e).mayStart with | some (_, _, x) => x.word | none => 2 * 2 ^ 248) 255 248
  if 64 ≤ g ∨ 4 ≤ e then .next s
  else if op ≠ 0 ∧ opListed e op then .next s
  else withEntry g e [op] s (fun s id w => s.complete id (if op = 0 ∧ operandsOk 0 w then stOK else stBadEntry) 0)

/-- WAIT: it completes at once when the list it awaits has retired, and otherwise waits (R155). -/
def execWait (g e : Nat) (s : State) : Out :=
  withEntry g e [1] s (fun s id w =>
    if !operandsOk 1 w then s.complete id stBadEntry 0
    else if s.waitMet id.guest w then s.complete id stOK 0
    else s)

/-- WAIT_TIMEOUT: TIMEOUT passes before the list retires (R155). -/
def execWaitTimeout (g e seq idx : Nat) (s : State) : Out :=
  if 64 ≤ g ∨ 4 ≤ e then .next s
  else
    let id : EntryId := ⟨g, e, seq, idx⟩
    match s.entry id with
    | some x =>
      if x.op = 1 ∧ x.prog = 1 ∧ x.startAt + ms (bits x.word 173 158) ≤ s.time then .next (s.complete id stWaitTimeout 0) else .next s
    | none => .next s

/-- AUTH: it starts, and completes with the critical entry after it; an AUTH that precedes no critical entry completes with
BAD_ENTRY (R156, R157). -/
def execAuth (g e : Nat) (s : State) : Out :=
  withEntry g e [2] s (fun s id w =>
    let after := s.entry { id with idx := id.idx + 1 }
    match after with
    | some x => if opCritical x.op ∧ opListed e x.op ∧ operandsOk 2 w then s else s.complete id stBadEntry 0
    | none => s.complete id stBadEntry 0)

/-- COMPLETION_RECORD_TIMEOUT: the `k`-th waiting message, a completion or token record, is not accepted within 2 ms: it is
dropped and counted (R162, R174). -/
def execCompletionRecordTimeout (k : Nat) (s : State) : Out :=
  match s.outbox[k]? with
  | none => .next s
  | some o =>
    match o.queue with
    | none => .next s
    | some (g, e) =>
      if o.time + ms 2 ≤ s.time then
        let q := s.queue g e
        .next ({ s with outbox := s.outbox.eraseIdx k }.setQueue g e { q with dropped := satTo 0xFFFF (q.dropped + 1) })
      else .next s

/-! ### Cell windows -/

/-- The refusal of an access by its source: unbound, or not permitted (R63, R404, R425). -/
def State.refuseSource (s : State) (src addr rtag : Nat) (rd : Bool) : State :=
  if s.boot.off then s else
  let code := if s.boot.ready ∧ (s.requester src).isNone then 5 else 2
  let s := if code = 5 then s.security 5 src else s
  s.rejectAccess src addr rtag rd code

/-- A management write to a register of a part the module does not have: no register stands at its address (R275; log 44). -/
def State.absentWrite (s : State) (src addr val : Nat) : State :=
  let s := s.traced addr true val
  match s.accessor src with
  | none => s.refuseSource src addr 0 false
  | some _ => s.rejectAccess src addr 0 false 1

/-- Is MEM_DATA served for a requester: not in approved mode, the owner or the region's guest, and a cell that is idle or
loaded (R63)? -/
def State.memDataAllowed (s : State) (c : Nat) (req : Requester) : Bool :=
  !s.keeper.approved && s.windowAllowed c req && decide (s.runState c ≤ 1)

/-- Code of an address MEM_DATA cannot use, 0 for none (R63). -/
def memDataCode (a : Nat) : Nat :=
  let mem := bits a 63 60
  let off := bits a 19 0
  if mem = 0 ∨ 5 < mem ∨ memSize mem ≤ off then 6 else if off % 8 ≠ 0 then 3 else 0

/-- A MEM_DATA access that may be served now: the code of its address, or the rotor table at once and any other memory as a
background access (R63). -/
def State.memData (s : State) (src c rtag : Nat) (req : Requester) (data : Option (List Byte)) : State :=
  let a := (s.cell c).memAddr
  let code := memDataCode a
  if code ≠ 0 then s.windowError c 0x308 src rtag data.isNone code
  else
    let mem := bits a 63 60
    let off := bits a 19 0
    let s := s.touch c
    let next := if bitAt a 20 then a - off + (off + 8) % 2 ^ 20 else a
    let s := s.modCell c (fun x => { x with memAddr := next })
    if mem = 5 then
      match data with
      | some d => s.modCell c (fun x => { x with rotor := x.rotor.write off d })
      | none => s.sendMsg { kind := 2, vc := 1, dest := src, src := s.fabricAddr, addr := rtag, payload := (s.cell c).rotor.read off 8 }
    else s.queueBg c { mem := mem, offset := off, data := data, purpose := .window src req rtag }

/-- Is an offset a register of a cell window, MEM_DATA included (Table 2-11)? -/
def State.windowReg (s : State) (c off : Nat) : Bool := off == 0x308 || (s.cellRead c off false).isSome

/-- A management access to a cell window, a write of `val` or a read with its tag: refused, held by a row-shift, or served
(R18, R31, R63). -/
def State.windowAccess (s : State) (src c off rtag : Nat) (val : Option Nat) : State :=
  let rd := val.isNone
  match s.accessor src with
  | none => s.refuseSource src (windowAddr c off) rtag rd
  | some req =>
    if !cellExists c ∨ !s.windowReg c off then s.windowError c off src rtag rd 1
    else if !s.windowAllowed c req then s.windowError c off src rtag rd 2
    else if s.rowShifting c then { s with windowHeld := s.windowHeld ++ [{ cell := c, off := off, val := val, src := src, rtag := rtag }] }
    else if off = 0x308 then
      if s.memDataAllowed c req then s.memData src c rtag req (val.map (natLE 8)) else s.windowError c off src rtag rd 2
    else
      match val with
      | some v => (s.touch c).cellWrite c off v (req != 0)
      | none => s.sendMsg { kind := 2, vc := 1, dest := src, src := s.fabricAddr, addr := rtag,
                            payload := natLE 8 ((s.cellRead c off (req != 0)).getD 0) }

/-- A write to a cell's window as it arrives. -/
def State.windowWrite (s : State) (src c off val : Nat) : State :=
  (s.traced (windowAddr c off) true val).windowAccess src c off 0 (some val)

/-- MEM_DATA_READ: a read of the 64 bits at MEM_ADDR (R63). -/
def execMemDataRead (src c rtag : Nat) (s : State) : Out :=
  .next ((s.traced (windowAddr c 0x308) false 0).windowAccess src c 0x308 rtag none)

/-- MEM_DATA_WRITE: a write of the 64 bits at MEM_ADDR (R63). -/
def execMemDataWrite (src c : Nat) (w : BitVec 64) (s : State) : Out := .next (s.windowWrite src c 0x308 w.toNat)

/-- CLEAR_BANK_COUNTERS: CELL_CONTROL bit 1 zeroes all bank counters and their WRAP bits (R61). -/
def execClearBankCounters (src c : Nat) (s : State) : Out := .next (s.windowWrite src c 0x010 2)

/-- CLEAR_FAULT_LATCH: CELL_CONTROL bit 0 clears FAULT_LATCH (Table 2-14). -/
def execClearFaultLatch (src c : Nat) (s : State) : Out := .next (s.windowWrite src c 0x010 1)

end Sys2Proof.Machine
end

