-- ==== Sys2Proof/Machine/Bandwidth.lean ====
section
/-! DEFINITION. Bandwidth blocks of the Casement ports and the HBM controllers (20 R421, Table 20-7). -/

namespace Sys2Proof.Machine

/-- A write that only the owner may make; any other gets an error completion (R289, R425, R464). -/
def State.ownerWrites (s : State) (src addr val : Nat) (f : State → State) : State :=
  let s := s.traced addr true val
  if s.accessor src = some 0 then f s else s.refuseSource src addr 0 false

/-- A MEMORY report of a controller (R267, Table 21-9). -/
def State.hbmFault (s : State) (n code detHi : Nat) : State :=
  s.report (unitHbm n) { cls := 2, code := code, pane := paneHbm n, detHi := detHi }

/-! ### Bandwidth (R421) -/

/-- Count `n` octets under a key (8 × direction + channel; a quick read or answer has channel 4), which `pass` the filter. -/
def BwBlock.add (b : BwBlock) (key n : Nat) (pass : Bool) : BwBlock :=
  { b with
    cur := mset b.cur key (mget 0 b.cur key + n)
    total := mset b.total (key / 8) ((mget {} b.total (key / 8)).add n)
    filtCur := if pass then b.filtCur + n else b.filtCur
    filtTotal := if pass then b.filtTotal.add n else b.filtTotal }

/-- Octets of the present window in one direction. -/
def BwBlock.sum (b : BwBlock) (dir : Nat) : Nat := (b.cur.filter (fun q => q.1 / 8 == dir)).foldl (fun a q => a + q.2) 0

/-- WINDOW in µs. -/
def BwBlock.window (b : BwBlock) : Nat := bits b.ctl 63 44

/-- The end of a window: LAST, PEAK and WINDOWS update together. -/
def BwBlock.roll (b : BwBlock) (now : Nat) : BwBlock :=
  { b with
    startAt := now
    cur := []
    last := b.cur
    peak := [0, 1].foldl (fun m d => mset m d (max (mget 0 m d) (b.sum d))) b.peak
    filtCur := 0
    filtLast := b.filtCur
    windows := (b.windows + 1) % 2 ^ 48 }

/-- A write of BW_CTL: the window restarts and every count is zero. -/
def BwBlock.rewrite (b : BwBlock) (now val : Nat) : BwBlock := { ctl := bits val 63 44 * 2 ^ 44 + bits val 42 37 * 2 ^ 37, range := b.range, startAt := now }

def State.port (s : State) (p : Nat) : Port := mget {} s.ports p
def State.setPort (s : State) (p : Nat) (x : Port) : State := { s with ports := mset s.ports p x }
def State.modPort (s : State) (p : Nat) (f : Port → Port) : State := s.setPort p (f (s.port p))
def State.modHctl (s : State) (n : Nat) (f : HbmCtl → HbmCtl) : State := { s with hbmCtl := mset s.hbmCtl n (f (s.hctl n)) }

/-- The block of port or controller `n`. -/
def State.bwBlock (s : State) (port : Bool) (n : Nat) : BwBlock := if port then (s.port n).bw else (s.hctl n).bw

def State.modBw (s : State) (port : Bool) (n : Nat) (f : BwBlock → BwBlock) : State :=
  if port then s.modPort n (fun x => { x with bw := f x.bw }) else s.modHctl n (fun x => { x with bw := f x.bw })

/-- Address of BW_CTL (Table 20-7). -/
def bwCtlAddr (port : Bool) (n : Nat) : Nat := if port then 0x10001000 + n * 2 ^ 16 else 0x20006000 + n * 2 ^ 16

/-- BW_CTL_WRITE: the owner writes BW_CTL; a WINDOW out of its range is refused (R275, R421). -/
def execBwCtlWrite (src : Nat) (port : Bool) (n val : Nat) (s : State) : Out :=
  if (if port then 96 else 24) ≤ n then .next (s.absentWrite src (bwCtlAddr port n) val)
  else
    .next (s.ownerWrites src (bwCtlAddr port n) val (fun s =>
      if bits val 63 44 = 0 ∨ 1000000 < bits val 63 44 then
        s.rejectAccess src (bwCtlAddr port n) 0 false 6
      else s.modBw port n (fun b => b.rewrite s.time val)))

/-- BW_WINDOW_END: WINDOW µs after its start a window ends (R421). -/
def execBwWindowEnd (port : Bool) (n : Nat) (s : State) : Out :=
  if (if port then 96 else 24) ≤ n then .next s
  else
    let b := s.bwBlock port n
    if b.startAt + us b.window ≤ s.time then .next (s.modBw port n (fun b => b.roll s.time)) else .next s

end Sys2Proof.Machine
end

