-- ==== Sys2Proof/Machine/Alerts.lean ====
section
/-! DEFINITION. Fault records as words, alert causes, In-Band Interrupts, the shelf status and the service UART (05 Table 5-8,
21 R437-R439, 22 R447). -/

namespace Sys2Proof.Machine

def State.modMgmt (s : State) (f : Mgmt → Mgmt) : State := { s with mgmt := f s.mgmt }
def State.modIface (s : State) (f : Iface → Iface) : State := { s with iface := f s.iface }
def State.modBoot (s : State) (f : Boot → Boot) : State := { s with boot := f s.boot }

/-- The 512 bits of a record (Table 5-8). -/
def FaultRec.word (f : FaultRec) : Nat :=
  f.cls % 16 * 2 ^ 508 + f.code % 2 ^ 16 * 2 ^ 492 + f.region % 64 * 2 ^ 486 + f.guest % 64 * 2 ^ 480 + satTo (2 ^ 32 - 1) f.count * 2 ^ 448 +
    f.x % 2 ^ 10 * 2 ^ 438 + f.y % 2 ^ 9 * 2 ^ 429 + f.pane % 2 ^ 10 * 2 ^ 419 + f.iaddr % 2 ^ 10 * 2 ^ 409 + f.step % 2 ^ 64 * 2 ^ 320 +
    f.beat % 2 ^ 48 * 2 ^ 272 + f.cycle % 128 * 2 ^ 265 + f.detHi % 2 ^ 64 * 2 ^ 192 + f.detLo % 2 ^ 64 * 2 ^ 128 +
    f.first % 2 ^ 64 * 2 ^ 64 + f.last % 2 ^ 64

/-- What the service UART sends (R447): fault records, event records, boot stages. -/
def State.uart (s : State) (v : Nat) : State := s.modIface (fun f => { f with uart := f.uart ++ [v] })

/-! ### ALERT_CAUSE (R437) -/

/-- Is ALERT_N asserted: a cause that ALERT_EN enables, bits 63:60 always (R437)? Causes are bits 48-63, here 0-15. -/
def State.alerted (s : State) : Bool := (List.range 16).any (fun i => bitAt s.mgmt.cause i && (decide (12 ≤ i) || bitAt s.mgmt.alertEn i))

/-- The mandatory data octet of an In-Band Interrupt (R438). -/
def State.alertByte (s : State) : Nat := 128 * bit s.alerted + s.mgmt.cause / 2 ^ 9 % 128

/-- Change ALERT_CAUSE: an alert event raises an In-Band Interrupt when none is pending (R438). -/
def State.setCauses (s : State) (new : Nat) : State :=
  let t := s.modMgmt (fun m => { m with cause := new })
  let event := t.alerted != s.alerted || (List.range 16).any (fun i => decide (9 ≤ i) && bitAt new i && !bitAt s.mgmt.cause i)
  if event && t.mgmt.ibi.isNone then t.modMgmt (fun m => { m with ibi := some t.alertByte }) else t

/-- A cause bit, numbered 48 to 63, sets (R437). -/
def State.cause (s : State) (b : Nat) : State := if bitAt s.mgmt.cause (b - 48) then s else s.setCauses (s.mgmt.cause + 2 ^ (b - 48))

/-! ### The shelf (R439) -/

/-- The bits of the shelf status (R439). -/
def State.shelfStatusBits (s : State) : Nat :=
  bit s.power.inputLow + 2 * bit ((List.range 9).any (fun k => decide (2 ≤ (s.seg k).lost.length))) +
    4 * bit s.power.overRound + 8 * bit s.power.powerOff

/-- Send a block write on the shelf bus. -/
def State.shelfWrite (s : State) (cmd : Nat) (data : List Byte) : State := s.modIface (fun f => { f with shelfOut := f.shelfOut ++ [(cmd, data)] })

/-- Command 0xD2 goes out when a bit of the shelf status has changed (R439). -/
def State.shelfStatus (s : State) : State :=
  let b := s.shelfStatusBits
  if b = s.mgmt.shelfBits then s
  else (s.shelfWrite 0xD2 (natLE 2 b)).modMgmt (fun m => { m with shelfBits := b, shelfAt := some s.time })

end Sys2Proof.Machine
end

