-- ==== Sys2Proof/Machine/Glazing.lean ====
section
/-! DEFINITION. The glazing image: its byte layout, the engine's checks, the frame count of a KV layer, and
placement (06 R127-R135, R461, R463, 04 R98, 09 R187). -/

namespace Sys2Proof.Machine

/-! ### Sections -/

/-- A directory entry (Table 6-2). -/
structure Sect where
  typ : Nat
  count : Nat
  off : Nat
  len : Nat
  rsv : Nat
  deriving DecidableEq, Repr

def Sect.ofWord (v : Nat) : Sect := ⟨bits v 127 120, bits v 95 64, bits v 63 32, bits v 31 0, bits v 119 96⟩

/-- Header as a number (Table 6-1). -/
def imageHeader (b : List Byte) : Nat := leNat (b.take 128)

/-- Directory entries. -/
def sectionsOf (b : List Byte) : List Sect :=
  (records 16 ((b.drop 128).take (16 * bits (imageHeader b) 863 859))).map Sect.ofWord

/-- Sections lie in ascending order, do not overlap, begin on multiples of 8, after the directory (R127). -/
def sectionsOrdered : Nat → List Sect → Bool
  | _, [] => true
  | lo, x :: r => decide (lo ≤ x.off) && x.off % 8 == 0 && sectionsOrdered (x.off + x.len) r

/-- The structure the engine checks before it copies the image (R137 step 2). -/
def structureOk (b : List Byte) (len : Nat) : Bool :=
  let h := imageHeader b
  let ss := sectionsOf b
  let n := bits h 863 859
  decide (128 ≤ b.length) && bits h 1023 992 == 0x5A4C4747 && decide (bits h 831 800 ≤ 2 ^ 29) && bits h 831 800 == len &&
    decide (5 ≤ n) && decide (n ≤ 12) && ss.length == n && sectionsOrdered (128 + 16 * n) ss &&
    (ss.filter (fun x => x.typ == 0xFF)).length == 1 &&
    (match ss.getLast? with
     | some x => x.typ == 0xFF && x.len == 7880 && x.off + x.len == len
     | none => false)

def sectCount (ss : List Sect) (t : Nat) : Nat := ((ss.find? (fun x => x.typ == t)).map (·.count)).getD 0
def sectBytes (b : List Byte) (ss : List Sect) (t : Nat) : List Byte :=
  match ss.find? (fun x => x.typ == t) with
  | some x => (b.drop x.off).take x.len
  | none => []

/-- Blocks that carry their own length; none where they do not fill the bytes exactly. -/
def splitBlocks (size : List Byte → Nat) : Nat → List Byte → Option (List (List Byte))
  | 0, l => if l.isEmpty then some [] else none
  | n + 1, l =>
    if l.isEmpty then some []
    else
      let k := size l
      if k = 0 ∨ l.length < k then none
      else (splitBlocks size n (l.drop k)).map (fun r => l.take k :: r)

/-- An image split into its records. -/
structure Parsed where
  hdr : Nat
  sects : List Sect
  shape : List Nat
  progs : List (List Byte)
  cells : List Nat
  routes : List (Nat × List Nat)
  memmap : List Nat
  tpls : List Nat
  marks : List Nat
  sites : List (List Nat × List Nat)
  items : List (List Nat)
  rotor : List (List Byte)
  inits : List (Nat × List Byte)
  deriving DecidableEq, Repr

/-- Fixed-size records of a section, when their number is COUNT. -/
def fixedRecords (b : List Byte) (ss : List Sect) (t k : Nat) : Option (List Nat) :=
  let s := sectBytes b ss t
  if s.length = k * sectCount ss t then some (records k s) else none

/-- Blocks of a section, when their number is COUNT. -/
def countedBlocks (b : List Byte) (ss : List Sect) (t : Nat) (size : List Byte → Nat) : Option (List (List Byte)) :=
  (splitBlocks size (sectCount ss t) (sectBytes b ss t)).filter (fun l => l.length == sectCount ss t)

/-- One pair of the SITES section (R463). -/
def sitePair (l : List Byte) : List Nat × List Nat :=
  let n := leNat (l.take 8)
  (records 8 ((l.drop 8).take (8 * n)), records 8 (l.drop (16 + 8 * n)))

def sitePairLen (l : List Byte) : Nat :=
  let n := leNat (l.take 8)
  16 + 8 * n + 8 * leNat ((l.drop (8 + 8 * n)).take 8)

/-- Split an image; none where a section's records do not fit it (R127, Table 6-3). -/
def parseImage (b : List Byte) : Option Parsed := do
  let ss := sectionsOf b
  let shape ← fixedRecords b ss 1 8
  let progs ← countedBlocks b ss 2 (fun l => 4 + 16 * leNat (l.take 4))
  let cells ← fixedRecords b ss 3 16
  let routes ← countedBlocks b ss 4 (fun l => 8 + 8 * leAt l 4 4)
  let memmap ← fixedRecords b ss 5 16
  let tpls ← fixedRecords b ss 6 16
  let marks ← fixedRecords b ss 7 8
  let sites ← countedBlocks b ss 8 sitePairLen
  let items ← countedBlocks b ss 9 (fun l => 8 + 8 * leNat (l.take 8))
  let rotor ← countedBlocks b ss 10 (fun _ => 512)
  let inits ← countedBlocks b ss 11 (fun l => 12 + leAt l 8 4)
  some {
    hdr := imageHeader b
    sects := ss
    shape := shape
    progs := progs
    cells := cells
    routes := routes.map (fun l => (leNat (l.take 4), records 8 (l.drop 8)))
    memmap := memmap
    tpls := tpls
    marks := marks
    sites := sites.map sitePair
    items := items.map (fun l => records 8 (l.drop 8))
    rotor := rotor
    inits := inits.map (fun l => (leNat (l.take 8), l.drop 12)) }

/-! ### Records of one cell -/

def Parsed.panes (p : Parsed) : Nat := bits p.hdr 911 902
def Parsed.beatLen (p : Parsed) : Nat := lget 128 [32, 64] (bits p.hdr 941 940)

/-- A CELLMAP entry's item table, site pair and staging intervals, in bytes of activation memory. -/
def Parsed.itemsOf (p : Parsed) (w : Nat) : List Nat :=
  if bits w 95 80 = 0xFFFF then [] else lget [] p.items (bits w 95 80)
def Parsed.pairOf (p : Parsed) (w : Nat) : List Nat × List Nat :=
  if bits w 111 96 = 0xFFFF then ([], []) else lget ([], []) p.sites (bits w 111 96)
def stagingOf (w : Nat) : List (Nat × Nat) :=
  [(bits w 71 59 * 32, bits w 58 50 * 32), (bits w 49 37 * 32, bits w 36 28 * 32)]
def guardsOf (items : List Nat) : List (Nat × Nat) := items.map (fun i => (itemBase i * 32, itemSize i * 32))

/-- INIT blocks of a cell: from its index to the first block that starts another cell (Table 6-5). -/
def Parsed.initsOf (p : Parsed) (w : Nat) : List (Nat × List Byte) :=
  let first := bits w 27 12
  if first = 0xFFFF then []
  else
    let starts := (p.cells.map (fun v => bits v 27 12)).filter (fun i => i != 0xFFFF && decide (first < i))
    (p.inits.take (starts.foldl min p.inits.length)).drop first

/-- Two ranges of start and length have an octet in common. -/
def overlaps (a b : Nat × Nat) : Bool :=
  decide (0 < a.2 ∧ 0 < b.2 ∧ a.1 < b.1 + b.2 ∧ b.1 < a.1 + a.2)

/-! ### Checks of R137 step 4 -/

/-- Header ranges and Reserved fields (Table 6-1), and the directory (Tables 6-2, 6-3). -/
def Parsed.headerOk (p : Parsed) : Bool :=
  let h := p.hdr
  bits h 938 936 == 0 && bits h 928 912 == 0 && bits h 858 832 == 0 && bits h 623 0 == 0 &&
  bits h 941 940 != 3 && bits h 943 942 != 3 && (decide (bits h 935 929 < 64) || bits h 935 929 == 0x7F) &&
  decide (1 ≤ p.panes) && decide (p.panes ≤ 738) &&
  decide (16 ≤ bits h 901 892) && decide (bits h 901 892 ≤ 528) && decide (16 ≤ bits h 891 883) && decide (bits h 891 883 ≤ 384) &&
  decide (1 ≤ bits h 799 784) && decide (bits h 799 784 ≤ 16384) &&
  p.sects.all (fun x => x.rsv == 0 && (decide (1 ≤ x.typ ∧ x.typ ≤ 11) || (x.typ == 0xFF && x.count == 1))) &&
  ((p.sects.map (·.typ)).eraseDups.length == p.sects.length) &&
  [1, 2, 3, 6].all (fun t => p.sects.any (fun x => x.typ == t)) &&
  p.shape.length == p.panes && p.cells.length == 256 * p.panes

/-- SHAPE entries (Table 6-4) and programs (Table 6-3), with the Reserved bits of their bundles (R127, Table 2-2). -/
def Parsed.shapeOk (p : Parsed) : Bool :=
  p.shape.all (fun v => bits v 40 0 == 0 && bits v 44 43 != 3 && bits v 42 41 != 3) &&
  p.progs.all (fun l => let n := leNat (l.take 4); decide (1 ≤ n ∧ n ≤ 1024) &&
    (records 16 (l.drop 4)).all (fun b => b % 16 == 0))

/-- One item declaration (Table 6-7, R129). -/
def itemOk (v : Nat) : Bool :=
  decide (1 ≤ itemClass v ∧ itemClass v ≤ 4) && bitAt v 59 && bits v 58 45 == 0 && bits v 31 25 == 0 && bits v 15 0 == 0 &&
    decide (1 ≤ itemSize v)

/-- One site entry (R98, Table 4-6); `slots` are the repeat slots in use. -/
def siteOk (slots : List Nat) (v : Nat) : Bool :=
  let thr (n : Nat) : Bool := decide (n ≤ 32) || n == 0xFF
  thr (bits v 63 56) && thr (bits v 55 48) && (fmtOf (bits v 7 0)).isSome && (fmtOf (bits v 23 16)).isSome &&
    onLadder 4 (bits v 7 0) (bits v 23 16) (bits v 9 9) (bits v 8 8) && slots.contains (bits v 15 10)

/-- Bounds of one cell's entries (R128) and its repeat slots (R129). Bit 20 of an INIT block's word is taken as Reserved, and a step entry
need not lie within its program: the spec says neither (DESIGN CHOICE, log 78). -/
def Parsed.cellOk (p : Parsed) (w : Nat) : Bool :=
  let items := p.itemsOf w
  let stg := stagingOf w
  let gs := guardsOf items
  let idx (hi lo none n : Nat) : Bool := bits w hi lo == none || decide (bits w hi lo < n)
  decide (bits w 127 112 < p.progs.length) && idx 111 96 0xFFFF p.sites.length && idx 95 80 0xFFFF p.items.length &&
  idx 79 72 0xFF p.rotor.length && idx 27 12 0xFFFF p.inits.length && decide (bits w 1 0 < 2) &&
  (bits w 1 0 == 0 || bits w 111 96 != 0xFFFF) &&
  stg.all (fun r => decide (r.1 + r.2 ≤ 196608) && decide (r.2 ≤ 8192)) &&
  !(overlaps (lget (0, 0) stg 0) (lget (0, 0) stg 1)) &&
  gs.all (fun g => decide (g.1 + g.2 ≤ 196608) && !stg.any (overlaps g)) &&
  (p.initsOf w).all (fun b => let mem := bits b.1 63 60
    decide (2 ≤ mem ∧ mem ≤ 5) && bits b.1 59 20 == 0 && decide (bits b.1 19 0 + b.2.length ≤ memSize mem)) &&
  (bits w 1 0 == 0 || (p.pairOf w).2.all (fun v =>
    decide (bits v 49 45 < items.length) && itemClass (lget 0 items (bits v 49 45)) == 3))

/-- Items, sites and every cell (R98, R128, R129, R463). -/
def Parsed.cellsOk (p : Parsed) : Bool :=
  let slots := (p.cells.filter (fun w => bits w 1 0 == 1)).flatMap (fun w => (p.pairOf w).2.map (fun v => bits v 63 58))
  p.items.all (fun t => decide (1 ≤ t.length ∧ t.length ≤ 32) && t.all itemOk) &&
  p.sites.all (fun t => decide (t.1.length ≤ 64 ∧ t.2.length ≤ 64) && t.1.all (siteOk slots) &&
    t.2.all (fun v => bits v 44 0 == 0 && bits v 57 50 != 0)) &&
  p.cells.all p.cellOk

/-! ### Routes (R461) -/

/-- The shape's pane that holds the compiled cell (x, y), with its row and column there. -/
def Parsed.shapeAt (p : Parsed) (x y : Nat) : Option (Nat × Nat × Nat) :=
  (p.shape.findIdx? (fun v => decide (bits v 63 54 ≤ x ∧ x < bits v 63 54 + 16 ∧ bits v 53 45 ≤ y ∧ y < bits v 53 45 + 16))).bind
    (fun i => (p.shape[i]?).map (fun v => (i, y - bits v 53 45, x - bits v 63 54)))

/-- Route entry of a router for a route. -/
def Parsed.routeAt (p : Parsed) (cell route : Nat) : Option Nat :=
  ((p.routes.filter (fun r => r.1 == cell)).flatMap (·.2)).find? (fun v => bits v 63 52 == route)

/-- One output of one route entry: the checks of R461. -/
def Parsed.outputOk (p : Parsed) (cell v d : Nat) : Bool :=
  if !bitAt (bits v 48 43) d then true
  else
    let sh := lget 0 p.shape (cell / 256)
    let r := cell % 256 / 16
    let j := cell % 16
    let x := bits sh 63 54 + j
    let y := bits sh 53 45 + r
    let inside := match d with | 1 => decide (0 < r) | 2 => decide (j < 15) | 3 => decide (r < 15) | _ => decide (0 < j)
    let there : Option (Nat × Nat × Nat) :=
      match d with
      | 1 => if y = 0 then none else p.shapeAt x (y - 1)
      | 2 => p.shapeAt (x + 1) y
      | 3 => p.shapeAt x (y + 1)
      | _ => if x = 0 then none else p.shapeAt (x - 1) y
    let fieldEdge := match d with
      | 1 => bits sh 42 41 == 0 | 2 => bits sh 44 43 == 2 | 3 => bits sh 42 41 == 2 | _ => bits sh 44 43 == 0
    let along := if d = 1 ∨ d = 3 then bits p.hdr 882 873 + x else bits p.hdr 872 864 + y
    match there with
    | none => false
    | some (i, r', j') =>
      let n := 256 * i + 16 * r' + j'
      let next := p.routeAt n (bits v 63 52)
      if inside then (match next with | some e => bits e 51 49 == opposite d | none => false)
      else next.isNone && (!fieldEdge || along % 6 == 2)

/-- Every route entry (R461). -/
def Parsed.routesOk (p : Parsed) : Bool :=
  p.routes.all (fun r => decide (r.1 < 256 * p.panes) && r.2.all (fun v =>
    bits v 42 0 == 0 && decide (bits v 51 49 ≤ 4) &&
    (((p.routes.filter (fun q => q.1 == r.1)).flatMap (·.2)).filter (fun u => bits u 63 52 == bits v 63 52)).length == 1 &&
    [1, 2, 3, 4].all (p.outputOk r.1 v)))

/-! ### Memory maps, templates, marks -/

/-- A MEMMAP entry covers a region-local cell. -/
def mapCovers (v cell : Nat) : Bool := decide (bits v 99 82 ≤ cell ∧ cell < bits v 99 82 + bits v 81 64)

/-- Largest number of frames of `size` octets from `base` that end at or before every obstacle that reaches past
`base` (R187). -/
def framesBefore (base size : Nat) (obs : List (Nat × Nat)) : Nat :=
  obs.foldl (fun a o =>
    if o.2 = 0 ∨ o.1 + o.2 ≤ base then a else if o.1 < base then 0 else min a ((o.1 - base) / size)) ((196608 - base) / size)

/-- Frame counts of the KIND 2 entries in MEMMAP order; `done` are the entries before, with their F (R187). -/
def Parsed.frameCounts (p : Parsed) (all : List Nat) : List Nat → List (Nat × Nat) → List Nat
  | [], _ => []
  | v :: r, done =>
    if bits v 102 100 ≠ 2 then p.frameCounts all r done
    else
      let base := bits v 63 50 * 64
      let size := bits v 49 35 * 64
      let cellObs (k : Nat) : List (Nat × Nat) :=
        let w := lget 0 p.cells k
        stagingOf w ++ guardsOf (p.itemsOf w) ++
        (all.filter (fun u => bits u 102 100 == 3 && mapCovers u k)).map (fun u => (bits u 63 50 * 64, bits u 49 35 * 64)) ++
        (all.filter (fun u => bits u 102 100 == 2 && bits u 127 112 != bits v 127 112 && mapCovers u k)).map
          (fun u => (bits u 63 50 * 64, bits u 49 35 * 64)) ++
        (done.filter (fun u => mapCovers u.1 k)).map (fun u => (bits u.1 63 50 * 64, bits u.1 49 35 * 64 * u.2))
      let cells := (List.range (bits v 81 64)).map (· + bits v 99 82)
      let f := cells.foldl (fun a k => min a (framesBefore base size (cellObs k))) ((196608 - base) / size)
      f :: p.frameCounts all r (done ++ [(v, f)])

/-- The KV layers of an image (R187). -/
def Parsed.kvLayers (p : Parsed) : List KvLayer :=
  let es := p.memmap.filter (fun v => bits v 102 100 == 2)
  (es.zip (p.frameCounts p.memmap p.memmap [])).map (fun q =>
    { layer := bits q.1 127 112, fmt := bits q.1 111 104, firstCell := bits q.1 99 82, cells := bits q.1 81 64,
      offset := bits q.1 63 50 * 64, units := bits q.1 49 35, item := bits q.1 34 30, frames := q.2 })

/-- One MEMMAP entry (Table 6-9, R187). -/
def Parsed.mapOk (p : Parsed) (v : Nat) : Bool :=
  let kind := bits v 102 100
  bits v 29 0 == 0 && (fmtOf (bits v 111 104)).isSome && decide (kind ≤ 3) && bits v 81 64 != 0 &&
  decide (bits v 99 82 + bits v 81 64 ≤ 256 * p.panes) && decide (1 ≤ bits v 49 35 ∧ bits v 49 35 ≤ 16384) &&
  (!(kind == 1 || kind == 2) || ((List.range (bits v 81 64)).all (fun k =>
    itemClass (lget 0 (p.itemsOf (lget 0 p.cells (bits v 99 82 + k))) (bits v 34 30)) == 1))) &&
  (kind != 2 || ([1, 2, 3, 4].contains (bits v 111 104) && decide (bits v 127 112 ≤ 255) && bits v 49 35 % 4 == 0 &&
    (p.memmap.filter (fun u => bits u 102 100 == 2 && bits u 127 112 == bits v 127 112)).length == 1))

/-- One template (Table 6-10). -/
def Parsed.tplOk (p : Parsed) (v : Nat) : Bool :=
  let kind := bits v 127 124
  decide (1 ≤ kind ∧ kind ≤ 4) && bits v 119 100 != 0 && bits v 99 92 != 0 && bits v 91 76 != 0 &&
  decide (bits v 91 76 ≤ 16384) && decide (bits v 75 72 ≤ 8) && (kind == 3 || bits v 75 72 == 0) && bits v 71 0 == 0 &&
  (p.tpls.filter (fun u => bits u 123 120 == bits v 123 120)).length == 1

/-- One mark (Table 6-11, R130). -/
def Parsed.markOk (p : Parsed) (v : Nat) : Bool :=
  decide (bits v 63 54 < p.panes) && decide (1 ≤ bits v 22 15 ∧ bits v 22 15 ≤ 180) && bits v 14 0 == 0 &&
  (match p.tpls.find? (fun u => bits u 123 120 == bits v 53 50) with
   | some u => decide (bits v 49 23 < bits u 119 100 * p.beatLen)
   | none => false) &&
  decide ((p.marks.filter (fun u => bits u 63 50 == bits v 63 50)).length ≤ 64)

/-- Every rule that refuses with BAD_FORMAT at step 4 (Table 6-16). -/
def Parsed.formatOk (p : Parsed) : Bool :=
  p.headerOk && p.shapeOk && p.cellsOk && p.routesOk && p.memmap.all p.mapOk &&
  decide (1 ≤ p.tpls.length ∧ p.tpls.length ≤ 16) && p.tpls.all p.tplOk && p.marks.all p.markOk &&
  p.kvLayers.all (fun l => decide (0 < l.frames))

/-- What the region keeps of an image. -/
def Parsed.toImage (p : Parsed) (b : List Byte) (m : List Byte) : Image :=
  { bytes := b
    measure := m
    cls := bits p.hdr 943 942
    beatLen := p.beatLen
    rowshift := bitAt p.hdr 939
    bind := bits p.hdr 935 929
    slots := bits p.hdr 799 784
    wlayout := natLE 16 (bits p.hdr 783 656)
    tpls := p.tpls.map (fun v => ⟨bits v 127 124, bits v 123 120, bits v 119 100, bits v 99 92, bits v 91 76, bits v 75 72⟩)
    marks := p.marks.map (fun v => ⟨bits v 63 54, bits v 53 50, bits v 49 23, bits v 22 15⟩)
    memmap := p.memmap
    kv := p.kvLayers }

/-! ### Placement (R134, R135) -/

/-- Panes of a shape at an anchor; none when conditions 1 or 2 fail (R134). -/
def Parsed.panesAt (p : Parsed) (ax ay : Nat) : Option (List Nat) :=
  p.shape.mapM (fun v =>
    (paneAtOrigin (ax + bits v 63 54) (ay + bits v 53 45)).filter (fun q =>
      q % 9 % 3 == bits v 44 43 && q % 9 / 3 == bits v 42 41))

/-- Panes reachable from a list through shared edges, `n` rounds. -/
def spreadPanes (all : List Nat) : Nat → List Nat → List Nat
  | 0, l => l
  | n + 1, l => spreadPanes all n ((l ++ (l.flatMap edgePanes).filter all.contains).eraseDups)

/-- Is the shape connected (R108)? -/
def connected (l : List Nat) : Bool :=
  match l with
  | [] => false
  | a :: _ => l.eraseDups.length == l.length && (spreadPanes l l.length [a]).length == l.length

/-- Panes that a region or a load in progress holds, other than region `r`: a reload may be placed on its own region's panes, though
condition 4 of R134 does not say so (DESIGN CHOICE, log 78). -/
def State.heldPanes (s : State) (r : Nat) : List Nat :=
  s.regions.flatMap (fun q => if q.1 = r then [] else q.2.panes ++ (match q.2.load with | some l => l.panes | none => []))

/-- How a candidate fares: 0 compatible, 1 fails only on condition 4, 2 incompatible (R134). -/
def State.candidate (s : State) (r : Nat) (p : Parsed) (ax ay : Nat) : Nat × List Nat :=
  match p.panesAt ax ay with
  | none => (2, [])
  | some ps =>
    let sound := ps.all (fun q => !s.wafer.disabled q && (s.pane q).pwr.cap != 2) && connected ps &&
      p.routes.all (fun rt => rt.2.all (fun v => [1, 2, 3, 4].all (fun d =>
        !bitAt (bits v 48 43) d ||
          !(s.wafer.crossDisabled (paneCell (lget 0 ps (rt.1 / 256)) (rt.1 % 256 / 16) (rt.1 % 16)) d))))
    if !sound then (2, ps)
    else if ps.any (s.heldPanes r).contains then (1, ps)
    else (0, ps)

/-- The placement of a load: the panes, or the status of the refusal (R135). -/
def State.place (s : State) (r : Nat) (p : Parsed) (l : LoadRec) : Except Nat (List Nat) :=
  if !l.anyPlace then
    match s.candidate r p l.anchorX l.anchorY with
    | (0, ps) => .ok ps
    | _ => .error stPlaceIncompat
  else
    let v0 := lget 0 p.shape 0
    let cands := ((List.range 738).map paneOrigin).filter (fun o => decide (bits v0 63 54 ≤ o.1 ∧ bits v0 53 45 ≤ o.2))
    let anchors := sortBy (fun a b => decide (a.1 < b.1 ∨ (a.1 = b.1 ∧ a.2 ≤ b.2))) (cands.map (fun o => (o.2 - bits v0 53 45, o.1 - bits v0 63 54)))
    let res := anchors.map (fun a => s.candidate r p a.2 a.1)
    match res.find? (fun q => q.1 == 0) with
    | some q => .ok q.2
    | none => .error (if res.any (fun q => q.1 == 1) then stPlaceConflict else stPlaceIncompat)

end Sys2Proof.Machine
end

