-- ==== Sys2Proof/Machine/RegionLife.lean ====
section
/-! DEFINITION. The life of a region: what a load writes, scrubs, the refusal of a load, and the release (06 R137-R142,
02 R62). -/

namespace Sys2Proof.Machine

/-- A write of a scrub: the owner's (R417). -/
def scrubEv : PmcEv := { cls := 3, ev := 1, master := 5, byOwner := true, byGuest := false }

/-- A scrub of a cell (R62, R419): every memory but weight memory, unless `weight`, the registers and staging slots, and
the counters of 20. Accesses that wait stay: those of a window, and fills of a weight memory that keeps its content (R251). -/
def Cell.scrub (weight : Bool) (x : Cell) : Cell :=
  let q := x.keepBg (fun b => match b.purpose with | .window _ _ _ => true | .fill _ _ => !weight | .delivery _ _ _ => false)
  let n := [(2, 196608), (3, 32768)].foldl (fun (y : Cell) m => y.countBulk m.1 0 m.2 scrubEv)
    (if weight then x.countBulk 1 0 1048576 scrubEv else x)
  { wmem := if weight then {} else x.wmem
    bg := q.bg, bgMesh := q.bgMesh
    bankSel := x.bankSel, bankCnt := n.bankCnt, memAddr := x.memAddr, latchReg := x.latchReg, dead := x.dead }

/-- Number of a loss of one cell memory's content (log 2). -/
def lossNo (n c mem : Nat) : Nat := n * 2 ^ 21 + c * 8 + mem

/-- The memories of a pane's cells lose their content (Table 15-7): all but weight memory, or all. -/
def State.losePane (s : State) (p : Nat) (weight : Bool) : State :=
  let n := s.freeCount
  (s.modPaneCells p (fun c x => { x with
    wmem := if weight then { lost := some (lossNo n c 1) } else x.wmem
    amem := { lost := some (lossNo n c 2) }
    pmem := { lost := some (lossNo n c 3) }
    imem := { lost := some (lossNo n c 4) }
    rotor := { lost := some (lossNo n c 5) } })).useFree

/-- Scrub the cells of a pane. -/
def State.scrubPane (s : State) (p : Nat) (weight : Bool) : State := s.modPaneCells p (fun _ x => x.scrub weight)

/-- A write of the Glaze engine (R417). -/
def glazeEv : PmcEv := { cls := 3, ev := 1, master := 3 }

/-- What a load writes into the cell of CELLMAP entry `w`, region-local index `k` (R137 step 7). -/
def Parsed.install (p : Parsed) (w k : Nat) (x : Cell) : Cell :=
  let prog := (lget [] p.progs (bits w 127 112)).drop 4
  let rot := if bits w 79 72 = 0xFF then [] else lget [] p.rotor (bits w 79 72)
  let x : Cell := { x with
    imem := ({} : Mem).write 0 prog
    rotor := ({} : Mem).write 0 rot
    stg0 := { size := bits w 58 50, base := bits w 71 59 }
    stg1 := { size := bits w 36 28, base := bits w 49 37 }
    items := p.itemsOf w
    sites := (p.pairOf w).1
    repeats := if bits w 1 0 = 1 then (p.pairOf w).2 else []
    routes := ((p.routes.filter (fun r => r.1 == k)).flatMap (·.2)).foldl (fun m v => mset m (bits v 63 52) ⟨bits v 51 49, bits v 48 43⟩) []
    entryPc := bits w 11 2
    pc := bits w 11 2
    stepwait := true
    dead := false }
  (p.initsOf w).foldl (fun (y : Cell) b =>
    let mem := bits b.1 63 60
    (y.setMem mem ((y.mem mem).write (bits b.1 19 0) b.2)).countBulk mem (bits b.1 19 0) b.2.length glazeEv) (x.countBulk 4 0 prog.length glazeEv)

/-- Write the cells of a region from its image. -/
def State.installRegion (s : State) (r : Nat) (p : Parsed) : State :=
  (List.range p.cells.length).foldl (fun a k =>
    match (a.region r).localCell k with
    | some c => a.modCell c (p.install (lget 0 p.cells k) k)
    | none => a) s

/-- A pane as it stands before a region's first step (R137 step 8, R416). -/
def Pane.atLoad (q : Pane) (r guest : Nat) (reload : Bool) : Pane :=
  { q with
    clk := if reload then q.clk else { q.clk with mhz := 2400 }
    region := some r
    lastGuest := some guest
    cond := .stopped
    base := q.runCycles
    guestCleared := 0
    beat := 0
    begun := 0
    cyc := 0
    slotJ := 0
    kNow := 0
    resumeAt := none
    outPort := []
    outWait := []
    outMsg := [] }

/-- A pane given back: Boarded, of no region, its last guest unknown (R141, R336, R337). -/
def Pane.freed (q : Pane) : Pane :=
  { q with region := none, lastGuest := none, power := if q.pwr.cap = 2 then q.power else 4, cond := .stopped, resumeAt := none, outPort := [], outWait := [], outMsg := [] }

/-- Panes of a region are scrubbed and given back: Boarded keeps no memory (Tables 6-17, 15-7). -/
def State.givePanes (s : State) (ps : List Nat) : State :=
  ps.foldl (fun a p => ((a.scrubPane p false).losePane p true).modPane p Pane.freed) s

/-- Octets of retained images and of loads that copy (R138): images of one measurement count once. -/
def State.retainedUse (s : State) : Nat :=
  let kept := ((s.regions.filterMap (fun q => q.2.image)).map (fun i => (i.measure, i.bytes.length))).eraseDups
  let copying := (s.regions.filterMap (fun q => q.2.load)).map (fun l => l.len)
  (kept.map (·.2)).sum + copying.sum

/-- Weight window span of an image, in 64 KiB units (R234). -/
def Image.wspan (i : Image) : Nat :=
  let top := (i.maps 0 ++ i.maps 1).foldl (fun a v => max a ((bits v 63 50 + bits v 49 35) * 64)) 0
  max 1 (ceilDiv top 65536)

/-- The region number and the rails of the panes return to what they were, and the load completes with a refusal (R139). -/
def State.refuseLoadOf (s : State) (r status : Nat) : State :=
  let x := s.region r
  match x.load with
  | none => s
  | some l =>
    let back (s : State) (q : Nat × Nat × Nat × Nat) : State :=
      s.modPane q.1 (fun p => { p with pwr := { p.pwr with base := q.2.1, from_ := q.2.2.1, rampAt := q.2.2.2 } })
    let s := l.rails.foldl back s
    let s := s.modRegion r (fun y => { y with
      state := l.oldState
      guest := if l.oldState = 0 then 0 else y.guest
      load := none
      power := if l.phase = 4 then { y.power with trans := 0, req := none, ramp := none, pendCur := 0 } else y.power })
    s.complete l.entry status 0

/-- Descriptors bound to a region (09): change each. -/
def State.modRegionDescs (s : State) (r : Nat) (f : Desc → Desc) : State :=
  { s with cache := { s.cache with desc := mmap (fun _ d => if d.valid && d.region == r && !d.unbound then f d else d) s.cache.desc } }

/-- Every Framed page of a region becomes Home; its frames are free (R209). -/
def State.homeAll (s : State) (r : Nat) : State :=
  let s := s.modRegionDescs r (fun d => if d.tier ≥ 2 then { d with tier := 1, frame := 0 } else d)
  { s with cache := { s.cache with frameHolds := s.cache.frameHolds.filter (fun h => h.1 != r) } }

/-- Scatters of a region are abandoned (R142 step 5). -/
def State.dropScatters (s : State) (r : Nat) : State :=
  let l := (s.region r).scatters
  l.foldl (fun a sc => a.returnResv r sc.resv) (s.modRegion r (fun x => { x with scatters := [] }))

/-- Scatters that a reload's scrub cuts short: their rows are lost, and the slots that stay open recompute them (R181, R209). -/
def State.loseScatters (s : State) (r : Nat) : State :=
  let l := (s.region r).scatters
  l.foldl (fun a sc => a.loseScatter r sc) (s.modRegion r (fun x => { x with scatters := [] }))

/-- Slots of a region end: their pages are freed (R142 step 5). -/
def State.freeSlots (s : State) (r : Nat) : State :=
  ((s.region r).openSlots.map (·.1)).foldl (fun a n => a.freeSlot r n) s

/-- Pages that stay with their guest become UNBOUND (R142, R199). -/
def State.unbind (s : State) (r : Nat) : State :=
  let f (d : Desc) : Desc :=
    let d := if d.tier ≥ 2 then { d with tier := 1, frame := 0 } else d
    if d.refcnt = 0 then d else { d with unbound := true }
  let s := s.modRegionDescs r f
  { s with cache := { s.cache with frameHolds := s.cache.frameHolds.filter (fun h => h.1 != r) } }

/-- Entries that have started and wait on a region that is released: CANCEL completes with OK, every other with
CANCELLED (R142). -/
def State.endWaiting (s : State) (r : Nat) : State :=
  let x := s.region r
  let ops := x.slots.flatMap (fun q => q.2.ops)
  let s := ((ops.filter (fun o => o.2 == 0x31)).map (fun o => s.wordOf o.1)).foldl (fun a w => a.claimPark w 1) s
  let s := x.cancelAlls.foldl (fun a id => a.complete id stOK 0) s
  let s := (ops.filter (fun o => o.2 != 0x11)).foldl (fun a o => a.complete o.1 (if o.2 = 0x14 then stOK else stCancelled) 0) s
  let s := (x.swings.foldl (fun a q => a.complete q.1 stCancelled 0) s).modRegion r (fun y => { y with swings := [] })
  let s := x.prof.queue.foldl (fun a q => a.complete q.1 stCancelled 0) s
  let s := match x.prof.entry with | some id => s.complete id stCancelled 0 | none => s
  let s := (s.weight.loads.filter (fun l => l.target != 0 && l.region == r)).foldl (fun a l => a.undoLoad l.id stCancelled) s
  s.modRegion r (fun y => { y with
    cancelAlls := []
    swings := []
    prof := { y.prof with queue := [], entry := none }
    slots := y.slots.map (fun q => (q.1, { q.2 with ops := [] })) })

/-- Forget the step in flight without a record: its slots are ended by what follows. -/
def State.dropFlight (s : State) (r : Nat) : State :=
  match (s.region r).flight with
  | none => s
  | some f =>
    let s := s.modRegion r (fun x => { x with
      flight := none
      totals := { x.totals with abandoned := x.totals.abandoned.add 1 } })
    (s.returnPromos f.promos).returnResv r f.resv

/-- Steps 1 to 5 of a release (R142): entries that wait complete, before the end of a PREFILL could let one take effect, then queued
steps and the step in flight are cancelled, the region stops, its scatters are abandoned and its pages freed. The scrub
follows. -/
def State.beginRelease (s : State) (r : Nat) (entry : Option EntryId) : State :=
  let s := s.endWaiting r
  let s := s.endRuns r stCancelled
  let s := s.dropFlight r
  let s := s.modRegionPanes r (fun _ p => { p with cond := .faultHold, resumeAt := none })
  let s := s.modRegion r (fun x => { x with state := 5, relEntry := entry, holdSince := none })
  let s := s.dropScatters r
  let s := s.freeSlots r
  s.unbind r

/-- What stays of a region number when it becomes FREE: the watchdog limit (R429), a load queued behind it, and the demand that
every region has (R355). -/
def Region.cleared (x : Region) : Region := { wdogMs := x.wdogMs, loadPending := x.loadPending, kEnv := x.kEnv }

/-- Step 6 of a release: the scrub, the retained image dropped, and FREE (R141, R142). -/
def State.endRelease (s : State) (r : Nat) : State :=
  let x := s.region r
  let s := (s.givePanes x.panes).modRegion r Region.cleared
  match x.relEntry with
  | some id => s.complete id stOK 0
  | none => s

/-- A load fails after its writes began (R139): the panes are scrubbed and freed with the region number, a reload's
slots are closed, and the load completes with LOAD_ABORTED. -/
def State.abortLoad (s : State) (r : Nat) : State :=
  let x := s.region r
  match x.load with
  | none => s
  | some l =>
    if l.phase = 5 then
      let s := s.dropScatters r
      let s := s.endWaiting r
      let s := s.freeSlots r
      let s := s.unbind r
      let s := s.givePanes (x.panes ++ l.panes).eraseDups
      (s.modRegion r Region.cleared).complete l.entry stLoadAborted 0
    else s.refuseLoadOf r stLoadAborted

/-- Fills and swings of a region whose windows a reload drops end with CANCELLED (R251; DEDUCED, log 27). -/
def State.dropFills (s : State) (r : Nat) : State :=
  let s := ((s.region r).swings.foldl (fun a q => a.complete q.1 stCancelled 0) s).modRegion r (fun y => { y with swings := [] })
  (s.weight.loads.filter (fun l => l.window.isSome && !l.filled && l.region == r)).foldl (fun a l => a.undoLoad l.id stCancelled) s

/-- Steps 6 to 8 of a load (R137): scrub, writes, and LOADED. A reload keeps slots, profile and, where the layout and
guest allow it, windows (R141, R181, R251, R363). -/
def State.finishLoadOf (s : State) (r : Nat) : State :=
  let x := s.region r
  match x.load with
  | none => s
  | some l =>
    match parseImage l.bytes, l.image with
    | some p, some im =>
      let reload := l.oldState = 4
      let span := im.wspan
      let keep := decide (reload ∧ x.guest = l.guest ∧ x.wspan = span) &&
        (match x.image with | some o => o.wlayout == im.wlayout | none => false)
      let windows := if keep then x.windows else List.replicate (16 / span) {}
      let s := if reload && !keep then s.dropFills r else s
      let s := if reload then (s.loseScatters r).homeAll r else s
      let s := l.panes.foldl (fun a q => a.scrubPane q ((a.pane q).lastGuest != some l.guest)) s
      let s := s.givePanes (x.panes.filter (fun q => !l.panes.contains q))
      let s := l.panes.foldl (fun a q => a.modPane q (fun y => y.atLoad r l.guest reload)) s
      let base : Region := if reload then x else { wdogMs := x.wdogMs }
      let y : Region := { base with
        state := 2
        guest := l.guest
        panes := l.panes
        image := some im
        load := none
        wspan := span
        windows := windows
        swings := if keep then x.swings else []
        stepNext := 0
        recno := 0
        cursor := []
        lastPinned := 0
        rcfg := 0
        dpair := 0
        deliveries := []
        reductions := []
        kept := []
        totals := {}
        holdSince := none
        kTh := x.kTh
        kRate := x.kRate
        kEnv := x.kEnv
        kPwr := x.kPwr
        power := { x.power with state := 0, trans := 0, req := none, ramp := none, pendCur := 0, idleSince := s.time, due := true } }
      let s := (s.setRegion r y).installRegion r p
      s.complete l.entry stOK 0
    | _, _ => s

end Sys2Proof.Machine
end

