-- ==== Sys2Proof/Machine/Crc.lean ====
section
/-! DEFINITION. CRC-32 (13 R272) and CRC-8 (22 Table 22-8). -/

namespace Sys2Proof.Machine

/-- Eight steps of the CRC-32 register, bit 0 of the octet first. -/
def crc32Bits : Nat → Nat → Nat
  | 0, r => r
  | n + 1, r => crc32Bits n (if r % 2 = 1 then (r / 2) ^^^ 0xEDB88320 else r / 2)

/-- The register after some octets. -/
def crc32Reg (r : Nat) : List Byte → Nat
  | [] => r
  | b :: t => crc32Reg (crc32Bits 8 (r ^^^ b.toNat)) t

/-- CRC-32 as the IEEE 802.3 frame check sequence: polynomial 0x04C11DB7, octets from bit 0 up, the register from all ones,
the result complemented (R272). -/
def crc32 (l : List Byte) : Nat := 2 ^ 32 - 1 - crc32Reg (2 ^ 32 - 1) l

/-- Eight steps of the CRC-8 register, bit 7 first. -/
def crc8Bits : Nat → Nat → Nat
  | 0, r => r
  | n + 1, r => crc8Bits n (if r / 128 = 1 then (r * 2 % 256) ^^^ 7 else r * 2 % 256)

/-- CRC-8, polynomial 0x07, initial value 0 (Table 22-8). -/
def crc8 (l : List Byte) : Nat := l.foldl (fun r b => crc8Bits 8 (r ^^^ b.toNat)) 0

end Sys2Proof.Machine
end

