-- ==== Sys2Proof/Machine/Port.lean ====
section
/-! DEFINITION. Casement ports: counters, credits, flits, queues of messages, and the encryption of runs (13 R272-R284). -/

namespace Sys2Proof.Machine

/-! ### Counters and faults -/

/-- Counters of a port in the order of Table 13-10, then NO_ROUTE, ROUTE_BACK and MC_REJECT (R299). -/
def cFlitsTx : Nat := 0
def cFlitsRx : Nat := 1
def cCrcErr : Nat := 2
def cRetries : Nat := 3
def cReplayed : Nat := 4
def cFecCorr : Nat := 5
def cFecUncorr : Nat := 6
def cSealFail : Nat := 7
def cDiscarded : Nat := 8
def cBadFlit : Nat := 9
def cQrAnswered : Nat := 10
def cQrDropped : Nat := 11
def cNoRoute : Nat := 12
def cRouteBack : Nat := 13
def cMcReject : Nat := 14

def Port.count (x : Port) (k n : Nat) : Port := { x with counters := mset x.counters k ((mget {} x.counters k).add n) }
def State.countPort (s : State) (p k n : Nat) : State := s.modPort p (fun x => x.count k n)

/-- A LINK report of a port (R290). -/
def State.linkFault (s : State) (p code detHi : Nat) : State :=
  s.report (unitPort p) { cls := 3, code := code, pane := panePort p, detHi := p * 2 ^ 57 + detHi }

/-- A SECURITY report of a port (R398). -/
def State.portSecurity (s : State) (p code detHi : Nat) : State :=
  s.report (unitPort p) { cls := 6, code := code, pane := panePort p, detHi := p * 2 ^ 57 + detHi }

def Port.modTx (x : Port) (f : TxSide → TxSide) : Port := { x with tx := f x.tx }
def Port.modRx (x : Port) (f : RxSide → RxSide) : Port := { x with rx := f x.rx }

/-! ### Credits (R277) -/

/-- Flit buffers of a receiving port for a channel. -/
def creditCap (vc : Nat) : Nat := lget 0 [32, 64, 512, 256] vc

/-- Credits a port holds for a channel. -/
def Port.credits (x : Port) (vc : Nat) : Nat := creditCap vc - (mget 0 x.tx.sent vc - mget 0 x.tx.freed vc)

/-- Buffers of a channel are freed at a port. -/
def Port.freeBuf (x : Port) (vc n : Nat) : Port := x.modRx (fun r => { r with freed := mset r.freed vc (mget 0 r.freed vc + n) })

/-- The CR fields a port sends. -/
def Port.crFields (x : Port) : Nat :=
  mget 0 x.rx.freed 0 % 1024 * 2 ^ 54 + mget 0 x.rx.freed 1 % 1024 * 2 ^ 44 + mget 0 x.rx.freed 2 % 1024 * 2 ^ 34 + mget 0 x.rx.freed 3 % 1024 * 2 ^ 24

/-- The cumulative count a CR field brings a channel to: a field older than what is known, as a replayed flit carries one, would
free more buffers than flits were sent, and leaves the count as it is (R273, R277). -/
def crCount (sent old cr : Nat) : Nat :=
  let new := old + (cr + 1024 - old % 1024) % 1024
  if new ≤ sent then new else old

/-- The credits a header returns. -/
def Port.takeCr (x : Port) (h : Nat) : Port :=
  x.modTx (fun t => { t with freed := [0, 1, 2, 3].foldl (fun m vc =>
    mset m vc (crCount (mget 0 t.sent vc) (mget 0 m vc) (bits h (63 - 10 * vc) (54 - 10 * vc)))) t.freed })

/-- Does a replay run at a port: its REPLAY waits, or flits are still to be sent again (Table 13-11)? -/
def TxSide.replaying (t : TxSide) : Bool := t.replayDue || t.replay != []

/-! ### Flits (R272, R273) -/

def pad240 (l : List Byte) : List Byte := slice l 0 240

/-- Header of the first flit of a message (Table 13-4). -/
def firstHeader (m : Msg) (eom : Bool) (last : Nat) : Nat :=
  m.kind % 4 * 2 ^ 93 + m.vc % 4 * 2 ^ 91 + bit eom * 2 ^ 90 + last * 2 ^ 82 + m.dest % 65536 * 2 ^ 66 + m.src % 65536 * 2 ^ 50 + m.addr % 2 ^ 48 * 4

def Port.contHeader (x : Port) (vc : Nat) (eom : Bool) (last : Nat) : Nat :=
  4 * 2 ^ 93 + vc % 4 * 2 ^ 91 + bit eom * 2 ^ 90 + last * 2 ^ 82 + x.rx.ack * 2 ^ 70 + x.crFields

def Port.linkHeader (x : Port) (typ ref : Nat) : Nat :=
  5 * 2 ^ 93 + typ * 2 ^ 88 + x.rx.ack * 2 ^ 70 + x.crFields + ref % 4096 * 2 ^ 12

def Port.answerHeader (x : Port) (word count qtag : Nat) (denied : Bool) : Nat :=
  7 * 2 ^ 93 + x.rx.ack * 2 ^ 70 + word % 512 * 2 ^ 39 + count % 32 * 2 ^ 34 + qtag % 256 * 2 ^ 26 + bit denied * 2 ^ 25

/-- The octets of a flit, with its CRC. -/
def Flit.bytes (f : Flit) : List Byte :=
  let b := natLE 12 f.hdr ++ pad240 f.payload
  b ++ natLE 4 (crc32 b)

def Flit.ofBytes (b : List Byte) : Flit := { hdr := leAt b 0 12, payload := pad240 (b.drop 12) }

/-- Is the CRC of 256 octets right? -/
def flitIntact (b : List Byte) : Bool := decide (b.length = 256) && crc32 (b.take 252) == leAt b 252 4

def hdrKind (h : Nat) : Nat := bits h 95 93
def hdrType (h : Nat) : Nat := bits h 92 88

/-- Is a flit sequenced: data, quick, SEAL and KEY (R279)? -/
def hdrSequenced (h : Nat) : Bool := hdrKind h != 5 || hdrType h == 1 || hdrType h == 4

/-! ### Runs (R282) -/

/-- Octets under the key stream of AES-256-GCM from octet `i` of a run. -/
def gcmCrypt (key iv : List Byte) (i : Nat) : List Byte → List Byte
  | [] => []
  | b :: r => (b ^^^ Config.gcmStream key iv i) :: gcmCrypt key iv (i + 1) r

/-- The IV of a run: the salt and the run number. -/
def runIv (salt : List Byte) (n : Nat) : List Byte := salt ++ natLE 8 n

/-- Tag of a run of flits as sent. -/
def runTag (key salt : List Byte) (n : Nat) (run : List Flit) : List Byte :=
  slice (Config.gcmTag key (runIv salt n) (run.flatMap (fun f => natLE 12 f.hdr)) (run.flatMap (·.payload))) 0 16

/-! ### Messages queued at a port (R276, R278) -/

/-- Queue a message on a port. -/
def State.queueTx (s : State) (p : Nat) (t : TxMsg) : State :=
  s.modPort p (fun x => x.modTx (fun y => { y with queues := mset y.queues (t.msg.vc % 4) (mget [] y.queues (t.msg.vc % 4) ++ [t]) }))

def State.queueOn (s : State) (p : Nat) (m : Msg) : State := s.queueTx p { msg := m, since := s.time }

/-- May a port in this neighbour state carry a message: a looped port knocks and answers only, one in conflict also directed
and link-peer messages (R296)? -/
def Port.carries (x : Port) (m : Msg) : Bool :=
  if x.nbr.state = 4 then m.dest == 0xFFFE && m.addr == 0x1A900
  else if x.nbr.state = 5 then m.dest == 0xFFFE || m.dest == 0xFFFD
  else true

/-- The message of a channel that is being sent, or is next. -/
def Port.nextTx (x : Port) (vc : Nat) : Option (Nat × TxMsg) :=
  let q := mget [] x.tx.queues vc
  match q.findIdx? (fun t => t.sent != 0) with
  | some i => (q[i]?).map (fun t => (i, t))
  | none =>
    match q.findIdx? (fun t => x.carries t.msg) with
    | some i => (q[i]?).map (fun t => (i, t))
    | none => none

/-- Has a message a flit that can be sent: its octets, or its end, are here? -/
def TxMsg.sendable (t : TxMsg) : Bool := t.eom || decide (240 * (t.sent + 1) < t.msg.payload.length + 1)

/-- Is a data flit of a channel ready, with a credit and room in the replay buffer (R276, R277, R279)? -/
def Port.ready (x : Port) (vc : Nat) : Bool :=
  decide (0 < x.credits vc) && decide (x.tx.buf.length < 256) && (match x.nextTx vc with | some (_, t) => t.sendable | none => false)

/-- The next flit of a message, unencrypted, and whether it is the last. -/
def Port.flitOf (x : Port) (t : TxMsg) : Flit × Bool :=
  let rest := t.msg.payload.drop (240 * t.sent)
  let eom := t.eom && decide (rest.length ≤ 240)
  let last := if eom then max 1 rest.length else 0
  ({ hdr := if t.sent = 0 then firstHeader t.msg eom last else x.contHeader t.msg.vc eom last, payload := pad240 (rest.take 240) }, eom)

/-- Flits of a message that an output port holds and has not sent. -/
def TxMsg.held (t : TxMsg) : Nat := ceilDiv t.msg.payload.length 240 - t.sent

/-- A message leaves the module's hands at an output port: the buffers of the flits it still holds are freed, and flits of it
that have not arrived will be discarded. -/
def State.dropTx (s : State) (t : TxMsg) : State :=
  match t.src with
  | none => s
  | some q => s.modPort q (fun x =>
      let y := x.freeBuf t.msg.vc t.held
      if t.eom then y else y.modRx (fun r => { r with msgs := r.msgs.map (fun m =>
        if !m.eom && m.msg.vc == t.msg.vc && m.out.isSome then { m with out := some 96 } else m) }))

/-- A record that a port discards counts as dropped in its queue (R162). -/
def State.dropRecord (s : State) (t : TxMsg) : State :=
  match t.queue with
  | none => s
  | some (g, e) => let q := s.queue g e; s.setQueue g e { q with dropped := satTo 0xFFFF (q.dropped + 1) }

end Sys2Proof.Machine
end

