-- ==== Sys2Proof/Machine/Fabric.lean ====
section
/-! DEFINITION. Fabric addresses, knocks, route tables, multicast branches and barrier trees (14 R291-R312). -/

namespace Sys2Proof.Machine

def State.modFabric (s : State) (f : Fabric → Fabric) : State := { s with fabric := f s.fabric }

/-! ### Fabric addresses (R291, R292) -/

def faClass (a : Nat) : Nat := bits a 15 15
def faGroup (a : Nat) : Nat := bits a 14 6
def faMember (a : Nat) : Nat := bits a 5 0

/-- Is an address reserved: a reserved MEMBER, or in the special groups and no special form (R292)? -/
def faReserved (a : Nat) : Bool :=
  if faClass a = 0 then decide (48 ≤ faMember a)
  else if faGroup a < 504 then decide (16 ≤ faMember a)
  else !(decide (0xFE00 ≤ a ∧ a ≤ 0xFF3F) || a == 0xFFFD || a == 0xFFFE)

/-! ### Discovery (R294-R296) -/

/-- IDENT of the module (R384). -/
def moduleIdent : List Byte := (sha256 Config.identityKey).take 16

/-- Octets of a knock (1) or answer (2) on a port (Table 14-3). -/
def State.knockData (s : State) (typ p nonce : Nat) : List Byte :=
  natLE 1 typ ++ [1, 0] ++ natLE 1 p ++ natLE 2 s.fabricAddr ++ natLE 4 0x9424 ++ natLE 1 s.stepping ++
    natLE 1 (bit s.keeper.approved + 2 * bit (s.fabric.role == 1) + 4 * bit (s.fabric.role == 2)) ++
    natLE 4 nonce ++ moduleIdent ++ natLE 4 s.wafer.boots ++ zeros 28

/-- A link-peer message of discovery, multicast acknowledgement or barrier kind. -/
def State.peerMsg (s : State) (vc dest addr : Nat) (data : List Byte) : Msg :=
  { kind := 0, vc := vc, dest := dest, src := s.fabricAddr, addr := addr, payload := data }

/-- The Keeper's generator serves `n` requests (R383). -/
def State.draw (s : State) (n : Nat) : State := { s with keeper := { s.keeper with drbgCount := s.keeper.drbgCount + n } }

/-- Queue the knock of a port (R294). -/
def State.queueKnock (s : State) (p : Nat) : State := s.queueOn p (s.peerMsg 1 0xFFFE 0x1A900 (s.knockData 1 p (s.port p).nbr.nonce))

/-- Send a knock on a port; its nonce is random (R294). -/
def State.sendKnock (s : State) (p : Nat) : State :=
  let nonce := s.free.toNat % 2 ^ 32
  (((s.useFree.draw 1).modPort p (fun x => { x with nbr := { x.nbr with
    state := if x.nbr.state = 0 then 1 else x.nbr.state
    nonce := nonce
    sends := 1
    sentAt := s.time } }))).queueKnock p

/-- Send a port's knock, which has no answer, once more (R295). -/
def State.resendKnock (s : State) (p : Nat) : State :=
  (s.modPort p (fun x => { x with nbr := { x.nbr with
    state := if x.nbr.sends = 7 then 2 else x.nbr.state
    sends := x.nbr.sends + 1
    sentAt := s.time } })).queueKnock p

/-- Ports in ACTIVE, rising. -/
def State.activePorts (s : State) : List Nat := (s.ports.filter (fun q => q.2.state == 4)).map (·.1)

def State.knockAll (s : State) : State := s.activePorts.foldl (fun a p => a.sendKnock p) s

/-- A knock or answer replaces the neighbour record, and is checked: for a loop, for the module's own address, and for another identity
than the authenticated one (R295, R296, R393). -/
def State.meetNeighbour (s : State) (p : Nat) (data : List Byte) : State :=
  let x := s.port p
  let ident := slice data 16 16
  let fa := leAt data 4 2
  let loop := decide (ident = moduleIdent)
  let conflict := !loop && decide (fa = s.fabricAddr ∧ s.fabricAddr ≠ 0xFFFF)
  let stranger := x.peerIdent.isSome && decide (x.peerIdent ≠ some ident)
  let st := if loop then 4 else if conflict || stranger then 5 else 3
  let s := s.modPort p (fun x => { x with peerFa := fa, nbr := { x.nbr with state := st, rec_ := slice data 0 64 } })
  let s := if loop then s.linkFault p 9 0 else s
  let s := if conflict then s.linkFault p 8 (leAt ident 0 4) else s
  if stranger then s.portSecurity p 9 (leAt ident 0 4) else s

/-- Is the peer of a port a module (Table 14-3)? -/
def Port.peerIsModule (x : Port) : Bool := decide (x.nbr.rec_ ≠ []) && leAt x.nbr.rec_ 2 1 == 0

/-! ### Multicast branches (R305-R308) -/

def State.mcEntry (s : State) (m : Nat) : Nat := mget (0xFFFF * 2 ^ 229) s.fabric.mcTab m
def mcVc (e : Nat) : Nat := bits e 246 245
def mcIn (e : Nat) : Nat := bits e 253 247
def mcRoot (e : Nat) : Nat := bits e 244 229
def mcOut (e : Nat) : List Nat := (List.range 96).filter (bitAt e)

/-- Octets of MC_ACK and MC_DONE (Table 14-8). -/
def mcData (group seq stuck failed : Nat) : List Byte :=
  natLE 1 group ++ (if failed = 0 then [0] else [1]) ++ natLE 2 stuck ++ natLE 4 seq ++ natLE 2 failed ++ zeros 6

/-- The first failed branch of a message in tree order: STUCK_FA, and how many failed. -/
def McMsg.stuck (m : McMsg) : Nat :=
  match m.fails.foldl (fun (a : Option (Nat × Nat)) f => match a with | some b => if b.1 ≤ f.1 then some b else some (f.1, f.2.1) | none => some (f.1, f.2.1)) none with
  | some b => b.2
  | none => 0xFFFF
def McMsg.failed (m : McMsg) : Nat := m.fails.foldl (fun a f => a + f.2.2) 0

/-- Report one completed message: MC_ACK out of IN, MC_DONE to an attached root, or to the module's own originator (R308). -/
def State.mcReport (s : State) (m : McMsg) : State :=
  let e := s.mcEntry m.group
  let root := mcRoot e
  let data := mcData m.group m.seq m.stuck m.failed
  if mcIn e = 0x7F ∧ root = s.fabricAddr then s.modFabric (fun f => { f with mcDone := f.mcDone ++ [(m.group, m.seq, m.stuck, m.failed)] })
  else if mcIn e = 0x7F ∨ (s.port (mcIn e)).peerFa = root ∧ faClass root = 1 then s.sendWrite 1 root (bits e 228 181) data
  else s.queueOn (mcIn e) (s.peerMsg 1 0xFFFE 0x1A940 data)

/-- Report the messages of a group in MCSEQ order, as long as the first of them has every branch complete. -/
def State.mcFlush (s : State) (group : Nat) : Nat → State
  | 0 => s
  | n + 1 =>
    match s.fabric.mcBuf.find? (fun m => m.group == group) with
    | none => s
    | some m =>
      if m.branches ≠ [] then s
      else ((s.mcReport m).modFabric (fun f => { f with mcBuf := f.mcBuf.filter (fun y => !(y.group == group && y.seq == m.seq)) })).mcFlush group n

/-- A branch completes a message, with what it reports as failed (R308). -/
def State.mcBranchDone (s : State) (p group seq stuck failed : Nat) : State :=
  let f (m : McMsg) : McMsg :=
    if m.group == group && m.seq == seq && m.branches.contains p then
      { m with
        branches := m.branches.filter (· != p)
        unsent := m.unsent.filter (· != p)
        fails := if failed = 0 then m.fails else m.fails ++ [(p, stuck, failed)] }
    else m
  let s := s.modFabric (fun y => { y with mcBuf := y.mcBuf.map f })
  s.mcFlush group (s.fabric.mcBuf.length + 1)

/-- A branch fails: it names its peer, with a LINK fault (R308). -/
def State.mcBranchFail (s : State) (p group seq peer : Nat) : State :=
  (s.linkFault p 0xA (group * 2 ^ 40 + peer * 2 ^ 16)).mcBranchDone p group seq peer 1

/-- A copy has left a port: its part of the buffer is free, and a branch to an endpoint that is no module completes when the
peer has accepted the last flit, the sequenced flit `seq` (R307, R308). -/
def State.mcSent (s : State) (p seq : Nat) (mc : Nat × Nat) : State :=
  let f (m : McMsg) : McMsg := if m.group == mc.1 && m.seq == mc.2 then { m with unsent := m.unsent.filter (· != p) } else m
  let s := s.modFabric (fun y => { y with mcBuf := y.mcBuf.map f })
  if (s.port p).peerIsModule then s
  else s.modPort p (fun x => x.modTx (fun t => { t with mcWait := t.mcWait ++ [(seq, mc.1, mc.2)] }))

/-- Octets of the multicast buffer in use (R307). -/
def State.mcUsed (s : State) : Nat :=
  (s.fabric.mcBuf.filter (fun m => m.unsent != [])).foldl (fun a m => a + m.msg.payload.length) 0

/-! ### Barrier trees (R309-R311) -/

def State.bar (s : State) (t : Nat) : Barrier := mget {} s.fabric.bars t
def State.setBar (s : State) (t : Nat) (b : Barrier) : State := s.modFabric (fun f => { f with bars := mset f.bars t b })

def Barrier.children (b : Barrier) : List Nat := (List.range 96).filter (bitAt b.entry)
def Barrier.parent (b : Barrier) : Nat := bits b.entry 253 247
def Barrier.isLocal (b : Barrier) : Bool := bitAt b.entry 254
def Barrier.valid (b : Barrier) : Bool := bitAt b.entry 255

/-- A barrier message (R310): 1 ARRIVE, 2 RELEASE. -/
def State.barMsg (s : State) (t typ gen : Nat) (failed : Bool) (fa : Nat) : Msg :=
  s.peerMsg 0 (0xFF00 + t) 0 (natLE 1 typ ++ natLE 1 (bit failed) ++ natLE 2 fa ++ natLE 4 gen ++ zeros 8)

/-- An arrival joins the generation; its failure is kept, the first FAILED_FA with it. -/
def Barrier.arrive (b : Barrier) (now : Nat) (p : Option Nat) (failed : Bool) (fa : Nat) : Barrier :=
  { b with
    arrived := match p with | some q => if b.arrived.contains q then b.arrived else q :: b.arrived | none => b.arrived
    here := b.here || p.isNone
    first := match b.first with | some t => some t | none => some now
    failed := b.failed || failed
    failedFa := if b.failed then b.failedFa else if failed then fa else 0 }

/-- A release: to every child in the same slot, the release word, and the next generation with the arrivals already held for
it (R310). -/
def State.barRelease (s : State) (t : Nat) (failed : Bool) (fa : Nat) : State :=
  let b := s.bar t
  let m := s.barMsg t 2 b.gen failed fa
  let s := b.children.foldl (fun a p => a.queueOn p m) s
  let rfa := bits b.entry 224 209
  let s := if rfa = 0xFFFF then s else s.sendWrite 1 rfa (bits b.entry 208 161) (natLE 8 (b.gen + bit failed * 2 ^ 32))
  let next : Barrier := { entry := b.entry, gen := (b.gen + 1) % 2 ^ 32 }
  s.setBar t (b.early.foldl (fun a q => a.arrive s.time (some q.1) (q.2.1 == 1) q.2.2) next)

/-- When every child, and the local participant, has arrived: ARRIVE goes up, or the root releases (R310). -/
def State.barCheck (s : State) (t : Nat) : Nat → State
  | 0 => s
  | n + 1 =>
    let b := s.bar t
    if b.valid ∧ !b.up ∧ b.first.isSome ∧ b.children.all (fun p => b.arrived.contains p) ∧ (!b.isLocal ∨ b.here) then
      if b.parent = 0x7F then (s.barRelease t b.failed b.failedFa).barCheck t n
      else (s.setBar t { b with up := true }).queueOn b.parent (s.barMsg t 1 b.gen b.failed b.failedFa)
    else s

/-- A generation completes with FAILED: every missing arrival counts as made, and the lowest missing port's peer is named, or
the module itself; `cause` 1 link, 2 timeout (R311). -/
def State.barFail (s : State) (t cause : Nat) : State :=
  let b := s.bar t
  let missing := b.children.filter (fun p => !b.arrived.contains p)
  let port := match missing with | p :: _ => p | [] => if b.parent < 96 then b.parent else (b.children[0]?).getD 0
  let fa := match missing with | p :: _ => (s.port p).peerFa | [] => s.fabricAddr
  let s := s.linkFault port 0xB (t * 2 ^ 40 + cause * 2 ^ 32 + fa * 2 ^ 16)
  let b := (missing.foldl (fun a p => a.arrive s.time (some p) true fa) b).arrive s.time none true fa
  (s.setBar t { b with failedFa := fa }).barCheck t 2

/-- A port leaves ACTIVE while begun generations await it (R311). -/
def State.barPortLost (s : State) (p : Nat) : State :=
  (s.fabric.bars.filter (fun q => q.2.valid && q.2.first.isSome && !q.2.up && q.2.children.contains p && !q.2.arrived.contains p)).foldl
    (fun a q => a.barFail q.1 1) s

end Sys2Proof.Machine
end

