-- ==== Sys2Proof/Machine/Links.lean ====
section
/-! DEFINITION. What a port's changes of state do (13 R269-R271, R278, R281, R283, R284), and the link exchange of the Keepers
(18 R391, R392). -/

namespace Sys2Proof.Machine

/-! ### Discards (R278) -/

/-- Messages that wait at a port, and those it is receiving. -/
def Port.messages (x : Port) : Nat := (mvals x.tx.queues).foldl (fun a q => a + q.length) 0 + (x.rx.msgs.filter (fun m => !m.eom)).length

/-- A port discards every message queued for it, the unsent rest of every message in progress and each partly received one;
each is counted (R278). Branch copies fail (R308), and records count as dropped (R162). -/
def State.discardAll (s : State) (p : Nat) : State :=
  let x := s.port p
  let ts := (mvals x.tx.queues).flatten
  let s := s.modPort p (fun x =>
    { (x.count cDiscarded x.messages) with
      tx := { x.tx with queues := [] }
      rx := { x.rx with msgs := x.rx.msgs.filter (·.eom) } })
  let s := ts.foldl (fun a t =>
    let a := (a.dropTx t).dropRecord t
    match t.mc with | some m => a.mcBranchFail p m.1 m.2 x.peerFa | none => a) s
  { s with ports := mmap (fun _ y => y.modTx (fun t => { t with queues := mmap (fun _ q => q.filter (fun m => m.eom || m.src != some p)) t.queues })) s.ports }

/-- A port leaves ACTIVE: begun barriers that await it fail, and the neighbour is unknown (R295, R311). -/
def State.leaveActive (s : State) (p : Nat) : State :=
  if (s.port p).state ≠ 4 then s
  else (s.barPortLost p).modPort p (fun x => { x with peerFa := 0xFFFF, nbr := {} })

/-- A port enters DOWN (or, disabled, DISABLED): what it holds is discarded, and its keys are gone (R270, R278). -/
def State.enterDown (s : State) (p st : Nat) : State :=
  let x := s.port p
  let n := x.messages
  let down := st = 1 ∧ (x.state = 4 ∨ x.state = 5)
  let s := ((s.leaveActive p).discardAll p).modPort p (fun y =>
    { y with
      state := st
      since := s.time
      lanes := 0
      cleartext := false
      keyState := 0
      keys := {}
      stagedTx := none
      stagedRx := none
      auth := {}
      peerIdent := none
      tx := {}
      rx := { msgs := y.rx.msgs } })
  if down then s.linkFault p 5 (n % 2 ^ 32) else s

/-! ### Widths and retraining (R269, R271) -/

/-- Lane groups of a width code, lowest first (Table 13-1). -/
def laneGroups (w : Nat) : List Nat := if w = 3 then [0xFF] else if w = 2 then [0xF, 0xF0] else if w = 1 then [3, 0xC, 0x30, 0xC0] else (List.range 8).map (2 ^ ·)

/-- The widest width, at most `want`, with a group of lanes that all lock: its code and lanes. -/
def widest (lock : Nat) : Nat → Option (Nat × Nat)
  | 0 => ((laneGroups 0).find? (fun g => lock &&& g == g)).map (fun g => (0, g))
  | w + 1 =>
    match (laneGroups (w + 1)).find? (fun g => lock &&& g == g) with
    | some g => some (w + 1, g)
    | none => widest lock w

/-- Lanes that lock and are not excluded from training. -/
def Port.usable (x : Port) (lock : Nat) : Nat := lock &&& (0xFF - x.laneOff % 256)

/-- A port retrains: at most `want` wide; it keeps keys and replay buffer (R271). -/
def State.enterRetraining (s : State) (p want : Nat) : State :=
  (s.leaveActive p).modPort p (fun x => { x with state := 5, since := s.time, want := want, retrains := satTo 0xFFFF (x.retrains + 1) })

/-! ### The link exchange (R391, R392) -/

/-- Content of a KEY message, filled to whole fragments. -/
def keyContent (l : List Byte) : List Byte := l ++ zeros ((236 - l.length % 236) % 236)

/-- KEY payloads of a message (R391): `i` is the first fragment's index. -/
def keyFragments (typ i : Nat) : List (List Byte) → List (List Byte)
  | [] => []
  | [c] => [natLE 1 typ ++ [1] ++ natLE 2 i ++ slice c 0 236]
  | c :: r => (natLE 1 typ ++ [0] ++ natLE 2 i ++ slice c 0 236) :: keyFragments typ (i + 1) r

def keyPayloads (typ : Nat) (l : List Byte) : List (List Byte) :=
  keyFragments typ 0 (if l.isEmpty then [[]] else chunks 236 (l.length + 1) l)

def State.sendKey (s : State) (p typ : Nat) (l : List Byte) : State :=
  s.modPort p (fun x => x.modTx (fun t => { t with keyFlits := t.keyFlits ++ keyPayloads typ l }))

/-- The session credential: IDENT, the cold-boot count and the encapsulation key (R391; log 13). -/
def State.credential (s : State) : List Byte :=
  moduleIdent ++ natLE 4 s.wafer.boots ++ slice (Config.kemPublic s.keeper.kemNo) 0 1184

/-- The module's HELLO: session credential, its signature, and the device certificate. -/
def State.helloContent (s : State) : List Byte :=
  let cred := s.credential
  keyContent (cred ++ Config.slhSign 0 cred ++ Config.certificates 0)

def State.modAuth (s : State) (p : Nat) (f : LinkAuth → LinkAuth) : State := s.modPort p (fun x => { x with auth := f x.auth })

/-- Can the Keeper and the port's cipher engine serve an exchange (R379, R381)? -/
def State.canExchange (s : State) (p : Nat) : Bool := s.keeper.st == 2 && !(s.port p).cipherOff

/-- Begin an exchange in SECURING: the HELLO goes out (R391). -/
def State.beginExchange (s : State) (p : Nat) : State :=
  if !s.canExchange p then s.modPort p (fun x => { x with auth := {} })
  else
    let h := s.helloContent
    (s.modPort p (fun x => { x with keyState := 1, auth := { helloOut := h } })).sendKey p 1 h

/-- A port enters SECURING (R270, R283). -/
def State.enterSecuring (s : State) (p : Nat) : State :=
  ((s.leaveActive p).modPort p (fun x =>
    { x with
      state := 3
      since := s.time
      cleartext := false
      keyState := 0
      keys := {}
      stagedTx := none
      stagedRx := none
      peerIdent := none
      tx := { queues := x.tx.queues }
      rx := { msgs := x.rx.msgs } })).beginExchange p

/-- A port enters ACTIVE: sequence numbers, credits and runs begin at 0, and a knock goes out (R279, R277, R294). -/
def State.enterActive (s : State) (p : Nat) (cleartext : Bool) : State :=
  (s.modPort p (fun x =>
    { x with
      state := 4
      since := s.time
      cleartext := cleartext
      tx := { queues := x.tx.queues, keyFlits := x.tx.keyFlits }
      rx := { msgs := x.rx.msgs, keyMsgs := x.rx.keyMsgs } })).sendKnock p

/-- An exchange fails: ABORT, a SECURITY fault, and a new exchange after 1 s; a port in SECURING stays there (R392). -/
def State.linkFail (s : State) (p cause : Nat) : State :=
  ((s.sendKey p 4 (natLE 2 cause)).portSecurity p 8 cause).modPort p (fun x =>
    { x with keyState := 3, auth := { x.auth with failed := true, retryAt := some (s.time + secs 1) } })

/-- Four free words as 32 random octets. -/
def State.nonce32 (s : State) : List Byte :=
  (List.range 4).flatMap (fun i => natLE 8 (Config.freeWord (s.freeCount + i)).toNat)

/-- Send an ENCAP to the peer's encapsulation key, which its credential holds after IDENT and the cold-boot count (R391). -/
def State.sendEncap (s : State) (p : Nat) : State :=
  let key := slice (s.port p).auth.helloIn 20 1184
  let n := s.freeCount
  let c := keyContent (slice (Config.kemCipher n key) 0 1088 ++ s.nonce32)
  let s := { s with freeCount := s.freeCount + 5 }.draw 2
  (s.modAuth p (fun a => { a with encapOut := c, secretOut := Config.kemSecret n key })).sendKey p 2 c

/-- Peer's IDENT in its HELLO. -/
def LinkAuth.peer (a : LinkAuth) : List Byte := slice a.helloIn 0 16

/-- Is the module the side with the lower IDENT? -/
def LinkAuth.isL (a : LinkAuth) : Bool := decide (beNat moduleIdent < beNat a.peer)

/-- Transcript hash; a rekey prefixes the one before (R392). -/
def LinkAuth.hash (a : LinkAuth) : List Byte :=
  sha256 (if a.isL then a.helloOut ++ a.helloIn ++ a.encapOut ++ a.encapIn else a.helloIn ++ a.helloOut ++ a.encapIn ++ a.encapOut)
def LinkAuth.transcript (a : LinkAuth) : List Byte := a.prior ++ a.hash

/-- The label CASEMENT LINK and the word FINISH, in ASCII. -/
def labelLink : List Byte := [0x43, 0x41, 0x53, 0x45, 0x4D, 0x45, 0x4E, 0x54, 0x20, 0x4C, 0x49, 0x4E, 0x4B]
def wordFinish : List Byte := [0x46, 0x49, 0x4E, 0x49, 0x53, 0x48]

/-- The five outputs of the KDF (R392). -/
def LinkAuth.derive (a : LinkAuth) : LinkKeys :=
  let sec := if a.isL then a.secretOut ++ a.secretIn else a.secretIn ++ a.secretOut
  let k := Config.kdf sec labelLink a.transcript 104
  let lh := slice k 0 32
  let hl := slice k 32 32
  let slh := slice k 64 4
  let shl := slice k 68 4
  let c := slice k 72 32
  if a.isL then { txKey := lh, rxKey := hl, txSalt := slh, rxSalt := shl, confirm := c }
  else { txKey := hl, rxKey := lh, txSalt := shl, rxSalt := slh, confirm := c }

def finishMac (k : LinkKeys) (ident transcript : List Byte) : List Byte := hmac k.confirm (wordFinish ++ ident ++ transcript)

/-- With both HELLOs and both ENCAPs, the keys are derived and the FINISH goes out (R392). -/
def State.tryKeys (s : State) (p : Nat) : State :=
  let a := (s.port p).auth
  if a.helloIn = [] ∨ a.encapIn = [] ∨ a.encapOut = [] ∨ a.keys.isSome then s
  else
    let k := a.derive
    (s.modAuth p (fun a => { a with keys := some k })).sendKey p 3 (finishMac k moduleIdent a.transcript)

/-- A rekey begins: a fresh ENCAP under the credentials already verified (R284, R392). -/
def State.beginRekey (s : State) (p : Nat) : State :=
  let x := s.port p
  if !s.canExchange p ∨ x.cleartext ∨ x.auth.rekey ∨ x.stagedTx.isSome ∨ x.stagedRx.isSome then s
  else
    let a : LinkAuth := { helloOut := x.auth.helloOut, helloIn := x.auth.helloIn, prior := x.auth.hash, rekey := true }
    (s.modPort p (fun x => { x with keyState := 1, auth := a })).sendEncap p

/-- The first whole KEY message of a kind at a port, taken out. -/
def State.takeKey (s : State) (p typ : Nat) : Option (List Byte × State) :=
  let r := (s.port p).rx
  match r.keyMsgs.findIdx? (fun k => k.1 == typ) with
  | none => none
  | some i => some ((lget (0, []) r.keyMsgs i).2, s.modPort p (fun x => x.modRx (fun y => { y with keyMsgs := y.keyMsgs.eraseIdx i })))

end Sys2Proof.Machine
end

