-- ==== Sys2Proof/Machine/Security.lean ====
section
/-! DEFINITION. The Keeper's mailbox, the TAP's lock, and zeroisation (18 R387, R388, R395-R397, 22 R454). -/

namespace Sys2Proof.Machine

/-! ### The mailbox (R387, R388) -/

/-- Table 18-10. -/
def mbOK : Nat := 0
def mbBadEntry : Nat := 0x11
def mbNotPermitted : Nat := 0x13
def mbAuthFailed : Nat := 0x20
def mbKeeperError : Nat := 0x80
def mbNoSpace : Nat := 0x81
def mbModeRefused : Nat := 0x82
def mbUnwrapFailed : Nat := 0x83
def mbClaimed : Nat := 0x84
def mbKeyUnknown : Nat := 0x85
def mbKeyExists : Nat := 0x86

def State.mailbox (s : State) (g : Nat) : Mailbox := mget {} s.keeper.mail g

/-- A request ends: STATE is DONE with its result, and the next one may be served. -/
def State.mbDone (s : State) (g result : Nat) (resp : List Byte) : State :=
  s.modKeeper (fun k => { k with
    queue := k.queue.filter (· != g)
    job := none
    mail := mset k.mail g { mget {} k.mail g with state := 2, result := result, respLen := resp.length, resp := resp } })

/-- The request that is served next: its window, when no other is being served. -/
def State.mbHead (s : State) : Option Nat := if s.keeper.job.isSome then none else s.keeper.queue.head?

/-- Octets of a window's request area. -/
def State.mbReq (s : State) (g off n : Nat) : List Byte := (s.mailbox g).req.read off n
def State.mbOp (s : State) (g : Nat) : Nat := leNat (s.mbReq g 0 2)

/-- Operations of Table 18-9: all, the critical ones, and the owner's own. -/
def mbOps : List Nat := [0x10, 0x11, 0x20, 0x21, 0x22, 0x23, 0x30, 0x31, 0x40, 0x41, 0x50, 0x51, 0x60]
def mbCritical (op : Nat) : Bool := [0x21, 0x22, 0x23, 0x30, 0x40, 0x41, 0x50, 0x51, 0x60].contains op
def mbOwner (op : Nat) : Bool := [0x20, 0x30, 0x31, 0x40, 0x41, 0x50, 0x51, 0x60].contains op

/-- The head request, of operation `op` and of window `g`, is served: the checks of R388 in order, then its own effect on its body. -/
def withRequest (g op : Nat) (s : State) (f : State → List Byte → State) : Out :=
  if 64 ≤ g then .next s
  else if s.mbHead ≠ some g ∨ s.mbOp g ≠ op then .next s
  else
    let head := s.mbReq g 0 8
    let len := leAt head 4 4
    let counter := leNat (s.mbReq g 8 8)
    let tag := s.mbReq g 16 16
    if s.keeper.st ≠ 2 then .next (s.mbDone g mbKeeperError [])
    else if leAt head 2 2 ≠ 0 ∨ 32736 < len ∨ (mbCritical op = false ∧ (counter ≠ 0 ∨ tag ≠ zeros 16)) then .next (s.mbDone g mbBadEntry [])
    else if mbOwner op ∧ g ≠ 0 then .next (s.mbDone g mbNotPermitted [])
    else
      let body := s.mbReq g 32 len
      if mbCritical op then
        if !s.keyReady g then .next s
        else
          let (s, ok) := s.checkPair g counter tag (head ++ body)
          .next (if ok then f s body else s.mbDone g mbAuthFailed [])
      else .next (f s body)

/-! ### The TAP's lock (R397, R454) -/

/-- The TAP locks: an instruction that is no longer available gives way to BYPASS, and every pin is functional again. -/
def State.tapLock (s : State) : State :=
  let s := s.modKeeper (fun k => { k with tap := 0, tapUntil := 0 })
  if s.iface.inst = 0xFF ∨ s.iface.inst = 1 then s
  else s.modIface (fun f => { f with inst := 0xFF, pins := 0, halted := false })

/-! ### Zeroisation (R395, R396) -/

/-- Is a guest still in DELETING, or a region in RELEASING? -/
def State.clearing (s : State) : Bool := s.guests.any (fun q => q.2.gstate == 2) || s.regions.any (fun q => q.2.state == 5)

/-- A port whose keys are gone: it handles its traffic as after a second seal failure, and waits in SECURING (R283, R381). -/
def State.dropLink (s : State) (p : Nat) : State := if 3 ≤ (s.port p).state ∧ (s.port p).state ≤ 5 then (s.discardAll p).enterSecuring p else s

/-- Every port whose link is up. -/
def State.dropLinks (s : State) : State := (List.range 96).foldl State.dropLink s

/-- Steps 3 to 6 of a zeroisation (R395): keys and enrolments go, a new session KEM key is made, ports are secured anew, approved mode
ends, and the module is UNCLAIMED. -/
def State.zeroiseKeys (s : State) (kind : Nat) : State :=
  let s := s.modKeeper (fun k => { k with
    st := if kind = 3 then 4 else k.st
    decommissioned := k.decommissioned || kind == 3
    keys := []
    enrolled := []
    kemNo := k.kemNo + 1
    approved := false
    leave := false
    zeroing := none })
  let s := ((s.draw 2).dropLinks).security 0xE kind
  let s := if kind = 3 then s.cause 60 else s
  match s.keeper.job with
  | some j => if j.op = 0x50 ∨ j.op = 0x51 then s.mbDone j.guest mbOK [] else s
  | none => s

/-- A zeroisation that has waited for its guests and regions ends. -/
def State.settleZeroise (s : State) : State :=
  match s.keeper.zeroing with
  | some k => if s.clearing then s else s.zeroiseKeys k
  | none => s

end Sys2Proof.Machine
end

