-- ==== Sys2Proof/Machine/GlazeOps.lean ====
section
/-! DEFINITION. Commands of the Glaze engine: loads, releases and guests (06 R137-R142, 07 R143-R146, R160). -/

namespace Sys2Proof.Machine

/-- The region enters LOADING; the header and directory are checked, and room is found for the copy (R137 steps 1, 2,
R138). -/
def State.startLoad (s : State) (r : Nat) (l : LoadRec) : State :=
  let x := s.region r
  let room := decide (s.retainedUse + l.len ≤ 3221225472)
  let s := s.modRegion r (fun y => { y with
    state := 1
    guest := if x.state = 4 then y.guest else l.guest
    load := some { l with phase := 2, oldState := if x.state = 4 then 4 else 0, since := s.time } })
  if !structureOk l.bytes l.len then s.refuseLoadOf r stBadFormat
  else if !room then s.refuseLoadOf r stNoImageSpace
  else s

/-- The test of the region number: refused, queued behind a release, or begun (R137 step 1). -/
def State.tryLoad (s : State) (r : Nat) (l : LoadRec) : State :=
  let x := s.region r
  if x.state ≠ 0 ∧ l.guest ≠ 0 ∧ x.guest ≠ l.guest then s.complete l.entry stNoRegion 0
  else if x.state = 1 ∨ x.state = 2 ∨ x.state = 3 then s.complete l.entry stRegionBusy 0
  else if x.state = 5 then s.modRegion r (fun y => { y with loadPending := y.loadPending ++ [l] })
  else s.startLoad r l

/-- LOAD: critical; the region number is tested, then the header and directory `hdr` (R137 steps 1 and 2). -/
def execLoad (g : Nat) (hdr : List Byte) (s : State) : Out :=
  withCritical g 3 0x40 s (fun s id w =>
    s.tryLoad (bits w 223 218)
      { entry := id, guest := g, phase := 1, anyPlace := bitAt w 217, anchorX := bits w 216 207, anchorY := bits w 206 198,
        srcFa := bits w 197 182, srcAddr := bits w 181 134, len := bits w 133 104, bytes := hdr })

/-- IMAGE_COPY_COMPLETE: the image is in the retained-image area and measured (R137 step 2, R131). -/
def execImageCopyComplete (r : Nat) (bytes : List Byte) (s : State) : Out :=
  if 64 ≤ r then .next s
  else
    match (s.region r).load with
    | none => .next s
    | some l =>
      if l.phase ≠ 2 ∨ bytes.length ≠ l.len then .next s
      else if !structureOk bytes l.len then .next (s.refuseLoadOf r stBadFormat)
      else .next (s.modRegion r (fun y => { y with load := some { l with
        phase := 3, bytes := bytes, measure := sha256 (bytes.take (bytes.length - 7880)), since := s.time } }))

/-- Panes that count against a guest's allowance: those of its regions in LOADING to STOPPED, but for region `r`
(Table 7-1). -/
def State.panesHeld (s : State) (g r : Nat) : Nat :=
  s.regions.foldl (fun a q => if q.2.guest = g ∧ q.1 ≠ r ∧ 1 ≤ q.2.state ∧ q.2.state ≤ 4 then
    a + (match q.2.load with | some l => max q.2.panes.length l.panes.length | none => q.2.panes.length) else a) 0

/-- Checks of a load after its signature, in the order of R137 step 4: the image and its panes, or the refusal. -/
def State.loadVerdict (s : State) (r : Nat) (l : LoadRec) (ok : Bool) : Except Nat (Image × List Nat) :=
  let h := imageHeader l.bytes
  let sig := l.bytes.drop (l.bytes.length - 7880)
  let bind := bits h 935 929
  if !(ok && s.keeper.keyPermits 1 (sig.take 16) bind && leAt sig 16 2 == 1) then .error stBadSignature
  else if bits h 975 944 ≠ 0x9424 ∨ bits h 991 976 ≠ 1 then .error stWrongPart
  else
    match parseImage l.bytes with
    | none => .error stBadFormat
    | some p =>
      if !p.formatOk || leAt sig 18 6 != 0 then .error stBadFormat
      else if (bits h 943 942 = 1 ∧ s.stepping ≠ 0) ∨ (bits h 943 942 = 2 ∧ s.stepping ≠ 1) then .error stClassMismatch
      else if bind ≠ 0x7F ∧ bind ≠ l.guest then .error stGuestMismatch
      else if l.guest ≠ 0 ∧ (s.guest l.guest).panes < s.panesHeld l.guest r + p.panes then .error stQuotaExceeded
      else
        match s.place r p l with
        | .error e => .error e
        | .ok ps => .ok (p.toImage l.bytes l.measure, ps)

/-- SIGNATURE_VERIFIED: the Keeper's verdict, the remaining checks and the placement; the panes are reserved and brought
to Open, which Ajar panes reach without admission (R137 steps 3 to 5, R327). -/
def execSignatureVerified (r : Nat) (ok : Bool) (s : State) : Out :=
  if 64 ≤ r then .next s
  else
    match (s.region r).load with
    | none => .next s
    | some l =>
      if l.phase ≠ 3 ∨ s.keeper.st ≠ 2 then .next s
      else
        match s.loadVerdict r l ok with
        | .error e => .next (s.refuseLoadOf r e)
        | .ok (im, ps) =>
          let open_ := ps.all (fun p => (s.pane p).power == 0)
          let ajar := ps.all (fun p => decide ((s.pane p).power ≤ 1))
          let rails := ps.map (fun p => let w := (s.pane p).pwr; (p, w.base, w.from_, w.rampAt))
          let s := s.modRegion r (fun y => { y with load := some { l with
            phase := if open_ then 5 else 4, image := some im, panes := ps, rails := rails, since := s.time } })
          .next (if open_ then s
            else if ajar then s.modRegPower r (fun p => { p with trans := 2, target := 0, transAt := s.time })
            else s.modRegPower r (fun p => { p with trans := 3, target := 0, ramp := none, req := some { kind := 1, since := s.time } }))

/-- LOAD_ADMISSION_TIMEOUT: panes not admitted within 100 ms refuse the load (R138, R330). -/
def execLoadAdmissionTimeout (r : Nat) (s : State) : Out :=
  if 64 ≤ r then .next s
  else
    match (s.region r).load with
    | some l =>
      if l.phase = 4 ∧ (s.region r).power.req.isSome ∧ l.since + ms 100 ≤ s.time then
        .next (s.refuseLoadOf r stPowerDeferred)
      else .next s
    | none => .next s

/-- CELL_WRITES_COMPLETE: scrub and writes end and the region is LOADED (R137 steps 6 to 8). -/
def execCellWritesComplete (r : Nat) (s : State) : Out :=
  if 64 ≤ r then .next s
  else
    match (s.region r).load with
    | some l => if l.phase = 5 then .next (s.finishLoadOf r) else .next s
    | none => .next s

/-- RELEASE: critical; aborts a load, or begins the release of a region (R142, R139, R460). -/
def execRelease (g : Nat) (s : State) : Out :=
  withCritical g 3 0x41 s (fun s id w =>
    let r := bits w 223 218
    if !s.regionOk g r [1, 2, 3, 4] then s.complete id stNoRegion 0
    else if (s.region r).state = 1 then
      let s := s.abortLoad r
      if (s.region r).state = 4 then s.beginRelease r (some id) else s.complete id stOK 0
    else s.beginRelease r (some id))

/-- SCRUB_COMPLETE: the scrub of a release ends; the region is FREE, and a load queued behind it begins; further ones meet the region number anew (R137, R141, R142). A
row-shift in progress completes first. -/
def execScrubComplete (r : Nat) (s : State) : Out :=
  if 64 ≤ r then .next s
  else
    let x := s.region r
    if x.state ≠ 5 ∨ x.shifts ≠ [] then .next s
    else
      let s := (s.endRelease r).modRegion r (fun y => { y with loadPending := [] })
      .next (x.loadPending.foldl (fun a l => a.tryLoad r l) s).settleZeroise

/-! ### Guests -/

/-- An ABSENT guest becomes ACTIVE with its allowances, empty queues and selectors at zero, and the TAP locks again (R143, R146, R163,
R397, R426). -/
def State.createGuest (s : State) (id : EntryId) (w : Nat) : State :=
  let n := bits w 223 218
  let s := s.setGuest n { gstate := 1, panes := bits w 217 208, slots := bits w 207 191, hbm := bits w 190 180,
                          src0 := bits w 179 164, src1 := bits w 163 148,
                          autSrc := 0, sampling := (s.guest n).sampling }
  let s := s.modMgmt (fun m => { m with sel := m.sel.filter (fun e => e.1 / 256 != n) })
  s.tapLock.complete id stOK 0

/-- GUEST_CREATE: critical, owner only; an ABSENT guest is created; one in DELETING makes the entry wait; with debug unlocked the
entry is refused (R143, R146, R160, R397). -/
def execGuestCreate (g : Nat) (s : State) : Out :=
  withCritical g 3 0x48 s (fun s id w =>
    let n := bits w 223 218
    let x := s.guest n
    if s.keeper.tap = 2 then s.complete id stNotPermitted 0
    else if x.gstate = 1 then s.complete id stGuestExists 0
    else if x.gstate = 2 then s.setGuest n { x with createWait := x.createWait ++ [id] }
    else s.createGuest id w)

/-- GUEST_LIMITS: an ACTIVE guest's allowances change (R144). -/
def execGuestLimits (g : Nat) (s : State) : Out :=
  withCritical g 3 0x4A s (fun s id w =>
    let n := bits w 223 218
    let x := s.guest n
    if x.gstate ≠ 1 then s.complete id stNoGuest 0
    else (s.setGuest n { x with panes := bits w 217 208, slots := bits w 207 191, hbm := bits w 190 180,
                                src0 := bits w 179 164, src1 := bits w 163 148 }).complete id stOK 0)

/-- Every queued entry of a guest that has not started completes with GUEST_DELETED (R146 step 2). -/
def State.flushQueues (s : State) (n : Nat) : State :=
  [0, 1, 2, 3].foldl (fun a e =>
    (a.queue n e).lists.foldl (fun b l =>
      let ids := (List.range l.entries.length).map (fun i => (⟨n, e, l.seq, i⟩ : EntryId))
      let b := ids.foldl (fun c id =>
        match c.entry id with
        | some x => if x.prog = 0 then c.finishOne id stGuestDeleted 0 else c
        | none => c) b
      let b := (b.settleAuth ⟨n, e, l.seq, 0⟩).retireList n e l.seq
      b.settleWaits n (b.startedWaits n).length) a) s

/-- Parked pages of a guest are freed with its park records (R146 step 3). -/
def State.freeParks (s : State) (n : Nat) : State :=
  (s.cache.parks.filter (fun p => p.2.guest == n && p.2.state != 0)).foldl (fun a p =>
    let a := p.2.slot.descs.foldl (fun b d => b.decRef d) a
    let a := a.freeLog p.2.slot
    a.setPark p.1 { uses := p.2.uses }) s

/-- The steps of a deletion that need no waiting (R146 steps 1 to 4): the regions of the guest are released, and its loads are
abandoned, those behind a release with LOAD_ABORTED (R139; DEDUCED, log 78). -/
def State.beginDelete (s : State) (n : Nat) (entry : Option EntryId) : State :=
  let s := s.modGuest n (fun x => { x with gstate := 2, delEntry := entry })
  let s := s.flushQueues n
  let mine := (s.regions.filter (fun q => q.2.guest == n && q.2.state != 0)).map (·.1)
  let s := mine.foldl (fun a r =>
    let a := if (a.region r).state = 1 then a.abortLoad r else a
    if (a.region r).state = 0 ∨ (a.region r).state = 5 then a else a.beginRelease r none) s
  let s := s.regions.foldl (fun a q =>
    let gone := q.2.loadPending.filter (fun l => l.guest == n)
    (gone.foldl (fun b l => b.complete l.entry stLoadAborted 0) a).modRegion q.1 (fun x => { x with
      loadPending := x.loadPending.filter (fun l => l.guest != n) })) s
  let s := s.freeParks n
  let s := (s.weight.loads.filter (fun l => l.guest == n)).foldl (fun a l => a.undoLoad l.id stCancelled) s
  let gens := s.weight.gens.filter (fun y => y.guest == n)
  let s := gens.foldl (fun a y => a.freeRuns y.runs) s
  s.modWeight (fun e => { e with gens := e.gens.filter (fun y => y.guest != n) })

/-- GUEST_DELETE: critical, owner only (R146). -/
def execGuestDelete (g : Nat) (s : State) : Out :=
  withCritical g 3 0x49 s (fun s id w =>
    let n := bits w 223 218
    if (s.guest n).gstate ≠ 1 then s.complete id stNoGuest 0 else s.beginDelete n (some id))

/-- Campion frees a deleted guest's mask sources (R218). -/
def State.freeSources (s : State) (n : Nat) : State :=
  let mine := s.campion.sources.filter (fun q => q.2.guest == n && q.2.state != 0)
  let s := mine.foldl (fun a q => (a.freeRuns q.2.copy0).freeRuns q.2.copy1) s
  let gone := mine.map (·.1)
  { s with campion := { s.campion with
      sources := s.campion.sources.filter (fun q => !gone.contains q.1)
      cached := s.campion.cached.filter (fun q => !gone.contains q.1) } }

/-- GUEST_DELETE_COMPLETE: the guest's regions are FREE and its units zeroed; its key goes, the guest is ABSENT, and the
entry completes; a GUEST_CREATE that waited begins (R146 steps 5 to 7). -/
def execGuestDeleteComplete (n : Nat) (s : State) : Out :=
  if 64 ≤ n then .next s
  else
    let x := s.guest n
    let busy := s.regions.any (fun q => q.2.guest == n && q.2.state != 0)
    if x.gstate ≠ 2 ∨ busy then .next s
    else
      let s := s.freeSources n
      let dirty := s.extents.filter (fun e => e.guest == n && e.st == 2)
      let s := dirty.foldl (fun a e => a.zeroUnits e.start e.len n) s
      let s := s.modKeeper (fun k => { k with keys := mdel k.keys n })
      let s := s.setGuest n { gstate := 0, sampling := x.sampling }
      let s := match x.delEntry with | some id => s.complete id stOK 0 | none => s
      match x.createWait with
      | [] => .next s.settleZeroise
      | id :: rest =>
        match s.entry id with
        | none => .next s.settleZeroise
        | some e => .next ((rest.foldl (fun a i => a.complete i stGuestExists 0) (s.createGuest id e.word)).settleZeroise)

end Sys2Proof.Machine
end

