-- ==== Sys2Proof/Machine/KeeperOps.lean ====
section
/-! DEFINITION. Commands of the Keeper: mailbox operations, counters, self-tests, tamper and the TAP's lock (18 R379-R397, 19
R408-R410). -/

namespace Sys2Proof.Machine

/-! ### Credentials and attestation (R391, R394) -/

/-- CRED_GET: the device certificate, the CA certificate and the session credential (Table 18-9). -/
def execCredGet (g : Nat) (s : State) : Out :=
  withRequest g 0x10 s (fun s body =>
    if body ≠ [] then s.mbDone g mbBadEntry []
    else s.mbDone g mbOK (Config.certificates 0 ++ Config.certificates 1 ++ s.credential))

/-- The slot the module booted: the armed one in an attempt, else the active one (R411). -/
def Boot.bootedIndex (b : Boot) : Nat := if b.attempting then 1 - b.active else b.active
def Boot.slotAt (b : Boot) (i : Nat) : FwSlot := if i = 0 then b.slotA else b.slotB
def Boot.booted (b : Boot) : FwSlot := b.slotAt b.bootedIndex

/-- Entry of a firmware part in the report (Table 18-12). -/
def Boot.partEntry (b : Boot) (i : Nat) : List Byte :=
  let x := b.booted
  natLE 1 i ++ natLE 1 b.bootedIndex ++ natLE 1 (lget 0 x.svns i) ++ natLE 1 0 ++ natLE 4 (lget 0 x.versions i) ++ slice (lget [] x.digests i) 0 32

/-- Entry of a region in the report (Table 18-12). -/
def State.regionEntry (s : State) (r : Nat) (x : Region) : List Byte :=
  let load := if x.state = 1 then x.load else none
  let im := match load with | some l => l.image | none => x.image
  let measure := match load with | some l => l.measure | none => (im.map (·.measure)).getD []
  let panes := match load with | some l => l.panes.length | none => x.panes.length
  let w := x.current
  let gen := (w.map (fun p => p.2.gen)).getD 0
  let man := (w.bind (fun p => (s.weight.gens.find? (fun y => y.guest == p.2.owner && y.num == p.2.gen)).map (·.measure))).getD []
  natLE 1 r ++ natLE 1 x.guest ++ natLE 1 x.state ++ natLE 1 ((im.map (·.cls)).getD 0) ++ natLE 2 panes ++ natLE 2 0 ++
    slice measure 0 32 ++ natLE 2 gen ++ natLE 6 0 ++ slice man 0 32

/-- FLAGS of the report. -/
def State.reportFlags (s : State) : Nat :=
  bit s.keeper.approved + 2 * bit (s.keeper.tap != 0) + 4 * bit s.keeper.tamper + 8 * bit s.keeper.standby +
    16 * bit (s.ports.any (fun q => q.2.cleartext))

/-- The attestation report of a requester (Table 18-12). -/
def State.attestation (s : State) (g : Nat) (nonce : List Byte) : List Byte :=
  let mine := s.regions.filter (fun q => (q.2.state == 1 || q.2.state == 2 || q.2.state == 3 || q.2.state == 4) && (g == 0 || q.2.guest == g))
  let rep := natLE 4 0x41545354 ++ natLE 2 1 ++ natLE 2 mine.length ++ natLE 4 0x9424 ++ natLE 1 s.stepping ++ natLE 1 s.reportFlags ++
    natLE 1 g ++ natLE 1 0 ++ moduleIdent ++ slice nonce 0 32 ++ natLE 8 s.nowNs ++ natLE 4 s.wafer.boots ++ natLE 4 0 ++
    (List.range 7).flatMap s.boot.partEntry ++ zeros 24 ++ mine.flatMap (fun q => s.regionEntry q.1 q.2)
  rep ++ moduleIdent ++ natLE 2 1 ++ zeros 6 ++ slice (Config.slhSign 0 (sha256 rep)) 0 7856

/-- ATTEST: the report starts, and is complete later (R394, MB_STATUS_DONE). -/
def execAttest (g : Nat) (s : State) : Out :=
  withRequest g 0x11 s (fun s body =>
    if body.length ≠ 32 then s.mbDone g mbBadEntry []
    else s.modKeeper (fun k => { k with job := some { guest := g, op := 0x11, result := mbOK, resp := s.attestation g body, startAt := s.time } }))

/-! ### Keys (R390) -/

/-- The label of the key-wrapping key, in ASCII: ILZ KEYWRAP. -/
def labelWrap : List Byte := [0x49, 0x4C, 0x5A, 0x20, 0x4B, 0x45, 0x59, 0x57, 0x52, 0x41, 0x50]

/-- The key-encryption key of a wrapped key: IDENT, the target guest and the cold-boot count are its context. -/
def State.wrapKey (s : State) (target : Nat) (blob : List Byte) : List Byte :=
  Config.kdf (Config.kemDecap s.keeper.kemNo (slice blob 0 1088)) labelWrap (moduleIdent ++ natLE 1 target ++ natLE 4 s.wafer.boots) 32

/-- The command key a wrapped key carries, when its GCM tag verifies. -/
def State.unwrap (s : State) (target : Nat) (blob : List Byte) : Option (List Byte) :=
  let kek := s.wrapKey target blob
  let ct := slice blob 1088 32
  if slice (Config.gcmTag kek (zeros 12) [] ct) 0 16 = slice blob 1120 16 then some (gcmCrypt kek (zeros 12) 0 ct) else none

def State.setKey (s : State) (g : Nat) (key : List Byte) : State := s.modKeeper (fun k => { k with keys := mset k.keys g (newKey key) })

/-- OWNER_CLAIM: an UNCLAIMED module takes its owner's key; the tamper latch is cleared (R390, R396). -/
def execOwnerClaim (g : Nat) (s : State) : Out :=
  withRequest g 0x20 s (fun s body =>
    if body.length ≠ 1136 then s.mbDone g mbBadEntry []
    else if (s.cmdKey 0).isSome then s.mbDone g mbClaimed []
    else
      match s.unwrap 0 body with
      | none => s.mbDone g mbUnwrapFailed []
      | some key => ((s.setKey 0 key).modKeeper (fun k => { k with tamper := false })).mbDone g mbOK [])

/-- KEY_INSTALL: a wrapped key becomes the command key of its target; LAC is 0 and P 131,072 (R389, R390). -/
def execKeyInstall (g : Nat) (s : State) : Out :=
  withRequest g 0x21 s (fun s body =>
    let t := leAt body 0 1
    if body.length ≠ 1140 ∨ leAt body 1 3 ≠ 0 ∨ 64 ≤ t then s.mbDone g mbBadEntry []
    else if (g ≠ 0 ∧ t ≠ g) ∨ (s.guest t).gstate ≠ 1 then s.mbDone g mbNotPermitted []
    else
      match s.unwrap t (body.drop 4) with
      | none => s.mbDone g mbUnwrapFailed []
      | some key => (s.setKey t key).mbDone g mbOK [])

/-- KEY_ENROLL: a public key of a kind and guest mask is enrolled; the response is its KEYID (R390). -/
def execKeyEnroll (g : Nat) (s : State) : Out :=
  withRequest g 0x22 s (fun s body =>
    let kind := leAt body 0 1
    let mask := leAt body 8 8
    let pub := slice body 16 32
    let keyid := (sha256 pub).take 16
    let mine := s.keeper.enrolled.filter (fun e => e.by_ == g)
    if body.length ≠ 48 ∨ kind = 0 ∨ 3 < kind ∨ leAt body 1 7 ≠ 0 then s.mbDone g mbBadEntry []
    else if g ≠ 0 ∧ mask ≠ 2 ^ g then s.mbDone g mbNotPermitted []
    else if s.keeper.enrolled.any (fun e => e.keyid == keyid) then s.mbDone g mbKeyExists []
    else if 64 ≤ s.keeper.enrolled.length ∨ (g ≠ 0 ∧ 4 ≤ mine.length) then s.mbDone g mbNoSpace []
    else
      let e : Enrolled := { keyid := keyid, kind := kind, mask := mask, pub := pub, by_ := g }
      (s.modKeeper (fun k => { k with enrolled := k.enrolled ++ [e] })).mbDone g mbOK keyid)

/-- KEY_REVOKE: an enrolled key is revoked by its enrolling party or the owner (R390). -/
def execKeyRevoke (g : Nat) (s : State) : Out :=
  withRequest g 0x23 s (fun s body =>
    match s.keeper.enrolled.find? (fun e => e.keyid == body) with
    | none => s.mbDone g (if body.length = 16 then mbKeyUnknown else mbBadEntry) []
    | some e =>
      if g ≠ 0 ∧ e.by_ ≠ g then s.mbDone g mbNotPermitted []
      else (s.modKeeper (fun k => { k with enrolled := k.enrolled.filter (fun x => x.keyid != body) })).mbDone g mbOK [])

/-! ### The TAP and approved mode (R385, R386, R397) -/

/-- TAP_UNLOCK: boundary scan, or debug as well, for some seconds (R397). -/
def execTapUnlock (g : Nat) (s : State) : Out :=
  withRequest g 0x30 s (fun s body =>
    let scope := leAt body 0 1
    let secs_ := leAt body 4 4
    let guests := s.guests.any (fun q => q.1 != 0 && q.2.gstate == 1)
    if body.length ≠ 8 ∨ scope = 0 ∨ 2 < scope ∨ leAt body 1 3 ≠ 0 ∨ secs_ = 0 ∨ 86400 < secs_ then s.mbDone g mbBadEntry []
    else if s.keeper.approved ∨ (scope = 2 ∧ guests) then s.mbDone g mbModeRefused []
    else
      let s := s.modKeeper (fun k => { k with tap := scope, tapUntil := s.time + secs secs_ })
      (s.security 0xB (scope + secs_ * 2 ^ 24)).mbDone g mbOK [])

/-- TAP_LOCK (R397). -/
def execTapLock (g : Nat) (s : State) : Out :=
  withRequest g 0x31 s (fun s body => if body ≠ [] then s.mbDone g mbBadEntry [] else s.tapLock.mbDone g mbOK [])

/-- TAP_RELOCK: the stated seconds are over (R397). -/
def execTapRelock (s : State) : Out := if s.keeper.tap ≠ 0 ∧ s.keeper.tapUntil ≤ s.time then .next s.tapLock else .next s

/-- APPROVED_ENTER: when its conditions hold, approved mode is in force at once (R385). -/
def execApprovedEnter (g : Nat) (s : State) : Out :=
  withRequest g 0x40 s (fun s body =>
    if body ≠ [] then s.mbDone g mbBadEntry []
    else if !s.ownerSrc.any (fun q => q.2.1) ∨ s.keeper.tap ≠ 0 ∨ s.ports.any (fun q => q.2.cleartext) then s.mbDone g mbModeRefused []
    else ((s.modKeeper (fun k => { k with approved := true })).security 0xC 1).mbDone g mbOK [])

/-- APPROVED_LEAVE: it takes effect at the next cold boot (R386). -/
def execApprovedLeave (g : Nat) (s : State) : Out :=
  withRequest g 0x41 s (fun s body =>
    if body ≠ [] then s.mbDone g mbBadEntry []
    else ((s.modKeeper (fun k => { k with leave := true })).security 0xC 2).mbDone g mbOK [])

/-! ### Zeroisation (R395, R396) -/

/-- Steps 1 and 2 of a zeroisation: guests are deleted and the owner's regions released; the rest follows when they are gone. -/
def State.beginZeroise (s : State) (kind : Nat) : State :=
  let gs := (s.guests.filter (fun q => q.1 != 0 && q.2.gstate == 1)).map (·.1)
  let s := gs.foldl (fun a n => a.beginDelete n none) s
  let own := (s.regions.filter (fun q => q.2.guest == 0 && (q.2.state == 1 || q.2.state == 2 || q.2.state == 3 || q.2.state == 4))).map (·.1)
  let s := own.foldl (fun a r =>
    let a := if (a.region r).state = 1 then a.abortLoad r else a
    if (a.region r).state = 0 ∨ (a.region r).state = 1 ∨ (a.region r).state = 5 then a else a.beginRelease r none) s
  (s.modKeeper (fun k => { k with zeroing := some kind })).settleZeroise

/-- The mailbox request of a zeroisation waits for its end. -/
def State.zeroiseJob (s : State) (g op : Nat) : State :=
  s.modKeeper (fun k => { k with job := some { guest := g, op := op, result := mbOK, resp := [], startAt := s.time } })

/-- ZEROISE (R395). -/
def execZeroise (g : Nat) (s : State) : Out :=
  withRequest g 0x50 s (fun s body => if body ≠ [] then s.mbDone g mbBadEntry [] else (s.zeroiseJob g 0x50).beginZeroise 1)

/-- The body DECOMMISSION must carry (Table 18-9). -/
def wordDecommission : List Byte := [0x44, 0x45, 0x43, 0x4F, 0x4D, 0x4D, 0x49, 0x53, 0x53, 0x49, 0x4F, 0x4E, 0, 0, 0, 0]

/-- DECOMMISSION: ZEROISE, and then the identity key is erased and the fuse blown (R395). -/
def execDecommission (g : Nat) (s : State) : Out :=
  withRequest g 0x51 s (fun s body => if body ≠ wordDecommission then s.mbDone g mbBadEntry [] else (s.zeroiseJob g 0x51).beginZeroise 3)

/-- TAMPER: a cover switch opens: its latch sets, and while the module is powered it is zeroised (R396). -/
def execTamper (sw : Nat) (s : State) : Out :=
  if 4 ≤ sw then .next s
  else
    let s := s.modKeeper (fun k => { k with tamper := true })
    if s.boot.off then .next s
    else .next (((s.security 0xD sw).cause 61).beginZeroise 2)

/-! ### Firmware (19 R407-R410) -/

def Boot.setSlot (b : Boot) (i : Nat) (x : FwSlot) : Boot := if i = 0 then { b with slotA := x } else { b with slotB := x }

/-- FW_ACTIVATE: the inactive slot is marked EMPTY and the fetch begins; a BLEN of 0 disarms the slot (R409). -/
def execFwActivate (g : Nat) (s : State) : Out :=
  withRequest g 0x60 s (fun s body =>
    let blen := leAt body 16 4
    let i := 1 - s.boot.active
    if body.length ≠ 56 ∨ leAt body 2 6 ≠ 0 ∨ leAt body 20 4 ≠ 0 ∨ 67108864 < blen then s.mbDone g mbBadEntry []
    else if blen = 0 then
      let x := s.boot.slotAt i
      let s := if x.state = 1 then s.modBoot (fun b => { (b.setSlot i {}) with attempts := 0 }) else s
      s.mbDone g mbOK (natLE 1 i ++ zeros 3 ++ natLE 4 (s.boot.slotAt i).bversion)
    else
      let s := s.modBoot (fun b => { (b.setSlot i {}) with attempts := 0 })
      s.modKeeper (fun k => { k with job := some { guest := g, op := 0x60, result := mbOK, resp := [], startAt := s.time } }))

/-- Part entries of a bundle manifest (Table 19-5), by place. -/
def fwEntry (b : List Byte) (k : Nat) : List Byte := slice b (64 + 64 * k) 64

/-- The entry of a part. -/
def fwPart (b : List Byte) (i : Nat) : List Byte := (((List.range 7).map (fwEntry b)).find? (fun e => leAt e 0 1 == i)).getD []

/-- Do a manifest and its part entries have the values of Tables 19-4 and 19-5, and are the images as it states? -/
def fwFormatOk (b : List Byte) (stepping : Nat) : Bool :=
  let blen := leAt b 16 4
  let es := (List.range 7).map (fwEntry b)
  let apart (e f : List Byte) : Bool := decide (leAt e 8 4 + leAt e 12 4 ≤ leAt f 8 4) || decide (leAt f 8 4 + leAt f 12 4 ≤ leAt e 8 4)
  leAt b 0 4 == 0x46574D46 && leAt b 4 2 == 1 && leAt b 6 1 == 7 && decide (leAt b 7 1 < 4) && bitAt (leAt b 7 1) stepping &&
    leAt b 8 4 == 0x9424 && decide (blen ≤ 67108864) && blen == b.length && slice b 20 44 == zeros 44 &&
    (List.range 7).all (fun i => es.any (fun e => leAt e 0 1 == i)) &&
    es.all (fun e => decide (leAt e 1 1 ≤ 64) && leAt e 2 2 == 0 && leAt e 8 4 % 4096 == 0 && decide (leAt e 8 4 + leAt e 12 4 ≤ blen) &&
      slice e 48 16 == zeros 16 && sha256 (slice b (leAt e 8 4) (leAt e 12 4)) == slice e 16 32) &&
    (List.range 7).all (fun i => (List.range 7).all (fun j => i == j || apart (fwEntry b i) (fwEntry b j)))

/-- The end of a fetch: the status of Table 19-6, or the slot as it stands armed (R408, R409, R413). `sigOk` is the verdict on the
signature (log 13). -/
def State.fwCheck (s : State) (body : List Byte) (bundle : Option (List Byte)) (sigOk : Bool) : Except Nat FwSlot :=
  match bundle with
  | none => .error 0x90
  | some b =>
    if b.length ≠ leAt body 16 4 then .error 0x90
    else if sha256 (slice b 0 512) ≠ slice body 24 32 ∨ !sigOk ∨ leAt b 528 2 ≠ 1 then .error 0x91
    else if !fwFormatOk b s.stepping ∨ leAt b 530 6 ≠ 0 then .error 0x92
    else
      let svns := (List.range 7).map (fun i => leAt (fwPart b i) 1 1)
      if (List.range 7).any (fun i => decide (lget 0 svns i < lget 0 s.boot.svn i)) then .error 0x93
      else .ok { state := 1, bversion := leAt b 12 4, svns := svns, versions := (List.range 7).map (fun i => leAt (fwPart b i) 4 4),
                 digests := (List.range 7).map (fun i => slice (fwPart b i) 16 32) }

/-- A fetch ends: the slot is ARMED, or stays EMPTY (R409, R410). -/
def State.endFetch (s : State) (g : Nat) (bundle : Option (List Byte)) (sigOk : Bool) : State :=
  match s.fwCheck (s.mbReq g 32 56) bundle sigOk with
  | .error c => s.mbDone g c []
  | .ok x =>
    let i := 1 - s.boot.active
    (s.modBoot (fun b => { (b.setSlot i x) with attempts := 0 })).mbDone g mbOK (natLE 1 i ++ zeros 3 ++ natLE 4 x.bversion)

/-- MB_STATUS_DONE: the request that is being served ends: an attestation, or a firmware fetch with the octets it brought. A request
whose OP Table 18-9 does not define ends as well (R387, R388, R394, R409). -/
def execMbStatusDone (bundle : Option (List Byte)) (sigOk : Bool) (s : State) : Out :=
  match s.keeper.job with
  | some j =>
    if j.op = 0x50 ∨ j.op = 0x51 then .next s
    else if s.keeper.st ≠ 2 then .next (s.mbDone j.guest mbKeeperError [])
    else if j.op = 0x60 then .next (s.endFetch j.guest bundle sigOk)
    else .next (s.mbDone j.guest j.result j.resp)
  | none =>
    match s.mbHead with
    | none => .next s
    | some g => if mbOps.contains (s.mbOp g) then .next s else .next (s.mbDone g (if s.keeper.st ≠ 2 then mbKeeperError else mbBadEntry) [])

/-! ### Counters, self-tests and the generator (R380-R383, R389) -/

/-- RESERVATION_WRITE_COMPLETE: the write of P + 65,536 ends, and the new P is used (R389). -/
def execReservationWriteComplete (g : Nat) (s : State) : Out :=
  if 64 ≤ g then .next s
  else
    match s.cmdKey g with
    | none => .next s
    | some k =>
      if !k.writing then .next s
      else
        let k := { k with persisted := min (2 ^ 64 - 1) (k.persisted + 65536) }
        .next (s.modKeeper (fun x => { x with keys := mset x.keys g { k with writing := k.advances k.lac } }))

/-- A Keeper start: LAC takes the persisted P, and P rises by 131,072 before any pair is checked (R389). -/
def CmdKey.restart (k : CmdKey) : CmdKey :=
  { k with lac := k.persisted, persisted := min (2 ^ 64 - 1) (k.persisted + 131072), writing := false, fails := 0, busyUntil := 0 }

/-- CONDITIONAL_TEST_FAIL: test `n` of Table 18-3 fails; `sub` says which health test of the entropy source. The Keeper is in ERROR, and
every port whose link is up waits in SECURING (R381, R383). The test of a port's cipher engine is FINISH's. -/
def execConditionalTestFail (n sub : Nat) (s : State) : Out :=
  if s.keeper.st ≠ 2 ∨ ¬ (n = 8 ∨ n = 9 ∨ n = 10) then .next s
  else
    let s := s.modKeeper (fun k => { k with
      st := 3
      stFail := n
      entropyOk := k.entropyOk && n != 8
      restarted := false
      drbgCount := 0 })
    let s := if n = 8 then s.security 2 (sub % 16) else s.security 1 (n + 256 * bit s.keeper.standby)
    .next ((s.cause 60).dropLinks)

/-- KEEPER_RESTART: the one rerun of the power-on tests ends: with no failed test the Keeper is OPERATIONAL again and the ports establish
new keys; else it stays in ERROR until a reset (R381, R389, R400). -/
def execKeeperRestart (fail : Nat) (s : State) : Out :=
  if s.keeper.st ≠ 3 ∨ s.keeper.restarted then .next s
  else if fail ≠ 0 then .next (s.modKeeper (fun k => { k with restarted := true, stFail := fail % 256 }))
  else
    let s := s.modKeeper (fun k => { k with
      st := 2
      entropyOk := true
      drbgAt := s.time
      keys := mmap (fun _ x => x.restart) k.keys })
    .next ((List.range 96).foldl (fun a p => if (a.port p).state = 3 then a.beginExchange p else a) s)

/-- DRBG_RESEED: after 65,536 requests or 1 h (R383). -/
def execDrbgReseed (s : State) : Out :=
  if s.keeper.st = 2 ∧ (65536 ≤ s.keeper.drbgCount ∨ s.keeper.drbgAt + secs 3600 ≤ s.time) then
    .next (s.modKeeper (fun k => { k with drbgCount := 0, drbgAt := s.time }))
  else .next s

end Sys2Proof.Machine
end

