-- ==== Sys2Proof/Machine/Shutdown.lean ====
section
/-! DEFINITION. The event log, critical shutdown, and what a cold boot keeps (16 R351, R352, R357, 19 R399-R402). -/

namespace Sys2Proof.Machine

def State.modThermal (s : State) (f : Thermal → Thermal) : State := { s with thermal := f s.thermal }
def State.modProf (s : State) (f : Prof → Prof) : State := { s with prof := f s.prof }

/-- A signed number in `n` bits. -/
def signedBits (n : Nat) (v : Int) : Nat := (v % 2 ^ n).toNat

/-! ### The thermal cap and the event log (R353, R357) -/

/-- The cap in force, in W: 2 kW while INPUT_LOW is (Table 15-2, R353). -/
def State.capNow (s : State) : Option Rat := if s.power.inputLow then some 2000 else s.thermal.cap

/-- CAP fields, in 10 W units. -/
def State.capUnits (s : State) : Nat := match s.capNow with | some c => satTo 0xFFFF (c.floor.toNat / 10) | none => 0

/-- Subject of an event record (Table 16-4). -/
structure EventSub where
  pane : Nat := 0x3FF
  field : Nat := 0x7F
  stack : Nat := 0x1F
  deriving DecidableEq, Repr

/-- Regions running, a bit each. -/
def State.runningMask (s : State) : Nat := s.regions.foldl (fun a q => if q.2.state = 3 then a + 2 ^ q.1 else a) 0

/-- Highest rate of rise of any pane. -/
def State.topRate (s : State) : Int :=
  (List.range 785).foldl (fun a i => max a (s.pane (i + 1)).therm.rate) (s.pane 0).therm.rate

/-- Bits 511:32 of an event record (Table 16-4), in place. -/
def State.eventBody (s : State) (typ running : Nat) (e : EventSub) : Nat :=
  let t := s.thermal
  t.logNext % 2 ^ 32 * 2 ^ 480 + typ % 256 * 2 ^ 472 + s.wafer.boots % 65536 * 2 ^ 456 + s.nowNs % 2 ^ 64 * 2 ^ 384 +
    e.pane % 1024 * 2 ^ 374 + e.field % 128 * 2 ^ 367 + e.stack % 32 * 2 ^ 362 + signedBits 12 t.tHot * 2 ^ 340 +
    signedBits 12 t.inlet * 2 ^ 328 + signedBits 12 t.outlet * 2 ^ 316 + t.flow % 1024 * 2 ^ 306 + s.power.vin % 4096 * 2 ^ 294 +
    satTo 0xFFFF (s.power.pwafer / 10) * 2 ^ 278 + s.capUnits * 2 ^ 262 + running * 2 ^ 192 + signedBits 16 s.topRate * 2 ^ 176

/-- Write an event record; the newest 512 are kept, and the service UART sends each (R357, R447). -/
def State.eventAt (s : State) (typ running : Nat) (e : EventSub) : State :=
  let b := s.eventBody typ running e
  let w := b + crc32 ((natLE 64 b).drop 4)
  (s.modThermal (fun t => { t with
    log := (t.log ++ [w]).drop (t.log.length - 511)
    logNext := t.logNext + 1 })).uart w

def State.event (s : State) (typ : Nat) (e : EventSub) : State := s.eventAt typ s.runningMask e

/-! ### Pause demands of every region -/

/-- K_ENV of every region: from coolant, or 31 while INPUT_LOW is in force (R346, R355, Table 15-2). -/
def State.applyEnv (s : State) : State :=
  let v := if s.power.inputLow then 31 else s.thermal.kCool
  (List.range 64).foldl (fun a r => if (a.region r).kEnv = v then a else a.modRegion r (fun x => { x with kEnv := v })) s

/-! ### Stopping the module -/

/-- Running regions are held through the hold wire; their step in flight does not commit (R351 step 2, R401 step 1). -/
def State.holdRunning (s : State) : State :=
  let running := (s.regions.filter (fun q => q.2.state == 3)).map (·.1)
  running.foldl (fun a r =>
    ((a.modRegionPanes r (fun _ p => { p with cond := .faultHold, resumeAt := none })).abandonFlight r).settleHold r) s

/-- Every pane that is not in a deeper state goes to a power state, and its memories keep what that state keeps (R351 step 3, R401 step
3, Table 15-7). -/
def State.lowerAll (s : State) (st : Nat) : State :=
  let rs := (s.regions.filter (fun q => decide (q.2.state ≠ 0))).map (·.1)
  let s := rs.foldl (fun a r => a.modRegPower r (fun p => if p.state < st then { p with state := st, trans := 0, req := none, ramp := none, pendCur := 0 } else p)) s
  let ps := ((List.range 738).filter (fun p => decide ((s.pane p).power < st)))
  ps.foldl (fun a p => (a.losePane p (st == 4)).modPane p (fun q => { q with power := st, pwr := { q.pwr with base := 0, from_ := 0 } })) s

/-- Every port is DOWN, and holds nothing (R401 step 2). -/
def State.portsDown (s : State) : State := { s with ports := mmap (fun _ x => ({ cable := x.cable } : Port)) s.ports }

/-- The converters stop: PWR_OK is low, ALERT_N has been asserted, and the module is off (R351 step 5, R352, R456). -/
def State.convertersStop (s : State) : State :=
  (((s.cause 63).portsDown).modPower (fun p => { p with powerOff := true })).shelfStatus.modBoot (fun b =>
    { b with off := true, pwrOk := false, ready := false, stage := 0, hold := true })

/-- Critical shutdown: `types` are its event records, the cause and then SHUTDOWN (R351, R357). -/
def State.shutdown (s : State) (types : List Nat) (e : EventSub) : State :=
  let running := s.runningMask
  let s := if (List.range 64).all (fun r => (s.region r).k == 31) then s
    else (s.modThermal (fun t => { t with kCool := 31 })).applyEnv
  let s := (s.holdRunning).lowerAll 3
  (types.foldl (fun a t => a.eventAt t running e) s).convertersStop

/-- The shutdown of INPUT_HIGH: the converters stop at once (R351, Table 15-2). -/
def State.shutdownHigh (s : State) : State := (s.event 0x09 {}).convertersStop

/-! ### Cold boot (R399-R402) -/

/-- What survives a reset (Table 19-2): flash, fuses, the tamper latch, and what lies outside the module. -/
def State.coldState (s : State) : State :=
  { pending := s.pending
    freeCount := s.freeCount
    stepping := s.stepping
    wafer := { s.wafer with running := [] }
    retired := s.retired
    retiredTagOk := s.retiredTagOk
    keeper :=
      { st := if s.keeper.decommissioned then 4 else 1
        approved := s.keeper.approved
        leave := s.keeper.leave
        tamper := s.keeper.tamper
        keys := s.keeper.keys.filter (fun k => k.1 == 0)
        enrolled := s.keeper.enrolled
        kemNo := s.keeper.kemNo
        decommissioned := s.keeper.decommissioned }
    power := { phaseMap := s.power.phaseMap, phaseTagOk := s.power.phaseTagOk }
    thermal := { log := s.thermal.log, logNext := s.thermal.logNext }
    prof :=
      { wear := (match s.prof.wear with | [] => [s.prof.reserve] | d :: r => (d + s.prof.reserve) :: r)
        days := s.prof.days
        dayTime := s.prof.dayTime }
    ports := (s.ports.filter (fun p => !p.2.cable)).map (fun p => (p.1, ({ cable := false } : Port)))
    boot :=
      { cause := s.boot.cause
        pwrOk := s.boot.pwrOk
        busAt := s.boot.busAt - s.time
        hold := s.boot.hold
        fails := s.boot.fails
        active := s.boot.active
        slotA := s.boot.slotA
        slotB := s.boot.slotB
        attempts := s.boot.attempts
        last := s.boot.last
        svn := s.boot.svn }
    iface := { uart := s.iface.uart, shelfOut := s.iface.shelfOut, i3cOut := s.iface.i3cOut } }

/-- The ROM chooses the slot it boots: an armed slot with attempts left, each counted before any part of it runs; at three attempts it is
rejected (R411, R412), and one with a security version below its fuse is not booted (R413). A dark S0 pane 3 leaves the boot to the S6 copies (R326, R406). -/
def State.romSelect (s : State) : State :=
  let b := s.boot
  let other := if b.active = 0 then b.slotB else b.slotA
  let set (b : Boot) (st : Nat) : Boot := if b.active = 0 then { b with slotB := { b.slotB with state := st } } else { b with slotA := { b.slotA with state := st } }
  let dark := decide (2 ≤ (s.power.phaseMap.filter (fun e => e / 4 == 741)).length)
  let s := s.modBoot (fun b => { b with
    stage := 1
    startAt := s.time
    stageAt := s.time
    pwrOk := true
    busAt := if b.pwrOk then b.busAt else s.time + ms 100
    attempting := false })
  let s := s.modKeeper (fun k => { k with standby := dark })
  let old := (List.range 7).any (fun i => decide (lget 0 other.svns i < lget 0 b.svn i))
  if other.state ≠ 1 ∨ old then s
  else if 3 ≤ b.attempts then (s.modBoot (fun b => { (set b 2) with attempts := 0, last := 2 })).event 0x0B {}
  else s.modBoot (fun b => { b with attempts := b.attempts + 1, attempting := true })

/-- Is a firmware bundle armed? -/
def Boot.armed (b : Boot) : Bool := (if b.active = 0 then b.slotB else b.slotA).state == 1

/-- A cold boot begins: the boot count rises and module time restarts (R399). A boot that did not reach READY counts, unless a
bundle was armed (R405). -/
def State.coldBoot (s : State) (cause : Nat) : State :=
  let b := s.boot
  let fails := if b.reached ∨ (b.stage = 0xF ∧ cause ≤ 1) then 0 else if b.armed then b.fails else b.fails + 1
  let t := s.coldState
  let t : State := { t with
    wafer := { t.wafer with boots := t.wafer.boots + 1 }
    boot := { t.boot with cause := cause, fails := fails, stage := 0 } }
  if cause = 0 then t else t.romSelect

/-- The module stops, with STAGE STOPPED (R403, R405). -/
def State.bootStopped (s : State) : State := (s.modBoot (fun b => { b with stage := 0xF, ready := false, stageAt := s.time })).cause 62

/-- A module reset; the third boot in succession that fails to reach READY ends in STOPPED instead, with no bundle armed (R401, R405). -/
def State.moduleReset (s : State) (cause : Nat) : State :=
  let s := ((s.holdRunning).portsDown).lowerAll 4
  if !s.boot.reached ∧ !s.boot.armed ∧ 2 ≤ s.boot.fails then s.bootStopped else s.coldBoot cause

end Sys2Proof.Machine
end

