-- ==== Sys2Proof/Machine/Profiles.lean ====
section
/-! DEFINITION. Pane rails, operating profiles, and the conditions of Sprint (15 R318, R320, 17 R363-R375). -/

namespace Sys2Proof.Machine

/-- Clock, in MHz, and core setpoint, in mV, of a profile (Table 17-1). -/
def profileMhz (p : Nat) : Nat := lget 2400 [1800, 2400, 2600, 2800] p
def profileMv (p : Nat) : Nat := lget 720 [620, 720, 780, 840] p

/-! ### The rail of a pane -/

def Pane.modPwr (q : Pane) (f : PanePower → PanePower) : Pane := { q with pwr := f q.pwr }
def Pane.modClk (q : Pane) (f : PaneClock → PaneClock) : Pane := { q with clk := f q.clk }

/-- Where the core rail's setpoint stands: it ramps at 5 mV/µs (R365). -/
def PanePower.rail (q : PanePower) (now : Nat) : Nat :=
  let d := 5 * (now - q.rampAt) / us 1
  if q.from_ ≤ q.base then min q.base (q.from_ + d) else max q.base (q.from_ - d)

/-- SETPOINT: the rail with a load-step raise of 15 mV, at most 0.86 V (R318, R320). -/
def PanePower.setpoint (q : PanePower) (now : Nat) : Nat :=
  if q.base = 0 then 0 else min 860 (q.rail now + (if q.raises ≠ [] ∧ !q.raiseOff then 15 else 0))

/-- Setpoint of a pane; sill panes run at a fixed 0.72 V (R318). -/
def State.setpointOf (s : State) (p : Nat) : Nat :=
  let q := s.pane p
  if q.pwr.cap = 2 then 0 else if 738 ≤ p then 720 else q.pwr.setpoint s.time

/-- The rail ramps to a voltage, from where it stands. -/
def PanePower.rampTo (q : PanePower) (now mv : Nat) : PanePower := { q with from_ := q.rail now, rampAt := now, base := mv }

/-- The rail is at a voltage at once. -/
def PanePower.setTo (q : PanePower) (now mv : Nat) : PanePower := { q with from_ := mv, rampAt := now, base := mv }

/-! ### Regions and profiles -/

def State.modRegProf (s : State) (r : Nat) (f : RegProfile → RegProfile) : State := s.modRegion r (fun x => { x with prof := f x.prof })

/-- Has a region a pane that is capped at Balanced (R324)? -/
def State.capped (s : State) (r : Nat) : Bool := (s.region r).panes.any (fun p => (s.pane p).pwr.cap == 1)

/-- Is a region at Sprint, or does it enter Sprint? -/
def Region.sprints (x : Region) : Bool := x.prof.profile == 3
def Region.wantsSprint (x : Region) : Bool := x.sprints || (x.prof.stage != 0 && x.prof.target == 3)

/-- Do a region's panes run at the clock of a profile? -/
def State.clocksAt (s : State) (r p : Nat) : Bool := (s.region r).panes.all (fun q => (s.pane q).clk.mhz == profileMhz p)

/-! ### Wear, heat and grant (R369, R372, R373) -/

/-- Half milliseconds of Sprint in the last 365 powered days; a ledger whose tag failed is spent (R373). -/
def Prof.used (p : Prof) : Nat := if p.ledgerBad then 4320000000 else p.wear.foldl (· + ·) 0

/-- Is at least 60 s of the allowance left? -/
def Prof.wearLeft (p : Prof) : Bool := decide (p.used + 120000 ≤ 4320000000)

/-- Commit 60 s ahead when the reserve is spent. -/
def Prof.commit (p : Prof) : Prof := if p.reserve = 0 then { p with reserve := 120000 } else p

/-- GRANT_W (R369). -/
def State.grantW (s : State) : Nat := ceilDiv (s.power.limPeak * 37) 34

/-- The request of a grant goes out: command 0xD0 (R369). -/
def State.askGrant (s : State) (w : Nat) : State :=
  let n := (s.prof.grantSeq + 1) % 256
  (s.shelfWrite 0xD0 (natLE 2 w ++ natLE 1 5 ++ natLE 1 n)).modProf (fun p => { p with grantSeq := n, asked := w, renewAt := s.time })

/-- Once no region is at Sprint or enters it, the grant is released with a request of 0 W (R369). -/
def State.settleGrant (s : State) : State :=
  if s.prof.grant && !s.regions.any (fun q => q.2.wantsSprint) then
    (s.askGrant 0).modProf (fun p => { p with grant := false, misses := 0 })
  else s

/-! ### A change of profile (R364-R366) -/

/-- The panes of a region begin to move to a profile: a raise ramps its rails first (R365). -/
def State.beginSwitch (s : State) (r target : Nat) : State :=
  let x := s.region r
  let s := s.modRegProf r (fun p => { p with stage := 3, target := target, since := s.time })
  x.panes.foldl (fun a q => a.modPane q (fun y =>
    if y.clk.mhz < profileMhz target then y.modPwr (fun w => w.rampTo s.time (profileMv target)) else y)) s

/-- A region that is not Open takes a profile at once; its next wake admits and raises it there (R364). -/
def State.recordProfile (s : State) (r p : Nat) : State :=
  let s := s.modRegProf r (fun x => { x with profile := p, target := p, stage := 0, ending := 0, sprintUntil := none })
  (s.modRegionPanes r (fun _ q => q.modClk (fun c => { c with mhz := profileMhz p }))).settleGrant

/-- Is Sprint accepted by the integrator and the ledger: OK, or the refusal (Table 17-2)? -/
def State.sprintBar (s : State) : Nat :=
  if s.prof.heatMax ≤ 2 * s.prof.heat then stSprintHeat else if s.prof.wearLeft then stOK else stWearSpent

/-- The change of an entry begins, its other checks passed: recorded, admitted first, or lowered (R364, R365). -/
def State.changeProfile (s : State) (r p : Nat) (id : EntryId) (limit : Nat) : State :=
  let x := s.region r
  let until_ := if p = 3 ∧ limit ≠ 0 then some (s.time + ms limit) else none
  if !x.isOpen then
    ((s.recordProfile r p).modRegProf r (fun y => { y with sprintMs := limit, sprintUntil := until_, entry := none })).complete id stOK 0
  else if x.prof.profile < p then
    (s.modRegProf r (fun y => { y with stage := 2, target := p, since := s.time, entry := some id, sprintMs := limit })).modRegPower r
      (fun w => { w with req := some { kind := 2, since := s.time } })
  else (s.modRegProf r (fun y => { y with entry := some id, sprintMs := limit })).beginSwitch r p

/-- PROFILE entries of a region take effect in start order; each is refused, completed, or begun (R364, R366, Table 17-2). -/
def State.nextProfile (s : State) (r : Nat) : Nat → State
  | 0 => s
  | n + 1 =>
    let x := s.region r
    match x.prof.queue with
    | [] => s
    | (id, p, limit) :: rest =>
      if x.prof.stage ≠ 0 ∨ x.prof.ending ≠ 0 ∨ x.prof.entry.isSome then s
      else
        let pop := s.modRegProf r (fun y => { y with queue := rest })
        let refuse (st : Nat) : State := (pop.complete id st 0).nextProfile r n
        if p = x.prof.profile then refuse stOK
        else if p = 3 ∧ !bitAt s.prof.allow id.guest then refuse stNotPermitted
        else if 2 ≤ p ∧ s.capped r then refuse stProfileCapped
        else if x.prof.profile = 3 ∧ x.isOpen then s.modRegProf r (fun y => { y with ending := 1 })
        else if p = 3 ∧ !s.prof.grant then
          pop.modRegProf r (fun y => { y with stage := 1, target := 3, since := s.time, entry := some id, sprintMs := limit })
        else if p = 3 ∧ s.sprintBar ≠ stOK then refuse s.sprintBar
        else if !x.isOpen then (pop.changeProfile r p id limit).nextProfile r n
        else pop.changeProfile r p id limit

/-- The same for all that wait. -/
def State.settleProfiles (s : State) (r : Nat) : State := s.nextProfile r ((s.region r).prof.queue.length)

/-- The change of a region ends with a refusal, and it keeps its profile. -/
def State.refuseProfile (s : State) (r status : Nat) : State :=
  let x := s.region r
  let s := s.modRegProf r (fun p => { p with stage := 0, target := p.profile, entry := none })
  let s := s.modRegPower r (fun w => { w with req := if (match w.req with | some q => q.kind == 2 | none => false) then none else w.req })
  let s := match x.prof.entry with | some id => s.complete id status 0 | none => s
  (s.settleGrant).settleProfiles r

/-- Every pane of a region runs at its new clock: the profile is in force (R364). The floor of R324 ends, and the end of Sprint
goes on at the next round (R375). -/
def State.finishSwitch (s : State) (r : Nat) : State :=
  let p := (s.region r).prof
  if p.stage ≠ 3 ∨ !s.clocksAt r p.target then s
  else
    let s := if p.target = 3 then s.modProf Prof.commit else s
    let s := s.modRegion r (fun x => { x with
      kHold := 0
      prof := { x.prof with
        profile := p.target
        admitted := p.target
        stage := 0
        entry := none
        ending := if p.ending = 2 then 3 else p.ending
        sprintUntil := if p.target = 3 ∧ p.sprintMs ≠ 0 then some (s.time + ms p.sprintMs) else none }
      power := { x.power with pendCur := 0 } })
    let s := match p.entry with | some id => s.complete id stOK 0 | none => s
    (s.settleGrant).settleProfiles r

/-- A pane of a region is newly capped: a change in progress is abandoned, a running region is held at pause level 16 or more, and
the region steps down to Balanced (R324, R366); from Sprint the end of Sprint does it (R371). A hold with no step to make ends at the next
round. -/
def State.capRegion (s : State) (r : Nat) : State :=
  let x := s.region r
  let s := if x.state = 3 then s.modRegion r (fun y => { y with kHold := 16 }) else s
  let s := if x.prof.stage = 0 then s else
    let s := s.modRegProf r (fun p => { p with stage := 0, target := p.profile, entry := none })
    let s := s.modRegPower r (fun w => { w with req := if (match w.req with | some q => q.kind == 2 | none => false) then none else w.req, pendCur := 0 })
    match x.prof.entry with | some id => s.complete id stProfileCapped 0 | none => s
  let goal := min x.prof.profile 1
  if !x.isOpen then (if 1 < x.prof.profile then s.recordProfile r 1 else s).modRegion r (fun y => { y with kHold := 0 })
  else if x.prof.profile = 3 then s.modRegProf r (fun p => { p with ending := max p.ending 1 })
  else if s.clocksAt r goal then s
  else s.beginSwitch r goal

end Sys2Proof.Machine
end

