-- ==== Sys2Proof/Machine/StepRun.lean ====
section
/-! DEFINITION. The course of a step: its start and replay, promotion, Campion's results, commit, scatter, and the epochs
and expiries of the Cache engine (08 R172-R182, 09 R193-R208, 10 R220-R230, 11 R246). -/

namespace Sys2Proof.Machine

/-! ### Start and replay -/

/-- Octet offset of a streamed tensor in its generation's HBM copy: its place in the blob, or, in a copy that holds
streamed tensors only, after the ones before it (R246; log 29). -/
def streamOffset (g : Generation) (m : Manifest) : List Nat → Nat → Nat → Option Nat
  | [], _, _ => none
  | v :: r, id, acc =>
    match m.tensorFor v with
    | none => if bits v 127 112 = id then none else streamOffset g m r id acc
    | some t => if bits v 127 112 = id then some (if g.staged then bits t 95 48 else acc) else streamOffset g m r id (acc + tensorLen t)

/-- Does a part of a generation's copy lie in a unit whose read failed twice (R245)? -/
def Generation.badIn (g : Generation) (off n : Nat) : Bool :=
  g.bad.any (fun u => decide (off / 4096 ≤ u ∧ u ≤ (off + n - 1) / 4096))

/-- Does a part of a generation's copy lie in a unit whose read is held for its retry (R260)? -/
def State.copyHeld (s : State) (g : Generation) (off n : Nat) : Bool :=
  s.hbmCtl.any (fun q => q.2.held.any (fun h => h.use == .gen g.guest g.num &&
    (match placeIn g.runs (h.addr / 4096) with | some u => decide (off / 4096 ≤ u ∧ u ≤ (off + n - 1) / 4096) | none => false)))

/-- A completion word of 32 octets, whose content no rule states (log 28). -/
def State.freeWord32 (s : State) : List Byte × State :=
  let a := s.useFree
  let b := a.useFree
  let c := b.useFree
  (natLE 8 s.free.toNat ++ natLE 8 a.free.toNat ++ natLE 8 b.free.toNat ++ natLE 8 c.free.toNat, c.useFree)

/-- One cell slice of a streamed tensor: read from HBM, converted, written into the step's window, and the entry's ITEM
delivered (R246). One whose copy cannot be read stays undelivered (R245). -/
def State.feedSlice (s : State) (r : Nat) (f : Flight) (g : Generation) (m : Manifest) (im : Image) (v i : Nat) : State :=
  let x := s.region r
  match m.tensorFor v, streamOffset g m (if g.staged then im.maps 1 else g.maps) (bits v 127 112) 0, x.localCell (bits v 99 82 + i) with
  | some t, some off, some c =>
    let at_ := off + i * tensorPiece t
    if g.badIn at_ (tensorPiece t) || s.copyHeld g at_ (tensorPiece t) then
      s.modRegion r (fun y => { y with flight := y.flight.map (fun z => { z with unfed := z.unfed ++ [(v, i)] }) })
    else
      let data := (sliceOf t (bits v 49 35) (readRuns s.hbm g.runs at_ (tensorPiece t))).getD []
      let place := (f.window * x.wspan * 65536 + bits v 63 50 * 64) % 2 ^ 20
      let (word, s) := s.freeWord32
      ((fillReqs place data 6 x.guest).foldl (fun a b => a.queueBg c b) s).modRegion r (fun y =>
        { y with deliveries := y.deliveries ++ [{ cell := c, item := bits v 34 30, tag := f.number, data := word }] })
  | _, _, _ => s

/-- Feed slices of a step: those of `l`, or every one (R246). -/
def State.feed (s : State) (r : Nat) (l : Option (List (Nat × Nat))) : State :=
  let x := s.region r
  match x.flight, x.image with
  | some f, some im =>
    let w := lget ({} : Window) x.windows f.window
    match s.generation w.owner w.gen with
    | none => s
    | some g =>
      match parseManifest g.manifest with
      | none => s
      | some m =>
        let all := (im.maps 1).flatMap (fun v => (List.range (bits v 81 64)).map (fun i => (v, i)))
        let s := s.modRegion r (fun y => { y with flight := some { f with unfed := [] } })
        (l.getD all).foldl (fun a q => a.feedSlice r f g m im q.1 q.2) s
  | _, _ => s

/-- Slices a refetched copy now serves are fed to the steps that hold for them (R245). -/
def State.feedAgain (s : State) : State :=
  s.regions.foldl (fun a q =>
    match (a.region q.1).flight with
    | some f => if f.started ∧ f.unfed ≠ [] then a.feed q.1 (some f.unfed) else a
    | none => a) s

/-- Is an item's scatter completion there at the step's start: the staging slot of the step before is FREE (Table 5-3)? -/
def Cell.scatterDone (x : Cell) (n : Nat) : Bool := (x.stg ((n + 1) % 2)).state == 0

/-- A cell at the first cycle of a step: it issues from its step entry, every guard range is closed, nothing is taken or
received; deliveries of earlier steps that no step took become stale; the free-cycle checks count afresh (R111, R113, R101,
Tables 2-3 and 5-7). -/
def Cell.atStart (n : Nat) (x : Cell) : Cell :=
  let old := x.ready.filter (fun q => decide (q.2 < n) && !(x.taken.contains q.1 && q.2 + 1 == n))
  let keep := x.ready.filter (fun q => decide (n ≤ q.2))
  let scat := (List.range x.items.length).filter (fun i => itemClass (lget 0 x.items i) == 4 && x.scatterDone n)
  let x' := { x with
    stepwait := false
    pc := x.entryPc
    loops := []
    branch := none
    branchNext := none
    inDelay := false
    closed := List.range x.items.length
    taken := []
    repState := []
    linkRun := []
    bankRun := []
    portRun := []
    ready := keep ++ scat.map (fun i => (i, n))
    stale := if x.freeze then x.stale else x.stale.add old.length }
  old.foldl (fun a _ => a.countEv { cls := 6, ev := 2, master := 6 } 1) x'

/-- Every pane begins the step's first beat, or a pause beat (R111, R118). -/
def State.beginPanes (s : State) (r : Nat) : State := (s.region r).panes.foldl (fun a p => a.beginOrPause p r) s

/-- The step in flight runs from its first beat. -/
def State.runFlight (s : State) (r : Nat) (f : Flight) : State :=
  let s := s.modListed r (fun _ x => x.atStart f.number)
  let s := s.modRegionPanes r (fun _ q => { q with clk := { q.clk with stepMhz := q.clk.mhz } })
  (s.feed r none).beginPanes r

/-- STEP_START: every pane of the region is Open, and the admitted step begins (R111). -/
def execStepStart (r : Nat) (s : State) : Out :=
  if 64 ≤ r then .next s
  else
    let x := s.region r
    match x.flight with
    | none => .next s
    | some f =>
      if f.started ∨ (x.state ≠ 2 ∧ x.state ≠ 3) ∨ x.shifts ≠ [] ∨ !x.isOpen then .next s
      else
        let first := (s.pane (x.panes.headD 0)).begun
        let f := { f with started := true, firstBeat := first }
        .next ((s.modRegion r (fun y => { y with state := 3, flight := some f })).runFlight r f)

/-- Is a delivery one that a replay has requested again: of an HBM-read item (R179 step 4, Table 5-3)? -/
def State.reissued (s : State) (d : Delivery) : Bool := itemClass (lget 0 (s.cell d.cell).items d.item) == 1

/-- The replay of an abandoned step: the same number, wave table and generation, from its first beat; streamed tensors and
frame lists come again, and the arrivals kept for it are delivered again (R179, R180). -/
def State.replay (s : State) (r : Nat) : State :=
  match (s.region r).flight with
  | none => s
  | some f =>
    let s := s.modRegionPanes r (fun _ p => { p with begun := f.firstBeat, cyc := 0, cond := .stopped, resumeAt := none })
    let again (x : Cell) : Cell := { x.keepBg (fun b => match b.purpose with | .delivery _ _ _ => false | _ => true) with
      ready := x.ready.filter (fun q => decide (f.number < q.2)) }
    let s := s.modListed r (fun _ x => again x)
    let s := s.modRegion r (fun y => { y with
      deliveries := y.kept ++ y.deliveries.filter (fun d => d.src != 0xFFFF || decide (f.number < d.tag) || !s.reissued d)
      kept := [] })
    s.runFlight r f

/-! ### Promotion (R193) -/

/-- PROMOTION_COMPLETE: the Moving pages of one layer have their frames, and the layer's frame list goes to the KV-ready
item of every cell of the layer. -/
def execPromotionComplete (r k : Nat) (s : State) : Out :=
  if 64 ≤ r then .next s
  else
    let x := s.region r
    match x.flight, x.kv[k]? with
    | some f, some l =>
      if f.kvReady.contains k then .next s
      else
        let slots := (f.positions.filterMap (·.slot)).eraseDups
        let moving := (slots.flatMap (fun n => mget [] (x.slot n).pages k)).filter (fun d => (s.desc d).tier == 3)
        if s.readHeld (fun u => match u with | .page d => moving.contains d | _ => false) then .next s
        else
        let s := moving.eraseDups.foldl (fun a d => (a.modDesc d (fun y => { y with tier := 2 })).fillFrame r d l) s
        let entry (p : StepPos) : List Byte :=
          match p.slot with
          | none => natLE 2 0
          | some n =>
            if f.nulls.contains n then natLE 2 0
            else
              let fs := (mget [] (x.slot n).pages k).map (fun d => (s.desc d).frame)
              natLE 2 fs.length ++ fs.flatMap (natLE 2)
        let data := f.positions.flatMap entry
        let ds := (List.range l.cells).filterMap (fun i => (x.localCell (l.firstCell + i)).map (fun c =>
          ({ cell := c, item := l.item, tag := f.number, data := data } : Delivery)))
        .next ((s.modRegion r (fun y => { y with
          deliveries := y.deliveries ++ ds
          flight := some { f with kvReady := f.kvReady ++ [k], promos := f.promos.filter (fun q => q.1 != k) } })).returnPromos
            (f.promos.filter (fun q => q.1 == k)))
    | _, _ => .next s

/-! ### Campion (R220-R222) -/

/-- Positions whose sample the step yields: the last live one of a prompt's last chunk, none of any other chunk, and
every live one of a decode or verify step (R170; DEDUCED, log 34). -/
def Flight.sampledAt (f : Flight) : List Nat :=
  let live := (List.range f.positions.length).filter (fun q =>
    match (f.positions[q]?).bind (·.slot) with
    | some n => !f.nulls.contains n
    | none => false)
  if f.recompute.isSome then []
  else if f.prefill then (if f.lastChunk then live.getLast?.toList else [])
  else live

/-- SHARD_CANDIDATES: a shard's header and candidates, which hold to R220, reach Campion; those of a null position are discarded (R169).
Octets that do not hold to R220 are no such shard, and nothing takes them (DEDUCED, log 34). -/
def execShardCandidates (r : Nat) (bytes : List Byte) (s : State) : Out :=
  if 64 ≤ r then .next s
  else
    let x := s.region r
    match x.flight with
    | none => .next s
    | some f =>
      let h := shardHeader bytes
      let q := bits h 127 106
      let count := bits h 97 87
      let known := mget [] f.cands q
      if f.started ∧ ((f.positions[q]?).bind (·.slot)).isSome ∧ bits h 105 98 < x.shards ∧ count ≤ x.cand ∧ bytes.length = 16 + 8 * count ∧
          known.all (fun b => bits (shardHeader b) 105 98 != bits h 105 98) ∧
          s.shardOk x (lget .every (s.rowsFor r (f.prefill || f.recompute.isSome) f.positions) q) bytes then
        .next (s.modRegion r (fun y => { y with flight := some { f with cands := mset f.cands q (known ++ [bytes]) } }))
      else .next s

/-- Tokens of a slot up to and with a position's input (R222 stage 2). -/
def Flight.before (f : Flight) (x : SeqSlot) (q : Nat) : List Nat :=
  match f.positions[q]? with
  | none => []
  | some p =>
    let mine := (f.positions.filter (fun o => o.slot == p.slot && o.slot.isSome && decide (o.pos ≤ p.pos))).map (·.token)
    (x.log.map (·.1)).take (p.pos + 1 - mine.length) ++ mine

/-- CAMPION_RESULT: a lane has all shards of a position and returns its token (R212, R222). -/
def execCampionResult (r q : Nat) (s : State) : Out :=
  if 64 ≤ r then .next s
  else
    let x := s.region r
    match x.flight with
    | none => .next s
    | some f =>
      let shards := sortBy (fun a b => decide (bits (shardHeader a) 105 98 ≤ bits (shardHeader b) 105 98)) (mget [] f.cands q)
      match (f.positions[q]?).bind (·.slot), f.positions[q]? with
      | some n, some p =>
        if !f.sampledAt.contains q || mhas f.sampled q || shards.length != x.shards then .next s
        else
          let y := x.slot n
          let res := samplePosition x.coverMin (mget 0 f.params q) y.rngKey (p.pos + 1) (f.before y q) shards
          let u := mget 0 f.lanes q / 4
          let s := s.countCampion u 0 1
          let s := if res.dropped = 0 then s else s.countCampion u 2 res.dropped
          let s := if res.low then s.countCampion u 3 1 else s
          let s := if res.isEmpty then s.countCampion u 4 1 else s
          .next (s.modRegion r (fun z => { z with flight := some { f with sampled := mset f.sampled q res.token } }))
      | _, _ => .next s

/-! ### Commit (R172-R175, R224-R229) -/

/-- END of an output token: 1 at MAXTOK, else 2 at a stop condition, else 0 (R175, R224). `gen` counts the tokens
generated with this one. -/
def State.endOf (s : State) (x : SeqSlot) (param auto gen token : Nat) : Nat :=
  let stop0 := bitAt param 88 && bits param 106 89 == token
  let stop1 := bitAt param 69 && bits param 87 70 == token
  let accept := decide (x.mask < 0x100) && bitAt (leAt (s.source x.mask).image (64 + 16 * auto) 16) 111
  if gen = x.maxtok then 1 else if stop0 || stop1 || accept then 2 else 0

/-- Output tokens with their END, up to the first that ends the sequence. -/
def State.outputs (s : State) (x : SeqSlot) (param : Nat) : Nat → Nat → List Nat → List (Nat × Nat)
  | _, _, [] => []
  | auto, gen, t :: r =>
    let auto := s.advanceAuto x.mask auto [t]
    let e := s.endOf x param auto (gen + 1) t
    (t, e) :: (if e = 0 then s.outputs x param auto (gen + 1) r else [])

/-- The adaptive depth after a committed decode or verify step with `d` drafts of which `a` matched (R228). -/
def SeqSlot.adapt (x : SeqSlot) (param d a : Nat) : SeqSlot :=
  if 0 < d then
    let fails := if a = 0 then x.failCount + 1 else 0
    if bits param 68 65 ≠ 0 ∧ fails = bits param 68 65 then { x with depth := 0, failCount := fails, retryCount := bits param 64 53 }
    else { x with depth := min x.draft (a + 1), failCount := fails }
  else if x.depth = 0 ∧ x.retryCount ≠ 0 then
    if x.retryCount = 1 then { x with depth := 1, failCount := 0, retryCount := 0 } else { x with retryCount := x.retryCount - 1 }
  else x

/-- One 16-octet Campion record on channel A, in a one-flit write (R230). -/
def State.sendPair (s : State) (r typ value : Nat) : State :=
  let x := s.region r
  s.sendWrite 2 x.peerFa (2 * 2 ^ 46 + 4 * 2 ^ 42 + typ * 2 ^ 34 + x.peerRegion * 2 ^ 28 + r * 2 ^ 22) (natLE 16 value ++ zeros 224)

/-- Commit one slot of the step: the positions that stand, its records, log, length, depth and state (R173). Answers the
rows to append: slot, wave position, sequence position. -/
def State.commitSlot (s : State) (r : Nat) (f : Flight) (n : Nat) : State × List (Nat × Nat × Nat) :=
  let x := s.slot r n
  let mine := (List.range f.positions.length).filter (fun q => ((f.positions[q]?).bind (·.slot)) == some n)
  let at_ (q : Nat) : StepPos := lget { slot := none, pos := 0, token := 0 } f.positions q
  if f.recompute.isSome then
    let start := (at_ (mine.headD 0)).pos
    if x.state ≠ 4 ∨ x.redo ≠ some start then (s, [])
    else
      let s := s.modSlot r n (fun y => { y with
        lastGen := f.gen
        redo := if f.lastChunk then none else some (start + mine.length)
        state := if f.lastChunk then 2 else 4 })
      let s := if f.lastChunk then s.modRegion r (fun y => { y with runs := y.runs.map (fun e => if e.prefill ∧ e.slot = n then { e with held := false } else e) }) else s
      (s, mine.map (fun q => (n, q, (at_ q).pos)))
  else
    let q0 := mine.headD 0
    let param := mget 0 f.params (mine.getLastD 0)
    let ys := (mine.filter f.sampledAt.contains).map (fun q => mget 0 f.sampled q)
    let drafts := (mine.drop 1).map (fun q => (at_ q).token)
    let a := if f.prefill then 0 else matching ys (s.allowedDrafts (s.region r) x.mask x.auto drafts)
    let outs := s.outputs x param x.auto x.generated (if f.prefill then ys else ys.take (a + 1))
    let stand := if f.prefill then mine else mine.take outs.length
    let base := if f.prefill then (at_ q0).pos + mine.length else (at_ q0).pos + 1
    let ended := match outs.getLast? with | some o => o.2 != 0 | none => false
    let s := (outs.zip (List.range outs.length)).foldl (fun b o => b.sendToken r x.sinkFa x.sinkAddr o.1.1 n (base + o.2) f.gen o.1.2 o.2) s
    let prompt := if f.prefill then mine.map (fun q => ((at_ q).token, 0)) else []
    let s := if f.prefill then s.modSlot r n (fun y => { y with log := y.log.take (at_ q0).pos }) else s
    let s := s.appendLog r n (prompt ++ outs.map (fun o => (o.1, 1)))
    let y := s.slot r n
    let y := { y with
      length := x.length + stand.length
      nextInput := match outs.getLast? with | some o => o.1 | none => y.nextInput
      generated := x.generated + outs.length
      auto := s.advanceAuto x.mask x.auto (outs.map (·.1))
      lastGen := f.gen
      drafts := if f.tpl.kind = 3 then [] else y.drafts
      state := if ended then 5 else if f.prefill ∧ !f.lastChunk then 1 else 2 }
    let y := if f.prefill then y else y.adapt param drafts.length a
    let g := s.region r
    let draftSide := g.pairEn && g.role == 1
    let y := if draftSide then { y with specMade := y.specMade + outs.length } else y
    let s := s.modSlot r n (fun _ => y)
    let s := if draftSide then
        (outs.zip (List.range outs.length)).foldl (fun b o =>
          b.sendPair r 1 (n % 2 ^ 14 * 2 ^ 114 + (base + o.2) % 2 ^ 24 * 2 ^ 90 + o.1.1 % 2 ^ 18 * 2 ^ 72)) s
      else if g.pairEn && f.tpl.kind == 3 then
        s.sendPair r 2 (n % 2 ^ 14 * 2 ^ 114 + (y.length + 1) % 2 ^ 24 * 2 ^ 90 + y.nextInput % 2 ^ 18 * 2 ^ 72 + y.depth % 16 * 2 ^ 68)
      else s
    (s, stand.map (fun q => (n, q, (at_ q).pos)))

/-- The scatter at the head drains its staging slots (Table 2-10). -/
def State.startScatter (s : State) (r : Nat) : State :=
  match (s.region r).scatters with
  | [] => s
  | c :: _ => s.modListed r (fun _ x => if (x.stg c.stg).state = 2 then x.setStg c.stg { x.stg c.stg with state := 3 } else x)

/-- What ends with a committed step: its entry's count, the region's state, and CANCEL entries with ALL (R136, R159,
R178). -/
def State.endStep (s : State) (r : Nat) (f : Flight) : State :=
  let s : State :=
    match (s.region r).runOf f.entry with
    | none => s
    | some e =>
      let e' : RunEntry := { e with left := e.left - 1, lastStep := f.number, ran := true, done := e.done + (f.positions.filter (fun (p : StepPos) => p.slot.isSome)).length }
      if f.allNull then s.endRun r e stCancelled f.number
      else if e'.left = 0 then s.endRun r e stOK f.number
      else s.modRegion r (fun x => { x with runs := x.runs.map (fun (q : RunEntry) => if q.id = e.id then e' else q) })
  let s := (s.region r).cancelAlls.foldl (fun a id => a.complete id stOK 0) s
  let s : State := s.modRegion r (fun x => { x with cancelAlls := [] })
  if (s.region r).state = 4 then s.endRuns r stNoRegion else s.settleIdle r

/-- The commit of the step in flight (R173): slots in ascending order, staging SEALED, the scatter begun. -/
def State.commit (s : State) (r : Nat) (f : Flight) : State :=
  let slots := sortBy (fun a b => decide (a ≤ b)) (f.positions.filterMap (·.slot)).eraseDups
  let dead (n : Nat) : Bool := f.allNull || f.cancelled.contains n || f.nulls.contains n || (f.recompute.isNone && (s.slot r n).state != 3)
  let gone := slots.filter dead
  let (s, rows) := (slots.filter (fun n => !dead n)).foldl (fun (a : State × List (Nat × Nat × Nat)) n =>
    let (t, l) := a.1.commitSlot r f n
    (t, a.2 ++ l)) (s, [])
  let s := s.modListed r (fun _ x => if (x.stg (f.number % 2)).state = 1 then x.setStg (f.number % 2) { x.stg (f.number % 2) with state := 2 } else x)
  let busy := !(s.region r).scatters.isEmpty
  let s := s.modRegion r (fun x => { x with
    flight := none
    kept := []
    scatters := x.scatters ++ [{ step := f.number, stg := f.number % 2, rows := rows, resv := f.resv }]
    totals := { x.totals with steps := x.totals.steps.add 1 } })
  let s := if busy then s else s.startScatter r
  let s := (s.returnPromos f.promos).settleHolds.settleWindows r
  let s := gone.foldl (fun a n => (a.modSlot r n (fun y => { y with lastGen := f.gen })).leaveStep r n f) s
  let s := (slots.filter (fun n => !dead n)).foldl (fun a n => a.settleSlot r n) s
  (s.endStep r f).settleSwings r

/-- STEP_COMMIT: every pane has completed the last beat, and every result is there (R172). -/
def execStepCommit (r : Nat) (s : State) : Out :=
  if 64 ≤ r then .next s
  else
    match (s.region r).flight with
    | none => .next s
    | some f =>
      if f.beatsOver ∧ f.sampledAt.all (fun q => mhas f.sampled q) then .next (s.commit r f) else .next s

/-! ### Scatter (R195, R208) -/

/-- Bytes of a row in every slice of a layer: `rb` bytes at `q × rb` of the cell's staging slot (R195). -/
def State.stagedRows (s : State) (r stg q : Nat) (l : KvLayer) : List (List Byte) :=
  (List.range l.cells).map (fun i =>
    match (s.region r).localCell (l.firstCell + i) with
    | some c => let x := s.cell c; x.amem.read ((x.stg stg).base * 32 + q * l.rb) l.rb
    | none => [])

/-- The reads of a row in every slice are counted (R55, R61). -/
def State.countStaged (s : State) (r stg q : Nat) (l : KvLayer) : State :=
  (List.range l.cells).foldl (fun a i =>
    match (a.region r).localCell (l.firstCell + i) with
    | some c => a.modCell c (fun x => x.countBulk 2 ((x.stg stg).base * 32 + q * l.rb) l.rb { cls := 3, ev := 1, master := 2 })
    | none => a) s

/-- Append a scatter's rows in every layer. -/
def State.scatterRows (s : State) (r : Nat) (c : Scatter) : State :=
  (List.range (s.region r).kv.length).foldl (fun a k =>
    match (a.region r).kv[k]? with
    | none => a
    | some l =>
      let hit := c.lost.any (fun y => match (a.region r).localIndex y with
        | some i => decide (l.firstCell ≤ i ∧ i < l.firstCell + l.cells)
        | none => false)
      c.rows.foldl (fun b q =>
        let b := (b.countStaged r c.stg q.2.1 l).appendRow r k l q.1 q.2.2 c.resv (b.stagedRows r c.stg q.2.1 l)
        if hit then b.loseRow r k q.1 q.2.2 else b) a) s

/-- SCATTER_COMPLETE: the oldest scatter of a region ends (R195 step 3): its staging slots are FREE, the scatter
completion item of the next step is ready, unused reservations return, and what waited for it goes on. -/
def execScatterComplete (r : Nat) (s : State) : Out :=
  if 64 ≤ r then .next s
  else
    match (s.region r).scatters with
    | [] => .next s
    | c :: rest =>
      let s := s.scatterRows r c
      let s := s.modListed r (fun _ x => if (x.stg c.stg).state = 3 then x.setStg c.stg { x.stg c.stg with state := 0 } else x)
      let running := match (s.region r).flight with | some f => f.started && f.number == c.step + 1 | none => false
      let cells := (s.cells.filter (fun q => (s.region r).panes.contains (paneOfCell q.1))).map (·.1)
      let s := if running then
          cells.foldl (fun a y => (List.range (a.cell y).items.length).foldl (fun b i =>
            if itemClass (lget 0 (b.cell y).items i) = 4 ∧ !((b.cell y).ready.contains (i, c.step + 1)) ∧ !((b.cell y).taken.contains i) then b.makeReady y i (c.step + 1) else b) a) s
        else s
      let s := s.modRegion r (fun x => { x with scatters := rest })
      let s := ((s.returnResv r c.resv).settleHolds).startScatter r
      let slots := (c.rows.map (·.1)).eraseDups
      .next (slots.foldl (fun a n => a.settleSlot r n) s)

/-! ### Cache engine -/

/-- EPOCH_PASSED: a descriptor in Reclaim whose epoch has passed is Free; its home returns for zeroing (R199). -/
def execEpochPassed (d : Nat) (s : State) : Out :=
  if 4194304 ≤ d then .next s
  else
    let x := s.desc d
    if x.reclaim ∧ s.descPassed d then
      let s := if x.tier = 0 ∧ !x.zpend then s.delDesc d
        else s.setDesc d { guest := x.guest, loc := x.loc, units := x.units, zpend := true }
      .next (if x.tier = 0 then s else s.freeUnits x.loc x.units)
    else .next s

/-- PARK_EXPIRY: a parked record past EXPIRY frees its pages and log and is expired (R205). -/
def execParkExpiry (i : Nat) (s : State) : Out :=
  if 65536 ≤ i then .next s
  else
    let p := mget {} s.cache.parks i
    if p.state = 1 ∧ p.expiry ≤ s.nowNs then
      let s := (p.slot.descs.foldl (fun a d => a.decRef d) s).freeLog p.slot
      .next (s.setPark i { p with state := 3, slot := {} })
    else .next s

/-! ### Records between a main and a draft region (R225, R229, R230) -/

/-- Regions an engine message of Campion names: the destination, and the sender's. -/
def pairDest (m : Msg) : Nat := bits m.addr 33 28
def pairFrom (m : Msg) : Nat := bits m.addr 27 22

/-- Is the record accepted: the destination's DPAIR is enabled, has the role, and names the sender (R230)? -/
def State.pairAccepts (s : State) (m : Msg) (role : Nat) : Bool :=
  let x := s.region (pairDest m)
  x.pairEn && x.role == role && x.peerFa == m.src && x.peerRegion == pairFrom m

/-- Is a message a Campion engine message of a type (Table 13-7)? -/
def isPair (m : Msg) (typ : Nat) : Bool :=
  m.kind == 0 && bits m.addr 47 46 == 2 && bits m.addr 45 42 == 4 && bits m.addr 41 34 == typ

/-- DRAFT_RECORD: a draft joins the slot's buffer, or is dropped and counted (R225, R230). -/
def execDraftRecord (m : Msg) (s : State) : Out :=
  if !isPair m 1 then .next s
  else
    let r := pairDest m
    let v := leAt m.payload 0 16
    let n := bits v 127 114
    let x := s.slot r n
    if s.pairAccepts m 0 ∧ x.state ≠ 0 ∧ x.drafts.length < 8 ∧ bits v 113 90 = x.length + 1 + x.drafts.length then
      .next (s.modSlot r n (fun y => { y with drafts := y.drafts ++ [bits v 89 72] }))
    else .next (s.countCampion 0 6 1)

/-- VERIFY_RECORD: the draft slot's trim, next input and depth, taken now when the slot is out of any step, else before
its next admission (R229). -/
def execVerifyRecord (m : Msg) (s : State) : Out :=
  if !isPair m 2 then .next s
  else
    let r := pairDest m
    let v := leAt m.payload 0 16
    let n := bits v 127 114
    if s.pairAccepts m 1 then
      if (s.slot r n).state = 0 then .next s
      else .next ((s.modSlot r n (fun y => { y with verify := some (bits v 113 90, bits v 89 72, bits v 71 68) })).applyVerify r n)
    else .next (s.countCampion 0 6 1)

end Sys2Proof.Machine
end

