-- ==== Sys2Proof/Machine/ShiftOps.lean ====
section
/-! DEFINITION. The death of a cell, and the in-place row-shift (01 R26-R31, 05 R125, 06 R139, 09 R208, 20 R419, 21 R432). -/

namespace Sys2Proof.Machine

/-- Why a row cannot be shifted: 1 its spare is bad, 2 it is shifted already, 3 its shift is in progress; none when it can
(R27, R30). -/
def State.shiftBar (s : State) (c : Nat) : Option Nat :=
  let p := paneOfCell c
  if s.rowShifting c then some 3
  else if !(s.wafer.mapped p (prowOf c)).isEmpty then some 2
  else if s.wafer.spareBad p (prowOf c) then some 1
  else none

/-- The CELL record of a dead cell (R432). -/
def State.deadRec (s : State) (c code extra : Nat) : FaultRec :=
  let p := paneOfCell c
  s.cellRec c { cls := 1, code := code,
                detHi := cellDetail (prowOf c) (s.wafer.physCol p (prowOf c) (pcolOf c)) + extra }

/-- Record the position of a dead cell, which no longer runs (R27). -/
def State.markDead (s : State) (c : Nat) : State :=
  (s.mapOut c (prowOf c) (s.wafer.physCol (paneOfCell c) (prowOf c) (pcolOf c))).modCell c (fun x => { x with dead := true })

/-- Framed pages of the layers a dead cell served become Home; rows of its SEALED or DRAINING staging slots are lost
(R60, R208). Descriptors reserved for appends keep their frames: they hold no row yet. -/
def State.loseSlices (s : State) (r c : Nat) : State :=
  let x := s.region r
  let held := (match x.flight with | some f => f.resv | none => []) ++ x.scatters.flatMap (fun k => k.resv)
  let fresh := held.map (fun q => q.2.2.2)
  let i := (x.localIndex c).getD 0
  let layers := (x.kv.filter (fun l => decide (l.firstCell ≤ i ∧ i < l.firstCell + l.cells))).map (fun l => l.layer)
  let home (n : Nat) (d : Desc) : Desc :=
    if d.valid && d.region == r && !d.unbound && layers.contains d.layer && decide (2 ≤ d.tier) && !(fresh.contains n && d.fill == 0) then
      { d with tier := 1, frame := 0 }
    else d
  let s := { s with cache := { s.cache with desc := mmap home s.cache.desc } }
  let y := s.cell c
  let gone (stg : Nat) : Bool := (y.stg stg).state == 2 || (y.stg stg).state == 3
  if layers.isEmpty then s
  else
    let lost := (x.scatters.filter (fun k => gone k.stg)).map (fun k => k.step)
    let s := lost.foldl (fun a n => a.report (unitEngine 2) { cls := 8, code := 4, region := r, guest := x.guest, detHi := n % 2 ^ 32 * 2 ^ 32 + r }) s
    s.modRegion r (fun z => { z with scatters := z.scatters.map (fun k => if gone k.stg then { k with lost := k.lost ++ [c] } else k) })

/-- The place in time that a fault record shows: STEP, BEAT and CYCLE (R29, R431). -/
def FaultRec.place (f : FaultRec) : Nat := (f.step * 2 ^ 32 + f.beat) * 2 ^ 7 + f.cycle % 128

/-- Two shifts in the order in which they run (R29). -/
def shiftLe (a b : ShiftRec) : Bool :=
  decide (a.cycle < b.cycle) || (a.cycle == b.cycle && (decide (cellY a.cell < cellY b.cell) ||
    (cellY a.cell == cellY b.cell && decide (cellX a.cell ≤ cellX b.cell))))

/-- The step in flight is set back to its first beat: staging discarded, FIFOs and message ports emptied, Campion's results
dropped, every pane held (R179 steps 1 and 2). What is in a pipeline, an open run and a tile's totals go too, so that the
replay forms the same results and verdicts (R103; DEDUCED, log 73). It counts in ABANDONED. -/
def State.holdForShift (s : State) (r : Nat) : State :=
  let s := s.modListed r (fun _ x => { x.discard with
    fifo := [], evs := [], accs := [], issued := [], linkUse := [], awaiting := none, grantAsk := [], run := none, sfuFree := 0, totals := [] })
  let s := s.modRegionPanes r (fun _ p => { p with cond := .faultHold, resumeAt := none, outPort := [], outWait := [], outMsg := [] })
  let drop (f : Flight) : Flight := { f with sampled := [], cands := [], beatsOver := false }
  let s := s.modRegion r (fun x => { x with
    flight := x.flight.map drop
    totals := { x.totals with abandoned := x.totals.abandoned.add 1 } })
  s.settleHold r

/-- A cell dies in a region that is LOADED or RUNNING: a shift is scheduled, or the region stops (R27, R30). -/
def State.dieInRegion (s : State) (r c : Nat) : State :=
  let x := s.region r
  let tolerant := match x.image with | some i => i.rowshift | none => false
  let p := paneOfCell c
  match tolerant, s.shiftBar c with
  | true, none =>
    let f := s.deadRec c 1 0
    let rec_ : ShiftRec := { cell := c, pane := p, prow := prowOf c, pcol := s.wafer.physCol p (prowOf c) (pcolOf c), cycle := f.place }
    let s := (s.report c f).modCell c (fun y => { y.latchFault f with dead := true })
    let s := (s.loseSlices r c).modCell c (fun y => { y with stg0 := { y.stg0 with state := 0 }, stg1 := { y.stg1 with state := 0 } })
    let s := s.modRegion r (fun y => { y with shifts := sortBy shiftLe (y.shifts ++ [rec_]) })
    let stepping := match x.flight with | some f => f.started && !f.beatsOver | none => false
    if stepping ∧ x.shifts = [] then s.holdForShift r else s
  | _, bar =>
    let code := if tolerant then 3 else 2
    let f := s.deadRec c code (if tolerant then bar.getD 0 * 2 ^ 16 else 0)
    let s := (s.report c f).modCell c (fun y => y.latchFault f)
    let s := s.loseSlices r c
    (s.markDead c).stopRegion r

/-- The load in whose writes a pane stands. -/
def State.loadWriting (s : State) (p : Nat) : Option Nat :=
  (s.regions.find? (fun q => match q.2.load with | some l => l.phase == 5 && l.panes.contains p | none => false)).map (·.1)

/-- DEAD_CELL_DETECT: a cell dies (R26-R31, R125, R139). R27 gives a cell that dies in a STOPPED region or in no region no record of
its own: the model raises the record that the conditions of R27 give in the first case and none in the second (DESIGN CHOICE,
log 75). -/
def execDeadCellDetect (c : Nat) (s : State) : Out :=
  if !cellExists c ∨ (s.cell c).dead then .next s
  else
    match s.loadWriting (paneOfCell c) with
    | some r =>
      let tolerant := match (s.region r).load with
        | some l => (match l.image with | some i => i.rowshift | none => false)
        | none => false
      let able := tolerant && (s.shiftBar c).isNone
      let f := s.deadRec c 5 (bit able * 2 ^ 16)
      let s := s.report c f
      if able then .next (s.mapOut c (prowOf c) (s.wafer.physCol (paneOfCell c) (prowOf c) (pcolOf c)))
      else .next ((s.markDead c).abortLoad r)
    | none =>
      match s.regionOfCell c with
      | none => .next (s.markDead c)
      | some r =>
        let st := (s.region r).state
        if st = 2 ∨ st = 3 then .next (s.dieInRegion r c)
        else
          let tolerant := match (s.region r).image with | some i => i.rowshift | none => false
          let bar := s.shiftBar c
          let code := if !tolerant then 2 else if bar.isSome then 3 else 1
          let f := s.deadRec c code (if code = 3 then bar.getD 0 * 2 ^ 16 else 0)
          .next (((((s.report c f).modCell c (fun y => y.latchFault f)).loseSlices r c).markDead c))

/-! ### The copy -/

/-- A word of the copy is read at the old position and written at the new one, and counted there twice; of the dead cell only the
writes of its weight memory are (R28, R417; DEDUCED, log 76). What a cell of the shifted row keeps, and what is rewritten from the retained image (R28, R419). -/
def Parsed.afterShift (p : Parsed) (k loss : Nat) (isDead : Bool) (x : Cell) : Cell :=
  let w := lget 0 p.cells k
  let whole := p.install w k {}
  let ev : PmcEv := { glazeEv with byOwner := true, byGuest := false }
  let copied (y : Cell) (mem : Nat) : Cell := (y.countBulk mem 0 (memSize mem) ev).countBulk mem 0 (memSize mem) ev
  let n := if isDead then x.countBulk 1 0 1048576 ev else [1, 2, 4].foldl copied x
  let q := x.keepBg (fun b => match b.purpose with | .delivery _ _ _ => false | _ => true)
  { whole with
    imem := if isDead then whole.imem else x.imem
    wmem := x.wmem
    amem := if isDead then { lost := some loss } else x.amem
    pmem := {}
    stg0 := if isDead then whole.stg0 else x.stg0
    stg1 := if isDead then whole.stg1 else x.stg1
    bg := q.bg, bgMesh := q.bgMesh
    latchReg := x.latchReg
    bankSel := x.bankSel
    bankCnt := n.bankCnt
    memAddr := x.memAddr
    freeze := if isDead then false else x.freeze
    pmc := if isDead then (List.range 8).map (fun n => (n, { wrap := true })) else n.pmc
    pmcSel := if isDead then [] else x.pmcSel
    pmcRange := if isDead then [] else x.pmcRange
    stale := if isDead then { wrap := true } else x.stale
    dead := false }

/-- Held accesses of a row are served after its switch, in arrival order (R31). -/
def State.serveHeld (s : State) (hit : Nat → Bool) : State :=
  (s.windowHeld.filter (fun h => hit h.cell)).foldl (fun a h => a.windowAccess h.src h.cell h.off h.rtag h.val)
    { s with windowHeld := s.windowHeld.filter (fun h => !hit h.cell) }

/-- Frames for the pages of the step in flight, after a shift released those of some layers (R193, R208). -/
def State.reserveAgain (s : State) (r : Nat) : State :=
  let x := s.region r
  let old := match x.flight with | some f => f.promos | none => []
  let t := x.flightSlots.foldl (fun (a : Taking) n =>
    (List.range x.kv.length).foldl (fun (b : Taking) k =>
      match x.kv[k]? with
      | none => b
      | some l => let c := b.s.reserveLayer r n k 0 0 l x.flightSlots; { s := c.s, promos := b.promos ++ c.promos }) a) { s := s.returnPromos old }
  t.s.modRegion r (fun y => { y with flight := y.flight.map (fun f => { f with promos := t.promos }) })

/-- ROW_SHIFT_COPY_COMPLETE: the first shift of a region is copied, switched and recorded; held accesses of its row are
served; after the last one the step in flight is replayed (R28, R29, R31, R179). -/
def execRowShiftCopyComplete (r : Nat) (s : State) : Out :=
  if 64 ≤ r then .next s
  else
    let x := s.region r
    match x.shifts with
    | [] => .next s
    | q :: rest =>
      let img := match x.image with | some i => parseImage i.bytes | none => none
      let d := pcolOf q.cell
      let moved := (List.range (16 - d)).map (fun j => paneCell q.pane q.prow (d + j))
      let n := s.freeCount
      let s := s.useFree
      let s := match img with
        | none => s
        | some p => moved.foldl (fun a c =>
            a.modCell c (p.afterShift (((a.region r).localIndex c).getD 0) (lossNo n c 2) (c == q.cell))) s
      let s := { s with spareMem := mset s.spareMem (16 * q.pane + q.prow) (s.cell q.cell).wmem }.mapOut q.cell q.prow q.pcol
      let s := s.modRegion r (fun y => { y with shifts := rest })
      let row (c : Nat) : Bool := paneOfCell c == q.pane && prowOf c == q.prow
      let s := s.serveHeld row
      if rest ≠ [] then .next s
      else
        match (s.region r).flight with
        | none => .next s
        | some f =>
          if f.beatsOver then .next s
          else
            let s := (s.modRegion r (fun y => { y with flight := some { f with kvReady := [] } })).reserveAgain r
            .next (if f.started then (s.replay r).settleHold r else s)

end Sys2Proof.Machine
end

