-- ==== Sys2Proof/Machine/PowerOps.lean ====
section
/-! DEFINITION. Commands of the power supply and of pane regulation: input voltage, converters, boost, stretch, shunt, load-step raises,
phases, segment overcurrent and fast samples (15 R316-R326, R331, 17 R368). -/

namespace Sys2Proof.Machine

/-- A POWER report of a pane, and of the module (R340). -/
def State.powerPane (s : State) (p code detHi : Nat) : State := s.report (unitPane p) (s.paneRec p { cls := 4, code := code, detHi := detHi })
def State.powerModule (s : State) (code detHi : Nat) : State := s.report unitModule { cls := 4, code := code, detHi := detHi }

def State.setVin (s : State) (vin : Nat) : State := s.modPower (fun p => { p with vin := vin })

/-! ### Input voltage (Table 15-2). Voltages in 0.1 V. -/

/-- INPUT_LOW: below 46 V for 1 ms (R316, R357, R437, R439). -/
def execInputLow (vin : Nat) (s : State) : Out :=
  if 460 ≤ vin ∨ s.power.inputLow ∨ s.boot.off then .next s
  else
    let s := (s.setVin vin).event 0x07 {}
    let s := s.modPower (fun p => { p with inputLow := true, lowSince := some (s.time - ms 1) })
    .next ((((s.powerModule 8 (vin % 2 ^ 12)).cause 57).applyEnv).shelfStatus)

/-- INPUT_LOW_RELEASE: at or above 47 V for 100 ms; the caps are released (R316). -/
def execInputLowRelease (vin : Nat) (s : State) : Out :=
  if vin < 470 ∨ !s.power.inputLow ∨ s.boot.off then .next s
  else
    let s := (s.setVin vin).modPower (fun p => { p with inputLow := false, lowSince := none })
    .next ((s.applyEnv).shelfStatus)

/-- INPUT_LOW_SHUTDOWN: below 46 V for 5 s, or below 42 V (R316, R351). A fall with no INPUT_LOW before it writes that record
too. -/
def execInputLowShutdown (vin : Nat) (s : State) : Out :=
  let long : Bool := match s.power.lowSince with | some t => decide (t + secs 5 ≤ s.time) | none => false
  if s.boot.off ∨ 460 ≤ vin ∨ (420 ≤ vin ∧ !long) then .next s
  else .next ((s.setVin vin).shutdown (if s.power.inputLow then [0x08] else [0x07, 0x08]) {})

/-- INPUT_HIGH: above 60 V for 1 ms, or above 63 V; the converters stop at once (R316, R351). -/
def execInputHigh (vin : Nat) (s : State) : Out :=
  if vin ≤ 600 ∨ s.boot.off then .next s
  else .next ((((s.setVin vin).powerModule 9 (vin % 2 ^ 12)).cause 57).shutdownHigh)

/-- CONVERTER_FAIL: converter `c` of segment `k` is lost; from the second on the rating falls (R316). -/
def execConverterFail (k c : Nat) (s : State) : Out :=
  if 9 ≤ k ∨ segConverters k ≤ c then .next s
  else if (s.seg k).lost.contains c then .next s
  else
    let s := s.setSeg k { s.seg k with lost := (s.seg k).lost ++ [c] }
    if (s.seg k).lost.length < 2 then .next s else .next ((s.powerModule 7 (k + 16 * c)).shelfStatus)

/-! ### Regulation (R319, R320) -/

/-- Is a pane's core rail regulated: on, and not in retention? -/
def State.regulated (s : State) (p : Nat) : Bool := decide (0 < s.setpointOf p) && decide ((s.pane p).power ≤ 1)

/-- BOOST: the lowest sensor is 25 mV or more below the setpoint, and the boost has recharged (R319). -/
def execBoost (p vmin : Nat) (s : State) : Out :=
  if 786 ≤ p then .next s
  else
    let q := (s.pane p).pwr
    let charged : Bool := match q.boostAt with | some t => decide (t + us 5 ≤ s.time) | none => true
    if s.regulated p ∧ vmin + 25 ≤ s.setpointOf p ∧ charged then
      .next (s.modPane p (fun y => y.modPwr (fun w => { w with vmin := vmin, boosts := satTo 2047 (w.boosts + 1), boostAt := some s.time })))
    else .next s

/-- CLOCK_STRETCH: at 50 mV or more below the setpoint the oscillator halves, until the droop is below 25 mV (R319). -/
def execClockStretch (p vmin : Nat) (s : State) : Out :=
  if 786 ≤ p then .next s
  else
    let q := s.pane p
    let set := s.setpointOf p
    if q.clk.stretched then
      if set < vmin + 25 then .next (s.modPane p (fun y => (y.modClk (fun c => { c with stretched := false })).modPwr (fun w => { w with vmin := vmin })))
      else .next s
    else if s.regulated p ∧ vmin + 50 ≤ set then
      .next (s.modPane p (fun y => (y.modClk (fun c => { c with stretched := true })).modPwr (fun w =>
        { w with vmin := vmin, stretch := satTo 2047 (w.stretch + 1) })))
    else .next s

/-- SHUNT: the highest sensor is 25 mV or more above the setpoint (R319). -/
def execShunt (p vmax : Nat) (s : State) : Out :=
  if 786 ≤ p then .next s
  else if s.regulated p ∧ s.setpointOf p + 25 ≤ vmax then
    .next (s.modPane p (fun y => y.modPwr (fun w => { w with shunts := satTo (2 ^ 32 - 1) (w.shunts + 1) })))
  else .next s

/-- DROOP: a droop longer than 1 µs raises one fault per pane per round (R319). -/
def execDroop (p vmin : Nat) (s : State) : Out :=
  if 786 ≤ p then .next s
  else if s.regulated p ∧ vmin + 25 ≤ s.setpointOf p ∧ !(s.pane p).pwr.droopSent then
    .next ((s.powerPane p 5 (vmin % 2 ^ 16)).modPane p (fun y => y.modPwr (fun w => { w with vmin := vmin, droopSent := true })))
  else .next s

/-- Marks of a pane in the step in flight: the running cycles, from the step's first, in which each raise begins and ends (R130,
R320). -/
def State.marksOf (s : State) (p : Nat) : List (Nat × Nat) :=
  match (s.pane p).region with
  | none => []
  | some r =>
    let x := s.region r
    match x.flight, x.image with
    | some f, some im =>
      let i := (x.panes.findIdx? (· == p)).getD 738
      let mhz := (s.pane p).clk.stepMhz
      (im.marks.filter (fun m => m.pane == i && m.tpl == f.tpl.tpl)).map (fun m =>
        (m.cyc - ceilDiv (300 * mhz) 1000, m.cyc + ceilDiv (200 * mhz) 1000))
    | _, _ => []

/-- Running cycles of the step in flight that a pane has ended. -/
def State.stepCycles (s : State) (p : Nat) : Nat :=
  match (s.pane p).region with
  | none => 0
  | some r =>
    match (s.region r).flight with
    | some f => ((s.pane p).beat - f.firstBeat) * (s.region r).beatLen + (s.pane p).cyc
    | none => 0

/-- LOAD_STEP_RAISE: the lead of a mark has been reached, or a raise that a long stop suspended is applied again (R130, R320). -/
def execLoadStepRaise (p : Nat) (s : State) : Out :=
  if 738 ≤ p then .next s
  else
    let q := s.pane p
    if q.cond ≠ .running then .next s
    else if q.pwr.raiseOff then .next (s.modPane p (fun y => y.modPwr (fun w => { w with raiseOff := false })))
    else
      let n := s.stepCycles p
      let now := ((s.marksOf p).filter (fun m => decide (m.1 ≤ n ∧ n < m.2))).map (fun m => q.runCycles + (m.2 - n))
      let new := now.filter (fun e => !q.pwr.raises.contains e)
      if new = [] then .next s
      else .next (s.modPane p (fun y => y.modPwr (fun w => { w with raises := w.raises ++ new })))

/-- LOAD_STEP_RAISE_END: raises whose running cycles are over end; a stop of more than 20 µs suspends the rest (R320). -/
def execLoadStepRaiseEnd (p : Nat) (s : State) : Out :=
  if 738 ≤ p then .next s
  else
    let q := s.pane p
    let left := q.pwr.raises.filter (fun e => decide (q.runCycles < e))
    let off := q.pwr.raiseOff || (q.cond != .running && decide (q.ranAt + us 20 < s.time))
    .next (s.modPane p (fun y => y.modPwr (fun w => { w with raises := left, raiseOff := off && !left.isEmpty })))

/-! ### Phases (R323-R326) -/

/-- The region in whose load, in admission or writing, a pane stands. -/
def State.loadHolding (s : State) (p : Nat) : Option Nat :=
  (s.regions.find? (fun q => match q.2.load with | some l => decide (4 ≤ l.phase) && l.panes.contains p | none => false)).map (·.1)

/-- A core pane is dark: its region stops, its rails are off, its cells' pages and rows are lost (R325). -/
def State.darkCore (s : State) (p : Nat) : State :=
  let off (s : State) : State := (s.losePane p true).modPane p (fun q =>
    { q with power := 4, pwr := { q.pwr with cap := 2, base := 0, from_ := 0, raises := [], raiseOff := false } })
  match (s.pane p).region with
  | none => match s.loadHolding p with
    | some r => off (if (match (s.region r).load with | some l => l.phase == 5 | none => false) then s.abortLoad r else s.refuseLoadOf r stPlaceIncompat)
    | none => off s
  | some r =>
    let s := (s.modRegionPanes r (fun _ q => { q with cond := .faultHold, resumeAt := none })).stopRegion r
    let s := (List.range 256).foldl (fun a i => a.loseSlices r (paneCell p (i / 16) (i % 16))) s
    let s := match s.loadHolding p with
      | some l => if (match (s.region l).load with | some y => y.phase == 5 | none => false) then s.abortLoad l else s.refuseLoadOf l stPlaceIncompat
      | none => s
    off s

/-- A sill pane is dark: its ports are DOWN, its controllers and lanes are out of service, and without S0 pane 3 the module resets
(R326). -/
def State.darkSill (s : State) (p : Nat) : State :=
  let s := s.modPane p (fun q => { q with power := 4, pwr := { q.pwr with cap := 2 } })
  let k := sillK p
  if k ≤ 1 then
    let first := 8 * sillOf p + 4 * k
    (List.range 4).foldl (fun a i => if (a.port (first + i)).state = 0 then a else a.enterDown (first + i) 1) s
  else if k = 3 ∧ sillOf p = 0 then s.moduleReset 4
  else s

/-- PHASE_FAIL: phase `ph` of pane `p` is disconnected and recorded; cause 1 self-test, 2 overcurrent, 3 regulation, 4 temperature
(R323, Table 15-4). -/
def execPhaseFail (p ph why : Nat) (s : State) : Out :=
  if 786 ≤ p ∨ (if p < 738 then 4 else 3) ≤ ph then .next s
  else
    let q := s.pane p
    if q.pwr.failed.contains ph then .next s
    else
      let failed := q.pwr.failed ++ [ph]
      let mask := failed.foldl (fun a i => a + 2 ^ i) 0
      let s := s.modPane p (fun y => y.modPwr (fun w => { w with failed := failed }))
      let s := s.modPower (fun w => { w with phaseMap := if w.phaseMap.contains (4 * p + ph) then w.phaseMap else w.phaseMap ++ [4 * p + ph] })
      let s := s.powerPane p 1 (ph + why % 16 * 2 ^ 8)
      let n := failed.length
      if p < 738 ∧ n = 2 then
        let s := (s.powerPane p 2 mask).modPane p (fun y => y.modPwr (fun w => { w with cap := 1 }))
        match q.region with
        | some r => .next (s.capRegion r)
        | none => .next s
      else if (p < 738 ∧ n = 3) ∨ (738 ≤ p ∧ n = 2) then
        let s := s.powerPane p 3 (mask + q.region.getD 0 * 2 ^ 16)
        .next (if p < 738 then s.darkCore p else s.darkSill p)
      else .next s

/-! ### Currents (R331, R368) -/

/-- The limits in force, in W: SU and PK (R353, R367). -/
def State.limitSU (s : State) : Rat := match s.capNow with | some c => min (s.power.limSustained : Rat) c | none => s.power.limSustained
def State.limitPK (s : State) : Rat :=
  let v := (s.power.limPeak : Rat) - ((s.power.limSustained : Rat) - s.limitSU)
  if s.prof.grant then v else min v 30000

/-- K_PWR of a region rises, to at most 31. -/
def State.raisePwr (s : State) (r n : Nat) : State := s.modRegion r (fun x => { x with kPwr := satTo 31 (x.kPwr + n) })

/-- Numbers of the running regions. -/
def State.runningRegions (s : State) : List Nat := (s.regions.filter (fun q => q.2.state == 3)).map (·.1)

/-- POWER_FAST_SAMPLE: every 10 µs the nine segment currents, in A, and the bus voltage, in mV, are sampled; P_FAST above PK raises K_PWR
by 8 in every running region (R328, R331, R368). -/
def execPowerFastSample (amps : List Nat) (bus : Nat) (s : State) : Out :=
  if s.boot.off ∨ amps.length ≠ 9 then .next s
  else
    let take (s : State) (k : Nat) : State :=
      let g := s.seg k
      let i := lget 0 amps k
      let high := decide (s.segRating k < i)
      s.setSeg k { g with
        samples := (s.time, i) :: g.samples.filter (fun q => decide (s.time ≤ q.1 + us 100))
        overSince := if high then some (g.overSince.getD s.time) else none
        overSent := high && g.overSent }
    let s := (List.range 9).foldl take s
    let mw := amps.foldl (· + ·) 0 * bus
    let s := s.modProf (fun p => { p with pfast := mw / 1000 })
    if s.limitPK * 1000 < (mw : Rat) then .next (s.runningRegions.foldl (fun a r => a.raisePwr r 8) s) else .next s

/-- SEGMENT_OVER: a segment's current has stayed above its rating for 1 ms: the pause level of the region admitted most recently in it that can
still be raised is raised, by an amount the spec leaves open (R331). -/
def execSegmentOver (k : Nat) (s : State) : Out :=
  if 9 ≤ k then .next s
  else
    let g := s.seg k
    match g.overSince with
    | none => .next s
    | some t =>
      if s.time < t + ms 1 then .next s
      else
        let s := if g.overSent then s else
          ((s.powerModule 6 (k + s.segMeasured k % 1024 * 2 ^ 16)).modPower (fun p => { p with overRound := true })).setSeg k { g with overSent := true }
        let mine := s.regions.filter (fun q => decide (0 < panesInSeg q.2.panes k) && decide (q.2.kPower < 31))
        let s := match (sortBy (fun (a b : Nat × Region) => decide (b.2.power.admittedAt ≤ a.2.power.admittedAt)) mine).head? with
          | none => s
          | some q => (s.raisePwr q.1 (1 + s.free.toNat % 31)).useFree
        .next s.shelfStatus

end Sys2Proof.Machine
end

