-- ==== Sys2Proof/Machine/Sensors.lean ====
section
/-! DEFINITION. Temperatures: sensors, substitute readings, T_REGION, the thermal cap, coolant, and compensation (16 R341-R356). All
temperatures count 0.125 °C. -/

namespace Sys2Proof.Machine

/-- Does the Lintel run: its firmware is verified, and it is neither stopped nor halted (Tables 19-3, 22-10)? -/
def State.lintelUp (s : State) : Bool :=
  !s.boot.off && !s.boot.resetLow && !s.iface.halted && decide (4 ≤ s.boot.stage) && s.boot.stage != 0xF

/-! ### Sensors (R341, R342) -/

def Pane.modTherm (q : Pane) (f : PaneThermal → PaneThermal) : Pane := { q with therm := f q.therm }

/-- A THERMAL report of a pane, and of the module or a region (R359). -/
def State.thermalPane (s : State) (p code detHi : Nat) : State := s.report (unitPane p) (s.paneRec p { cls := 5, code := code, detHi := detHi })
def State.thermalModule (s : State) (code detHi : Nat) : State := s.report unitModule { cls := 5, code := code, detHi := detHi }

/-- Working readings of a pane: two sensors of a core pane, one of a sill pane. -/
def PaneThermal.working (t : PaneThermal) (p : Nat) : List Int :=
  (if t.failed0 then [] else [t.t0]) ++ (if t.failed1 || decide (738 ≤ p) then [] else [t.t1])

/-- Reading of a pane: the highest of its working sensors, or the substitute: the highest among the panes that share an edge, plus
5 °C (R342). -/
def State.paneTemp (s : State) (p : Nat) : Int :=
  match (s.pane p).therm.working p with
  | a :: l => l.foldl max a
  | [] =>
    match (if p < 738 then (edgePanes p).flatMap (fun q => (s.pane q).therm.working q) else []) with
    | a :: l => l.foldl max a + 40
    | [] => Config.substTemp p s.time

/-- Is a reading out of a working sensor's range: below −20 °C, or above 150 °C? -/
def sensorBad (v : Int) : Bool := decide (v < -160) || decide (1200 < v)

/-- One pane's sensors are read: failures are found and reported once (R342). -/
def State.readSensor (s : State) (x : Nat × Int × Int) : State :=
  let p := x.1
  let a := x.2.1
  let b := if 738 ≤ p then a else x.2.2
  let t := (s.pane p).therm
  let pair := decide (p < 738)
  let f0 := t.failed0 || sensorBad a
  let f1 := t.failed1 || (pair && sensorBad b)
  let apart := pair && !f0 && !f1 && (decide (a + 120 < b) || decide (b + 120 < a))
  let n := if apart then t.mismatch + 1 else 0
  let late := decide (4 ≤ n)
  let g0 := f0 || (late && decide (a ≤ b))
  let g1 := f1 || (late && decide (b < a))
  let s := if g0 && !t.failed0 then s.thermalPane p 8 (signedBits 12 a * 2 ^ 16) else s
  let s := if g1 && !t.failed1 then s.thermalPane p 8 (1 + signedBits 12 b * 2 ^ 16) else s
  s.modPane p (fun q => q.modTherm (fun t =>
    { t with t0 := a, t1 := b, failed0 := g0, failed1 := g1, mismatch := n, subst := g0 && (!pair || g1) }))

/-- T_REGION: the highest of the region's panes, the diodes of their fields, and every sill pane (R344). -/
def State.regionTemp (s : State) (r : Nat) : Int :=
  let ps := (s.region r).panes
  let fields := (ps.map (fun p => 6 + p / 9)).eraseDups
  let vs := ps.map s.paneTemp ++ fields.map (fun f => mget 0 s.thermal.diodes f) ++ (List.range 48).map (fun i => s.paneTemp (738 + i))
  match vs with
  | a :: l => l.foldl max a
  | [] => 0

/-- Regions with panes. -/
def State.placed (s : State) : List Nat := (s.regions.filter (fun q => !q.2.panes.isEmpty)).map (·.1)

/-! ### Warnings and critical readings (R345, R351) -/

/-- A channel as R345 sees it: kind 1 pane, 2 diode, 3 sill, 4 HBM; its number, reading, subject pane, event subject, and critical
reading. -/
structure Channel where
  kind : Nat
  num : Nat
  val : Int
  pane : Nat := 0x3FF
  sub : EventSub := {}
  deriving DecidableEq, Repr

def Channel.critical (c : Channel) : Bool := decide ((if c.kind = 4 then 840 else 880) ≤ c.val)
def Channel.key (c : Channel) : Nat := 10000 * c.kind + c.num
def Channel.detail (c : Channel) : Nat := signedBits 12 c.val + c.kind * 2 ^ 12

/-- Channels of a round, as they read after failures are found. -/
def State.channels (s : State) (rd : Readings) : List Channel :=
  rd.sens.flatMap (fun x =>
    let t := (s.pane x.1).therm
    let one (i : Nat) (v : Int) : Channel :=
      if x.1 < 738 then { kind := 1, num := 2 * x.1 + i, val := v, pane := x.1, sub := { pane := x.1 } }
      else { kind := 3, num := x.1 - 738, val := v, pane := x.1, sub := { pane := x.1 } }
    if t.subst then [one 0 (s.paneTemp x.1)]
    else (if t.failed0 then [] else [one 0 t.t0]) ++ (if t.failed1 || decide (738 ≤ x.1) then [] else [one 1 t.t1])) ++
  rd.diodes.map (fun x => { kind := 2, num := x.1, val := x.2, sub := { field := x.1 } }) ++
  rd.hbm.map (fun x => { kind := 4, num := x.1, val := x.2, pane := paneHbm x.1, sub := { stack := x.1 } })

/-- A THERMAL report of a channel. -/
def State.channelFault (s : State) (c : Channel) (code : Nat) : State :=
  if c.pane = 0x3FF then s.thermalModule code c.detail else s.thermalPane c.pane code c.detail

/-- WARN at 95 °C, again only after the channel has fallen to 92 °C (R345). -/
def State.warn (s : State) (c : Channel) : State :=
  let on := s.thermal.warned.contains c.key
  if 760 ≤ c.val ∧ !on then (s.channelFault c 1).modThermal (fun t => { t with warned := t.warned ++ [c.key] })
  else if c.val ≤ 736 ∧ on then s.modThermal (fun t => { t with warned := t.warned.filter (fun k => k != c.key) })
  else s

/-! ### The cap (R353, R355) -/

/-- The cap from Rth, the inlet and the margin, at least 2 kW. -/
def Thermal.capOf (t : Thermal) : Rat :=
  if t.rth ≤ 0 then 655350 else max 2000 ((100 - (t.inlet : Rat) / 8 - (t.margin : Rat)) * 1000000 / t.rth)

/-- Rth follows the wafer's power with a time constant of 1 s, unless the filter is frozen; then the cap is set: 2 kW in a sudden
stop (R353, R355). -/
def State.updateCap (s : State) (hot : Int) (p : Nat) : State :=
  s.modThermal (fun t =>
    let frozen := t.stopAt.isSome
    let inst : Rat := ((hot - t.inlet : Int) : Rat) / 8 * 1000000 / (p : Rat)
    let t := if frozen || decide (p < 4000) then t else { t with rth := t.rth + (inst - t.rth) / 2000 }
    { t with frozen := frozen, cap := some (if frozen then 2000 else t.capOf) })

/-! ### Sudden loss of coolant (R354, R355) -/

/-- A sudden stop is declared: its record, the cause bit, and K_ENV 31 in every region. -/
def State.declareStop (s : State) (code typ detail : Nat) : State :=
  let s := ((s.thermalModule code detail).event typ {}).cause 59
  (s.modThermal (fun t => { t with stopAt := some s.time, good := 0, kCool := 31 })).applyEnv

/-- The stop recovers: the filter goes on, the cap comes from the Rth held, and K_ENV falls from the next round (R355 step 3). -/
def State.recoverStop (s : State) : State :=
  (s.modThermal (fun t => { t with stopAt := none, frozen := false, cap := some t.capOf })).event 0x05 {}

/-- COOLANT of TH_STATUS (Table 16-7). -/
def Thermal.coolantState (t : Thermal) : Nat := if t.stopAt.isSome then 2 else if 0 < t.kCool then 3 else if t.outside then 1 else 0

/-! ### Pause demands (R348-R350) -/

/-- K_TH of a region for its temperature (R348). -/
def kThNext (k : Nat) (t : Int) : Nat :=
  if 800 ≤ t then max k (min 31 (4 * (((t - 800) / 8).toNat + 1))) else if t < 784 then k - 1 else k

/-- K_TH of a region in a round, and THROTTLE when it rises from 0 (R348). -/
def State.roundTh (s : State) (r : Nat) : State :=
  let x := s.region r
  let t := s.regionTemp r
  let k := kThNext x.kTh t
  let s := s.modRegion r (fun y => { y with kTh := k, tRegion := t })
  if x.kTh = 0 ∧ 0 < k then
    s.report unitModule (s.stamp r (x.panes.headD 0) { cls := 5, code := 2, detHi := signedBits 12 t + k * 2 ^ 16 })
  else s

/-- K_RATE of a region in a round: the emergency's release, else the fall by 1 (R349, R350). -/
def State.roundRate (s : State) (r : Nat) : State :=
  let t := s.thermal
  if mhas t.emerg r then
    let n := if t.roseFast.contains r || decide (800 ≤ (s.region r).tRegion) then 0 else mget 0 t.emerg r + 1
    s.modThermal (fun t => { t with emerg := if 4 ≤ n then mdel t.emerg r else mset t.emerg r n })
  else if t.rose.contains r then s
  else s.modRegion r (fun x => { x with kRate := x.kRate - 1 })

/-! ### Compensation (R356) -/

/-- Temperatures of the table's points, in 0.125 °C. -/
def trimTemps : List Rat := [160, 280, 400, 520, 640, 760, 840, 880]

/-- The trim of a pane at a temperature: linear between the points of the table. -/
def trimAt (osc : Bool) (p : Nat) (t : Rat) : Rat :=
  if t < 160 ∨ 880 < t then Config.trimBeyond osc p t
  else
    let k := min 6 ((trimTemps.filter (fun x => decide (x ≤ t))).length - 1)
    let a := lget 0 trimTemps k
    let b := lget 0 trimTemps (k + 1)
    let u := Config.trimPoint osc p k
    let v := Config.trimPoint osc p (k + 1)
    u + (v - u) * (t - a) / (b - a)

/-- Mean of the working sensors of a pane, or its substitute. -/
def State.meanTemp (s : State) (p : Nat) : Rat :=
  match (s.pane p).therm.working p with
  | [] => (s.paneTemp p : Rat)
  | l => ((l.foldl (· + ·) 0 : Int) : Rat) / (l.length : Rat)

def State.compensate (s : State) (p : Nat) : State :=
  let t := s.meanTemp p
  s.modPane p (fun q => q.modClk (fun c => { c with oscTrim := trimAt true p t, refTrim := trimAt false p t }))

end Sys2Proof.Machine
end

