-- ==== Sys2Proof/Machine/BootOps.lean ====
section
/-! DEFINITION. Resets, the boot sequence, standby activation, firmware attempts and commits (19 R399-R413). -/

namespace Sys2Proof.Machine

/-! ### Resets (R399-R401, R405, R411) -/

/-- POWER_ON: busbar power is in range, `vin` in 0.1 V, of a module that is off; with RESET_N low the boot waits for its rise (R399,
R402). -/
def execPowerOn (vin : Nat) (s : State) : Out :=
  if s.boot.off ∧ 460 ≤ vin then .next ((s.coldBoot 0).modBoot (fun b => { b with resetLow := s.boot.resetLow })) else .next s

/-- RESET_N: held low it stops the module, which stays stopped; its rise begins the boot. A power-on whose boot has not begun waits for the
rise (R352, R399, R401, R402). -/
def execResetN (low : Bool) (s : State) : Out :=
  if low then
    if s.boot.resetLow then .next s
    else
      let s := if s.boot.off ∨ s.boot.stage = 0 then s else ((s.holdRunning).portsDown).lowerAll 4
      .next (s.tapLock.modBoot (fun b => { b with resetLow := true, ready := false }))
  else if !s.boot.resetLow then .next s
  else if s.boot.stage = 0 ∧ !s.boot.off then .next (s.modBoot (fun b => { b with resetLow := false }))
  else .next (s.coldBoot 1)

/-- MODULE_RESET: the owner's write of the key resets the module; any other write is refused (R401, Table 19-7). -/
def execModuleReset (src val : Nat) (s : State) : Out :=
  .next (s.ownerWrites src 0x10408 val (fun s => if val = 0x52535445 then s.moduleReset 2 else s.refuseSource src 0x10408 0 false))

/-- LINTEL_WATCHDOG: the Lintel has not served its watchdog for 100 ms (R405). -/
def execLintelWatchdog (s : State) : Out :=
  let b := s.boot
  if b.off ∨ b.resetLow ∨ b.stage < 4 ∨ b.stage = 0xF ∨ s.time < b.servedAt + ms 100 then .next s
  else .next (s.moduleReset 3)

/-- FW_ATTEMPT: 1 s after both copies failed in an attempt (R411). -/
def execFwAttempt (s : State) : Out :=
  match s.boot.bothFailed with
  | some t => if t + secs 1 ≤ s.time ∧ !s.boot.resetLow then .next (s.moduleReset 5) else .next s
  | none => .next s

/-! ### Stages (R402-R406) -/

/-- The next stage begins; the Lintel's stages go out on the service UART (22 R447). -/
def State.toStage (s : State) (n : Nat) : State :=
  let s := s.modBoot (fun b => { b with stage := n, stageAt := s.time, servedAt := s.time })
  if 4 ≤ n then s.uart n else s

/-- Both copies have failed: an attempt waits for its reset, any other boot is STOPPED (R403, R411). -/
def State.copiesFailed (s : State) : State :=
  if s.boot.attempting then s.modBoot (fun b => { b with bothFailed := some s.time }) else s.bootStopped

/-- The S0 copies give way to the S6 copies, and the Keeper and Lintel stages run again (R406). -/
def State.toStandby (s : State) : State :=
  if s.keeper.standby then s.copiesFailed
  else (s.modKeeper (fun k => { k with standby := true, st := if k.decommissioned then 4 else 1 })).toStage 1

/-- A power-on test fails: the Keeper copy is in ERROR (R380, R381). -/
def State.keeperFails (s : State) (n : Nat) : State :=
  let s := s.modKeeper (fun k => { k with st := 3, stFail := n % 256 })
  let s := if n = 8 then s.security 2 1 else s.security 1 (n % 256 + 256 * bit s.keeper.standby)
  (s.cause 60).toStandby

/-- A part of the armed slot fails its digest: the slot is rejected, and the boot continues from the active slot (R407, R411). -/
def State.rejectArmed (s : State) : State :=
  let i := 1 - s.boot.active
  let s := s.modBoot (fun b => { (b.setSlot i { b.slotAt i with state := 2 }) with last := 3, attempting := false })
  (s.modKeeper (fun k => { k with st := if k.decommissioned then 4 else 1 })).toStage 1

/-- Fuses rise to the security versions of a bundle (R413). -/
def State.raiseFuses (s : State) (x : FwSlot) : State :=
  s.modBoot (fun b => { b with svn := (List.range 7).map (fun i => max (lget 0 b.svn i) (lget 0 x.svns i)) })

/-- The Keeper is OPERATIONAL: the counters' restart, a new session KEM key, a pending APPROVED_LEAVE, and a tamper latch found set (R386,
R389, R391, R396). A decommissioned Keeper stays so (R395). -/
def State.keeperStart (s : State) : State :=
  let s := s.modKeeper (fun k => { k with
    keys := (if k.leave then k.keys.filter (fun q => q.1 != 0) else k.keys).map (fun q => (q.1, q.2.restart))
    approved := k.approved && !k.leave
    leave := false
    kemNo := k.kemNo + 1
    entropyOk := true
    stFail := 0
    drbgCount := 2
    drbgAt := s.time })
  let s := if s.keeper.tamper then ((s.security 0xD 16).cause 61).zeroiseKeys 2 else s
  if s.keeper.decommissioned then s.cause 60 else s.modKeeper (fun k => { k with st := 2 })

/-- The flash structures are verified against their tags and loaded (R402, R403, R458). A structure whose tag fails is not used. -/
def State.loadFlash (s : State) (tags : List Nat) : State :=
  let s := (tags.filter (fun c => decide (1 ≤ c ∧ c ≤ 6))).foldl (fun a c => a.security 4 c) s
  let s := { s with wafer := { s.wafer with tagOk := !tags.contains 1 }, retiredTagOk := !tags.contains 2 }
  let s := s.modPower (fun p => { p with phaseTagOk := !tags.contains 3 })
  let s := s.modProf (fun p => { p with ledgerBad := tags.contains 4 })
  s.modKeeper (fun k => { k with
    enrolled := if tags.contains 5 then [] else k.enrolled
    keys := if tags.contains 6 then k.keys.filter (fun q => q.1 != 0) else k.keys })

/-- The phase map is merged: a pane is capped, or dark again (R323, R325, R326, Table 15-4). -/
def State.mergePhases (s : State) : State :=
  if !s.power.phaseTagOk then s
  else
    ((s.power.phaseMap.map (· / 4)).eraseDups).foldl (fun a p =>
      let failed := (s.power.phaseMap.filter (fun e => e / 4 == p)).map (· % 4)
      let mask := failed.foldl (fun m i => m + 2 ^ i) 0
      let a := a.modPane p (fun q => q.modPwr (fun w => { w with failed := failed }))
      if (p < 738 ∧ 3 ≤ failed.length) ∨ (738 ≤ p ∧ 2 ≤ failed.length) then
        (a.powerPane p 3 mask).modPane p (fun q => { q with power := 4, pwr := { q.pwr with cap := 2 } })
      else if 2 ≤ failed.length then (a.powerPane p 2 mask).modPane p (fun q => q.modPwr (fun w => { w with cap := 1 }))
      else a) s

/-- Defective wires of the edge of a field that its crossings name, by crossing link, on links still in service (R36). A wire that
the field on the other side of the edge has recorded lies on the same edge; each wire counts once (DEDUCED, log 74). -/
def Wafer.edgeWires (w : Wafer) (field edge : Nat) : List Nat :=
  let off := (w.all.filter (fun e => entKind e == 4)).map entCross
  let wires := ((w.all.filter (fun e => entKind e == 3)).map (fun e => (entCross e, bits e 35 23 % 512))).eraseDups
  (List.range 8).flatMap (fun k =>
    let n := crossName field edge k
    if off.contains n then [] else (wires.filter (fun q => q.1 == n)).map (fun _ => k))

/-- Crossing links of an edge are disabled, the one with the most defective wires first, until 512 spare wires suffice (R36). Among
links with equally many the lowest numbered goes first (DESIGN CHOICE, log 74). -/
def State.thinEdge (s : State) (field edge : Nat) : Nat → State
  | 0 => s
  | n + 1 =>
    let ws := s.wafer.edgeWires field edge
    if ws.length ≤ 512 then s
    else
      let cnt (x : Nat) : Nat := (ws.filter (· == x)).length
      let worst := (List.range 8).foldl (fun b x => if cnt b < cnt x then x else b) 0
      let e := 4 * 2 ^ 60 + 2 ^ 58 + field * 2 ^ 51 + edge * 2 ^ 36 + worst * 2 ^ 20 + s.wafer.boots % 65536 * 2 ^ 4
      (s.addRepair { cls := 1, code := 4 } e).thinEdge field edge n

/-- The fields of an entry that apply to its kind, with KIND (Table 1-5); the others are zero (R40). -/
def entryFields (e : Nat) : Nat :=
  let head := bits e 63 60 * 2 ^ 60 + bits e 57 51 * 2 ^ 51
  match entKind e with
  | 1 | 2 => head + bits e 50 38 * 2 ^ 38
  | 3 => head + bits e 37 20 * 2 ^ 20
  | 4 => head + bits e 37 36 * 2 ^ 36 + bits e 22 20 * 2 ^ 20
  | 5 | 6 => head + bits e 50 47 * 2 ^ 47
  | _ => 0

/-- The fused map as the fuse blocks give it: at most 64 entries a field, SOURCE and BOOT zero; it is written once (R37, R38 step 1). -/
def fusedEntries (found : List Nat) : List Nat :=
  let l := ((found.filter (fun e => bits e 59 58 == 0 && decide (1 ≤ entKind e ∧ entKind e ≤ 6))).map entryFields).eraseDups
  (List.range 94).flatMap (fun f => (l.filter (fun e => bits e 57 51 == f)).take 64)

/-- BIST and repair (R38): an entry of `found` with SOURCE 0b00 is one of the fuse blocks, any other a defect that BIST finds: a dead
cell, a bad spare, a scribe wire, or a through-way that is down (R21). What is not yet recorded is appended; unrepairable rows
disable their panes, and edges are thinned. -/
def State.bist (s : State) (found : List Nat) : State :=
  let s := if s.wafer.fused = [] then { s with wafer := { s.wafer with fused := fusedEntries found } } else s
  let mine := found.filter (fun e => bits e 59 58 != 0 && (entKind e == 1 || entKind e == 2 || entKind e == 3 || entKind e == 6))
  let stamp (e : Nat) : Nat := entryFields e + 2 ^ 58 + s.wafer.boots % 65536 * 2 ^ 4
  let s := mine.foldl (fun a e => a.addRepair { cls := 1, code := 4, pane := entPane e, detHi := cellDetail (bits e 46 43) (bits e 42 38) } (stamp e)) s
  let rows := ((s.wafer.all.filter (fun e => entKind e == 1 || entKind e == 2)).map (fun e => (entPane e, bits e 46 43))).eraseDups
  let s := rows.foldl (fun a q =>
    if a.wafer.unrepairable q.1 q.2 then a.addRepair { cls := 1, code := 4, pane := q.1, detHi := cellDetail q.2 0 } (repairEntry 5 1 q.1 0 0 s.wafer.boots) else a) s
  let wires := s.wafer.all.filter (fun e => entKind e == 3)
  let edges := (wires.flatMap (fun e => (bits e 57 51, bits e 37 36) ::
    (match crossOther (bits e 57 51) (bits e 37 36) (bits e 22 20) with | some (f, d, _) => [(f, d)] | none => []))).eraseDups
  edges.foldl (fun a q => a.thinEdge q.1 q.2 8) s

/-- HBM training ends: every channel is trained, or FAILED with a TRAIN_FAIL report, retired units leave the unit map, and every other
unit is zeroed (R261, R263, R266, R267, R402, Table 12-5). -/
def State.trainHbm (s : State) (chans : List (Nat × Nat)) : State :=
  let bad (n : Nat) : List Nat := ((chans.filter (fun c => c.1 == n && decide (c.2 < 32))).map (·.2)).eraseDups
  let ctl (n : Nat) : HbmCtl :=
    { trained := decide ((bad n).length < 32), chans := (bad n).foldl (fun m c => mset m c ({ state := 4 } : HbmTarget)) [] }
  let s := { s with hbm := {}, extents := [], hbmCtl := (List.range 24).map (fun n => (n, ctl n)) }
  let s := (List.range 24).foldl (fun a n => (bad n).foldl (fun b c => b.hbmFault n 5 (n * 2 ^ 59 + c * 2 ^ 54)) a) s
  if s.retiredTagOk then s.retired.foldl (fun a u => a.retireUnit u) s else s

/-- May the thermal hold end: every junction sensor reads below 85 °C, and a report within the envelope has arrived (R352)? -/
def State.holdOver (s : State) : Bool :=
  s.panes.all (fun q => (q.2.therm.working q.1).all (fun t => decide (t < 680))) && s.thermal.lastReport.isSome && !s.thermal.outside

/-- An attempt that reaches READY commits (R411, R413). -/
def State.fwCommit (s : State) : State :=
  if !s.boot.attempting then s
  else
    let i := 1 - s.boot.active
    let x := s.boot.slotAt i
    let s := s.modBoot (fun b =>
      let b := b.setSlot i { x with state := 3 }
      let b := b.setSlot b.active { b.slotAt b.active with state := 3 }
      { b with active := i, attempts := 0, last := 1, attempting := false })
    (s.raiseFuses x).event 0x0A {}

/-- READY (R404). -/
def State.becomeReady (s : State) : State :=
  let s := (s.toStage 9).modBoot (fun b => { b with
    ready := true
    reached := true
    fails := 0
    readyMs := satTo 65535 ((s.time - b.startAt) / ms 1) })
  (s.fwCommit).knockAll

/-- BOOT_STAGE_COMPLETE: the present stage ends with what it found (Table 19-3). -/
def execBootStageComplete (f : BootFinds) (s : State) : Out :=
  let b := s.boot
  if b.off ∨ b.resetLow ∨ b.bothFailed.isSome then .next s
  else if b.attempting ∧ f.digestBad ∧ 1 ≤ b.stage ∧ b.stage ≤ 8 then .next s.rejectArmed
  else
    match b.stage with
    | 0 => .next s.romSelect
    | 1 => if f.fail ≠ 0 then .next (s.keeperFails 1) else .next (s.toStage 2)
    | 2 =>
      if f.fail ≠ 0 then .next (s.keeperFails f.fail)
      else .next (((if b.attempting then s else s.raiseFuses (b.slotAt b.active)).keeperStart).toStage 3)
    | 3 => if f.fail ≠ 0 then .next s.toStandby else .next (((s.loadFlash f.tags).mergePhases).toStage 4)
    | 4 => .next (s.toStage 5)
    | 5 => .next ((s.bist f.found).toStage (if b.hold then 0xA else 6))
    | 0xA => if s.holdOver then .next ((s.modBoot (fun b => { b with hold := false })).toStage 6) else .next s
    | 6 => .next ((s.trainHbm f.chans).toStage 7)
    | 7 => .next (s.toStage 8)
    | 8 => .next s.becomeReady
    | _ => .next s

end Sys2Proof.Machine
end

