-- ==== Sys2Proof/Machine/DotOps.lean ====
section
/-! DEFINITION. Dot-unit operations, DOT slot (02 R46-R48, Table 2-5, 04 R89-R95). -/

namespace Sys2Proof.Machine

/-- Operand classes of Table 2-4. -/
inductive DotClass where
  | c4 | c8 | c16
  deriving DecidableEq, Repr

/-- Products of one lane in one issue (Table 2-4). -/
def DotClass.lane : DotClass → Nat
  | .c4 => 16 | .c8 => 8 | .c16 => 4

/-- Activation formats of the dot unit (R85). -/
def actOk (af : Nat) : Bool := [0x03, 0x04, 0x05, 0x06, 0x07, 0x11, 0x12, 0x01, 0x02].contains af

/-- The class of an operand pair; none where the dot unit has none (Table 2-4, R46). -/
def dotClass (wf af : Nat) : Option DotClass :=
  if !actOk af then none
  else if wf = 1 ∨ wf = 2 then some .c16
  else
    match fmtOf wf with
    | none => none
    | some f =>
      if f.container > 8 then none
      else if af = 1 ∨ af = 2 then some .c16
      else if f.container ≤ 4 then some .c4 else some .c8

/-- Largest `|m|` of a format's elements (Table 4-2). -/
def mMax (wf : Nat) (weight4 : Bool) : Nat :=
  match wf with
  | 0x03 | 0x06 | 0x20 | 0x23 => 15
  | 0x04 | 0x05 | 0x21 | 0x22 => 7
  | 0x07 | 0x24 | 0x30 => if weight4 then 12 else 3
  | 0x08 | 0x31 => 3
  | 0x11 => 128
  | 0x12 => 8
  | 0x13 => 2
  | 0x14 | 0x32 => 1
  | _ => 0

/-- Run length limit L (R91, Table 4-3). In the 8-bit class an INT8 activation goes as two parts of at most 15. -/
def runLimit (cl : DotClass) (wf af : Nat) : Nat :=
  let a := if cl = .c8 ∧ af = 0x11 then 15 else mMax af false
  let p := mMax wf (cl = .c4) * a
  let n := cl.lane
  let k := if p = 0 then 64 else min 64 (32767 / p)
  k / n * n

/-- Decomposition constant c of a format (Table 4-2). -/
def decC (f : Fmt) (weight4 : Bool) : Int :=
  match f with
  | .fp l | .mx l | .tb l => if weight4 then -1 else 1 - (l.bias : Int) - l.mbits - 1
  | _ => 0

/-- Parts (m, k) of an element code (R90, Table 4-2): for a float `m` with its sign and `k = max(E, 1)`; a 4-bit-class
weight is one part in bin 0 with the quantum of its format. INT8 activations of the 8-bit class go in two parts. -/
def decompose (f : Fmt) (code : Nat) (weight4 split : Bool) : List (Int × Nat) :=
  match f with
  | .fp l | .mx l | .tb l =>
    let e := bits code (l.ebits + l.mbits - 1) l.mbits
    let m := code % 2 ^ l.mbits
    let v : Int := if e ≠ 0 then (2 ^ l.mbits + m : Nat) else m
    let sg : Int := if bitAt code (l.ebits + l.mbits) then -1 else 1
    if weight4 then
      -- 2 × value: a subnormal step is 1/2, so `m × 2^(max(E,1) − 1)`
      [(sg * v * 2 ^ (max e 1 - 1), 0)]
    else [(sg * v, max e 1)]
  | .int w =>
    let v := signedOf w code
    if split then [(v / 16, 4), (v % 16, 0)] else [(v, 0)]
  | .ternary | .tbt => [(ternaryOf (code % 4), 0)]

/-- Weight element `i` of a word (R83). -/
def weightEl (f : Fmt) (w : W512) (i : Nat) : Nat := (w.toNat / 2 ^ (f.container * i)) % 2 ^ f.container

/-- Activation element `i` of the operand's part: half `h`, 64-bit part `q` (R46, R85). -/
def actEl (x : W256) (h q aw i : Nat) : Nat := (x.toNat / 2 ^ (128 * h + 64 * q + aw * i)) % 2 ^ aw

/-- The sum of two products' special values: finite ones count as nothing here (R94). -/
def specialSum (a b : FpVal) : FpVal :=
  if a.isNan || b.isNan then .nan
  else if a.isInf then (if b.isInf && a.neg != b.neg then .nan else a)
  else if b.isInf then b
  else .fin false 0 0

/-- One issue's operands, decoded. -/
structure DotIn where
  cl : DotClass
  wfmt : Fmt
  afmt : Fmt
  word : W512
  grp : Nat
  x : W256
  h : Nat
  q : Nat
  scales : SMap Nat

def DotIn.wEl (d : DotIn) (lane e : Nat) : Nat := weightEl d.wfmt d.word (d.cl.lane * 8 * d.grp + d.cl.lane * lane + e)
/-- Activations lie in containers of 8 bits, in the 16-bit class of 16 (R85, Table 2-4). -/
def DotIn.aEl (d : DotIn) (e : Nat) : Nat := actEl d.x d.h d.q (if d.cl = .c16 then 16 else 8) e

/-- Scale slot of a lane's products (Table 3-7). -/
def DotIn.slot (d : DotIn) (lane : Nat) : Nat := (d.cl.lane * 8 * d.grp + d.cl.lane * lane) / d.wfmt.block

/-- Scale octet of a lane. -/
def DotIn.scaleOf (d : DotIn) (lane : Nat) : Nat := mget 0 d.scales (d.slot lane)

/-- NaN and infinite products of a lane (R94). -/
def DotIn.special (d : DotIn) (lane : Nat) : FpVal :=
  (List.range d.cl.lane).foldl (fun a e =>
    let p := (d.wfmt.element (d.wEl lane e)).mul (d.afmt.element (d.aEl e))
    if p.isFin then a else specialSum a p) (.fin false 0 0)

/-- Products of a lane added into the bins (R90). -/
def DotIn.addBins (d : DotIn) (bins : SMap Int) (lane : Nat) : SMap Int :=
  let w4 := d.cl = .c4
  (List.range d.cl.lane).foldl (fun m e =>
    let wc := d.wEl lane e
    let ac := d.aEl e
    if ((d.wfmt.element wc).isFin && (d.afmt.element ac).isFin) = false then m
    else
      (decompose d.wfmt wc w4 false).foldl (fun m a =>
        (decompose d.afmt ac false (d.cl = .c8)).foldl (fun m b =>
          let k := 64 * lane + (a.2 + b.2)
          mset m k (mget 0 m k + a.1 * b.1)) m) m) bins

/-- The exact sum of a lane's products in the 16-bit class, times the block scale (R95). -/
def DotIn.exactSum (d : DotIn) (lane : Nat) : FpVal :=
  let sc := d.wfmt.scale (d.scaleOf lane)
  let prods := (List.range d.cl.lane).map (fun e =>
    ((d.wfmt.element (d.wEl lane e)).mul (d.afmt.element (d.aEl e))))
  let sp := prods.foldl (fun a p => if p.isFin then a else specialSum a p) (.fin false 0 0)
  let sum := prods.foldl (fun a p => Dy.add a p.dy) Dy.zero
  let v : FpVal := if sp.isFin then .fin (decide (sum.m < 0)) sum.m.natAbs sum.e else sp
  if d.wfmt.scaled then v.mul sc else v

/-- Issue into the run adder: the run goes on when the conditions of R92 hold, else it ends and a new one
begins. -/
def dotRun (x : Cell) (n : Nat) (o : DotOp) (d : DotIn) : Cell :=
  let l := runLimit d.cl o.wf o.af
  let goes := match x.run with
    | some r => r.last + 1 == n && r.entry == o.e && r.wf == o.wf && r.af == o.af && !d.wfmt.scaled &&
        decide (r.products + d.cl.lane ≤ l)
    | none => false
  let x := if goes then x else x.closeRun
  let old : RunRec := match x.run with
    | some r => r
    | none => ⟨o.e, o.wf, o.af, 0, n, [], decC d.wfmt (d.cl = .c4) + decC d.afmt false,
               List.replicate 8 (.fin false 0 0), (List.range 8).map d.scaleOf⟩
  let r : RunRec := { old with
    products := old.products + d.cl.lane
    last := n
    bins := (List.range 8).foldl d.addBins old.bins
    special := (List.range 8).map (fun l => specialSum (lget (.fin false 0 0) old.special l) (d.special l)) }
  { x with run := some r }

/-- What a dot issue does with decoded operands: the run adder, or in the 16-bit class one rounding per issue
(R92-R95). -/
def Ctx.dot (k : Ctx) (x : Cell) (o : DotOp) (d : DotIn) : Cell :=
  if d.cl = .c16 then k.land x.closeRun 5 (.accAdd o.e ((List.range 8).map d.exactSum))
  else dotRun x k.n o d

/-- Operands a dot issue can use: its entry, register, part and group (R42, R46, R48). -/
def dotOk (o : DotOp) (grp : Nat) : Bool :=
  match dotClass o.wf o.af, fmtOf o.wf with
  | some cl, some f =>
    decide (o.e < 16) && decide (o.x < 4) && decide (o.h < 2) && decide (o.q < if cl = .c4 then 1 else 2) &&
      decide (grp < 4) && decide ((grp + 1) * cl.lane * 8 * f.container ≤ 512)
  | _, _ => false

def dotIn (x : Cell) (o : DotOp) (grp : Nat) (word : W512) (scales : SMap Nat) : DotIn :=
  ⟨(dotClass o.wf o.af).getD .c4, (fmtOf o.wf).getD .ternary, (fmtOf o.af).getD .ternary, word, grp, x.xr o.x, o.h, o.q, scales⟩

/-- Scale octets one side read fetches (R47, R84, Table 3-7); where they are fewer than the unit's 8 the lowest are taken, which the
spec leaves open (DESIGN CHOICE, log 21). -/
def sideScales (f : Fmt) : Nat :=
  match f with
  | .mx l => if l = e2m1 then 4 else 2
  | _ => 8

/-- DOT.W: weights from a bank, block scales through the side port in the same cycle, into the latch and the scale
registers (R46-R48, R235). -/
def execDotW (c : Nat) (o : DotOp) (waddr saddr : Nat) (s : State) : Out :=
  issue c 1 (fun k =>
    let x := k.x
    let base := k.reg.windowBase
    let a := (base + waddr) % 2 ^ 20 / 64 * 64
    let b := (base + saddr) % 2 ^ 20 / 8 * 8
    let f := (fmtOf o.wf).getD .ternary
    let word : W512 := BitVec.ofNat 512 (x.wmem.readLE a 64)
    let fetched := (List.range (sideScales f)).map (fun i => (i, (x.wmem.get (b + i)).toNat))
    let scales := if f.scaled then fetched.foldl (fun m p => mset m p.1 p.2) x.scales else x.scales
    let accD := k.access 1 1 1 a 0 false
    let accS := k.access 1 2 1 b 0 true
    let accs := if f.scaled then [accD, accS] else [accD]
    let y := accs.foldl Cell.addAcc x
    let y := k.land y 1 (.latch word)
    let y := if f.scaled then k.land y 1 (.scales fetched) else y
    (k.base (dotOk o 0) ++ accs.flatMap k.clashNow ++ clashes accs, k.dot y o (dotIn x o 0 word scales))) s

/-- DOT.L: weights from the latch, element group `grp`, with the scale slots of the last side read (R48, R84). -/
def execDotL (c : Nat) (o : DotOp) (grp : Nat) (s : State) : Out :=
  issue c 1 (fun k => (k.base (dotOk o grp), k.dot k.x o (dotIn k.x o grp k.x.latch k.x.scales))) s

/-- Entries e and e + 1 of all lanes as 16 words: element i is entry e of lane i, then entry e + 1 (log 23). -/
def Cell.flushVals (x : Cell) (e : Nat) : List R32 :=
  (List.range 16).map (fun i => x.accOf (i % 8) (e + i / 8))

/-- DOT.FLUSH: the entries to a partial-sum word, written at +1, and cleared (Table 2-5). -/
def execDotFlush (c e paddr : Nat) (s : State) : Out :=
  issue c 1 (fun k =>
    let a := paddr / 64 * 64
    let y := k.x.closeRun.addAcc (k.access 3 5 1 a 1 false)
    let y := k.land y 2 (.store 3 a ((k.x.flushVals e).flatMap (bytesOf 4)) k.x.pc 1 5)
    (k.base (decide (e < 15)) ++ k.range 3 5 1 paddr, k.land y 2 (.accClear [e, e + 1]))) s

/-- DOT.FLUSHADD: the entries added to a partial-sum word, read at +1 and written at +3, and cleared (Table 2-5). -/
def execDotFlushAdd (c e paddr : Nat) (s : State) : Out :=
  issue c 1 (fun k =>
    let a := paddr / 64 * 64
    let y := (k.x.closeRun.addAcc (k.access 3 4 1 a 1 false)).addAcc (k.access 3 5 1 a 3 false)
    let y := k.land y 2 (.flushRead a (k.x.flushVals e))
    (k.base (decide (e < 15)) ++ k.range 3 4 1 paddr, k.land y 4 (.accClear [e, e + 1]))) s

/-- DOT.CLR: clear all accumulator entries (Table 2-5, R93). -/
def execDotClr (c : Nat) (s : State) : Out :=
  issue c 1 (fun k => (k.base true, k.land k.x.closeRun 1 (.accClear (List.range 16)))) s

end Sys2Proof.Machine
end

