-- ==== Sys2Proof/Machine/PortOps.lean ====
section
/-! DEFINITION. Commands of the Casement ports: training, PORT_CONTROL, transmission, reception, retry and seals (13 R269-R285,
18 R391, R392). -/

namespace Sys2Proof.Machine

/-! ### Training (R269-R271) -/

/-- Is the cable of a port present (22 R443)? -/
def Port.mayTrain (x : Port) : Bool := x.enable && x.cable

/-- Can ports train: their firmware is loaded, and the sill pane of port `p` is not dark (15 R326, 19 R402)? -/
def State.portServed (s : State) (p : Nat) : Bool :=
  decide (7 ≤ s.boot.stage) && decide (s.boot.stage ≤ 9) && !s.boot.off && !s.boot.resetLow &&
    (s.pane (738 + 4 * (p / 8) + p % 8 / 4)).pwr.cap != 2

/-- PEER_SIGNAL_DETECT: a DOWN port with a cable starts training (R270, R443). -/
def execPeerSignalDetect (p : Nat) (s : State) : Out :=
  if 96 ≤ p then .next s
  else
    let x := s.port p
    if x.state = 1 ∧ x.mayTrain ∧ s.portServed p then .next (s.modPort p (fun x => { x with state := 2, since := s.time })) else .next s

/-- Record what training found in the lanes. -/
def Port.withLanes (x : Port) (lock pol : Nat) (snr : List Nat) : Port :=
  { x with lane := (List.range 8).foldl (fun m l =>
      mset m l { mget {} x.lane l with lock := bitAt lock l, polInv := bitAt pol l, snr := lget 0 snr l % 256 }) x.lane }

/-- TRAINING_COMPLETE: lanes are trained and flits aligned; the port takes the widest width whose lanes all lock and enters
SECURING (R269-R271, R391). -/
def execTrainingComplete (p lock pol : Nat) (snr : List Nat) (s : State) : Out :=
  if 96 ≤ p then .next s
  else
    let x := s.port p
    match (if x.state = 2 then widest (x.usable lock) 3 else none) with
    | none => .next s
    | some (w, g) => .next ((s.modPort p (fun x => { (x.withLanes lock pol snr) with width := w, lanes := g })).enterSecuring p)

/-- TRAIN_FAIL: lanes not trained within 500 ms (R270, R290). -/
def execTrainFail (p lock : Nat) (s : State) : Out :=
  if 96 ≤ p then .next s
  else
    let x := s.port p
    if x.state = 2 ∧ x.since + ms 500 ≤ s.time then .next ((s.linkFault p 1 (lock % 256 * 2 ^ 48)).enterDown p 1) else .next s

/-- LANE_LOSS: an ACTIVE port loses a lane in use and retrains at the next narrower width (R269). -/
def execLaneLoss (p lane : Nat) (s : State) : Out :=
  if 96 ≤ p ∨ 8 ≤ lane then .next s
  else
    let x := s.port p
    if x.state = 4 ∧ bitAt x.lanes lane then
      let s := s.modPort p (fun x => { x with lane := mset x.lane lane { mget {} x.lane lane with lock := false } })
      .next (s.enterRetraining p (x.width - 1))
    else .next s

/-- RETRAIN_COMPLETE: the retrain ends at the widest width it tries whose lanes all lock; keys and replay buffer are kept, and
a replay that a bad flit awaits is requested once more (R269, R271, R281). -/
def execRetrainComplete (p lock : Nat) (s : State) : Out :=
  if 96 ≤ p then .next s
  else
    let x := s.port p
    match (if x.state = 5 then widest (x.usable lock) x.want else none) with
    | none => .next s
    | some (w, g) =>
      let lanes (x : Port) : SMap Lane := (List.range 8).foldl (fun m l => mset m l { mget {} x.lane l with lock := bitAt lock l }) x.lane
      let s := s.modPort p (fun x =>
        { x with
          state := 4
          since := s.time
          width := w
          lanes := g
          lane := lanes x
          rx := { x.rx with requests := bit x.rx.discard, slots := 0 }
          tx := { x.tx with retryReq := x.rx.discard } })
      let s := if w < x.width then s.linkFault p 2 (w * 2 ^ 46 + g * 2 ^ 48) else s
      .next (s.sendKnock p)

/-- RETRAIN_TIMEOUT: a retrain not complete within 2 ms (R270, R278). -/
def execRetrainTimeout (p : Nat) (s : State) : Out :=
  if 96 ≤ p then .next s
  else
    let x := s.port p
    if x.state = 5 ∧ x.since + ms 2 ≤ s.time then .next (s.enterDown p 1) else .next s

/-! ### PORT_CONTROL (Table 13-12) -/

def portControlAddr (p : Nat) : Nat := 0x10000008 + p * 2 ^ 16

/-- A write of PORT_CONTROL: CLEAR, LANE_OFF and ENABLE are stored; RETRAIN and FULLWIDTH retrain an ACTIVE port and turn a tripped
cable supply of the connector on again (R269, R270, R444); REKEY begins a rekey (R284). -/
def State.portControl (s : State) (src p val : Nat) : State :=
  s.ownerWrites src (portControlAddr p) val (fun s =>
    let s := s.modPort p (fun x => { x with clear := bitAt val 60, laneOff := bits val 58 51, enable := bitAt val 63 })
    let train := bitAt val 62 || bitAt val 61
    let s := if train then { s with iface := { s.iface with cabOff := s.iface.cabOff.filter (· != p / 4) } } else s
    if !bitAt val 63 then (if (s.port p).state = 0 then s else s.enterDown p 0)
    else
      let s := if (s.port p).state = 0 then s.modPort p (fun x => { x with state := 1, since := s.time }) else s
      if (s.port p).state ≠ 4 then s
      else if bitAt val 61 then s.enterRetraining p 3
      else if bitAt val 62 then s.enterRetraining p (s.port p).width
      else if bitAt val 59 then s.beginRekey p
      else s)

/-- PORT_ENABLE: a write of PORT_CONTROL that changes ENABLE (R270). -/
def execPortEnable (src p val : Nat) (s : State) : Out :=
  if 96 ≤ p then .next (s.absentWrite src (portControlAddr p) val)
  else if bitAt val 63 = (s.port p).enable then .next s
  else .next (s.portControl src p val)

/-- RETRAIN: a write of PORT_CONTROL with RETRAIN = 1 (R269). -/
def execRetrain (src p val : Nat) (s : State) : Out :=
  if 96 ≤ p then .next (s.absentWrite src (portControlAddr p) val)
  else if !bitAt val 62 then .next s
  else .next (s.portControl src p val)

/-- FULLWIDTH: a write of PORT_CONTROL with FULLWIDTH = 1 (R269). -/
def execFullwidth (src p val : Nat) (s : State) : Out :=
  if 96 ≤ p then .next (s.absentWrite src (portControlAddr p) val)
  else if !bitAt val 61 then .next s
  else .next (s.portControl src p val)

/-- REKEY: a write of PORT_CONTROL with REKEY = 1 (R284). -/
def execRekey (src p val : Nat) (s : State) : Out :=
  if 96 ≤ p then .next (s.absentWrite src (portControlAddr p) val)
  else if !bitAt val 59 then .next s
  else .next (s.portControl src p val)

/-! ### Keys (R284, 18 R391, R392) -/

/-- REKEY_DUE: 2^31 runs, or 1 h, under one key (R284). -/
def execRekeyDue (p : Nat) (s : State) : Out :=
  if 96 ≤ p then .next s
  else
    let x := s.port p
    if x.state = 4 ∧ (2 ^ 31 ≤ x.tx.runNo ∨ x.keyAt + secs 3600 ≤ s.time) then .next (s.beginRekey p) else .next s

/-- RUN_LIMIT_EXHAUSTED: 2^32 runs without a new key (R284). -/
def execRunLimitExhausted (p : Nat) (s : State) : Out :=
  if 96 ≤ p then .next s
  else
    let x := s.port p
    if x.state = 4 ∧ !x.cleartext ∧ 2 ^ 32 ≤ x.tx.runNo then .next (s.enterDown p 1) else .next s

/-- SECURING_TIMEOUT: no exchange is complete 25 ms after alignment: cleartext when CLEAR allows it outside approved mode, else
the port stays in SECURING (R284). -/
def execSecuringTimeout (p : Nat) (s : State) : Out :=
  if 96 ≤ p then .next s
  else
    let x := s.port p
    if x.state ≠ 3 ∨ s.time < x.since + ms 25 then .next s
    else if x.clear ∧ !s.keeper.approved then .next (s.enterActive p true)
    else if x.auth.failed then .next s
    else .next (s.linkFail p 4)

/-- HELLO: the Keeper verifies the peer's certificate and credential; the verdicts are operands (log 13). A verified peer gets an
ENCAP (R391, R392). -/
def execHello (p : Nat) (certOk credOk : Bool) (s : State) : Out :=
  if 96 ≤ p then .next s
  else if !s.canExchange p ∨ (s.port p).state ≠ 3 then .next s
  else
    match s.takeKey p 1 with
    | none => .next s
    | some (c, s) =>
      if !certOk then .next (s.linkFail p 1)
      else if !credOk then .next (s.linkFail p 2)
      else .next (((s.modAuth p (fun a => { a with helloIn := c })).sendEncap p).tryKeys p)

/-- ENCAP: the peer's ciphertext is decapsulated; one that begins a rekey is answered with a fresh ENCAP (R392). -/
def execEncap (p : Nat) (s : State) : Out :=
  if 96 ≤ p then .next s
  else if !s.canExchange p then .next s
  else
    match s.takeKey p 2 with
    | none => .next s
    | some (c, s) =>
      let s := if (s.port p).state = 4 then s.beginRekey p else s
      .next ((s.modAuth p (fun a => { a with encapIn := c, secretIn := Config.kemDecap s.keeper.kemNo (c.take 1088) })).tryKeys p)

/-- FINISH: the peer's confirmation verifies and the cipher engine passes its test (`engineOk`): the port becomes ACTIVE with the
new keys, or, on a rekey, holds them until a KEY_SWITCH (R284, R380, R381, R392). -/
def execFinish (p : Nat) (engineOk : Bool) (s : State) : Out :=
  if 96 ≤ p then .next s
  else if !s.canExchange p then .next s
  else
    match s.takeKey p 3, (s.port p).auth.keys with
    | some (c, s), some k =>
      let a := (s.port p).auth
      if c.take 32 ≠ (finishMac k a.peer a.transcript).take 32 then .next (s.linkFail p 3)
      else if !engineOk then .next ((s.modPort p (fun x => { x with cipherOff := true, keyState := 3 })).portSecurity p 0xA 0)
      else if (s.port p).state = 4 then
        .next (s.modPort p (fun x =>
          { x with keyState := 2, stagedTx := some k, stagedRx := some k, auth := { x.auth with keys := none, rekey := false } }))
      else
        let s := s.modPort p (fun x =>
          { x with keyState := 2, keys := k, keyAt := s.time, epoch := 1, peerIdent := some a.peer, auth := { x.auth with keys := none, rekey := false } })
        .next (s.enterActive p false)
    | _, _ => .next s

/-- LINK_ABORT: the peer's ABORT ends the exchange; a port in SECURING stays there and begins again after 1 s (R392). -/
def execLinkAbort (p : Nat) (s : State) : Out :=
  if 96 ≤ p then .next s
  else
    match s.takeKey p 4 with
    | none => .next s
    | some (_, s) =>
      .next (s.modPort p (fun x => { x with keyState := 3, auth := { x.auth with failed := true, keys := none, retryAt := some (s.time + secs 1) } }))

/-- LINK_AUTH_RETRY: 1 s after a failed exchange it begins again (R392). -/
def execLinkAuthRetry (p : Nat) (s : State) : Out :=
  if 96 ≤ p then .next s
  else
    let x := s.port p
    match x.auth.retryAt with
    | none => .next s
    | some t =>
      if s.time < t then .next s
      else if x.state = 3 then .next ((s.modPort p (fun x => { x with since := s.time })).beginExchange p)
      else .next ((s.modAuth p (fun a => { a with failed := false, retryAt := none, rekey := false })).beginRekey p)

/-! ### Transmission (R276-R282) -/

/-- What sending a flit reports of freed buffers: a continuation or link-control flit with the present CR fields reports them all
(R277). -/
def Port.noteCr (x : Port) (f : Flit) : Port :=
  if (hdrKind f.hdr = 4 ∨ hdrKind f.hdr = 5) ∧ bits f.hdr 63 24 * 2 ^ 24 = x.crFields then x.modTx (fun t => { t with crSent := x.crFields, crWait := 0 }) else x

/-- Put an unsequenced flit on the wire. -/
def State.putFlit (s : State) (p : Nat) (f : Flit) : State :=
  s.modPort p (fun x => ((x.count cFlitsTx 1).noteCr f).modTx (fun t => { t with wire := some f }))

/-- Put a sequenced flit on the wire: it takes the next number and enters the replay buffer (R279). -/
def State.putSeq (s : State) (p : Nat) (f : Flit) : State :=
  (s.putFlit p f).modPort p (fun x => x.modTx (fun t => { t with buf := t.buf ++ [(t.seq, f)], seq := (t.seq + 1) % 4096 }))

/-- Does a flit's message pass the filter of a port's bandwidth block (Table 20-7)? -/
def BwBlock.passes (b : BwBlock) (dir : Nat) (vc : Option Nat) (dest src : Nat) : Bool :=
  let a := if bitAt b.ctl 37 then src else dest
  bit (bitAt b.ctl 42) == dir && (match vc with | some v => bitAt b.ctl (38 + v) | none => false) &&
    decide (bits b.range 31 16 ≤ a) && decide (a ≤ bits b.range 15 0)

/-- 256 octets of a data or quick flit (R421): direction 0 transmit, 1 receive. -/
def Port.traffic (x : Port) (dir : Nat) (vc : Option Nat) (dest src : Nat) : Port :=
  { x with bw := x.bw.add (8 * dir + vc.getD 4) 256 (x.bw.passes dir vc dest src) }

/-- Send a flit of the open run: its payload is encrypted at its place in the run (R282). -/
def State.putRun (s : State) (p : Nat) (f : Flit) : State :=
  let x := s.port p
  let f := if x.cleartext then f
    else { f with payload := gcmCrypt x.keys.txKey (runIv x.keys.txSalt x.tx.runNo) (240 * x.tx.run.length) (pad240 f.payload) }
  (s.putSeq p f).modPort p (fun x => x.modTx (fun t => { t with run := t.run ++ [f] }))

/-- Send the next flit of a channel: it spends a credit; a forwarded flit frees its input buffer; the last one takes the message
off the queue (R276, R277). -/
def State.putData (s : State) (p vc : Nat) : State :=
  match (s.port p).nextTx vc with
  | none => s
  | some (i, t) =>
    let (f, eom) := (s.port p).flitOf t
    let seq := (s.port p).tx.seq
    let s := (s.putRun p f).modPort p (fun x => (x.traffic 0 (some vc) t.msg.dest t.msg.src).modTx (fun y =>
      let q := mget [] y.queues vc
      { y with
        queues := mset y.queues vc (if eom then q.eraseIdx i else q.set i { t with sent := t.sent + 1 })
        sent := mset y.sent vc (mget 0 y.sent vc + 1)
        bulk := if vc = 0 then y.bulk else y.bulk + 1
        sealDue := y.sealDue || vc == 0 || decide (15 ≤ y.bulk) }))
    let s := match t.src with | some q => s.modPort q (fun x => x.freeBuf vc 1) | none => s
    match (if eom then t.mc else none) with
    | some m => s.mcSent p seq m
    | none => s

/-- Send the SEAL of the open run; with a new key staged it carries KEY_SWITCH, and the next run uses that key (R282, R284). -/
def State.putSeal (s : State) (p : Nat) : State :=
  let x := s.port p
  let tag := if x.cleartext then zeros 16 else runTag x.keys.txKey x.keys.txSalt x.tx.runNo x.tx.run
  let f : Flit := { hdr := x.linkHeader 1 0,
                    payload := pad240 (tag ++ natLE 8 x.tx.runNo ++ natLE 1 x.tx.run.length ++ natLE 1 (bit x.stagedTx.isSome)) }
  (s.putSeq p f).modPort p (fun y =>
    let y := y.modTx (fun t => { t with run := [], bulk := 0, sealDue := false, runNo := t.runNo + 1 })
    match y.stagedTx with
    | none => y
    | some k =>
      { y with
        keys := { y.keys with txKey := k.txKey, txSalt := k.txSalt, confirm := k.confirm }
        keyAt := s.time
        epoch := (y.epoch + 1) % 65536
        stagedTx := none
        tx := { y.tx with runNo := 0 } })

/-- Which of channels A and W sends: by weights, WEIGHT_A to WEIGHT_W, when both are ready (R276; log 41). -/
def Port.bulkTurn (x : Port) : Option Nat :=
  if x.ready 2 then (if x.ready 3 then some (if x.tx.served < max 1 x.weightA then 2 else 3) else some 2)
  else if x.ready 3 then some 3 else none

/-- Send a replayed flit (R276 item 1). -/
def State.putReplay (s : State) (p : Nat) (f : Flit) (r : List Flit) : State :=
  (s.putFlit p f).modPort p (fun x => (x.count cReplayed 1).modTx (fun t => { t with replay := r }))

/-- Send IDLE (R276 item 8). -/
def State.putIdle (s : State) (p : Nat) : State := s.putFlit p { hdr := (s.port p).linkHeader 0 0, payload := zeros 240 }

/-- Item 5 of R276: a RETRY_REQ, a REPLAY, behind which every flit from SEQREF onward is sent again (R280), or a KEY flit. -/
def State.slotControl (s : State) (p : Nat) : Option State :=
  let x := s.port p
  if x.tx.retryReq then
    some ((s.putFlit p { hdr := x.linkHeader 2 x.rx.seq, payload := zeros 240 }).modPort p (fun x =>
      { x with tx := { x.tx with retryReq := false }, rx := { x.rx with slots := 0 } }))
  else if x.tx.replayDue then
    let ref := x.tx.replayRef.getD 0
    some ((s.putFlit p { hdr := x.linkHeader 3 ref, payload := zeros 240 }).modPort p (fun x => x.modTx (fun t =>
      { t with replayDue := false, replay := (t.buf.dropWhile (fun q => q.1 != ref)).map (·.2) })))
  else
    match (if x.tx.buf.length < 256 then x.tx.keyFlits else []) with
    | k :: r => some ((s.putSeq p { hdr := x.linkHeader 4 0, payload := pad240 k }).modPort p (fun x => x.modTx (fun t => { t with keyFlits := r })))
    | [] => none

/-- One flit slot of a port in SECURING: replayed flits, control flits and IDLE; it carries no data (R270, R276, R279, R280). -/
def State.slotSecuring (s : State) (p : Nat) : State :=
  match (s.port p).tx.replay with
  | f :: r => s.putReplay p f r
  | [] => (s.slotControl p).getD (s.putIdle p)

/-- Items 6 to 8 of R276: M, then A and W by weight, then IDLE. -/
def State.slotBulk (s : State) (p : Nat) : State :=
  let x := s.port p
  if x.ready 1 then s.putData p 1
  else
    match x.bulkTurn with
    | some vc =>
      (s.putData p vc).modPort p (fun y => if x.ready 2 && x.ready 3 then y.modTx (fun t =>
        { t with served := (t.served + 1) % (max 1 y.weightA + max 1 y.weightW) }) else y)
    | none => s.putIdle p

/-- One flit slot of an ACTIVE port: the first ready item of R276. -/
def State.slotActive (s : State) (p : Nat) : State :=
  let x := s.port p
  match x.tx.replay with
  | f :: r => s.putReplay p f r
  | [] =>
    let room := decide (x.tx.buf.length < 256)
    let dataReady := x.ready 0 || (room && x.tx.answers != []) || x.ready 1 || x.ready 2 || x.ready 3
    let due := x.tx.run != [] && (x.tx.sealDue || !dataReady)
    if x.ready 0 ∧ x.tx.run.length < 48 then s.putData p 0
    else
      match (if room ∧ x.tx.run.length < 48 then x.tx.answers else []) with
      | f :: _ =>
        (s.putRun p f).modPort p (fun x => ((x.traffic 0 none 0 0).count cQrAnswered 1).modTx (fun t => { t with answers := t.answers.drop 1, sealDue := true }))
      | [] => if due ∧ room then s.putSeal p else (s.slotControl p).getD (s.slotBulk p)

/-- A flit slot passes: it counts toward the repetition of RETRY_REQ (R280) and toward the report of freed buffers (R277). -/
def Port.passSlot (x : Port) : Port :=
  { x with
    rx := { x.rx with slots := x.rx.slots + 1 }
    tx := { x.tx with crWait := if x.crFields = x.tx.crSent then 0 else x.tx.crWait + 1 } }

/-- FLIT_TRANSMIT: one flit slot of a port: TRAIN in training, control flits while securing, and in ACTIVE the first ready item of
R276; the 16th slot for which freed buffers have gone unreported is an IDLE, which reports them (R277; DESIGN CHOICE, log 80). -/
def execFlitTransmit (p : Nat) (s : State) : Out :=
  if 96 ≤ p then .next s
  else
    let s := s.modPort p Port.passSlot
    let x := s.port p
    if x.state = 2 then .next (s.putFlit p { hdr := x.linkHeader 5 0, payload := zeros 240 })
    else if x.state = 3 then .next (s.slotSecuring p)
    else if x.state = 4 then .next (if 16 ≤ x.tx.crWait then s.putIdle p else s.slotActive p)
    else .next s

/-! ### Reception (R273, R279-R283, R285) -/

/-- Ask for a replay from the flit expected; the eighth successive request for one SEQREF exhausts the retries, and an ACTIVE port
retrains; a port in SECURING, which has no way to RETRAINING, goes on asking (R280, R281, Table 13-2; log 81). -/
def State.requestRetry (s : State) (p : Nat) : State :=
  let x := s.port p
  let n := if x.rx.reqRef = x.rx.seq then x.rx.requests + 1 else 1
  let s := s.modPort p (fun x =>
    { x with
      tx := { x.tx with retryReq := true }
      rx := { x.rx with discard := true, reqRef := x.rx.seq, requests := if 8 ≤ n ∧ x.state ≠ 4 then 0 else n, slots := 0 } })
  if n < 8 then s
  else
    let s := s.linkFault p 3 x.rx.seq
    if x.state = 4 then s.enterRetraining p x.width else s

/-- What a header acknowledges: flits leave the replay buffer, and branch copies that an endpoint has accepted complete (R273,
R279, R308). -/
def State.takeAck (s : State) (p ack : Nat) : State :=
  let t := (s.port p).tx
  match t.buf.findIdx? (fun q => q.1 == ack) with
  | none => s
  | some i =>
    let gone := (t.buf.take (i + 1)).map (·.1)
    let done := t.mcWait.filter (fun w => gone.contains w.1)
    let s := s.modPort p (fun x => x.modTx (fun t =>
      { t with buf := t.buf.drop (i + 1), mcWait := t.mcWait.filter (fun w => !gone.contains w.1) }))
    done.foldl (fun a w => a.mcBranchDone p w.2.1 w.2.2 0xFFFF 0) s

/-- ACK and credits of a header that has them. -/
def State.takeHeader (s : State) (p h : Nat) : State :=
  if hdrKind h < 4 then s
  else
    let s := if hdrKind h < 6 then s.modPort p (fun x => x.takeCr h) else s
    s.takeAck p (bits h 81 70)

/-- The quick word a source may read, as the sill's shadow has it; none where it may not (R285, Table 21-7). -/
def State.mayReadQuick (s : State) (src w : Nat) : Bool :=
  match s.requester src with
  | none => w == 256
  | some 0 => decide (w < 261) || (decide (264 ≤ w) && decide (w < 422))
  | some g => w / 4 == g || w == 256 || w == 257 || w == 258 || w == 259 ||
      (decide (264 ≤ w) && decide (w < 328) && (s.region (w - 264)).state != 0 && (s.region (w - 264)).guest == g) ||
      (decide (328 ≤ w) && decide (w < 392) && (s.region (w - 328)).state != 0 && (s.region (w - 328)).guest == g)

/-- The answer to a quick read, from the shadow copy of the port's sill (R285, R287). -/
def State.quickAnswer (s : State) (p h : Nat) : Flit :=
  let src := bits h 63 48
  let word := bits h 47 39
  let count := min 30 (bits h 38 34)
  let shadow := (mget (0, []) s.quick (p / 8)).2
  let ws := (List.range count).map (fun i => let w := word + i; if w < 512 ∧ s.mayReadQuick src w then lget 0 shadow w else 0)
  let denied := (List.range count).any (fun i => decide (512 ≤ word + i) || !s.mayReadQuick src (word + i))
  { hdr := (s.port p).answerHeader word (bits h 38 34) (bits h 33 26) denied, payload := pad240 (ws.flatMap (natLE 8)) }

/-- A quick read meets the queue of four: it is answered before its run's seal verifies, or dropped (R282, R285). -/
def State.takeQuick (s : State) (p h : Nat) : State :=
  if (s.port p).tx.answers.length ≥ 4 then (s.countPort p cQrDropped 1).linkFault p 7 (bits h 63 48 * 2 ^ 16)
  else
    let f := s.quickAnswer p h
    s.modPort p (fun x => x.modTx (fun t => { t with answers := t.answers ++ [f] }))

/-- A fragment of a KEY message (R391). -/
def RxSide.takeKeyFlit (r : RxSide) (b : List Byte) : RxSide :=
  let whole := (if leAt b 2 2 = 0 then [] else r.keyIn) ++ slice b 4 236
  if leAt b 1 1 % 2 = 1 then { r with keyIn := [], keyMsgs := r.keyMsgs ++ [(leAt b 0 1, whole)] } else { r with keyIn := whole }

/-- A flit arrives intact and in order: it joins the run that waits for its SEAL; a KEY flit outside a run takes effect at once
(R279, R282, R391). -/
def State.acceptFlit (s : State) (p : Nat) (f : Flit) : State :=
  let key := hdrKind f.hdr == 5
  let s := s.modPort p (fun x => x.modRx (fun r =>
    let r := { r with seq := (r.seq + 1) % 4096 }
    if key && r.run == [] then { (r.takeKeyFlit f.payload) with ack := (r.seq + 4095) % 4096 }
    else { r with run := r.run ++ [f], runSeq := if r.run = [] then (r.seq + 4095) % 4096 else r.runSeq }))
  if hdrKind f.hdr = 6 then s.takeQuick p f.hdr else s

/-- A message's octets go on to the output port it was routed to. -/
def State.feedTx (s : State) (p q vc : Nat) (data : List Byte) (eom : Bool) : State :=
  s.modPort q (fun x => x.modTx (fun t =>
    let f (m : TxMsg) : TxMsg :=
      if m.src == some p && !m.eom then { m with msg := { m.msg with payload := m.msg.payload ++ data }, eom := eom } else m
    { t with queues := mset t.queues vc ((mget [] t.queues vc).map f) }))

/-- The message that is open on a channel of a port. -/
def RxSide.openOn (r : RxSide) (vc : Nat) : Option RxMsg := r.msgs.find? (fun m => !m.eom && m.msg.vc == vc)

/-- Discard the open message of a channel and free its buffers; what an output port holds of it is taken back, and the buffers of
its unsent flits are freed with it (R273, R277). -/
def State.dropOpen (s : State) (p vc : Nat) : State :=
  match (s.port p).rx.openOn vc with
  | none => s
  | some m =>
    let mine (y : TxMsg) : Bool := !y.eom && y.src == some p
    let back := match m.out with
      | none => m.flits
      | some q => if q < 96 then (((mget [] (s.port q).tx.queues vc).filter mine).map TxMsg.held).foldl (· + ·) 0 else 0
    let s := s.modPort p (fun x => (x.freeBuf vc back).modRx (fun r => { r with msgs := r.msgs.filter (fun y => y.eom || y.msg.vc != vc) }))
    match m.out with
    | some q => if q < 96 then s.modPort q (fun x => x.modTx (fun t =>
        { t with queues := mset t.queues vc ((mget [] t.queues vc).filter (fun y => !mine y)) })) else s
    | none => s

/-- A data flit is released to its message (R273). -/
def State.releaseData (s : State) (p : Nat) (f : Flit) : State :=
  let h := f.hdr
  let vc := bits h 92 91
  let eom := bitAt h 90
  let last := bits h 89 82
  let data := if eom then f.payload.take last else f.payload
  let bad := eom && (last == 0 || decide (240 < last))
  if hdrKind h < 4 then
    let s := if ((s.port p).rx.openOn vc).isSome then (s.dropOpen p vc).countPort p cBadFlit 1 else s
    if bad then (s.countPort p cBadFlit 1).modPort p (fun x => x.freeBuf vc 1)
    else
      let m : Msg := { kind := hdrKind h, vc := vc, dest := bits h 81 66, src := bits h 65 50, addr := bits h 49 2, payload := data }
      s.modPort p (fun x => x.modRx (fun r => { r with msgs := r.msgs ++ [{ msg := m, eom := eom }] }))
  else
    match (s.port p).rx.openOn vc with
    | none => (s.countPort p cBadFlit 1).modPort p (fun x => x.freeBuf vc 1)
    | some m =>
      if bad then ((s.dropOpen p vc).countPort p cBadFlit 1).modPort p (fun x => x.freeBuf vc 1)
      else
        match m.out with
        | some q =>
          let s := if eom then s.modPort p (fun x => x.modRx (fun r => { r with msgs := r.msgs.filter (fun y => y.eom || y.msg.vc != vc) })) else s
          if q < 96 then s.feedTx p q vc data eom else s.modPort p (fun x => x.freeBuf vc 1)
        | none =>
          s.modPort p (fun x => x.modRx (fun r => { r with msgs := r.msgs.map (fun y =>
            if !y.eom && y.msg.vc == vc then { y with msg := { y.msg with payload := y.msg.payload ++ data }, flits := y.flits + 1, eom := eom } else y) }))

/-- A flit of a verified run takes effect. -/
def State.releaseFlit (s : State) (p : Nat) (f : Flit) : State :=
  if hdrKind f.hdr = 5 then s.modPort p (fun x => x.modRx (fun r => r.takeKeyFlit f.payload))
  else if hdrKind f.hdr < 5 then s.releaseData p f
  else s

/-- Decrypt the flits of a run, each at its place among the flits the run counts. -/
def decryptRun (key iv : List Byte) (i : Nat) : List Flit → List Flit
  | [] => []
  | f :: r => if hdrKind f.hdr = 5 then f :: decryptRun key iv i r
      else { f with payload := gcmCrypt key iv (240 * i) f.payload } :: decryptRun key iv (i + 1) r

/-- A SEAL arrives in order: a good one releases its run and advances ACK; a bad one has the run sent again, and a second time
secures the port anew (R279, R282-R284). -/
def State.takeSeal (s : State) (p : Nat) (f : Flit) : State :=
  let x := s.port p
  let r := x.rx
  let data := r.run.filter (fun g => hdrKind g.hdr != 5)
  let n := leAt f.payload 16 8
  let tag := slice f.payload 0 16
  let good := n == r.runNo && leAt f.payload 24 1 == data.length &&
    (if x.cleartext then tag == zeros 16 else tag == runTag x.keys.rxKey x.keys.rxSalt n data)
  if good then
    let flits := if x.cleartext then r.run else decryptRun x.keys.rxKey (runIv x.keys.rxSalt n) 0 r.run
    let s := s.modPort p (fun x =>
      let x := x.modRx (fun r => { r with run := [], ack := r.seq, seq := (r.seq + 1) % 4096, runNo := r.runNo + 1, failedRun := none })
      match (if leAt f.payload 25 1 % 2 = 1 then x.stagedRx else none) with
      | none => x
      | some k => { x with keys := { x.keys with rxKey := k.rxKey, rxSalt := k.rxSalt }, stagedRx := none, rx := { x.rx with runNo := 0 } })
    flits.foldl (fun a g => a.releaseFlit p g) s
  else
    let s := (s.countPort p cSealFail 1).linkFault p 4 (n % 2 ^ 32)
    if r.failedRun = some r.runNo then ((s.portSecurity p 7 (n % 2 ^ 32)).discardAll p).enterSecuring p
    else
      (s.modPort p (fun x => x.modRx (fun r =>
        { r with run := [], seq := if r.run = [] then r.seq else r.runSeq, failedRun := some r.runNo }))).requestRetry p

/-- Is a KIND or LCTYPE reserved (Table 13-6)? -/
def hdrReserved (h : Nat) : Bool := hdrKind h == 5 && decide (5 < hdrType h)

/-- A RETRY_REQ: a REPLAY becomes due, and behind it every flit from SEQREF onward; one for a replay that runs is ignored (R280). -/
def State.takeRetryReq (s : State) (p ref : Nat) : State :=
  let t := (s.port p).tx
  if t.replaying ∧ t.replayRef = some ref then s
  else (s.countPort p cRetries 1).modPort p (fun x => x.modTx (fun t => { t with replayDue := true, replay := [], replayRef := some ref }))

/-- Does a port in this state carry a flit: data flits, quick flits and SEALs in ACTIVE only (R270; log 81)? -/
def Port.carriesFlit (x : Port) (h : Nat) : Bool := x.state == 4 || (hdrKind h == 5 && hdrType h != 1)

/-- A flit arrives at a port (R280): its lanes' corrections are counted; a bad one begins a retry; a good one is taken by its
kind. While a replay is awaited, sequenced flits are discarded. -/
def State.receive (s : State) (p : Nat) (f : RxFlit) : State :=
  let x := s.port p
  if x.state ≠ 3 ∧ x.state ≠ 4 then s
  else
    let lane (m : SMap Lane) (l : Nat) : SMap Lane :=
      let y := mget {} x.lane l
      if lget 0 f.corr l = 0 then m else mset m l { y with corr := satTo (2 ^ 48 - 1) (y.corr + lget 0 f.corr l) }
    let s := s.modPort p (fun x => { ((x.count cFlitsRx 1).count cFecCorr (f.corr.foldl (· + ·) 0)) with lane := (List.range 8).foldl lane x.lane })
    let intact := flitIntact f.bytes
    let s := if f.uncorr then s.countPort p cFecUncorr 1 else s
    let s := if intact then s else s.countPort p cCrcErr 1
    if f.uncorr || !intact then (if x.rx.discard then s else s.requestRetry p)
    else
      let g := Flit.ofBytes f.bytes
      let h := g.hdr
      if hdrReserved h then s.countPort p cBadFlit 1
      else if !x.carriesFlit h then s
      else if hdrSequenced h then
        if x.rx.discard then s
        else
          let s := s.takeHeader p h
          let s := if hdrKind h = 5 then s
            else s.modPort p (fun x => x.traffic 1 (if hdrKind h < 5 then some (bits h 92 91) else none) (bits h 81 66) (bits h 65 50))
          if hdrKind h = 5 ∧ hdrType h = 1 then s.takeSeal p g
          else s.acceptFlit p g
      else
        let s := s.takeHeader p h
        if hdrType h = 2 then s.takeRetryReq p (bits h 23 12)
        else if hdrType h = 3 ∧ bits h 23 12 = x.rx.seq then s.modPort p (fun x => x.modRx (fun r => { r with discard := false }))
        else s

/-- DATA_FLIT_RECEIVE: a data flit, a quick answer or a KEY flit, or any bad flit, arrives (R280). -/
def execDataFlitReceive (p : Nat) (f : RxFlit) (s : State) : Out :=
  if 96 ≤ p then .next s
  else
    let h := leAt f.bytes 0 12
    let good := flitIntact f.bytes && !f.uncorr
    if good && (hdrKind h == 6 || (hdrKind h == 5 && (hdrType h == 0 || hdrType h == 1 || hdrType h == 2 || hdrType h == 3))) then .next s
    else .next (s.receive p f)

/-- A good link-control flit of a type. -/
def isLink (f : RxFlit) (typ : Nat) : Bool :=
  flitIntact f.bytes && !f.uncorr && hdrKind (leAt f.bytes 0 12) == 5 && hdrType (leAt f.bytes 0 12) == typ

/-- IDLE: it carries ACK and credits (R277). -/
def execIdle (p : Nat) (f : RxFlit) (s : State) : Out :=
  if 96 ≤ p then .next s else if isLink f 0 then .next (s.receive p f) else .next s

/-- SEAL: it verifies, or fails, the run before it (R282, R283). -/
def execSeal (p : Nat) (f : RxFlit) (s : State) : Out :=
  if 96 ≤ p then .next s else if isLink f 1 then .next (s.receive p f) else .next s

/-- RETRY_REQ: the sender replays from SEQREF (R280). -/
def execRetryReq (p : Nat) (f : RxFlit) (s : State) : Out :=
  if 96 ≤ p then .next s else if isLink f 2 then .next (s.receive p f) else .next s

/-- REPLAY: the receiver's discard ends (R280). -/
def execReplay (p : Nat) (f : RxFlit) (s : State) : Out :=
  if 96 ≤ p then .next s else if isLink f 3 then .next (s.receive p f) else .next s

/-- RETRY_REQ_REPEAT: 64 flit slots without a REPLAY (R280, R281). -/
def execRetryReqRepeat (p : Nat) (s : State) : Out :=
  if 96 ≤ p then .next s
  else
    let x := s.port p
    if (x.state = 3 ∨ x.state = 4) ∧ x.rx.discard ∧ 64 ≤ x.rx.slots then .next (s.requestRetry p) else .next s

/-- CREDIT_STALL: the `k`-th message of a channel at an output port has waited 2 ms with no flit sent: it is discarded, with a LINK
fault; a branch copy fails its branch (R278, R308). -/
def execCreditStall (p vc k : Nat) (s : State) : Out :=
  if 96 ≤ p ∨ 4 ≤ vc then .next s
  else
    match (mget [] (s.port p).tx.queues vc)[k]? with
    | none => .next s
    | some t =>
      if t.sent = 0 ∧ t.since + ms 2 ≤ s.time then
        let peer := (s.port p).peerFa
        let s := s.modPort p (fun x => (x.count cDiscarded 1).modTx (fun y => { y with queues := mset y.queues vc ((mget [] y.queues vc).eraseIdx k) }))
        let s := ((s.linkFault p 6 (vc * 2 ^ 46 + t.msg.dest % 65536 * 2 ^ 16)).dropTx t).dropRecord t
        .next (match t.mc with | some m => s.mcBranchFail p m.1 m.2 peer | none => s)
      else .next s

/-- QUICK_READ: a quick read arrives and is answered from the sill's shadow, or dropped as a fifth (R285). -/
def execQuickRead (p : Nat) (f : RxFlit) (s : State) : Out :=
  if 96 ≤ p then .next s
  else if flitIntact f.bytes && !f.uncorr && hdrKind (leAt f.bytes 0 12) == 6 then .next (s.receive p f)
  else .next s

end Sys2Proof.Machine
end

