-- ==== Sys2Proof/Machine/WeightOps.lean ====
section
/-! DEFINITION. Commands of the Weight engine and its chains (11). Octets that the engine fetches come as operands of the
event that ends the fetch (log 28), and the Keeper's verdict on a signature as an operand (log 13). -/

namespace Sys2Proof.Machine

/-- WLOAD: a load begins with the fetch of its manifest (R238, R233). -/
def execWload (g : Nat) (s : State) : Out :=
  withCommand g 1 0x20 s (fun s id w =>
    let gen := bits w 223 208
    let target := bits w 207 206
    let r := bits w 205 200
    let fa := bits w 199 184
    let addr := bits w 183 136
    if target ≠ 0 ∧ !s.regionOk g r [2, 3, 4] then s.complete id stNoRegion 0
    else if (s.generation g gen).isNone ∧ s.weight.gens.length ≥ 256 then s.complete id stNoPages 0
    else
      let n := s.weight.nextId
      let l : WloadRec := { id := n, entry := some id, guest := g, gen := gen, target := target, region := r, srcFa := fa,
                            srcAddr := addr, fwdFa := bits w 135 120, startAt := s.time, holdAt := s.time }
      let s := s.modWeight (fun e => { e with loads := e.loads ++ [l], nextId := n + 1 })
      if l.downstream then
        s.sendMsg { kind := 1, vc := 3, dest := fa, src := s.fabricAddr, addr := chainAddr 5 gen, payload := natLE 4 128 ++ natLE 4 n }
      else s)

/-- Octets of the blob that a region's streamed tensors need (R246). -/
def Manifest.streamLen (m : Manifest) (i : Image) : Nat :=
  (i.maps 1).foldl (fun a v => a + (match m.tensorFor v with | some t => tensorLen t | none => 0)) 0

/-- A load that is refused before it reserved anything. -/
def State.refuseLoad (s : State) (l : WloadRec) (status : Nat) : State :=
  (s.modWload l.id (fun y => { y with fwdFa := 0xFFFF })).undoLoad l.id status

/-- What the checks of a manifest find: 0 good, else the reason of MANIFEST_BAD (R236, R237, Table 11-5). -/
def State.manifestVerdict (s : State) (l : WloadRec) (bytes : List Byte) (ok : Bool) : Nat :=
  match parseManifest bytes with
  | none => 1
  | some m =>
    let bind := bits m.hdr 927 921
    if !(ok && s.keeper.keyPermits 2 (m.sig.take 16) bind && leAt m.sig 16 2 == 1) then 2
    else if leAt m.sig 18 6 ≠ 0 then 1
    else if !(m.headerOk l.gen l.guest && m.tensors.all m.tensorOk) then 1
    else if l.target = 0 then 0
    else
      match (s.region l.region).image with
      | none => 3
      | some i => if m.layout ≠ i.wlayout then 3 else if m.fits i then 0 else 1

/-- Does shard `i` hold octets of the tensors of these MEMMAP entries? -/
def Manifest.touches (m : Manifest) (maps : List Nat) (i : Nat) : Bool :=
  maps.any (fun v =>
    match m.tensorFor v with
    | some t => tensorLen t != 0 && decide (bits t 95 48 / shardSize ≤ i ∧ i ≤ (tensorEnd t - 1) / shardSize)
    | none => false)

/-- Octets of a manifest by its header (R236). -/
def manifestLen (h : Nat) : Nat := 128 + 8 * bits h 920 917 + 32 * bits h 916 904 + 32 * bits h 903 887 + 7880

/-- Room of its own for each of these shards, until the downstream module has it (R238 step 2, R240). -/
def State.takeRooms (s : State) (g : Nat) (m : Manifest) : List Nat → Option (SMap (List (Nat × Nat)) × State)
  | [] => some ([], s)
  | i :: r =>
    match s.allocCopy g (ceilDiv (m.shardLen i) 4096) with
    | none => none
    | some (runs, s) => (s.takeRooms g m r).map (fun q => ((i, runs) :: q.1, q.2))

/-- MANIFEST_VERIFIED: the checks end; HBM and a window are reserved and the shard fetches begin (R236-R239). A load that adds targets to
a generation fetches what they still lack, and, in a chain, forwards what the STAGED copy holds (R233, R240). Of a downstream link the
answer to its first MANIFEST read, the 128-octet header, comes first: the engine then reads the whole length (R238; DEDUCED, log 28). The
room for unforwarded shards holds every shard that the load fetches (DESIGN CHOICE, log 29). -/
def execManifestVerified (id : Nat) (bytes : List Byte) (ok : Bool) (s : State) : Out :=
  match s.wload id, parseManifest bytes with
  | some l, m? =>
    if l.phase ≠ 0 ∨ s.keeper.st ≠ 2 then .next s
    else if l.downstream ∧ l.manLen = 0 then
      if bytes.length ≠ 128 then .next s
      else
        let n := manifestLen (leNat bytes)
        .next ((s.modWload id (fun y => { y with manLen := n })).sendMsg
          { kind := 1, vc := 3, dest := l.srcFa, src := s.fabricAddr, addr := chainAddr 5 l.gen, payload := natLE 4 n ++ natLE 4 id })
    else if l.downstream ∧ bytes.length ≠ l.manLen then .next s
    else
      let bad := s.manifestVerdict l bytes ok
      match m?, bad with
      | some m, 0 =>
        let meas := sha256 (bytes.take (bytes.length - 7880))
        let old := s.generation l.guest l.gen
        if old.any (fun g => g.measure != meas) then .next (s.refuseLoad l stGenInUse)
        else if old.isNone ∧ s.weight.gens.length ≥ 256 then .next (s.refuseLoad l stNoPages)
        else
          let x := s.region l.region
          let img : Image := match x.image with | some i => i | none => {}
          let staged := old.any (·.staged)
          let streamed := old.any (·.streamed)
          let need := if staged then 0 else if l.target = 1 then (if streamed then 0 else ceilDiv (m.streamLen img) 4096)
            else ceilDiv m.blobLen 4096
          let fwd := l.fwdFa != 0xFFFF
          let wantsWindow := l.target ≠ 0 ∧ (x.windowOf l.guest l.gen).isNone
          let n := bits m.hdr 903 887
          let wanted (i : Nat) : Bool := old.isNone || (decide wantsWindow && m.touches (img.maps 0) i) ||
            (need != 0 && (l.target != 1 || m.touches (img.maps 1) i))
          let s := s.settleHolds
          let copy := if need = 0 then some ([], s) else s.allocCopy l.guest need
          let rooms := if fwd && !staged && l.target == 1 then (List.range n).filter wanted else []
          match copy.bind (fun q => (q.2.takeRooms l.guest m rooms).map (fun t => (q.1, t.1, t.2))) with
          | none => .next (s.refuseLoad l stNoPages)
          | some (runs, rooms, s') =>
            if wantsWindow ∧ x.takeWindow.isNone then .next (s.refuseLoad l stSwingRefused)
            else
              let win := if wantsWindow then x.takeWindow else none
              let s := match win with
                | some k => s'.modWindow l.region k (fun _ => { state := 1, owner := l.guest, gen := l.gen })
                | none => s'
              let s := if old.isSome then s
                else s.modWeight (fun e => { e with gens := e.gens ++ [{ guest := l.guest, num := l.gen, manifest := bytes, measure := meas }] })
              let src := if staged then 9 else if l.downstream then 8 else 0
              let bad (i : Nat) : Bool := old.any (fun g => g.badIn (shardSize * i) (m.shardLen i))
              let first (i : Nat) : ShardRec :=
                if wanted i || (fwd && staged && bad i) then { source := src }
                else if staged then
                  { state := 2, data := match old with | some g => if fwd then readRuns s.hbm g.runs (shardSize * i) (m.shardLen i) else [] | none => [] }
                else { state := 3 }
              let shards := (List.range n).map first
              let s := s.modWload id (fun y => { y with
                phase := 1
                manifest := bytes
                measure := meas
                window := win
                runs := runs
                rooms := rooms
                startAt := s.time
                shards := shards
                held := [] })
              let s := l.held.foldl (fun a q => a.sendResponse q.1 (slice bytes 0 (leNat (q.1.payload.take 4)))) s
              let s := if l.downstream then s.sendChain l.srcFa 1 l.gen (chainHeader meas 0 0 0) else s
              let has := (List.range n).filter (fun i => (lget ({} : ShardRec) shards i).state == 2)
              let s := if l.downstream then has.foldl (fun a i => a.sendChain l.srcFa 6 l.gen (chainHeader meas i 0 0)) s else s
              .next ((s.requestShards id).finishLoad id)
      | _, b =>
        let s := s.weightFault l 3 (l.gen + (if b = 0 then 1 else b) * 2 ^ 16)
        .next (s.refuseLoad l (if b = 2 then stBadSignature else stBadFormat))
  | none, _ => .next s

/-- Where a verified shard of a load goes in HBM: the runs of a copy, and the KIND 1 entries of a copy of those alone (R238, R245,
R246). -/
def State.copyFor (s : State) (l : WloadRec) : Option (List (Nat × Nat) × Option (List Nat)) :=
  match s.generation l.guest l.gen with
  | none => none
  | some g =>
    if l.runs ≠ [] then some (l.runs, if l.target = 1 then some (l.maps s) else none)
    else if g.staged then some (g.runs, none)
    else if g.streamed then some (g.runs, some g.maps)
    else none

/-- One attempt of a shard ends with its octets (R238 step 4, R243). -/
def State.shardIn (s : State) (l : WloadRec) (m : Manifest) (i : Nat) (bytes : List Byte) : State :=
  let x := lget ({} : ShardRec) l.shards i
  let setShard (s : State) (f : ShardRec → ShardRec) : State := s.modWload l.id (fun y => { y with shards := y.shards.modify i f })
  let l' := { l with shards := l.shards.set i { x with state := 2, data := bytes } }
  let good := decide (bytes.length = m.shardLen i) && sha256 bytes == lget [] m.digests i && l'.unitsOk m i
  if !good then
    let s := s.weightFault l 1 (i + l.sourceFa m x.source * 2 ^ 32 + x.attempts * 2 ^ 56)
    if x.attempts ≥ 4 then s.undoLoad l.id stShardFailed
    else
      let next := if x.source ≥ 8 then 0 else (x.source + 1) % (max 1 m.sources.length)
      setShard s (fun y => { y with source := next, attempts := y.attempts + 1, at_ := s.time, data := [] })
  else
    let s := setShard s (fun y => { y with state := 2, data := bytes, at_ := s.time })
    let has (j : Nat) : Bool := (lget ({} : ShardRec) l'.shards j).state == 2
    let s := match s.copyFor l with
      | some (runs, maps) => ({ s with hbm := writeShard s.hbm m runs maps i bytes } : State).modGen l.guest l.gen (fun g =>
          { g with bad := g.bad.filter (fun u => let on := g.shardsOf m u; !(on.contains i && on.all has)) })
      | none => s
    let s := match l.rooms.find? (fun q => q.1 == i) with
      | some (_, runs) => { s with hbm := writeRuns s.hbm runs 0 bytes }
      | none => s
    let s := match l.window with
      | some k => s.fillPieces l (l'.piecesOf m (s.region l.region) i k)
      | none => s
    let s := if l.downstream then s.sendChain l.srcFa 6 l.gen (chainHeader l.measure i 0 0) else s
    (((s.requestShards l.id).forwardShards l.id 65537)).finishLoad l.id

/-- SHARD_ARRIVED: a requested shard has arrived in full. From the STAGED copy it is read from HBM; from the upstream
module it is what its SHARD messages brought (R238, R239, R245). -/
def execShardArrived (id i : Nat) (bytes : List Byte) (s : State) : Out :=
  match s.wload id with
  | none => .next s
  | some l =>
    let x := lget ({} : ShardRec) l.shards i
    match l.man with
    | none => .next s
    | some m =>
      if l.phase ≠ 1 ∨ x.state ≠ 1 then .next s
      else if x.source = 9 then
        match s.generation l.guest l.gen with
        | none => .next s
        | some g =>
          if g.badIn (shardSize * i) (m.shardLen i) then
            .next (s.modWload id (fun y => { y with shards := y.shards.modify i (fun z =>
              { z with source := 0, attempts := z.attempts + 1, at_ := s.time }) }))
          else .next (s.shardIn l m i (readRuns s.hbm g.runs (shardSize * i) (m.shardLen i))).feedAgain
      else .next (s.shardIn l m i (if x.source = 8 then x.data else bytes)).feedAgain

/-- SHARD_TIMEOUT: no octet of a requested shard for TIMEOUT ms fails the load at once (R243). -/
def execShardTimeout (id i : Nat) (s : State) : Out :=
  match s.wload id with
  | none => .next s
  | some l =>
    let x := lget ({} : ShardRec) l.shards i
    match l.man with
    | none => .next s
    | some m =>
      if l.phase = 1 ∧ x.state = 1 ∧ x.at_ + ms m.timeout ≤ s.time then
        .next ((s.weightFault l 2 (i + l.sourceFa m x.source * 2 ^ 32)).undoLoad id stShardTimeout)
      else .next s

/-- SWING: critical; the generation becomes pending for the region, filling a window when it is only STAGED (R247). -/
def execSwing (g : Nat) (s : State) : Out :=
  withCritical g 1 0x21 s (fun s id w =>
    let gen := bits w 223 208
    let r := bits w 207 202
    let x := s.region r
    if !s.regionOk g r [2, 3] then s.complete id stNoRegion 0
    else
      match s.generation g gen, x.image with
      | some n, some im =>
        let layout := match parseManifest n.manifest with | some m => m.layout | none => []
        if layout ≠ im.wlayout then s.complete id stGenUnknown 0
        else
          match x.windowOf g gen with
          | some k =>
            if (lget ({} : Window) x.windows k).state = 3 ∧ x.swings = [] then s.complete id stOK 0
            else (s.modRegion r (fun y => { y with swings := y.swings ++ [(id, gen)] })).settleSwings r
          | none =>
            match n.staged, x.takeWindow, parseManifest n.manifest with
            | true, some k, some m =>
              if !m.fits im then s.complete id stBadFormat 0
              else
              let i := s.weight.nextId
              let l : WloadRec := { id := i, entry := none, guest := g, gen := gen, target := 1, region := r, srcFa := 0xFFFF,
                                    srcAddr := 0, fwdFa := 0xFFFF, phase := 1, manifest := n.manifest, measure := n.measure,
                                    window := some k, startAt := s.time,
                                    shards := List.replicate (bits m.hdr 903 887) { source := 9 } }
              let s := s.modWeight (fun e => { e with loads := e.loads ++ [l], nextId := i + 1 })
              let s := s.modWindow r k (fun _ => { state := 1, owner := g, gen := gen })
              (s.modRegion r (fun y => { y with swings := y.swings ++ [(id, gen)] })).requestShards i
            | true, none, _ => s.complete id stSwingRefused 0
            | _, _, _ => s.complete id stGenUnknown 0
      | _, _ => s.complete id stGenUnknown 0)

/-- Is a generation still referenced (R252)? -/
def State.genInUse (s : State) (g gen : Nat) : Bool :=
  s.regions.any (fun q =>
    (q.2.windows.mapIdx (fun k w => w.gen == gen && w.owner == g && (w.state == 3 || (w.state != 0 && q.2.windowUsed k w)))).any id ||
    q.2.swings.any (fun p => p.2 == gen && p.1.guest == g)) ||
  s.weight.loads.any (fun l => l.gen == gen && l.guest == g)

/-- RETIRE: every window and the HBM copy of an unused generation are given up (R252). -/
def execRetire (g : Nat) (s : State) : Out :=
  withCommand g 1 0x22 s (fun s id w =>
    let gen := bits w 223 208
    match s.generation g gen with
    | none => s.complete id stGenUnknown 0
    | some n =>
      if s.genInUse g gen then s.complete id stGenInUse 0
      else
        let drop (_ : Nat) (x : Region) : Region :=
          { x with windows := x.windows.map (fun v => if v.gen == gen && v.owner == g then {} else v) }
        let s := { s with regions := mmap drop s.regions }
        let s := s.freeRuns n.runs
        (s.modWeight (fun e => { e with gens := e.gens.filter (fun y => !(y.guest == g && y.num == gen)) })).complete id stOK 0)

/-! ### Chain messages (R240, R241, R254) -/

/-- Type and GEN of a chain message. -/
def chainType (m : Msg) : Nat := bits m.addr 41 34
def chainGen (m : Msg) : Nat := bits m.addr 33 18

/-- Is a message one of the Weight engine's, of a type (R254, R274)? -/
def isChain (m : Msg) (typ : Nat) : Bool :=
  bits m.addr 47 46 == 2 && bits m.addr 45 42 == 1 && chainType m == typ && m.kind == (if typ = 5 then 1 else 0)

/-- The load that a JOIN, SHARD_ACK or MANIFEST meets. -/
def State.upstreamLoad (s : State) (m : Msg) (withMeas : Bool) : Option WloadRec :=
  s.weight.loads.find? (fun l => l.gen == chainGen m && l.fwdFa == m.src && l.fwdFa != 0xFFFF &&
    (!withMeas || (l.phase == 1 && l.measure == m.payload.take 32)))

/-- The load that a SHARD, HOLD or ABORT meets. -/
def State.downstreamLoad (s : State) (m : Msg) : Option WloadRec :=
  s.weight.loads.find? (fun l => l.gen == chainGen m && l.srcFa == m.src && l.downstream && l.phase == 1 &&
    l.measure == m.payload.take 32)

/-- JOIN: forwarding of verified shards begins (R240). -/
def execJoin (m : Msg) (s : State) : Out :=
  if !isChain m 1 then .next s
  else
    match s.upstreamLoad m true with
    | none => .next s
    | some l =>
      let first := leAt m.payload 32 4
      let s := s.modWload l.id (fun y => { y with joined := some first, nextFwd := if y.joined.isNone then first else y.nextFwd })
      .next ((s.forwardShards l.id 65537).finishLoad l.id)

/-- SHARD: data of a shard from the upstream module, in ascending order of OFFSET (R254); it restarts the shard's
progress timer (R243). -/
def execShard (m : Msg) (s : State) : Out :=
  if !isChain m 2 then .next s
  else
    match s.downstreamLoad m with
    | none => .next s
    | some l =>
      let i := leAt m.payload 32 4
      let off := leAt m.payload 36 4
      .next (s.modWload l.id (fun y => { y with shards := y.shards.modify i (fun x =>
        if x.state = 2 ∨ x.source ≠ 8 ∨ x.data.length ≠ off then x
        else { x with data := x.data ++ m.payload.drop 64, at_ := s.time }) }))

/-- HOLD: the downstream module's progress timers restart (R241). -/
def execHold (m : Msg) (s : State) : Out :=
  if !isChain m 3 then .next s
  else
    match s.downstreamLoad m with
    | none => .next s
    | some l => .next (s.modWload l.id (fun y => { y with shards := y.shards.map (fun x =>
        if x.state = 1 ∧ x.source = 8 then { x with at_ := s.time } else x) }))

/-- CHAIN_HOLD_TIMER: 100 ms with no verified shard left to forward (R241). -/
def execChainHoldTimer (id : Nat) (s : State) : Out :=
  match s.wload id with
  | none => .next s
  | some l =>
    let idle := (lget ({} : ShardRec) l.shards l.nextFwd).state != 2
    if l.phase = 1 ∧ l.fwdFa ≠ 0xFFFF ∧ idle ∧ l.holdAt + ms 100 ≤ s.time then
      .next ((s.sendChain l.fwdFa 3 l.gen (chainHeader l.measure 0 0 0)).modWload id (fun y => { y with holdAt := s.time }))
    else .next s

/-- CHAIN_ABORT: the downstream load completes with the status the message carries (R244, R253). -/
def execChainAbort (m : Msg) (s : State) : Out :=
  if !isChain m 4 then .next s
  else
    match s.downstreamLoad m with
    | none => .next s
    | some l => .next ((s.weightFault l 5 (l.gen + m.src * 2 ^ 32)).undoLoad l.id (leAt m.payload 40 2))

/-- May a read request have a LENGTH (R275)? -/
def readLenOk (n : Nat) : Bool := n % 8 == 0 && decide (8 ≤ n ∧ n ≤ 16777216)

/-- MANIFEST: a read of the verified manifest, held until it is verified; one that meets no load is an error (R254), and so is one of a
LENGTH that no read has (R275). -/
def execManifest (m : Msg) (s : State) : Out :=
  if !isChain m 5 then .next s
  else
    match s.upstreamLoad m false with
    | none => .next (s.sendError m 1)
    | some l =>
      if !readLenOk (leNat (m.payload.take 4)) then .next (s.sendError m 3)
      else if l.phase = 0 then .next (s.modWload l.id (fun y => { y with held := y.held ++ [(m, s.time)] }))
      else .next (s.sendResponse m (slice l.manifest 0 (leNat (m.payload.take 4))))

/-- MANIFEST_READ_TIMEOUT: a read held for 2,000 ms is answered with an error (R254). -/
def execManifestReadTimeout (id k : Nat) (s : State) : Out :=
  match s.wload id with
  | none => .next s
  | some l =>
    match l.held[k]? with
    | none => .next s
    | some (m, t) =>
      if t + ms 2000 ≤ s.time then
        .next ((s.sendError m 1).modWload id (fun y => { y with held := y.held.eraseIdx k }))
      else .next s

/-- SHARD_ACK: the downstream module holds a shard, and the room of a shard held only for it is released (R240, R254). -/
def execShardAck (m : Msg) (s : State) : Out :=
  if !isChain m 6 then .next s
  else
    match s.upstreamLoad m true with
    | none => .next s
    | some l =>
      let i := leAt m.payload 32 4
      .next ((s.freeRuns (mget [] l.rooms i)).modWload l.id (fun y => { y with rooms := mdel y.rooms i }))

/-- CHAIN_JOIN_TIMEOUT: TIMEOUT ms with no join end an upstream load whose own targets are complete (R241). -/
def execChainJoinTimeout (id : Nat) (s : State) : Out :=
  match s.wload id with
  | none => .next s
  | some l => if l.joined.isNone ∧ l.fwdFa ≠ 0xFFFF then .next (s.finishLoad id) else .next s

end Sys2Proof.Machine
end

