-- ==== Sys2Proof/Machine/FabricOps.lean ====
section
/-! DEFINITION. Commands of discovery, the host bridge, multicast, barriers and region arrivals (13 R274, R275, 14 R293-R311). -/

namespace Sys2Proof.Machine

/-- A message that a port has received whole leaves it for its endpoint: its buffers are freed (R277). -/
def State.takeRx (s : State) (p : Nat) (m : Msg) : State :=
  match (s.port p).rx.msgs.findIdx? (fun y => y.eom && y.out.isNone && y.msg == m) with
  | none => s
  | some i =>
    s.modPort p (fun x => (x.freeBuf (m.vc % 4) (lget { msg := m } x.rx.msgs i).flits).modRx (fun r => { r with msgs := r.msgs.eraseIdx i }))

/-! ### Discovery (R294-R296) -/

/-- A one-flit discovery message of a type. -/
def isDiscovery (m : Msg) (typ : Nat) : Bool :=
  m.kind == 0 && m.vc == 1 && m.dest == 0xFFFE && m.addr == 0x1A900 && leAt m.payload 0 1 == typ

/-- KNOCK: the neighbour record is replaced and an answer goes out on the same port (R294-R296). -/
def execKnock (p : Nat) (m : Msg) (s : State) : Out :=
  if 96 ≤ p then .next s
  else if !isDiscovery m 1 ∨ (s.port p).state ≠ 4 then .next s
  else
    let s := (s.takeRx p m).meetNeighbour p m.payload
    .next (s.queueOn p (s.peerMsg 1 0xFFFE 0x1A900 (s.knockData 2 p (leAt m.payload 12 4))))

/-- ANSWER: the neighbour record is replaced; the knock whose NONCE it echoes is answered (R294-R296). -/
def execAnswer (p : Nat) (m : Msg) (s : State) : Out :=
  if 96 ≤ p then .next s
  else if !isDiscovery m 2 ∨ (s.port p).state ≠ 4 then .next s
  else .next (((s.takeRx p m).meetNeighbour p m.payload).modPort p (fun x =>
    if leAt m.payload 12 4 = x.nbr.nonce then { x with nbr := { x.nbr with sends := 0 } } else x))

/-- KNOCK_RETRY: a knock without an answer for 1 ms is sent again, and the eighth send leaves the neighbour SILENT; then a knock goes
out every 1 s (R295). -/
def execKnockRetry (p : Nat) (s : State) : Out :=
  if 96 ≤ p then .next s
  else
    let x := s.port p
    let n := x.nbr.sends
    if x.state ≠ 4 ∨ n = 0 ∨ s.time < x.nbr.sentAt + (if n < 8 then ms 1 else secs 1) then .next s
    else if n < 8 then .next (s.resendKnock p)
    else .next ((s.sendKnock p).modPort p (fun y => { y with nbr := { y.nbr with sends := 8 } }))

/-- FABRIC_ADDR_WRITE: the owner writes a class-0 address, and knocks go out; any other value is refused (R293, R294). -/
def execFabricAddrWrite (src val : Nat) (s : State) : Out :=
  .next (s.ownerWrites src 0x1A800 val (fun s =>
    let a := val % 65536
    if faClass a ≠ 0 ∨ faReserved a then
      s.rejectAccess src 0x1A800 0 false 6
    else { s with fabricAddr := a }.knockAll))

/-! ### The host bridge (R303, R304) -/

/-- Take the active role: a new EPOCH, announced to every class-0 member of the local table, and knocks (R304, R294). -/
def State.takeRole (s : State) : State :=
  let e := (s.fabric.epoch + 1) % 65536
  let s := s.modFabric (fun f => { f with role := 1, epoch := e, bridgeFa := s.fabricAddr, beatAt := s.time })
  let data := natLE 2 e ++ natLE 2 s.fabricAddr
  let dests := (List.range 48).filter (fun i => bitAt (mget 0 s.fabric.memberLocal i) 63)
  let s := dests.foldl (fun a i => a.sendWrite 1 (a.fabricAddr / 64 * 64 + i) 0x1A9C0 data) s
  (s.linkFault s.fabric.hostPort 0xC (e * 2 ^ 16)).knockAll

/-- BRIDGE_WRITE: the owner writes ROLE, HOST_PORT and PARTNER_FA; a standby made active takes the role (R303, R304, R294). -/
def execBridgeWrite (src val : Nat) (s : State) : Out :=
  .next (s.ownerWrites src 0x1A808 val (fun s =>
    let role := bits val 63 62
    if role = 3 ∨ 96 ≤ bits val 61 55 then
      s.rejectAccess src 0x1A808 0 false 6
    else
      let old := s.fabric.role
      let s := s.modFabric (fun f => { f with
        role := role
        hostPort := bits val 61 55
        partner := bits val 54 39
        beatAt := if role = old then f.beatAt else s.time })
      if role = old then s else if old = 2 ∧ role = 1 then s.takeRole else s.knockAll))

/-- BRIDGE_BEAT_TIMER: every 1 ms the active bridge sends BRIDGE_BEAT to its standby (R303). -/
def execBridgeBeatTimer (s : State) : Out :=
  let f := s.fabric
  if f.role = 1 ∧ f.partner ≠ 0xFFFF ∧ f.beatAt + ms 1 ≤ s.time then
    .next ((s.sendWrite 0 f.partner 0x1A9C0 (natLE 2 f.epoch ++ natLE 2 s.fabricAddr)).modFabric (fun f => { f with beatAt := s.time }))
  else .next s

/-- BRIDGE_BEAT: it reaches the standby; one with a lower EPOCH makes it take the active role (R303, R304). -/
def execBridgeBeat (m : Msg) (s : State) : Out :=
  if m.kind ≠ 0 ∨ m.vc ≠ 0 ∨ m.addr ≠ 0x1A9C0 ∨ s.fabric.role ≠ 2 then .next s
  else
    let s := s.modFabric (fun f => { f with beatAt := s.time })
    .next (if leAt m.payload 0 2 < s.fabric.epoch then s.takeRole else s)

/-- BRIDGE_TAKEOVER: 3 ms without a BRIDGE_BEAT (R304, Table 14-6). -/
def execBridgeTakeover (s : State) : Out :=
  if s.fabric.role = 2 ∧ s.fabric.beatAt + ms 3 ≤ s.time then .next s.takeRole else .next s

/-- BRIDGE_ANNOUNCE: one of a later EPOCH sets BRIDGE_FA and EPOCH; unacknowledged fault messages go out again; a former active
bridge becomes the standby (R304, R294). -/
def execBridgeAnnounce (m : Msg) (s : State) : Out :=
  let e := leAt m.payload 0 2
  let fa := leAt m.payload 2 2
  let ahead := (e + 65536 - s.fabric.epoch % 65536) % 65536
  if m.kind ≠ 0 ∨ m.vc ≠ 1 ∨ m.addr ≠ 0x1A9C0 ∨ ahead = 0 ∨ 0x8000 ≤ ahead then .next s
  else
    let f := s.fabric
    let s := s.modFabric (fun f => { f with
      epoch := e
      bridgeFa := fa
      role := if f.role = 1 then 2 else f.role
      beatAt := if f.role = 1 then s.time else f.beatAt
      unacked := f.unacked.map (fun u => { u with sentAt := s.time }) })
    let s := f.unacked.foldl (fun a u => a.sendWrite 1 fa 0x1AA00 u.data) s
    .next (if f.role = 1 ∨ f.bridgeFa ≠ fa then s.knockAll else s)

/-! ### Multicast (R306-R308) -/

/-- MULTICAST_RECEIVE: a message for a multicast group, from a port or from this module: accepted into the buffer, delivered here and
to every branch; rejected; or held at its input while the buffer is full (R306, R307). -/
def execMulticastReceive (inp : Option Nat) (m : Msg) (s : State) : Out :=
  if 96 ≤ inp.getD 0 then .next s
  else if m.dest < 0xFE00 ∨ 0xFEFF < m.dest then .next s
  else
    let g := m.dest - 0xFE00
    let e := s.mcEntry g
    let ok := bitAt e 255 && m.kind == 0 && m.vc == mcVc e && m.vc != 0 && m.src == mcRoot e && inp.getD 0x7F == mcIn e &&
      decide (8 ≤ m.payload.length) && decide (m.payload.length ≤ 1048576)
    if !ok then .next (((match inp with | some p => s.takeRx p m | none => s)).countPort (inp.getD 0) cMcReject 1)
    else if 67108864 < s.mcUsed + m.payload.length then .next s
    else
      let s := match inp with | some p => s.takeRx p m | none => s
      let seq := leAt m.payload 0 4
      let out := mcOut e
      let s := s.modFabric (fun f => { f with mcBuf := f.mcBuf ++ [{ group := g, seq := seq, msg := m, branches := out, unsent := out }] })
      let s := if bitAt e 254 then { s with delivered := s.delivered ++ [{ m with payload := m.payload.drop 8 }] } else s
      let s := out.foldl (fun a p => a.queueTx p { msg := m, since := a.time, mc := some (g, seq) }) s
      .next (s.mcFlush g (s.fabric.mcBuf.length + 1))

/-- MC_ACK: a branch reports a message complete, with what failed below it (R308). -/
def execMcAck (p : Nat) (m : Msg) (s : State) : Out :=
  if 96 ≤ p then .next s
  else if m.kind ≠ 0 ∨ m.vc ≠ 1 ∨ m.dest ≠ 0xFFFE ∨ m.addr ≠ 0x1A940 then .next s
  else
    let failed := if leAt m.payload 1 1 = 0 then 0 else max 1 (leAt m.payload 8 2)
    .next ((s.takeRx p m).mcBranchDone p (leAt m.payload 0 1) (leAt m.payload 4 4) (leAt m.payload 2 2) failed)

/-! ### Barriers (R310, R311) -/

/-- Is a message a barrier message of a type on channel C? -/
def isBarrier (m : Msg) (typ : Nat) : Bool :=
  m.kind == 0 && m.vc == 0 && decide (0xFF00 ≤ m.dest) && decide (m.dest < 0xFF40) && leAt m.payload 0 1 == typ

/-- ARRIVE: an arrival from a child: of the present generation, held for the next, or discarded (R310). -/
def execArrive (p : Nat) (m : Msg) (s : State) : Out :=
  if 96 ≤ p then .next s
  else if !isBarrier m 1 then .next s
  else
    let t := m.dest - 0xFF00
    let s := s.takeRx p m
    let b := s.bar t
    let gen := leAt m.payload 4 4
    let st := leAt m.payload 1 1
    let fa := leAt m.payload 2 2
    if b.valid ∧ b.children.contains p ∧ gen = b.gen then
      .next (if b.up then s else (s.setBar t (b.arrive s.time (some p) (st == 1) fa)).barCheck t 2)
    else if b.valid ∧ b.children.contains p ∧ gen = (b.gen + 1) % 2 ^ 32 then .next (s.setBar t { b with early := b.early ++ [(p, st, fa)] })
    else .next (s.countPort p cMcReject 1)

/-- RELEASE_BARRIER: the parent's release goes to every child and is made locally (R310). -/
def execReleaseBarrier (p : Nat) (m : Msg) (s : State) : Out :=
  if 96 ≤ p then .next s
  else if !isBarrier m 2 then .next s
  else
    let t := m.dest - 0xFF00
    let s := s.takeRx p m
    let b := s.bar t
    if b.valid ∧ b.parent = p ∧ leAt m.payload 4 4 = b.gen then
      .next ((s.barRelease t (leAt m.payload 1 1 == 1) (leAt m.payload 2 2)).barCheck t 2)
    else .next (s.countPort p cMcReject 1)

/-- BAR_ARRIVE: the owner, or the entry's GUEST, makes the local arrival (R310, Table 14-12). -/
def execBarArrive (src val : Nat) (s : State) : Out :=
  let t := bits val 5 0
  let b := s.bar t
  let s := s.traced 0x1A828 true val
  match s.accessor src with
  | none => .next (s.refuseSource src 0x1A828 0 false)
  | some q =>
    if q ≠ 0 ∧ q ≠ bits b.entry 246 241 then .next (s.refuseSource src 0x1A828 0 false)
    else if bitAt val 63 ∧ b.valid ∧ b.isLocal ∧ !b.here then .next ((s.setBar t (b.arrive s.time none false 0)).barCheck t 2)
    else .next s

/-- BARRIER_TIMEOUT: TIMEOUT ms after a generation's first arrival (R311). -/
def execBarrierTimeout (t : Nat) (s : State) : Out :=
  if 64 ≤ t then .next s
  else
    let b := s.bar t
    let lim := bits b.entry 240 225
    match b.first with
    | none => .next s
    | some f => if b.valid ∧ lim ≠ 0 ∧ !b.up ∧ f + ms lim ≤ s.time then .next (s.barFail t 2) else .next s

/-! ### Region arrivals and error completions (13 R274, R275) -/

/-- The step a tag of 17 bits denotes, near step `n`; none before step 0 (R274). -/
def stepOfTag (n tag : Nat) : Option Nat :=
  let d := (tag % 131072 + 131072 - n % 131072) % 131072
  if d < 65536 then some (n + d) else if 131072 ≤ n + d then some (n + d - 131072) else none

/-- A delivery meets its cell, or waits for its step (R113). -/
def State.offer (s : State) (r : Nat) (d : Delivery) : State :=
  let (t, gone) := s.deliver r d
  if gone then t else t.modRegion r (fun x => { x with deliveries := x.deliveries ++ [d] })

/-- A contribution of index `k` of `total` to the reduction that fills an item: the sum is delivered in FP32 when all are in
(R88, R104). -/
def State.reduce (s : State) (r : Nat) (d : Delivery) (k total : Nat) (vals : List FpVal) : State :=
  let same (q : Reduction) : Bool := q.cell == d.cell && q.item == d.item && q.tag == d.tag
  let x := s.region r
  let old := (x.reductions.find? same).getD { cell := d.cell, item := d.item, tag := d.tag, src := d.src, total := total }
  let q := old.add k vals
  let s := s.modCell d.cell (fun y => y.countEv (schedEv 5 2) (q.sat - old.sat))
  let rest := x.reductions.filter (fun z => !same z)
  if q.next < q.total then s.modRegion r (fun y => { y with reductions := rest ++ [q] })
  else
    let data := preambleOctets ⟨0, 0, 0x3F800000⟩ ++ q.sum.flatMap (bytesOf 4)
    (s.modRegion r (fun y => { y with reductions := rest })).offer r { d with data := data }

/-- REGION_ARRIVAL: a message for an item of a region: delivered, kept for its step, refused, or accepted and discarded at a region
that a CONTRACT fault stopped (R113, R115, R274). A message of channel A carries values: one whose preamble has a reserved code is
refused, the padding of its flits is dropped, and partial sums of which the route plan names contributor and number (`q.red`) are added at
the sill (R64, R86-R88, R104; log 77). -/
def execRegionArrival (q : Arrival) (s : State) : Out :=
  let m := q.msg
  if bits m.addr 47 46 ≠ 3 ∨ m.kind ≠ 0 then .next s
  else
    let r := bits m.addr 45 40
    let i := bits m.addr 39 22
    let g := s.region r
    let c := if i < 256 * g.panes.length then g.localCell i else none
    if g.state = 4 ∧ g.contract then
      match c with
      | some c => .next (s.modCell c (fun x => x.countEv { cls := 6, ev := 3, master := 6 } 1))
      | none => .next s
    else if g.state ≠ 2 ∧ g.state ≠ 3 then .next (s.sendError m 1)
    else
      match c with
      | none => .next (s.sendError m 1)
      | some c =>
        match stepOfTag g.stepNo (bits m.addr 16 0) with
        | none =>
          .next (s.modCell c (fun x => { x with stale := if x.freeze then x.stale else x.stale.add 1 }.countEv { cls := 6, ev := 2, master := 6 } 1))
        | some n =>
          let d : Delivery := { cell := c, item := bits m.addr 21 17, tag := n, data := m.payload, src := m.src }
          if m.vc ≠ 2 ∨ s.isVerdict d ∨ (s.cell c).items.length ≤ d.item then .next (s.offer r d)
          else
            match readPreamble m.payload with
            | none => .next (s.sendError m 6)
            | some f =>
              match q.red with
              | some (k, total) =>
                if partialSums f then .next (s.reduce r d k total (decodeValues f.fmt f.scale (valuesOf f m.payload)))
                else .next (s.offer r { d with data := m.payload.take 8 ++ valuesOf f m.payload })
              | none => .next (s.offer r { d with data := m.payload.take 8 ++ valuesOf f m.payload })

/-- ERROR_COMPLETION: the answer to a failed request of this module arrives. Where it answers a downstream load's read of the
manifest (`load`), that load completes with SHARD_TIMEOUT (R254, R275; log 42). -/
def execErrorCompletion (m : Msg) (load : Option Nat) (s : State) : Out :=
  if m.kind ≠ 3 ∨ m.dest ≠ s.fabricAddr then .next s
  else
    let s := { s with delivered := s.delivered ++ [m] }
    match load with
    | none => .next s
    | some id =>
      match s.wload id with
      | some l => if l.phase = 0 ∧ l.downstream then .next (s.refuseLoad l stShardTimeout) else .next s
      | none => .next s

end Sys2Proof.Machine
end

