-- ==== Sys2Proof/Machine/FaultOps.lean ====
section
/-! DEFINITION. The fault table, its forwarding, the bridge's sink, and alerts (14 R313, R314, 21 R433-R439). -/

namespace Sys2Proof.Machine

/-! ### The fault table (R433-R436) -/

def State.ftEntry (s : State) (i : Nat) : Option FtEntry := (s.mgmt.ft.find? (fun q => q.1 == i)).map (·.2)
def State.setFt (s : State) (i : Nat) (e : FtEntry) : State := s.modMgmt (fun m => { m with ft := mset m.ft i e })

/-- 1 ms of LAST_TIME, which counts ns. -/
def msNs : Nat := 1000000

/-- Where a report goes: the entry of its key that is no older than 1 ms; else a FREE entry, the lowest; else the SETTLED entry of
the oldest LAST_TIME (R434). -/
def State.ftSame (s : State) (f : FaultRec) : Option (Nat × FtEntry) :=
  s.mgmt.ft.find? (fun q => q.2.fr.key == f.key && decide (f.last ≤ q.2.fr.last + msNs))

/-- The lowest index that a rising list does not name, from `i`. -/
def firstGap (i : Nat) : List Nat → Nat
  | [] => i
  | a :: r => if a = i then firstGap (i + 1) r else i

def State.ftPlace (s : State) : Option Nat :=
  if s.mgmt.ft.length < 4096 then some (firstGap 0 (s.mgmt.ft.map (·.1)))
  else
    (s.mgmt.ft.foldl (fun (a : Option (Nat × Nat)) q =>
      if q.2.state ≠ 3 then a
      else match a with | some b => if b.2 ≤ q.2.fr.last then some b else some (q.1, q.2.fr.last) | none => some (q.1, q.2.fr.last)) none).map (·.1)

/-- A report enters the table: it collapses, takes an entry, or is lost (R434, R437). -/
def State.enterFault (s : State) (f : FaultRec) : State :=
  match s.ftSame f with
  | some (i, e) =>
    s.setFt i { e with
      state := 1
      acked := false
      fr := { e.fr with count := satTo (2 ^ 32 - 1) (e.fr.count + f.count), last := f.last } }
  | none =>
    match s.ftPlace with
    | none => { s with lost := satTo (2 ^ 32 - 1) (s.lost + f.count), lostClass := f.cls }
    | some i =>
      let n := (s.mgmt.eseq + 1) % 2 ^ 48
      ((((s.modMgmt (fun m => { m with eseq := n })).setFt i { state := 1, eseq := n, fr := f }).uart f.word).cause (48 + f.cls))

/-- FAULT_REPORT: the Lintel takes the `k`-th report that a unit holds (R433, R434). -/
def execFaultReport (k : Nat) (s : State) : Out :=
  match s.reports[k]? with
  | none => .next s
  | some r => if s.iface.halted then .next s else .next ({ s with reports := s.reports.eraseIdx k }.enterFault r.fr)

/-- Is an entry's LAST_TIME at least 1 ms old? -/
def State.ftOld (s : State) (e : FtEntry) : Bool := decide (e.fr.last + msNs ≤ s.nowNs)

/-- FAULT_ENTRY_SETTLE: an acknowledged SENT entry, or an OPEN one where nothing forwards, settles when its LAST_TIME is 1 ms old
(R435). -/
def execFaultEntrySettle (i : Nat) (s : State) : Out :=
  match s.ftEntry i with
  | none => .next s
  | some e =>
    if s.ftOld e ∧ ((e.state = 2 ∧ e.acked) ∨ (e.state = 1 ∧ s.fabric.bridgeFa = 0xFFFF)) then .next (s.setFt i { e with state := 3 })
    else .next s

/-! ### Forwarding (R313, R435) -/

/-- The oldest OPEN entries, at most `n`. -/
def State.openEntries (s : State) (n : Nat) : List (Nat × FtEntry) :=
  (sortBy (fun (a b : Nat × FtEntry) => decide (a.2.eseq ≤ b.2.eseq)) (s.mgmt.ft.filter (fun q => q.2.state == 1))).take n

/-- Put a record into the bridge's queue for the sink: beyond the rate it collapses with one of the same source, class and subject
that waits (R314). -/
def State.sinkPush (s : State) (src rec_ : Nat) : State :=
  let subject (v : Nat) : Nat × Nat := (bits v 511 508, bits v 447 409)
  let busy := s.fabric.sinkSec == s.time / secs 1 && decide (16000 ≤ s.fabric.sinkCount)
  match (if busy then s.fabric.sinkQ.findIdx? (fun q => q.src == src && subject q.rec_ == subject rec_) else none) with
  | some i =>
    s.modFabric (fun f => { f with sinkQ := f.sinkQ.modify i (fun q =>
      let n := satTo (2 ^ 32 - 1) (bits q.rec_ 479 448 + bits rec_ 479 448)
      { q with rec_ := q.rec_ - bits q.rec_ 479 448 * 2 ^ 448 + n * 2 ^ 448 }) })
  | none =>
    if busy ∧ 4096 ≤ s.fabric.sinkQ.length then s
    else s.modFabric (fun f => { f with sinkQ := f.sinkQ ++ [{ rec_ := rec_, src := src }] })

/-- FAULT_FORWARD: once per 1 ms window, up to three OPEN records go to the bridge in one fault message; an active bridge queues its
own for the sink (R313, R435). -/
def execFaultForward (s : State) : Out :=
  let f := s.fabric
  let es := s.openEntries 3
  if f.bridgeFa = 0xFFFF ∨ es = [] ∨ f.window = some (s.time / ms 1) ∨ s.iface.halted then .next s
  else
    let s := s.modFabric (fun f => { f with window := some (s.time / ms 1) })
    if f.role = 1 then
      .next (es.foldl (fun a q =>
        (a.sinkPush a.fabricAddr q.2.fr.word).setFt q.1 { q.2 with state := if a.ftOld q.2 then 3 else 2, acked := true }) s)
    else
      let n := (f.msgSeq + 1) % 2 ^ 32
      let data := natLE 2 s.fabricAddr ++ natLE 1 es.length ++ [0] ++ natLE 4 n ++ es.flatMap (fun q => natLE 64 q.2.fr.word)
      let s := es.foldl (fun a q => a.setFt q.1 { q.2 with state := 2, acked := false }) s
      let s := s.modFabric (fun f => { f with
        msgSeq := n
        unacked := f.unacked ++ [{ seq := n, data := data, entries := es.map (·.1), sentAt := s.time }] })
      .next (s.sendWrite 1 f.bridgeFa 0x1AA00 data)

/-- FAULT_MESSAGE_RETRY: the `k`-th unacknowledged message is 10 ms old (R313). -/
def execFaultMessageRetry (k : Nat) (s : State) : Out :=
  match s.fabric.unacked[k]? with
  | none => .next s
  | some u =>
    if u.sentAt + ms 10 ≤ s.time then
      .next ((s.modFabric (fun f => { f with unacked := f.unacked.set k { u with sentAt := s.time } })).sendWrite 1 s.fabric.bridgeFa 0x1AA00 u.data)
    else .next s

/-- FAULT_ACK: the entries of the acknowledged message that are still SENT settle, at once or when their LAST_TIME is 1 ms old
(R313, R435). The sequence stands in octets 0-3 (log 43). -/
def execFaultAck (m : Msg) (s : State) : Out :=
  if m.kind ≠ 0 ∨ m.addr ≠ 0x1A980 then .next s
  else
    match s.fabric.unacked.find? (fun u => u.seq == leAt m.payload 0 4) with
    | none => .next s
    | some u =>
      let s := s.modFabric (fun f => { f with unacked := f.unacked.filter (fun y => y.seq != u.seq) })
      .next (u.entries.foldl (fun a i =>
        match a.ftEntry i with
        | some e => if e.state = 2 then a.setFt i { e with acked := true, state := if a.ftOld e then 3 else 2 } else a
        | none => a) s)

/-- FAULT_MESSAGE: the active bridge acknowledges it, and takes its records unless its sequence is not later than the last from that
source (R313, R314). -/
def execFaultMessage (m : Msg) (s : State) : Out :=
  if m.kind ≠ 0 ∨ m.vc ≠ 1 ∨ m.addr ≠ 0x1AA00 ∨ s.fabric.role ≠ 1 then .next s
  else
    let src := leAt m.payload 0 2
    let seq := leAt m.payload 4 4
    let s := s.sendWrite 1 src 0x1A980 (natLE 4 seq)
    let old := match s.fabric.sources.find? (fun q => q.1 == src) with | some q => decide (seq ≤ q.2) | none => false
    if old then .next s
    else
      let s := s.modFabric (fun f => { f with sources := mset f.sources src seq })
      .next ((records 64 ((m.payload.drop 8).take (64 * min 3 (leAt m.payload 2 1)))).foldl (fun a v => a.sinkPush src v) s)

/-- FAULT_SINK_WRITE: the active bridge writes its oldest record as a sink entry, at most 16,000 a second (R314). -/
def execFaultSinkWrite (s : State) : Out :=
  let f := s.fabric
  let sec := s.time / secs 1
  let n := if f.sinkSec = sec then f.sinkCount else 0
  match f.sinkQ with
  | [] => .next s
  | q :: r =>
    if f.role ≠ 1 ∨ f.sinkFa = 0xFFFF ∨ 16000 ≤ n then .next s
    else
      let data := natLE 64 q.rec_ ++ natLE 2 q.src ++ zeros 6 ++ natLE 8 s.nowNs ++ zeros 48
      .next ((s.sendWrite 1 f.sinkFa (f.sinkAddr + 128 * (f.faultSeq % 4096)) data).modFabric (fun f =>
        { f with sinkQ := r, faultSeq := (f.faultSeq + 1) % 2 ^ 48, sinkSec := sec, sinkCount := n + 1 }))

/-! ### Alerts (R437-R439) -/

/-- ALERT_CAUSE_CLEAR: the owner clears the causes written 1, but never bit 63 (R437). -/
def execAlertCauseClear (src val : Nat) (s : State) : Out :=
  .next (s.ownerWrites src 0x10200 val (fun s =>
    s.setCauses ((List.range 16).foldl (fun a i => if bitAt s.mgmt.cause i && (!bitAt val (48 + i) || i == 15) then a + 2 ^ i else a) 0)))

/-- IBI_ACK: the tray acknowledges the pending interrupt; where the state then differs from the octet it carried, a new one is
raised (R438). With In-Band Interrupts disabled none is sent (R448). -/
def execIbiAck (s : State) : Out :=
  match s.mgmt.ibi with
  | none => .next s
  | some b => if s.iface.ibiEn then .next (s.modMgmt (fun m => { m with ibi := if s.alertByte ≠ b then some s.alertByte else none })) else .next s

/-- SHELF_STATUS_RETRY: a write of command 0xD2 was not acknowledged and is retried once after 1 ms (R439). -/
def execShelfStatusRetry (s : State) : Out :=
  match s.mgmt.shelfAt with
  | none => .next s
  | some t =>
    if t + ms 1 ≤ s.time then .next ((s.shelfWrite 0xD2 (natLE 2 s.mgmt.shelfBits)).modMgmt (fun m => { m with shelfAt := none })) else .next s

/-! ### FT_META (R436) -/

/-- Selectors of a requester (R426): 0 FT_SEL, 1 RMAP_SEL, 2 + r SLOT_SEL and 66 + r LAYER_SEL of region r. -/
def State.selOf (s : State) (q k : Nat) : Nat := mget 0 s.mgmt.sel (256 * q + k)

/-- FT_META of an entry. -/
def ftMeta : Option FtEntry → Nat
  | none => 0
  | some e => e.state % 4 * 2 ^ 62 + e.eseq % 2 ^ 48

/-- FT_META_READ: the selected entry is copied for the requester's FT_DATA reads, and its state and ESEQ are read (R436). A guest
reads only entries that name it (R427). -/
def execFtMetaRead (src rtag : Nat) (s : State) : Out :=
  let s := s.traced 0x10818 false 0
  match s.accessor src with
  | none => .next (s.refuseSource src 0x10818 rtag true)
  | some q =>
    let e := s.ftEntry (s.selOf q 0)
    if q ≠ 0 ∧ (match e with | some x => x.fr.guest | none => 0) ≠ q then .next (s.refuseSource src 0x10818 rtag true)
    else
      let s := s.modMgmt (fun m => { m with ftCopy := match e with | some x => mset m.ftCopy q x | none => mdel m.ftCopy q })
      .next (s.sendMsg { kind := 2, vc := 1, dest := src, src := s.fabricAddr, addr := rtag, payload := natLE 8 (ftMeta e) })

end Sys2Proof.Machine
end

