-- ==== Sys2Proof/Machine/MaskOps.lean ====
section
/-! DEFINITION. Mask sources and sampling entries (10 R213-R218, R221, R232, 12 Table 12-2). -/

namespace Sys2Proof.Machine

/-- References to a mask source: open slots, and park records that hold a sequence (R213). -/
def State.maskRefs (s : State) (n : Nat) : Nat :=
  s.slotsOpen (fun y => y.mask == n) +
    (s.cache.parks.filter (fun p => (p.2.state == 1 || p.2.state == 2) && p.2.slot.mask == n)).length

def State.setSource (s : State) (n : Nat) (x : MaskSource) : State :=
  s.modCampion (fun c => { c with sources := mset c.sources n x })

/-! ### Image checks (R214, R216) -/

/-- Set bits of octets. -/
def popCount (l : List Byte) : Nat := l.foldl (fun a b => a + ((List.range 8).filter (fun i => bitAt b.toNat i)).length) 0

/-- Tokens of transitions rise strictly. -/
def tokensRise : List Nat → Bool
  | a :: b :: r => decide (bits a 63 46 < bits b 63 46) && tokensRise (b :: r)
  | _ => true

/-- No bit of a row at or above VOCAB. -/
def rowBelow (vocab : Nat) (row : List Byte) : Bool :=
  (List.range 32768).all (fun i => let b := lget 0 row i
    if 8 * i + 8 ≤ vocab then true else if vocab ≤ 8 * i then b == 0 else decide (b.toNat < 2 ^ (vocab - 8 * i)))

/-- Does a row of octets allow a token? -/
def rowBit (row : List Byte) (t : Nat) : Bool := bitAt (lget 0 row (t / 8)).toNat (t % 8)

/-- One state of an automaton. -/
def autoStateOk (states vocab : Nat) (trans : List Nat) (rows : List (List Byte)) (e : Nat) : Bool :=
  let n := bits e 18 0
  let base := bits e 63 32
  let ts := (trans.drop base).take n
  let row := lget [] rows (bits e 127 112)
  bits e 89 64 == 0 && bits e 31 19 == 0 && decide (bits e 127 112 < rows.length) && decide (bits e 109 90 < states) &&
    decide (n ≤ 262144) && decide (base + n ≤ trans.length) && tokensRise ts && ts.all (fun t => rowBit row (bits t 63 46)) &&
    (bitAt e 110 || popCount row == n) && (bitAt e 111 || decide (0 < popCount row)) && rowBelow vocab row

/-- An automaton image is in form (R215, R216). -/
def automatonOk (b : List Byte) : Bool :=
  let h := leAt b 0 64
  let ns := bits h 463 443
  let nr := bits h 442 426
  let nt := bits h 425 394
  let vocab := bits h 373 355
  let states := records 16 ((b.drop 64).take (16 * ns))
  let trans := records 8 ((b.drop (64 + 16 * ns)).take (8 * nt))
  let rows := chunks 32768 nr (b.drop (64 + 16 * ns + 8 * nt))
  bits h 511 480 == 0x4155544D && bits h 479 464 == 1 && decide (1 ≤ ns ∧ ns ≤ 1048576) && decide (1 ≤ nr ∧ nr ≤ 65536) &&
    decide (1 ≤ vocab ∧ vocab ≤ 262144) && bits h 354 0 == 0 && decide (bits h 393 374 < ns) &&
    b.length == 64 + 16 * ns + 8 * nt + 32768 * nr &&
    trans.all (fun t => decide (bits t 45 26 < ns) && bits t 25 0 == 0) && rows.all (rowBelow vocab) &&
    states.all (autoStateOk ns vocab trans rows)

/-- An image of a source is in form: an automaton, or a list of exactly one row that allows a token (R214). -/
def maskImageOk (n : Nat) (b : List Byte) : Bool :=
  if n < 0x100 then automatonOk b else b.length == 32768 && decide (0 < popCount b)

/-! ### AUT_CMD (R218) -/

/-- Outcome an operation leaves in AUT_CMD (Table 10-7). -/
def autOutcome (code err : Nat) : Nat := code * 2 ^ 52 + err

def State.setAut (s : State) (g code err : Nat) : State := s.modGuest g (fun x => { x with autCmd := autOutcome code err })

/-- A write of AUT_CMD of guest `g` reaches Campion: from the guest or the owner, and naming a source (R232, R275). -/
def State.autAccess (s : State) (src g val : Nat) (f : State → Nat → State) : State :=
  let addr := 0x30002008 + 16 * g
  let s := s.traced addr true val
  let m : Msg := { kind := 0, vc := 1, dest := s.fabricAddr, src := src, addr := addr, payload := natLE 8 val }
  match s.accessor src with
  | none => s.refuseSource src addr 0 false
  | some req =>
    if req ≠ 0 ∧ req ≠ g then s.sendError m 2
    else if 0x300 ≤ bits val 61 52 then s.sendError m 6
    else f s (bits val 61 52)

/-- The HBM units of a source are given back, and its rows leave the cache. -/
def State.dropSourceCopies (s : State) (n : Nat) : State :=
  let x := s.source n
  let s := (s.freeRuns x.copy0).freeRuns x.copy1
  s.modCampion (fun c => { c with cached := c.cached.filter (fun q => q.1 != n) })

/-- MASK_SOURCE_LOAD: a write of AUT_CMD with OP 0b01 (R218). -/
def execMaskSourceLoad (src g val : Nat) (s : State) : Out :=
  if 64 ≤ g then .next (s.absentWrite src (0x30002008 + 16 * g) val)
  else if bits val 63 62 ≠ 1 then .next s
  else
    .next (s.autAccess src g val (fun s n =>
      let x := s.source n
      let free := x.state == 0 || ((x.state == 2 || x.state == 3) && x.guest == g && s.maskRefs n == 0)
      if !free then s.setAut g n 4
      else
        let a := (s.guest g).autSrc
        ((s.dropSourceCopies n).setSource n { state := 1, guest := g, srcFa := bits a 63 48, srcAddr := bits a 47 0, len := bits val 51 20 }).setAut g n 0))

/-- Two copies of `n` units on different stacks, for a guest (Table 12-2). -/
def State.twoCopies (s : State) (g n : Nat) : Option (Nat × Nat × State) :=
  match s.allocUnits g n 0 with
  | none => none
  | some (a, s) => (s.allocOther g n a 49152 0).map (fun q => (a, q.1, q.2))

/-- MASK_SOURCE_LOAD_COMPLETE: the fetch of a source has ended, with its octets or without; it is checked and stored
(R218). -/
def execMaskSourceLoadComplete (n : Nat) (got : Option (List Byte)) (s : State) : Out :=
  if 0x300 ≤ n then .next s
  else
    let x := s.source n
    if x.state ≠ 1 then .next s
    else
      let failed (err : Nat) : State := s.setSource n { state := 3, guest := x.guest, err := err }
      match got with
      | none => .next (failed 3)
      | some b =>
        if b.length ≠ x.len then .next s
        else if !maskImageOk n b then .next (failed 1)
        else
          let units := ceilDiv b.length 4096
          match s.twoCopies x.guest units with
          | none => .next (failed 2)
          | some (a, c, t) =>
            let hbm := (t.hbm.write (a * 4096) b).write (c * 4096) b
            .next ({ t with hbm := hbm }.setSource n { x with state := 2, image := b, copy0 := [(a, units)], copy1 := [(c, units)] })

/-- A source becomes FREE; its copies wait for zeroing. -/
def State.freeSource (s : State) (n : Nat) : State := (s.dropSourceCopies n).setSource n {}

/-- MASK_SOURCE_FREE: a write of AUT_CMD with OP 0b10 (R218). -/
def execMaskSourceFree (src g val : Nat) (s : State) : Out :=
  if 64 ≤ g then .next (s.absentWrite src (0x30002008 + 16 * g) val)
  else if bits val 63 62 ≠ 2 then .next s
  else
    .next (s.autAccess src g val (fun s n =>
      let x := s.source n
      let ok := x.state != 1 && s.maskRefs n == 0 && (g == 0 || (x.state != 0 && x.guest == g))
      if ok then (s.freeSource n).setAut g n 0 else s.setAut g n 4))

/-! ### Sampling entries (R221) -/

/-- Word `w` of a sampling entry as it will take effect: staged, else as it stands. -/
def Guest.samplingWord (x : Guest) (i w : Nat) : Nat := mget (mget 0 x.sampling i / 2 ^ (64 * w) % 2 ^ 64) x.staged (4 * i + w)

/-- SAMPLING_ENTRY_COMMIT: the write of the word at +0 makes all four words take effect (R221). -/
def execSamplingEntryCommit (src g i : Nat) (w : BitVec 64) (s : State) : Out :=
  if 64 ≤ g ∨ 256 ≤ i then .next (s.absentWrite src (0x30080000 + g * 2 ^ 13 + i * 2 ^ 5) w.toNat)
  else
    let m : Msg := { kind := 0, vc := 1, dest := s.fabricAddr, src := src, addr := 0x30080000 + g * 2 ^ 13 + i * 2 ^ 5, payload := natLE 8 w.toNat }
    let s := s.traced m.addr true w.toNat
    match s.accessor src with
    | none => .next (s.refuseSource src m.addr 0 false)
    | some req =>
      if req ≠ 0 ∧ req ≠ g then .next (s.sendError m 2)
      else
        let x := s.guest g
        let v := bits w.toNat 63 53 * 2 ^ 53 + x.samplingWord i 1 * 2 ^ 64 + x.samplingWord i 2 * 2 ^ 128 + x.samplingWord i 3 * 2 ^ 192
        .next (s.setGuest g { x with sampling := mset x.sampling i v, staged := x.staged.filter (fun q => q.1 / 4 != i) })

end Sys2Proof.Machine
end

