-- ==== Sys2Proof/Machine/HbmOps.lean ====
section
/-! DEFINITION. HBM controllers: reads, writes, retries, zeroing, patrol, channel and bank power-down (12 R255-R267), and
bandwidth blocks (20 R421). -/

namespace Sys2Proof.Machine

/-- A controller's traffic by a master, numbered as FILT_MASTER's bits from 37 (Table 20-7). -/
def State.hbmTraffic (s : State) (n dir master bytes unit : Nat) : State :=
  s.modHctl n (fun h =>
    let pass := bitAt h.bw.ctl (37 + master) && decide (bits h.bw.range 57 29 ≤ unit) && decide (unit ≤ bits h.bw.range 28 0)
    { h with bw := h.bw.add (8 * dir) bytes pass })

/-! ### Faults and corrections -/

def State.modChan (s : State) (n c : Nat) (f : HbmTarget → HbmTarget) : State :=
  s.modHctl n (fun h => { h with chans := mset h.chans c (f (h.chan c)) })
def State.modBank (s : State) (n c b : Nat) (f : HbmTarget → HbmTarget) : State :=
  s.modHctl n (fun h => { h with banks := mset h.banks (64 * c + b) (f (h.bank c b)) })

/-- One correction in a unit: counted for its channel and its bank; 1,024 in one bank within 24 h raise CE_STORM, and the
bank's count of them begins again (R259; log 36). -/
def State.countCe (s : State) (u : Nat) : State :=
  let n := unitStack u
  let c := unitChannel u
  let b := unitBank u
  let s := s.modChan n c (fun t => { t with ce := satTo (2 ^ 32 - 1) (t.ce + 1) })
  let t := (s.hctl n).bank c b
  let times := s.time :: t.times.filter (fun x => decide (s.time < x + secs 86400))
  let storm := decide (1024 ≤ times.length)
  let s := s.modBank n c b (fun t => { t with ce := satTo (2 ^ 32 - 1) (t.ce + 1), times := if storm then [] else times })
  if storm then s.hbmFault n 3 (n * 2 ^ 59 + c * 2 ^ 54 + b * 2 ^ 48) else s

/-- The first steps of an uncorrectable read: held, UE_FIRST, UE_COUNT and UE_LOG (R260, Tables 12-5, 12-8). -/
def State.holdRead (s : State) (a : Nat) (use : HbmUse) : State :=
  let n := unitStack (a / 4096)
  let s := s.hbmFault n 1 (a % 2 ^ 41)
  s.modHctl n (fun h =>
    { h with
      ueCount := satTo (2 ^ 32 - 1) (h.ueCount + 1)
      held := h.held ++ [{ addr := a, use := use }]
      logValid := true
      logLost := h.logValid && h.logLost
      logAddr := if h.logValid then h.logAddr else a % 2 ^ 41 })

/-- The bounds of the HBM address space, and the target's state: what meets an access before the stack (R256, R265). None:
the access goes on. `wait`: it waits for ACTIVE; `dark`: its controller's sill pane is dark (R326). -/
inductive HbmGate where
  | go
  | wait
  | reject
  | outside
  | dark
  deriving DecidableEq, Repr

def State.hbmGate (s : State) (a : Nat) : HbmGate :=
  if 1536000000000 ≤ a then .outside
  else if (s.pane (paneHbm (unitStack (a / 4096)))).pwr.cap = 2 then .dark
  else match s.unitState (a / 4096) with
    | 2 => .reject
    | 3 => .wait
    | 4 => .outside
    | _ => .go

/-- The error completion of an HBM access: its ADDR is the failed address of a write, or RTAG of a read (R275). -/
def State.hbmError (s : State) (src a code : Nat) (rtag : Option Nat) : State :=
  s.sendMsg { kind := 3, vc := 1, dest := src, src := s.fabricAddr, addr := (rtag.getD a) % 2 ^ 48,
              payload := natLE 2 code ++ [if rtag.isSome then 1 else 0, 0, 0, 0, 0, 0] }

/-- An access to a CLOSED target: LATE_WRITE and an error completion (R265). -/
def State.lateAccess (s : State) (src a : Nat) (rtag : Option Nat) : State :=
  (s.hbmFault (unitStack (a / 4096)) 4 (a % 2 ^ 41 + src % 65536 * 2 ^ 48)).hbmError src a 4 rtag

/-! ### A read that fails twice (R260, R261, Table 12-2) -/

/-- Retire a unit: in flash while its list has room, else in the running map only, with RETIRE_FULL. -/
def State.retire (s : State) (a : Nat) : State :=
  let u := a / 4096
  let s := s.retireUnit u
  if s.retired.contains u then s
  else if s.retired.length < 4096 then { s with retired := s.retired ++ [u] }
  else s.hbmFault (unitStack u) 6 (a % 2 ^ 41)

/-- Slots whose lists name a descriptor and that are in the step in flight run as null (R207). -/
def State.nullSlots (s : State) (d : Nat) : State :=
  { s with regions := mmap (fun _ x => { x with flight := x.flight.map (fun f =>
      let hit := ((f.positions.filterMap (·.slot)).eraseDups).filter (fun n => (x.slot n).descs.contains d)
      { f with nulls := f.nulls ++ hit.filter (fun n => !f.nulls.contains n) }) }) s.regions }

/-- Promotions of a page in a step in flight end: the descriptor reserved with it is released (R207). -/
def State.endPromos (s : State) (d : Nat) : State :=
  let hit := s.regions.flatMap (fun q => match q.2.flight with | some f => f.promos.filter (fun k => k.2.1 == d) | none => [])
  let s := { s with regions := mmap (fun _ x => { x with flight := x.flight.map (fun f => { f with promos := f.promos.filter (fun k => k.2.1 != d) }) }) s.regions }
  hit.foldl (fun a k => a.delDesc k.2.2) s

/-- A page's home image cannot be read: it becomes Absent (R207). -/
def State.losePage (s : State) (d : Nat) : State :=
  let x := s.desc d
  if !x.valid then s
  else
    let s := s.report (unitEngine 2) { cls := 8, code := 1, region := if x.unbound then 0 else x.region, guest := x.guest, detHi := d }
    ((s.nullSlots d).endPromos d).dropDesc d

/-- A block of a token log cannot be read: a new second copy, or, when both are lost, the mark that the sequence cannot be
recomputed (R207). -/
def State.loseLog (s : State) (r n u : Nat) (both : Bool) : State :=
  let g := s.slot r n
  let rec_ (code : Nat) (s : State) : State := s.report (unitEngine 2) { cls := 8, code := code, region := r, guest := g.guest, detHi := n + r * 2 ^ 16 }
  if both then (rec_ 3 s).modSlot r n (fun y => { y with logLost := true })
  else
    let s := rec_ 2 s
    match g.logBlocks.findIdx? (fun b => decide ((b.1 ≤ u ∧ u < b.1 + 16) ∨ (b.2 ≤ u ∧ u < b.2 + 16))) with
    | none => s
    | some i =>
      let b := lget (0, 0) g.logBlocks i
      let good := if b.1 ≤ u ∧ u < b.1 + 16 then b.2 else b.1
      let bad := if good = b.1 then b.2 else b.1
      match s.takeOther g.guest 16 good 0 [n] r 49152 with
      | (none, s) => s
      | (some c, t) =>
        let t := { t with hbm := t.hbm.write (c * 4096) (t.hbm.read (good * 4096) 65536) }
        (t.freeUnits bad 16).modSlot r n (fun y => { y with logBlocks := y.logBlocks.set i (good, c) })

/-- A mask source's unit cannot be read: the lost copy's part is written again to a fresh unit on another stack than the other copy's, or
the source has FAILED when both are lost (Table 12-2). Where no unit is to be had the source goes on with what it has (DEDUCED, log
38). -/
def State.loseMask (s : State) (n u : Nat) (both : Bool) : State :=
  let x := s.source n
  if x.state ≠ 2 then s
  else if both then s.setSource n { x with state := 3, err := 3 }
  else
    let mend (lost good : List (Nat × Nat)) (put : List (Nat × Nat) → MaskSource) : Option State :=
      (placeIn lost u).bind (fun k =>
        (s.allocOther x.guest 1 (unitAt good k) 49152 0).map (fun q =>
          ({ q.2 with hbm := q.2.hbm.write (q.1 * 4096) (slice x.image (4096 * k) (min 4096 (x.image.length - 4096 * k))) } : State).setSource n
            (put (replaceUnit u q.1 lost))))
    match mend x.copy0 x.copy1 (fun l => { x with copy0 := l }), mend x.copy1 x.copy0 (fun l => { x with copy1 := l }) with
    | some t, _ => t
    | none, some t => t
    | none, none => s

/-- A unit of a generation's copy cannot be read: STAGED_LOST, and the shards it held are fetched again from the
manifest's sources, beginning at source 0 (R245). Its octets keep their place in the model's HBM (log 38). -/
def State.loseGen (s : State) (guest num a : Nat) : State :=
  match s.generation guest num with
  | none => s
  | some g =>
    let k := (placeIn g.runs (a / 4096)).getD 0
    let on := match parseManifest g.manifest with | some m => g.shardsOf m k | none => []
    let i := on.headD (k / 16384)
    let s := s.report (unitEngine 1) { cls := 7, code := 4, guest := guest, detHi := i + num * 2 ^ 32 }
    let s := s.modGen guest num (fun y => { y with bad := y.bad ++ [k] })
    match parseManifest g.manifest with
    | none => s
    | some m =>
      let under := s.weight.loads.filter (fun l => l.guest == guest && l.gen == num)
      let again := on.filter (fun i => !under.any (fun l => (lget ({} : ShardRec) l.shards i).state < 2))
      if again.isEmpty then s
      else
        let shards := (List.range (bits m.hdr 903 887)).map (fun k =>
          if again.contains k then ({ state := 1, attempts := 1, source := 0, at_ := s.time } : ShardRec) else { state := 3 })
        s.modWeight (fun w => { w with
          nextId := w.nextId + 1
          loads := w.loads ++ [{ id := w.nextId, entry := none, guest := guest, gen := num, target := 0, region := 64, srcFa := 0xFFFF,
                                 srcAddr := 0, fwdFa := 0xFFFF, phase := 1, manifest := g.manifest, measure := g.measure, shards := shards,
                                 startAt := s.time }] })

/-- What the consumer of a lost read does (Table 12-2). -/
def State.loseRead (s : State) (h : HeldRead) : State :=
  match h.use with
  | .page d => s.losePage d
  | .log r n both => s.loseLog r n (h.addr / 4096) both
  | .gen guest num => s.loseGen guest num h.addr
  | .mask n both => s.loseMask n (h.addr / 4096) both
  | .item c => match s.regionOfCell c with | some r => s.stopRegion r | none => s
  | .other => s

/-- An access that waits for its target (R265). -/
def State.hbmPark (s : State) (w : HbmWait) : State :=
  s.modHctl (unitStack (w.addr / 4096)) (fun h => { h with waiting := h.waiting ++ [w] })

/-- May a management access, master 5, read a unit: of the owner, and outside approved mode (R258)? -/
def State.mayReadUnit (s : State) (src master : Nat) : Bool := master != 5 || (!s.keeper.approved && s.accessor src == some 0)

/-- A burst of 64 octets is read for a use: `outcome` 0 is a clean read, 1 one that the code corrects, 2 one that it cannot
correct (R256, R258, R259, R260, R265). Behind a dark sill pane the read fails as one that fails twice does (R326). -/
def State.hbmReads (s : State) (a src master outcome : Nat) (use : HbmUse) (rtag : Nat) : State :=
  if !s.mayReadUnit src master then s.hbmError src a 2 (some rtag)
  else
    match s.hbmGate a with
    | .outside => s.hbmError src a 1 (some rtag)
    | .reject => s.lateAccess src a (some rtag)
    | .wait => s.hbmPark { addr := a, src := src, master := master, read := some (outcome, use), rtag := rtag }
    | .dark => s.loseRead { addr := a, use := use }
    | .go =>
      let s := s.hbmTraffic (unitStack (a / 4096)) 0 master 64 (a / 4096)
      if outcome = 0 then s else if outcome = 1 then s.countCe (a / 4096) else s.holdRead a use

/-- A burst of 64 octets is written. It reaches the stack in the same command, so the inbound write counter reads zero
between commands (R263, R265; log 37). Behind a dark sill pane it has no effect (R326). -/
def State.hbmWrites (s : State) (a src master : Nat) (data : List Byte) : State :=
  match s.hbmGate a with
  | .outside => s.hbmError src a 1 none
  | .reject => s.lateAccess src a none
  | .wait => s.hbmPark { addr := a, src := src, master := master, read := none, data := data }
  | .dark => s
  | .go =>
    let s := s.hbmTraffic (unitStack (a / 4096)) 1 master 64 (a / 4096)
    { s with hbm := s.hbm.write (a / 64 * 64) (data.take 64) }

/-- The accesses that wait at a controller are tried again, in order. -/
def State.hbmAgain (s : State) (n : Nat) : State :=
  (s.hctl n).waiting.foldl (fun a w =>
    match w.read with
    | some (o, u) => a.hbmReads w.addr w.src w.master o u w.rtag
    | none => a.hbmWrites w.addr w.src w.master w.data) (s.modHctl n (fun h => { h with waiting := [] }))

/-- HBM_READ: an engine, an item or a management access, whose request has `rtag`, reads a burst (R256, R258-R260, R265). -/
def execHbmRead (a src master outcome : Nat) (use : BurstUse) (s : State) : Out :=
  .next (s.hbmReads a src master outcome use.use use.rtag)

/-- HBM_WRITE: a burst is written (R256, R265). -/
def execHbmWrite (a src master : Nat) (data : List Byte) (s : State) : Out := .next (s.hbmWrites a src master data)

/-- UE_RETRY: controller `n` reads the `k`-th held burst again; `outcome` as for a read. What awaited it goes on (R260). -/
def execUeRetry (n k outcome : Nat) (s : State) : Out :=
  if 24 ≤ n then .next s
  else
    match (s.hctl n).held[k]? with
    | none => .next s
    | some h =>
      let s := s.modHctl n (fun x => { x with held := x.held.eraseIdx k })
      if outcome = 0 then .next s.feedAgain
      else if outcome = 1 then .next (s.countCe (h.addr / 4096)).feedAgain
      else
        let s := s.hbmFault n 2 (h.addr % 2 ^ 41)
        let s := s.modHctl n (fun x => { x with logLost := x.logLost || (x.logValid && x.logAddr == h.addr % 2 ^ 41) })
        .next ((s.retire h.addr).loseRead h)

/-- HBM_UNIT_ZERO: a unit in state 0b10 is zeroed and free (R257, R258). -/
def execHbmUnitZero (u : Nat) (s : State) : Out :=
  if hbmUnits ≤ u then .next s
  else
    match s.extents.find? (fun x => x.st == 2 && decide (x.start ≤ u ∧ u < x.start + x.len)) with
    | some x => .next ((s.zeroUnits u 1 x.guest).hbmTraffic (unitStack u) 1 4 4096 u)
    | none => .next s

/-- PATROL_SCRUB: a controller reads its next unit in free command slots; `corrected` bursts are corrected and written back,
and a burst at offset `bad` cannot be corrected (R259, R260). -/
def execPatrolScrub (n corrected : Nat) (bad : Option Nat) (s : State) : Out :=
  if 24 ≤ n then .next s
  else
    let v := (s.hctl n).patrol
    let u := 24 * v + n
    if s.unitState u ≥ 2 then .next (s.modHctl n (fun h => { h with patrol := (v + 1) % 15625000 }))
    else
      let s := s.hbmTraffic n 0 4 4096 u
      let s := (List.range (min corrected 64)).foldl (fun a _ => a.countCe u) s
      let s := match bad with | some o => s.holdRead (u * 4096 + o % 4096 / 64 * 64) .other | none => s
      .next (s.modHctl n (fun h => { h with patrol := (v + 1) % 15625000 }))

/-! ### Power-down (R263-R266) -/

/-- A target of PWR_CMD: a channel, or one bank of it (Table 12-6). -/
def pwrBank (val : Nat) : Option Nat := if bitAt val 61 then some (bits val 55 50) else none
def pwrChannel (val : Nat) : Nat := bits val 60 56

def HbmCtl.target (h : HbmCtl) (c : Nat) : Option Nat → HbmTarget
  | none => h.chan c
  | some b => h.bank c b

def State.modTarget (s : State) (n c : Nat) (b : Option Nat) (f : HbmTarget → HbmTarget) : State :=
  match b with
  | none => s.modChan n c f
  | some k => s.modBank n c k f

/-- Has a target a unit in a state of the unit map? A run of 49,152 units passes every bank. -/
def State.targetHas (s : State) (n c : Nat) (b : Option Nat) (st : Nat) : Bool :=
  s.extents.any (fun x => x.st == st && (decide (49152 ≤ x.len) || (List.range x.len).any (fun i => unitIn n c b (x.start + i))))

def State.pwrResult (s : State) (n v : Nat) : State := s.modHctl n (fun h => { h with result := v })

/-- Address of PWR_CMD of a controller. -/
def pwrCmdAddr (n : Nat) : Nat := 0x20000008 + n * 2 ^ 16

/-- CLOSE: a write of PWR_CMD with OP 0b01 (R263, R264, R266). -/
def execClose (src n val : Nat) (s : State) : Out :=
  if 24 ≤ n then .next (s.absentWrite src (pwrCmdAddr n) val)
  else if bits val 63 62 ≠ 1 then .next s
  else
    .next (s.ownerWrites src (pwrCmdAddr n) val (fun s =>
      let c := pwrChannel val
      let b := pwrBank val
      let t := (s.hctl n).target c b
      if b.isSome ∧ ((s.hctl n).chan c).state ≠ 0 then s.pwrResult n 2
      else if t.state = 0 then
        if s.targetHas n c b 1 then s.pwrResult n 1
        else (s.modTarget n c b (fun x => { x with state := 1, pend := 0 })).pwrResult n 0
      else if t.state = 3 ∧ t.pend = 0 then (s.modTarget n c b (fun x => { x with pend := 2 })).pwrResult n 3
      else s.pwrResult n 4))

/-- OPEN: a write of PWR_CMD with OP 0b10 (R263, R266). -/
def execHbmOpen (src n val : Nat) (s : State) : Out :=
  if 24 ≤ n then .next (s.absentWrite src (pwrCmdAddr n) val)
  else if bits val 63 62 ≠ 2 then .next s
  else
    .next (s.ownerWrites src (pwrCmdAddr n) val (fun s =>
      let c := pwrChannel val
      let b := pwrBank val
      let t := (s.hctl n).target c b
      if b.isSome ∧ ((s.hctl n).chan c).state ≠ 0 then s.pwrResult n 2
      else if t.state = 2 then (s.modTarget n c b (fun x => { x with state := 3, pend := 0 })).pwrResult n 0
      else if t.state = 1 ∧ t.pend = 0 then (s.modTarget n c b (fun x => { x with pend := 1 })).pwrResult n 3
      else s.pwrResult n 4))

/-- CLOSING_COMPLETE: the write counter is 0 and every unit of the target free and zeroed; it is CLOSED, or OPENING for a pending open (R264, R266). -/
def execClosingComplete (n c : Nat) (bank : Option Nat) (s : State) : Out :=
  if 24 ≤ n ∨ 32 ≤ c ∨ 64 ≤ bank.getD 0 then .next s
  else
    let t := (s.hctl n).target c bank
    if t.state = 1 ∧ (s.hctl n).writes n c bank = 0 ∧ !s.targetHas n c bank 2 then
      .next (s.modTarget n c bank (fun x => { x with state := if t.pend = 1 then 3 else 2, pend := 0 }))
    else .next s

/-- OPENING_COMPLETE: self-refresh exit ends; the target is ACTIVE, or CLOSING for a pending close, and the accesses that waited
for it go on (R263, R265, R266). -/
def execOpeningComplete (n c : Nat) (bank : Option Nat) (s : State) : Out :=
  if 24 ≤ n ∨ 32 ≤ c ∨ 64 ≤ bank.getD 0 then .next s
  else
    let t := (s.hctl n).target c bank
    if t.state = 3 then .next ((s.modTarget n c bank (fun x => { x with state := if t.pend = 2 then 1 else 0, pend := 0 })).hbmAgain n)
    else .next s

end Sys2Proof.Machine
end

