-- ==== Sys2Proof/Machine/PowerState.lean ====
section
/-! DEFINITION. Commands of admission, of the power states of regions, and of authenticated limit changes (15 R327-R339, 21 R428). -/

namespace Sys2Proof.Machine

/-! ### Admission (R327-R330) -/

/-- A region is admitted: its ramp begins, or, of a raise, its panes' ramps to the new setpoint (R329, R364, R365). -/
def State.admitPower (s : State) (r : Nat) : State :=
  let x := s.region r
  let kind := match x.power.req with | some q => q.kind | none => 0
  let goal := x.admProfile
  let s := s.modRegion r (fun y => { y with
    prof := { y.prof with admitted := goal }
    power := { y.power with req := none, pendCur := x.admCurrent, admittedAt := s.time } })
  if kind = 2 then s.beginSwitch r goal
  else if x.power.state ≤ 1 ∧ x.load.isNone then
    (x.panes.foldl (fun a p => a.modPane p (fun q => q.modPwr (fun w => w.rampTo s.time (profileMv goal)))) s).modRegPower r
      (fun w => { w with trans := 2, transAt := s.time })
  else s.modRegPower r (fun w => { w with trans := 2, transAt := s.time, ramp := some 0, rampAt := s.time })

/-- Test a request: it is admitted when it fits and no older deferred request holds it back (R328). -/
def State.testPower (s : State) (r : Nat) : State :=
  if s.fits r && !s.heldBack r then s.admitPower r
  else s.modRegPower r (fun w => { w with req := w.req.map (fun q => { q with tested := some s.time }) })

/-- Does an earlier request of another region wait for its first test (R328)? -/
def State.testedLater (s : State) (r since : Nat) : Bool :=
  s.regions.any (fun o => o.1 != r && (match o.2.power.req with
    | some p => p.tested.isNone && decide (p.since < since)
    | none => false))

/-- ADMISSION_TEST: the first test of a region's request; requests are tested in the order they arrive (R328). -/
def execAdmissionTest (r : Nat) (s : State) : Out :=
  if 64 ≤ r then .next s
  else
    match (s.region r).power.req with
    | some q => if q.tested.isNone ∧ !s.testedLater r q.since ∧ !s.boot.off ∧ !s.iface.halted then .next (s.testPower r) else .next s
    | none => .next s

/-- STEP entries of a region whose panes are not admitted after 2 ms send DEFERRED, each once; Open and Ajar panes are (R159, R327,
R330). -/
def State.sendDeferrals (s : State) (r : Nat) : State :=
  let due := if (s.region r).power.state < 2 then [] else (s.region r).runs.filter (fun e => !e.prefill && !e.deferred)
  (due.foldl (fun a e => a.sendDeferred e.id) s).modRegion r (fun x => { x with runs := x.runs.map (fun e => if e.prefill || !due.any (fun d => d.id == e.id) then e else { e with deferred := true }) })

/-- ADMISSION_RETEST: every 100 µs, and after 2 ms once per round; a raise not admitted within 100 ms is refused (R330, Table 17-2). -/
def execAdmissionRetest (r : Nat) (s : State) : Out :=
  if 64 ≤ r then .next s
  else
    match (s.region r).power.req with
    | none => .next s
    | some q =>
      match q.tested with
      | none => .next s
      | some t =>
        let late := decide (q.since + ms 2 ≤ s.time)
        if s.time < t + (if q.since + ms 2 ≤ t then us 500 else us 100) ∨ s.boot.off ∨ s.iface.halted then .next s
        else
          let s := s.testPower r
          if (s.region r).power.req.isNone ∨ !late then .next s
          else if q.kind = 2 ∧ q.since + ms 100 ≤ s.time then .next (s.refuseProfile r stPowerDeferred)
          else .next (s.sendDeferrals r)

/-- RAMP_STEP: the core rails of the panes whose region-local index mod 8 is the step's number switch on (R329). -/
def execRampStep (r : Nat) (s : State) : Out :=
  if 64 ≤ r then .next s
  else
    let x := s.region r
    match x.power.ramp with
    | none => .next s
    | some i =>
      if x.rampSteps ≤ i ∨ s.time < x.power.rampAt + us (5 * i) then .next s
      else
        let ps := x.wakePanes
        let mine := (List.range ps.length).filter (fun k => x.rampSteps == 1 || k % 8 == i)
        let s := mine.foldl (fun a k => a.modPane (lget 0 ps k) (fun q => q.modPwr (fun w => w.setTo s.time (profileMv x.prof.profile)))) s
        .next (s.modRegPower r (fun w => { w with ramp := some (i + 1) }))

/-! ### Wakes (R332-R335) -/

/-- SEALED_WAKE_REWRITE: the Glaze engine rewrites the cells from the retained image, and Framed pages become Home (R335 steps 2 and 3,
R54, R209). -/
def execSealedWakeRewrite (r : Nat) (s : State) : Out :=
  if 64 ≤ r then .next s
  else
    let x := s.region r
    if x.power.trans ≠ 2 ∨ x.power.rewritten ∨ !x.rampOver s.time then .next s
    else
      match (match x.image with | some i => parseImage i.bytes | none => none) with
      | none => .next s
      | some p => .next (((s.installRegion r p).homeAll r).modRegPower r (fun w => { w with rewritten := true, pendCur := 0 }))

/-- WAKE_COMPLETE: every pane of the region is Open (R332, R335); of a load, its writes begin (R137 step 5). -/
def execWakeComplete (r : Nat) (s : State) : Out :=
  if 64 ≤ r then .next s
  else
    let x := s.region r
    if x.power.trans ≠ 2 then .next s
    else
      match x.load with
      | some l =>
        if l.phase = 4 ∧ (x.rampOver s.time ∨ l.panes.all (fun p => (s.pane p).power ≤ 1)) then
          .next ((s.setOpen r).modRegion r (fun y => { y with load := some { l with phase := 5, since := s.time } }))
        else .next s
      | none =>
        if x.power.state = 1 ∨ (x.rampOver s.time ∧ x.power.rewritten) then .next (s.setOpen r) else .next s

/-- PLANNED_WAKE: at the step's end + Q − wake the region begins to wake (R333). -/
def execPlannedWake (r : Nat) (s : State) : Out :=
  if 64 ≤ r then .next s
  else
    match (s.region r).power.plannedWake with
    | some t =>
      if t ≤ s.time ∧ !s.iface.halted then .next ((s.modRegPower r (fun w => { w with plannedWake := none })).askRaise r 3) else .next s
    | none => .next s

/-! ### Lowering (R333, R334, R336) -/

/-- May a region's state be lowered: no step in flight, every scatter complete, no fill or window access of its cells pending (R333)? -/
def State.quiesced (s : State) (r : Nat) : Bool :=
  let x := s.region r
  x.flight.isNone && x.scatters.isEmpty && x.shifts.isEmpty && !s.weight.loads.any (fun l => l.target != 0 && l.region == r) &&
    !s.cells.any (fun c => x.panes.contains (paneOfCell c.1) && !c.2.bg.isEmpty)

/-- Wake time of a state, in quarter-nanoseconds (Table 15-7, R335). -/
def Region.wakeTime (x : Region) (st : Nat) : Nat :=
  let len := match x.image with | some i => i.bytes.length | none => 0
  match st with
  | 1 => ns 50
  | 2 => us 20
  | _ => us 460 + ns (ceilDiv len 200)

/-- The deepest state whose break-even and wake time are both no greater than Q µs; 0, none (R333). -/
def Region.deepest (x : Region) (q : Nat) : Nat :=
  let ok (st even : Nat) : Bool := decide (even ≤ us q) && decide (x.wakeTime st ≤ us q)
  if ok 3 (ms 20) then 3 else if ok 2 (us 300) then 2 else if ok 1 (us 1) then 1 else 0

/-- Board a region: its started entries end with NO_REGION, and it lowers to Boarded (R336). -/
def State.board (s : State) (r : Nat) : State := (s.endRuns r stNoRegion).askLower r 4

/-- POWER_STATE_LOWER: the Lintel chooses the state of a region that has become LOADED, and lowers it; under FORCE = Boarded it boards
it (R333, R336). -/
def execPowerStateLower (r : Nat) (s : State) : Out :=
  if 64 ≤ r then .next s
  else
    let x := s.region r
    let w := x.power
    if s.iface.halted ∨ x.state < 2 ∨ 4 < x.state ∨ x.load.isSome ∨ w.trans ≠ 0 ∨ w.req.isSome ∨ !s.quiesced r then .next s
    else if w.force = 2 then .next (if w.state = 4 then s else s.board r)
    else if x.state ≠ 2 ∨ w.force = 1 ∨ w.state ≠ 0 ∨ !w.due then .next s
    else
      let s := s.modRegPower r (fun w => { w with due := false })
      if w.quiet = 0 then .next (s.askLower r 1)
      else
        let st := x.deepest w.quiet
        if st = 0 then .next s
        else .next ((s.askLower r st).modRegPower r (fun y => { y with plannedWake := some (w.idleSince + us w.quiet - x.wakeTime st) }))

/-- IDLE_ESCALATION: with QUIET 0, a region that has been idle for IDLE_SEAL goes to Sealed, for IDLE_SHUT to Shuttered (R333). -/
def execIdleEscalation (r : Nat) (s : State) : Out :=
  if 64 ≤ r then .next s
  else
    let x := s.region r
    let w := x.power
    let idle (n : Nat) : Bool := n != 0 && decide (w.idleSince + us n ≤ s.time)
    if s.iface.halted ∨ x.state ≠ 2 ∨ w.quiet ≠ 0 ∨ w.force ≠ 0 ∨ w.state = 0 ∨ w.trans ≠ 0 ∨ !s.quiesced r then .next s
    else if idle s.power.idleSeal then .next (s.askLower r 3)
    else if idle s.power.idleShut then .next (s.askLower r 2)
    else .next s

/-- What a pane keeps in a state (Table 15-7): its rail at retention or off, its memories kept or lost. -/
def State.lowerPane (s : State) (p st mv : Nat) : State :=
  let s := if 3 ≤ st then s.losePane p (st == 4) else s
  s.modPane p (fun q =>
    { q with
      power := st
      lastGuest := if st = 4 then none else q.lastGuest
      pwr := q.pwr.setTo s.time (if st = 1 then mv else if st = 2 then 480 else 0) })

/-- POWER_STATE_ENTRY_COMPLETE: the lowering ends; a queued raise begins (R332, R334, R336). -/
def execPowerStateEntryComplete (r : Nat) (s : State) : Out :=
  if 64 ≤ r then .next s
  else
    let x := s.region r
    let w := x.power
    if w.trans ≠ 1 then .next s
    else
      let s := x.panes.foldl (fun a p => a.lowerPane p w.target (profileMv x.prof.profile)) s
      let s := if w.target = 4 then s.modRegion r (fun y => { y with windows := y.windows.map (fun _ => {}) }) else s
      let s := s.modRegPower r (fun y => { y with
        state := w.target
        trans := 0
        pendRaise := 0
        rewritten := decide (w.target < 3) })
      .next (if w.pendRaise = 1 then s.askRaise r 3 else s)

/-! ### FORCE (R336) -/

/-- Address of REGION_PWR (Table 15-8). -/
def regionPwrAddr (r : Nat) : Nat := 0x20400 + 8 * r

/-- A write of FORCE by the owner or by the guest that holds the region (R12, R336); of a FREE region the owner's value is kept, and
there is nothing to raise or to board. -/
def State.writeForce (s : State) (src r force : Nat) (f : State → State) : State :=
  let s := s.traced (regionPwrAddr r) true (force * 2 ^ 56)
  let x := s.region r
  match s.accessor src with
  | none => s.refuseSource src (regionPwrAddr r) 0 false
  | some g =>
    if g ≠ 0 ∧ (x.state = 0 ∨ x.guest ≠ g) then s.refuseSource src (regionPwrAddr r) 0 false
    else if x.state = 0 then s.modRegPower r (fun w => { w with force := force })
    else f s

/-- FORCE_BOARDED: the region is boarded once no step is in flight; until FORCE changes, its STEP and PREFILL entries complete with
NO_REGION (R336, R141). -/
def execForceBoarded (src r : Nat) (s : State) : Out :=
  if 64 ≤ r then .next s
  else
    .next (s.writeForce src r 2 (fun s =>
      let inFlight := ((s.region r).flight).bind (fun f => f.entry)
      let s := s.modRegPower r (fun w => { w with force := 2 })
      let s := ((s.region r).runs.filter (fun e => some e.id != inFlight)).foldl (fun a e => a.endRun r e stNoRegion e.lastStep) s
      if s.quiesced r then s.board r else s))

/-- FORCE_AUTO: a Boarded region wakes as from Sealed, and its state is chosen again (R336). -/
def execForceAuto (src r : Nat) (s : State) : Out :=
  if 64 ≤ r then .next s
  else
    .next (s.writeForce src r 0 (fun s =>
      let s := s.modRegPower r (fun w => { w with force := 0 })
      if (s.region r).power.state = 4 ∨ (s.region r).power.target = 4 then s.askRaise r 3 else s))

/-- FORCE_OPEN: the region is held Open (R336). -/
def execForceOpen (src r : Nat) (s : State) : Out :=
  if 64 ≤ r then .next s
  else .next (s.writeForce src r 1 (fun s => (s.modRegPower r (fun w => { w with force := 1 })).askRaise r 4))

/-! ### Limits (R338, R339, R428) -/

/-- Address of AUTH_GO (Table 15-8). -/
def authGoAddr : Nat := 0x20068

/-- AUTH_GO: the owner starts the check; while RESULT reads BUSY the write is ignored (R339). -/
def execAuthGo (src val : Nat) (s : State) : Out :=
  .next (s.ownerWrites src authGoAddr val (fun s =>
    if bitAt val 63 ∧ s.power.authResult ≠ 3 then s.modPower (fun p => { p with authResult := 3 }) else s))

/-- May an OWNER_SRC entry take a value: none when it is out of range or in approved mode (R428)? -/
def ownerSrcOk (v : Nat) : Bool := !bitAt v 63 || !faReserved (v % 2 ^ 16)

/-- The limit register at an address takes a value in its range; none where it does not (R338, R343, R353, R374, R428). -/
def State.setLimit (s : State) (a v : Nat) : Option State :=
  if a = 0x20008 then (if 2000 ≤ v ∧ v ≤ 26000 then some (s.modPower (fun p => { p with limSustained := v })) else none)
  else if a = 0x20010 then (if s.power.limSustained ≤ v ∧ v ≤ 34000 then some (s.modPower (fun p => { p with limPeak := v })) else none)
  else if a = 0x24010 then (if 2 ≤ v ∧ v ≤ 20 then some (s.modThermal (fun t => { t with margin := v })) else none)
  else if a = 0x24018 then (if 30 ≤ v ∧ v ≤ 60 then some (s.modThermal (fun t => { t with flowNom := v })) else none)
  else if a = 0x28020 then some (s.modProf (fun p => { p with allow := v }))
  else if 0x10100 ≤ a ∧ a < 0x10140 ∧ a % 8 = 0 then
    (if s.keeper.approved || !ownerSrcOk v then none
     else some { s with ownerSrc := mset s.ownerSrc ((a - 0x10100) / 8) (bitAt v 63, v % 2 ^ 16) })
  else none

/-- AUTH_GO_RESULT: the Keeper checks the pair; the register takes the value, or RESULT shows why not (R339, R389, R428). -/
def execAuthGoResult (s : State) : Out :=
  let p := s.power
  if p.authResult ≠ 3 ∨ !s.keyReady 0 then .next s
  else
    let (s, ok) := s.checkPair 0 p.authCounter (natLE 8 p.authTagLo ++ natLE 8 p.authTagHi) (natLE 8 p.authAddr ++ natLE 8 p.authValue)
    let done (s : State) (res : Nat) : Out := .next (s.modPower (fun p => { p with authResult := res }))
    if !ok then done s 1
    else
      match s.setLimit p.authAddr p.authValue with
      | some t => done t 0
      | none => done s 2

end Sys2Proof.Machine
end

