-- ==== Sys2Proof/Machine/Registers.lean ====
section
/-! DEFINITION. What a management read answers: every register of Table 21-1, and who reads it (21 R424-R430, R436 and the register
tables of 07, 10, 12-20). A reader answers the 64 bits, or the code of R275. -/

namespace Sys2Proof.Machine

abbrev RegRead := Except Nat Nat

/-- Only the owner reads. -/
def ownerReads (q v : Nat) : RegRead := if q = 0 then .ok v else .error 2

/-- The owner, or the guest that holds a region that is not FREE. -/
def State.holds (s : State) (q r : Nat) : Bool := q == 0 || ((s.region r).state != 0 && (s.region r).guest == q)
def State.holderReads (s : State) (q r v : Nat) : RegRead := if s.holds q r then .ok v else .error 2

/-- Index of an address in a block of registers `step` apart, from `base` up. -/
def regIdx (a base step : Nat) : Nat := (a - base) / step

/-! ### Lintel module registers (21, 19, 14, 20) -/

/-- MODULE_STATUS (Table 21-4). -/
def State.moduleStatus (s : State) : Nat :=
  bit s.boot.ready * 2 ^ 63 + bit s.keeper.approved * 2 ^ 62 + bit (s.cmdKey 0).isSome * 2 ^ 61 + bit s.keeper.standby * 2 ^ 60 +
    bit s.alerted * 2 ^ 59 + s.keeper.st % 8 * 2 ^ 56 + s.thermal.coolantState % 4 * 2 ^ 54 +
    (s.regions.filter (fun q => q.2.state != 0)).length % 128 * 2 ^ 47 +
    (s.guests.filter (fun q => q.1 != 0 && q.2.gstate == 1)).length % 64 * 2 ^ 41 + s.fabricAddr % 65536

/-- Capacity (Table 21-4). -/
def State.capacityWord (s : State) : Nat :=
  let usable := ((List.range 738).filter (fun p => !s.wafer.disabled p)).length
  let core (c : Nat) : Nat := (s.panes.filter (fun q => decide (q.1 < 738) && q.2.pwr.cap == c)).length
  let failed := s.hbmCtl.foldl (fun a q => a + (q.2.chans.filter (fun t => t.2.state == 4)).length) 0
  let retired := (s.extents.filter (fun e => e.st == 3)).foldl (fun a e => a + e.len) 0
  usable * 2 ^ 54 + core 2 * 2 ^ 44 + core 1 * 2 ^ 34 + failed % 1024 * 2 ^ 24 + satTo (2 ^ 24 - 1) retired

/-- OWNER_SRC entry `i`. -/
def State.ownerSrcWord (s : State) (i : Nat) : Nat := let e := mget (false, 0xFFFF) s.ownerSrc i; bit e.1 * 2 ^ 63 + e.2 % 65536

/-- BOOT_STATUS, FW_STATUS, FW_SVN (Tables 19-8 to 19-10). -/
def State.bootStatus (s : State) : Nat :=
  s.boot.stage % 16 * 2 ^ 60 + bit s.boot.ready * 2 ^ 59 + bit s.keeper.standby * 2 ^ 58 + s.boot.cause % 16 * 2 ^ 54 +
    s.wafer.boots % 2 ^ 32 * 2 ^ 16 + s.boot.readyMs % 65536

def Boot.fwStatus (b : Boot) : Nat :=
  let x := b.slotAt (1 - b.active)
  let ok := x.state == 3 && (List.range 7).all (fun i => decide (lget 0 b.svn i ≤ lget 0 x.svns i))
  b.active % 2 * 2 ^ 63 + x.state % 4 * 2 ^ 61 + b.attempts % 4 * 2 ^ 59 + b.last % 4 * 2 ^ 57 + bit ok * 2 ^ 56 + (b.slotAt b.active).bversion % 2 ^ 32

def Boot.svnWord (b : Boot) : Nat := (List.range 7).foldl (fun a i => a + lget 0 b.svn i % 128 * 2 ^ (7 * (i + 1))) 0

/-- Offset +0 of a region block (Table 21-5); a FREE region reads zero (R429). -/
def Region.statusWord (x : Region) : Nat :=
  if x.state = 0 then 0
  else
    x.state % 8 * 2 ^ 61 + bit (x.loadPending != []) * 2 ^ 60 + bit x.holdSince.isSome * 2 ^ 59 + bit (x.shifts != []) * 2 ^ 58 +
      x.power.state % 8 * 2 ^ 55 + x.prof.profile % 4 * 2 ^ 53 + x.k % 32 * 2 ^ 48 + x.guest % 64 * 2 ^ 42 + x.panes.length % 1024 * 2 ^ 32 +
      (x.stepNext - 1) % 2 ^ 32

/-- WSPAN, W and the CURRENT window (Table 21-5). -/
def Region.windowWord (x : Region) : Nat :=
  x.wspan % 32 * 2 ^ 59 + x.windows.length % 32 * 2 ^ 54 +
    (match x.current with | some (k, w) => k % 16 * 2 ^ 50 + 2 ^ 49 + w.gen % 65536 * 2 ^ 32 | none => 0)

/-- The selected slot (Table 21-5). -/
def Region.slotWord (x : Region) (sel : Nat) : Nat :=
  if (match x.image with | some i => i.slots | none => 0) ≤ sel then 0
  else
    let y := x.slot sel
    y.state % 8 * 2 ^ 61 + y.length % 2 ^ 24 * 2 ^ 37 + y.genPin % 65536 * 2 ^ 21 + y.depth % 16 * 2 ^ 17

/-- The selected KV layer (Table 21-5). -/
def State.layerWord (s : State) (r sel : Nat) : Nat :=
  let l? : Option KvLayer := match (s.region r).image with | some i => i.kv.find? (fun (l : KvLayer) => l.layer == sel) | none => none
  match l? with
  | none => 0
  | some l =>
    let used := ((mvals s.cache.desc).filter (fun (d : Desc) => d.valid && !d.unbound && d.region == r && d.layer == sel && decide (2 ≤ d.tier))).length
    l.frames % 4096 * 2 ^ 52 + (l.frames - used) % 4096 * 2 ^ 40

/-- WINDOWS (Table 21-5). -/
def Region.windowsWord (x : Region) : Nat :=
  (List.range x.windows.length).foldl (fun a k => a + (lget {} x.windows k).state % 8 * 2 ^ (3 * k)) 0

/-- A register of region block `r`, at offset `o` (Table 21-5). -/
def State.regionReg (s : State) (q r o : Nat) : RegRead :=
  let x := s.region r
  if o % 8 ≠ 0 then .error 3
  else if x.state = 0 then ownerReads q 0
  else
    s.holderReads q r
      (match o / 8 with
       | 0 => x.statusWord
       | 1 => x.wdogMs % 1024 * 2 ^ 54
       | 2 | 3 | 4 | 5 => leAt ((x.image.map (·.measure)).getD []) (o - 16) 8
       | 6 => x.stepNext - 1
       | 7 => x.windowWord
       | 8 => s.selOf q (2 + r)
       | 9 => x.slotWord (s.selOf q (2 + r))
       | 10 => s.selOf q (66 + r)
       | 11 => s.layerWord r (s.selOf q (66 + r))
       | 12 => x.recno % 2 ^ 48
       | 13 => x.windowsWord
       | _ => 0)

/-- FT_DATA word `w` of a requester's copy (R436). -/
def State.ftData (s : State) (q w : Nat) : Nat :=
  match s.mgmt.ftCopy.find? (fun e => e.1 == q) with | some e => bits e.2.fr.word (64 * w + 63) (64 * w) | none => 0

/-- The repair map entry that RMAP_SEL selects (Table 21-6). -/
def State.rmapData (s : State) (sel : Nat) : Nat :=
  let m := if bitAt sel 63 then s.wafer.fused.filter (fun e => bits e 57 51 == bits sel 62 56) else s.wafer.field
  lget 0 m (bits sel 11 0)

/-- Region and guest totals (Table 20-8). -/
def Region.totalsWord (x : Region) (i : Nat) : Nat :=
  let t := x.totals
  match i with
  | 0 => t.steps.word
  | 1 => t.tokens.word
  | 2 => t.abandoned.word
  | 3 => t.holdNs.word
  | 4 => t.pauseBeats.word
  | 5 => t.widen.word
  | 6 => t.framed % 2 ^ 23 * 2 ^ 41 + t.home % 2 ^ 23 * 2 ^ 18
  | _ => t.absent % 2 ^ 23 * 2 ^ 41 + t.reclaim % 2 ^ 23 * 2 ^ 18

def State.guestTotals (s : State) (g i : Nat) : Nat :=
  match i with
  | 0 => ((mvals s.cache.desc).filter (fun d => d.valid && d.unbound && d.guest == g)).length
  | 1 => s.unitsOf g
  | _ => ((mvals s.cache.parks).filter (fun p => p.guest == g && (p.state == 1 || p.state == 2))).length

/-- Fabric registers (Table 14-12); the message intakes read as zero. -/
def State.fabricReg (s : State) (q a : Nat) : RegRead :=
  let f := s.fabric
  if a = 0x1A800 then ownerReads q (s.fabricAddr % 65536)
  else if a = 0x1A808 then ownerReads q (f.role % 4 * 2 ^ 62 + f.hostPort % 128 * 2 ^ 55 + f.partner % 65536 * 2 ^ 39)
  else if a = 0x1A810 then ownerReads q (f.epoch % 65536 * 2 ^ 16 + f.bridgeFa % 65536)
  else if a = 0x1A818 then ownerReads q (f.sinkFa % 65536 * 2 ^ 48 + f.sinkAddr % 2 ^ 48)
  else if a = 0x1A820 then ownerReads q (f.faultSeq % 2 ^ 48)
  else if a = 0x1A828 ∨ a = 0x1A900 ∨ a = 0x1A940 ∨ a = 0x1A980 ∨ a = 0x1A9C0 ∨ a = 0x1AA00 then ownerReads q 0
  else .error 1

/-- A barrier entry with its GEN (Table 14-10). -/
def Barrier.word (b : Barrier) : Nat := b.entry + b.gen % 2 ^ 32 * 2 ^ 129

/-- The Lintel module registers (Table 21-3). FT_META is read by FT_META_READ's meaning. -/
def State.lintelReg (s : State) (q a : Nat) : RegRead :=
  if a = 0x10000 then .ok (0x9424 * 2 ^ 32 + s.stepping % 4 * 2 ^ 30)
  else if a = 0x10008 then .ok s.moduleStatus
  else if a = 0x10010 then .ok (s.nowNs % 2 ^ 64)
  else if a = 0x10018 then ownerReads q s.capacityWord
  else if 0x10100 ≤ a ∧ a < 0x10140 then ownerReads q (s.ownerSrcWord (regIdx a 0x10100 8))
  else if a = 0x10200 then ownerReads q (s.mgmt.cause % 65536 * 2 ^ 48)
  else if a = 0x10208 then ownerReads q ((s.mgmt.alertEn % 4096 + 0xF000) * 2 ^ 48)
  else if a = 0x10400 then .ok s.bootStatus
  else if a = 0x10408 then ownerReads q 0
  else if a = 0x10410 then ownerReads q s.boot.fwStatus
  else if a = 0x10418 then ownerReads q s.boot.svnWord
  else if a = 0x10800 then ownerReads q (s.mgmt.eseq % 2 ^ 48 * 2 ^ 16 + s.mgmt.ft.length % 8192)
  else if a = 0x10808 then ownerReads q (satTo (2 ^ 32 - 1) s.lost * 2 ^ 32 + s.lostClass % 16)
  else if a = 0x10810 then .ok (s.selOf q 0)
  else if a = 0x10818 then (match s.ftEntry (s.selOf q 0) with
    | some e => if q = 0 ∨ e.fr.guest = q then .ok (ftMeta (some e)) else .error 2
    | none => ownerReads q 0)
  else if 0x10840 ≤ a ∧ a < 0x10880 then
    if q = 0 ∨ s.mgmt.ftCopy.any (fun e => e.1 == q) then .ok (s.ftData q (regIdx a 0x10840 8)) else .error 2
  else if a = 0x10C00 then ownerReads q (s.selOf q 1)
  else if a = 0x10C08 then ownerReads q (s.rmapData (s.selOf q 1))
  else if a = 0x10C10 then ownerReads q (bit s.wafer.tagOk * 2 ^ 63 + s.wafer.field.length % 8192)
  else if 0x12000 ≤ a ∧ a < 0x14000 then s.regionReg q (regIdx a 0x12000 128) ((a - 0x12000) % 128)
  else if 0x18000 ≤ a ∧ a < 0x1A000 then
    let w := (a - 0x18000) % 32 / 8
    ownerReads q (bits (s.mcEntry (regIdx a 0x18000 32)) (64 * w + 63) (64 * w))
  else if 0x1A000 ≤ a ∧ a < 0x1A800 then
    let w := (a - 0x1A000) % 32 / 8
    ownerReads q (bits (s.bar (regIdx a 0x1A000 32)).word (64 * w + 63) (64 * w))
  else if 0x1A800 ≤ a ∧ a ≤ 0x1AA00 then s.fabricReg q a
  else if 0x1B000 ≤ a ∧ a < 0x1C000 then ownerReads q (mget 0 s.fabric.groupLocal (regIdx a 0x1B000 8))
  else if 0x1C000 ≤ a ∧ a < 0x1C200 then ownerReads q (mget 0 s.fabric.memberLocal (regIdx a 0x1C000 8))
  else if 0x1D000 ≤ a ∧ a < 0x1E000 then s.holderReads q (regIdx a 0x1D000 64) ((s.region (regIdx a 0x1D000 64)).totalsWord ((a - 0x1D000) % 64 / 8))
  else if 0x1E000 ≤ a ∧ a < 0x1E800 ∧ (a - 0x1E000) % 32 < 24 then
    let g := regIdx a 0x1E000 32
    if q = 0 ∨ q = g then .ok (s.guestTotals g ((a - 0x1E000) % 32 / 8)) else .error 2
  else .error 1

/-! ### Power, thermal and profile registers (15, 16, 17) -/

/-- Voltage fields hold mV − 400; a rail that is off reads zero. -/
def mvField (v : Nat) : Nat := (v - 400) % 1024

def State.pwrStatus (s : State) : Nat :=
  s.power.vin % 4096 * 2 ^ 52 + satTo 65535 (s.power.pin / 10) * 2 ^ 36 + satTo 65535 (s.power.pwafer / 10) * 2 ^ 20 + bit s.power.inputLow * 2 ^ 19

/-- SEG_STATUS (Table 15-10). -/
def State.segWord (s : State) (k : Nat) : Nat :=
  let waiting := (s.regions.filter (fun q => q.2.power.req.isSome && decide (0 < panesInSeg q.2.wakePanes k))).length
  s.segRating k % 1024 * 2 ^ 54 + s.segMeasured k % 1024 * 2 ^ 44 + satTo 1023 (ceilDiv (s.segPending k) 10) * 2 ^ 34 +
    (segConverters k - (s.seg k).lost.length) % 16 * 2 ^ 30 + satTo 255 waiting * 2 ^ 22

/-- REGION_PWR (Table 15-11). -/
def State.regionPwrWord (s : State) (r : Nat) : Nat :=
  let x := s.region r
  let w := x.power
  let trans := if w.trans = 0 ∧ w.req.isSome then 3 else w.trans
  w.state % 8 * 2 ^ 61 + trans % 4 * 2 ^ 59 + w.pendRaise % 2 * 2 ^ 58 + w.force % 4 * 2 ^ 56 +
    bit (x.panes.any (fun p => (s.pane p).pwr.cap == 1)) * 2 ^ 55 + satTo (2 ^ 24 - 1) w.quiet * 2 ^ 31

/-- PANE_PWR (Table 15-12). -/
def State.panePwrWord (s : State) (p : Nat) : Nat :=
  let w := (s.pane p).pwr
  w.failed.foldl (fun a i => a + 2 ^ (i % 4)) 0 % 16 * 2 ^ 60 + w.cap % 4 * 2 ^ 58 + mvField (s.setpointOf p) * 2 ^ 48 + mvField w.vmin * 2 ^ 38 +
    w.joint % 65536 * 2 ^ 22 + w.boosts % 2048 * 2 ^ 11 + w.stretch % 2048

/-- TH_STATUS (Table 16-7). -/
def State.thStatus (s : State) : Nat :=
  let t := s.thermal
  signedBits 12 t.tHot * 2 ^ 52 + signedBits 12 t.inlet * 2 ^ 40 + signedBits 12 t.outlet * 2 ^ 28 + t.flow % 1024 * 2 ^ 18 + t.coolantState % 4 * 2 ^ 16 +
    bit (t.warned != []) * 2 ^ 15 + bit (s.regions.any (fun q => decide (0 < q.2.kTh))) * 2 ^ 14 + bit (t.emerg != []) * 2 ^ 13

/-- TH_CAP (Table 16-8). -/
def State.thCap (s : State) : Nat := satTo 65535 s.thermal.rth.floor.toNat * 2 ^ 48 + s.capUnits * 2 ^ 32 + bit s.thermal.frozen * 2 ^ 31

/-- REGION_TH (Table 16-9). -/
def Region.thWord (x : Region) : Nat :=
  signedBits 12 x.tRegion * 2 ^ 52 + x.k % 32 * 2 ^ 47 + x.kTh % 32 * 2 ^ 42 + x.kRate % 32 * 2 ^ 37 + x.kEnv % 32 * 2 ^ 32 + x.kPower % 32 * 2 ^ 27

/-- PANE_TH (Table 16-10). -/
def State.paneThWord (s : State) (p : Nat) : Nat :=
  let t := (s.pane p).therm
  signedBits 12 t.t0 * 2 ^ 52 + signedBits 12 (if p < 738 then t.t1 else t.t0) * 2 ^ 40 + signedBits 12 t.rate * 2 ^ 28 +
    (bit t.failed0 + 2 * bit t.failed1) * 2 ^ 26 + bit t.subst * 2 ^ 25

/-- The event record in a slot: record n lies in slot n mod 512 (R357). -/
def Thermal.slotRecord (t : Thermal) (slot : Nat) : Nat :=
  let first := t.logNext - t.log.length
  match (List.range t.log.length).find? (fun i => (first + i) % 512 == slot) with | some i => lget 0 t.log i | none => 0

/-- PROF_STATUS, WEAR, SHELF (Tables 17-5 to 17-7). -/
def State.profStatus (s : State) : Nat :=
  satTo 65535 s.limitSU.floor.toNat * 2 ^ 48 + satTo 65535 s.limitPK.floor.toNat * 2 ^ 32 + bit s.prof.grant * 2 ^ 31 +
    (s.regions.filter (fun q => q.2.state != 0 && q.2.prof.profile == 3)).length % 128 * 2 ^ 24

def Prof.wearWord (p : Prof) : Nat := satTo (2 ^ 22 - 1) (p.used / 2000) * 2 ^ 42 + p.reserve / 2000 % 64 * 2 ^ 36 + p.days % 2 ^ 32

def State.shelfWord (s : State) : Nat :=
  let left := if s.prof.grant then ceilDiv (s.prof.leaseEnd - s.time) (secs 1) else 0
  s.prof.shelfAddr % 128 * 2 ^ 57 + s.prof.granted % 65536 * 2 ^ 41 + satTo 255 left * 2 ^ 33 + s.grantW % 65536 * 2 ^ 17

/-- REGION_PROF (Table 17-8). -/
def State.regionProfWord (s : State) (r : Nat) : Nat :=
  let x := s.region r
  let left := match x.prof.sprintUntil with | some t => satTo 65535 (ceilDiv (t - s.time) (ms 1)) | none => 0
  let freq := match x.panes.map (fun p => (s.pane p).clk.mhz) with | [] => 0 | a :: l => l.foldl min a
  x.prof.profile % 4 * 2 ^ 62 + x.prof.target % 4 * 2 ^ 60 + bit (x.prof.stage != 0) * 2 ^ 59 + bit (x.prof.ending != 0) * 2 ^ 58 + left * 2 ^ 42 +
    freq % 4096 * 2 ^ 30

/-- The registers of Tables 15-8, 16-6 and 17-4. -/
def State.powerReg (s : State) (q a : Nat) : RegRead :=
  if a = 0x20000 then .ok s.pwrStatus
  else if a = 0x20008 then ownerReads q s.power.limSustained
  else if a = 0x20010 then ownerReads q s.power.limPeak
  else if a = 0x20018 then ownerReads q (s.power.idleShut % 2 ^ 32 * 2 ^ 32 + s.power.idleSeal % 2 ^ 32)
  else if 0x20040 ≤ a ∧ a < 0x20068 then ownerReads q 0
  else if a = 0x20068 then ownerReads q (s.power.authResult % 4)
  else if 0x20100 ≤ a ∧ a < 0x20148 then ownerReads q (s.segWord (regIdx a 0x20100 8))
  else if 0x20400 ≤ a ∧ a < 0x20600 then s.holderReads q (regIdx a 0x20400 8) (s.regionPwrWord (regIdx a 0x20400 8))
  else if 0x21000 ≤ a ∧ a < 0x21000 + 8 * 786 then ownerReads q (s.panePwrWord (regIdx a 0x21000 8))
  else if a = 0x24000 then .ok s.thStatus
  else if a = 0x24008 then .ok s.thCap
  else if a = 0x24010 then ownerReads q (s.thermal.margin % 32)
  else if a = 0x24018 then ownerReads q (s.thermal.flowNom % 64)
  else if 0x24100 ≤ a ∧ a < 0x24300 then s.holderReads q (regIdx a 0x24100 8) (s.region (regIdx a 0x24100 8)).thWord
  else if 0x24400 ≤ a ∧ a < 0x24400 + 8 * 786 then ownerReads q (s.paneThWord (regIdx a 0x24400 8))
  else if 0x26000 ≤ a ∧ a < 0x26000 + 8 * 94 then
    let f := regIdx a 0x26000 8
    ownerReads q (signedBits 12 (mget (0 : Int) s.thermal.diodes f) * 2 ^ 52 + bit (decide (6 ≤ f ∧ f < 88)) * 2 ^ 51)
  else if a = 0x27000 then ownerReads q (s.thermal.logNext % 2 ^ 32 * 2 ^ 32 + s.thermal.log.length % 1024)
  else if a = 0x27008 then ownerReads q (s.thermal.logSel % 512)
  else if 0x27040 ≤ a ∧ a < 0x27080 then
    let w := regIdx a 0x27040 8
    ownerReads q (bits (s.thermal.slotRecord (s.thermal.logSel % 512)) (64 * w + 63) (64 * w))
  else if a = 0x28000 then .ok s.profStatus
  else if a = 0x28008 then ownerReads q (satTo (2 ^ 32 - 1) s.prof.heat.floor.toNat * 2 ^ 32 + satTo (2 ^ 32 - 1) s.prof.heatMax.floor.toNat)
  else if a = 0x28010 then ownerReads q s.prof.wearWord
  else if a = 0x28018 then ownerReads q s.shelfWord
  else if a = 0x28020 then ownerReads q (s.prof.allow % 2 ^ 64)
  else if 0x28100 ≤ a ∧ a < 0x28300 then s.holderReads q (regIdx a 0x28100 8) (s.regionProfWord (regIdx a 0x28100 8))
  else if 0x29000 ≤ a ∧ a < 0x29000 + 8 * 786 then ownerReads q ((s.pane (regIdx a 0x29000 8)).pwr.shunts % 2 ^ 32)
  else .error 1

/-! ### The Keeper's mailboxes (18) -/

/-- KEEPER_STATUS (Table 18-8). -/
def State.keeperStatus (s : State) : Nat :=
  let k := s.keeper
  k.st % 8 * 2 ^ 61 + bit k.approved * 2 ^ 60 + bit (s.cmdKey 0).isSome * 2 ^ 59 + bit k.standby * 2 ^ 58 + k.tap % 4 * 2 ^ 56 + bit k.tamper * 2 ^ 55 +
    bit k.entropyOk * 2 ^ 54 + k.enrolled.length % 128 * 2 ^ 47 + k.stFail % 256 * 2 ^ 32 +
    (if k.tap = 0 then 0 else satTo (2 ^ 17 - 1) (ceilDiv (k.tapUntil - s.time) (secs 1)))

/-- A register of mailbox window `g`, at offset `o` (Table 18-6). -/
def State.mailReg (s : State) (q g o : Nat) : RegRead :=
  let m := s.mailbox g
  if q ≠ g then .error 2
  else if o = 0 then .ok (m.state % 4 * 2 ^ 62 + m.result % 65536 * 2 ^ 32 + m.respLen % 32768)
  else if o = 8 then .ok 0
  else if o = 0x10 then .ok (match s.cmdKey g with | some k => k.lac | none => 0)
  else if o = 0x18 then .ok (match s.cmdKey g with | some k => k.persisted | none => 0)
  else if o = 0x20 then .ok s.keeperStatus
  else if 0x1000 ≤ o ∧ o < 0x9000 then .ok 0
  else if 0x9000 ≤ o ∧ o < 0x10000 then .ok (leAt m.resp (o - 0x9000) 8)
  else .error 1

/-! ### Ports, controllers, Campion, queues (13, 14, 12, 10, 07, 20) -/

/-- A bandwidth block's register, at its offset from BW_CTL (Table 20-7); `keys` are the keys of direction and channel that LAST registers
show, in order. -/
def BwBlock.reg (b : BwBlock) (port : Bool) (i : Nat) : RegRead :=
  let dirSum (m : SMap Nat) (d : Nat) : Nat := (m.filter (fun q => q.1 / 8 == d)).foldl (fun a q => a + q.2) 0
  let lasts := if port then (List.range 8).map (fun k => mget 0 b.last (8 * (k / 4) + k % 4)) else [dirSum b.last 0, dirSum b.last 1]
  let all := [b.ctl] ++ lasts ++ [mget 0 b.peak 0, mget 0 b.peak 1, (mget {} b.total 0).word, (mget {} b.total 1).word, b.filtLast, b.filtTotal.word,
    b.range, b.windows]
  match all[i]? with | some v => .ok (v % 2 ^ 64) | none => .error 1

/-- A register of port window `p`, at offset `o` (Tables 13-10 to 13-15, 14-4, 14-5). -/
def State.portReg (s : State) (p o : Nat) : RegRead :=
  let x := s.port p
  if o = 0 then .ok (x.state % 8 * 2 ^ 61 + x.width % 4 * 2 ^ 59 + x.lanes % 256 * 2 ^ 51 + bit x.cleartext * 2 ^ 50 + bit x.tx.replaying * 2 ^ 49 +
    x.peerFa % 65536 * 2 ^ 32 + x.retrains % 65536)
  else if o = 8 then .ok (bit x.enable * 2 ^ 63 + bit x.clear * 2 ^ 60 + x.laneOff % 256 * 2 ^ 51)
  else if o = 0x10 then
    let cred (vc : Nat) : Nat := if x.state = 4 ∨ x.state = 5 then x.credits vc else 0
    .ok (x.weightA % 16 * 2 ^ 60 + x.weightW % 16 * 2 ^ 56 + cred 0 * 2 ^ 38 + cred 1 * 2 ^ 28 + cred 2 * 2 ^ 18 +
    cred 3 * 2 ^ 8)
  else if o = 0x18 then .ok (x.keyState % 4 * 2 ^ 62 + bit (x.stagedTx.isSome || x.stagedRx.isSome) * 2 ^ 61 + x.epoch % 65536 * 2 ^ 32 + x.tx.runNo % 2 ^ 32)
  else if 0x100 ≤ o ∧ o < 0x178 then
    let k := regIdx o 0x100 8
    .ok (mget {} x.counters k).word
  else if 0x200 ≤ o ∧ o < 0x240 then
    let l := regIdx o 0x200 8
    let y := mget {} x.lane l
    .ok (bit y.lock * 2 ^ 63 + bit (bitAt x.lanes l) * 2 ^ 62 + bit y.polInv * 2 ^ 61 + y.snr % 256 * 2 ^ 48 + y.corr % 2 ^ 48)
  else if 0x300 ≤ o ∧ o < 0x340 then .ok (leAt x.nbr.rec_ (o - 0x300) 8)
  else if o = 0x340 then .ok (x.nbr.state % 8 * 2 ^ 61)
  else if 0x1000 ≤ o ∧ o ≤ 0x10F8 then x.bw.reg true (regIdx o 0x1000 8)
  else if 0x2000 ≤ o ∧ o < 0x3000 then .ok (mget 0 s.fabric.groupTab (512 * p + regIdx o 0x2000 8))
  else if 0x3000 ≤ o ∧ o < 0x3200 then .ok (mget 0 s.fabric.memberTab (64 * p + regIdx o 0x3000 8))
  else .error 1

/-- A channel's or a bank's state word (Table 12-7). -/
def HbmTarget.word (t : HbmTarget) (state writes : Nat) : Nat :=
  state % 8 * 2 ^ 61 + t.pend % 4 * 2 ^ 59 + writes % 65536 * 2 ^ 32 + satTo (2 ^ 32 - 1) t.ce

/-- A register of controller window `n`, at offset `o` (Tables 12-4 to 12-8). -/
def State.hbmReg (s : State) (n o : Nat) : RegRead :=
  let h := s.hctl n
  if o = 0 then .ok (n * 2 ^ 59 + bit h.trained * 2 ^ 58 + bit h.refresh2x * 2 ^ 57 + h.result % 8 * 2 ^ 54 + h.temp % 256 * 2 ^ 32 + h.ueCount % 2 ^ 32)
  else if o = 8 then .ok 0
  else if o = 0x10 then .ok (bit h.logValid * 2 ^ 63 + bit h.logLost * 2 ^ 62 + h.logAddr % 2 ^ 41)
  else if 0x100 ≤ o ∧ o < 0x200 then
    let c := regIdx o 0x100 8
    .ok ((h.chan c).word (h.chan c).state (h.writes n c none))
  else if 0x1000 ≤ o ∧ o < 0x5000 then
    let i := regIdx o 0x1000 8
    .ok ((h.bank (i / 64) (i % 64)).word (h.bankState (i / 64) (i % 64)) (h.writes n (i / 64) (some (i % 64))))
  else if 0x6000 ≤ o ∧ o ≤ 0x60F8 then h.bw.reg false (regIdx o 0x6000 8)
  else .error 1

/-- The status word of a mask source (Table 10-6). -/
def State.sourceWord (s : State) (n : Nat) : Nat :=
  let x := s.source n
  if x.state = 0 then 0 else x.state % 4 * 2 ^ 62 + x.guest % 64 * 2 ^ 56 + s.maskRefs n % 2 ^ 20 * 2 ^ 36 + x.err % 16 * 2 ^ 32

/-- A register of Campion unit `u`, at offset `o` (Table 10-7); shared registers lie in unit 0. -/
def State.campionReg (s : State) (q u o : Nat) : RegRead :=
  if 0x100 ≤ o ∧ o ≤ 0x130 then ownerReads q (mget {} s.campion.counters (16 * u + regIdx o 0x100 8)).word
  else if u ≠ 0 then (if q = 0 then .error 1 else .error 2)
  else if 0x1000 ≤ o ∧ o < 0x1400 then
    let r := regIdx o 0x1000 16
    s.holderReads q r (if o % 16 = 0 then (s.region r).rcfg else (s.region r).dpair)
  else if 0x2000 ≤ o ∧ o < 0x2400 then
    let g := regIdx o 0x2000 16
    if q = 0 ∨ q = g then .ok (if o % 16 = 0 then (s.guest g).autSrc else (s.guest g).autCmd) else .error 2
  else if 0x3000 ≤ o ∧ o < 0x4800 then
    let n := regIdx o 0x3000 8
    if q = 0 ∨ (s.source n).state = 0 ∨ (s.source n).guest = q then .ok (s.sourceWord n) else .error 2
  else if 0x80000 ≤ o ∧ o < 0x100000 then
    let g := (o - 0x80000) / 8192
    let i := o % 8192 / 32
    let w := o % 32 / 8
    if q = 0 ∨ q = g then .ok (bits (samplingRead (mget 0 (s.guest g).sampling i)) (64 * w + 63) (64 * w)) else .error 2
  else if q = 0 then .error 1 else .error 2

/-- Queue status registers of guest `g` and engine `e` (Table 7-14). -/
def State.queueReg (s : State) (q g e o : Nat) : RegRead :=
  let x := s.queue g e
  if o = 0x3FF000 ∨ o = 0x3FF008 ∨ o = 0x3FF010 then
    if q ≠ 0 ∧ q ≠ g then .error 2
    else if o = 0x3FF000 then .ok ((s.guest g).gstate % 4 * 2 ^ 62 + x.dropped % 65536 * 2 ^ 32 + x.refused % 65536 * 2 ^ 16 + x.depth % 512)
    else if o = 0x3FF008 then .ok (x.doneSeq % 2 ^ 48)
    else .ok (x.nextSeq % 2 ^ 48)
  else .error 1

/-! ### Quick words (Table 21-7) -/

/-- The present content of quick word `w`. -/
def State.quickWord (s : State) (w : Nat) : Nat :=
  if w < 256 then let x := s.queue (w / 4) (w % 4); x.depth % 512 * 2 ^ 48 + x.doneSeq % 2 ^ 48
  else if w = 256 then s.moduleStatus
  else if w = 257 then s.nowNs % 2 ^ 64
  else if w = 258 then s.thStatus
  else if w = 259 then s.pwrStatus
  else if w = 260 then s.mgmt.eseq % 2 ^ 32 * 2 ^ 32 + s.mgmt.ft.length % 8192 * 2 ^ 16 + satTo 65535 s.lost
  else if w < 264 then 0
  else if w < 328 then (s.region (w - 264)).statusWord
  else if w < 392 then (if (s.region (w - 328)).state = 0 then 0 else (s.region (w - 328)).recno % 2 ^ 48)
  else if w < 398 then
    (List.range 16).foldl (fun a i => let x := s.port (16 * (w - 392) + i); a + (x.state % 8 + 8 * bit (x.nbr.state == 3)) * 2 ^ (4 * i)) 0
  else if w < 422 then
    let h := s.hctl (w - 398)
    h.temp % 256 * 2 ^ 56 + bit h.refresh2x * 2 ^ 55 + (h.chans.filter (fun t => t.2.state == 4)).length % 64 * 2 ^ 48 + h.ueCount % 2 ^ 32
  else 0

/-! ### The map (Table 21-1) -/

/-- A register as a bound requester reads it. Cell memory and FT_META have their own meanings. -/
def State.mapRead (s : State) (src q a : Nat) : RegRead :=
  if a < 0x1000 then
    let w := a / 8
    if (261 ≤ w ∧ w < 264) ∨ 422 ≤ w then .error 1 else if s.mayReadQuick src w then .ok (s.quickWord w) else .error 2
  else if 0x10000 ≤ a ∧ a < 0x20000 then s.lintelReg q a
  else if 0x20000 ≤ a ∧ a < 0x30000 then s.powerReg q a
  else if 0x1000000 ≤ a ∧ a < 0x1400000 then s.mailReg q ((a - 0x1000000) / 65536) (a % 65536)
  else if 0x10000000 ≤ a ∧ a < 0x10600000 then (if q = 0 then s.portReg ((a - 0x10000000) / 65536) (a % 65536) else .error 2)
  else if 0x20000000 ≤ a ∧ a < 0x20180000 then (if q = 0 then s.hbmReg ((a - 0x20000000) / 65536) (a % 65536) else .error 2)
  else if 0x30000000 ≤ a ∧ a < 0x30C00000 then s.campionReg q ((a - 0x30000000) / 2 ^ 20) (a % 2 ^ 20)
  else if 0x100000000 ≤ a ∧ a < 0x140000000 then s.queueReg q ((a - 0x100000000) / 2 ^ 24) (a / 2 ^ 22 % 4) (a % 2 ^ 22)
  else if 0x1000000000 ≤ a ∧ a < 0x1060000000 then
    let c := a / 2 ^ 22 % 1024 * 528 + a / 2 ^ 12 % 1024
    if 528 ≤ a / 2 ^ 12 % 1024 ∨ !cellExists c then .error 1
    else
      match s.cellRead c (a % 4096) (q != 0) with
      | none => .error 1
      | some v => if s.windowAllowed c q then .ok v else .error 2
  else .error 1

/-- May an address be accessed before READY (R404)? -/
def earlyAddr (a : Nat) : Bool := a == 0x10400 || a == 0x10410 || (decide (0x1000000 ≤ a) && decide (a < 0x1010000))

/-- Requester of an access of an address; none before READY where the address is not served then (R404, R425). -/
def State.requesterAt (s : State) (src a : Nat) : Option Requester := if s.boot.ready || earlyAddr a then s.requester src else none

/-- One register as a source reads it (R404, R424, R425). -/
def State.readReg (s : State) (src a : Nat) : RegRead :=
  if !s.boot.ready && !earlyAddr a then .error 2
  else if a % 8 ≠ 0 then .error 3
  else
    match s.requester src with
    | none => if a = 0x800 then .ok s.moduleStatus else .error 5
    | some q => s.mapRead src q a

end Sys2Proof.Machine
end

