-- ==== Sys2Proof/Machine/RegWrites.lean ====
section
/-! DEFINITION. Management writes over the whole map of Table 21-1: registers with a command of their own, and every other register with
its access codes, permissions and ranges (00 R12-R15, 13 R275, R289, 21 R424-R429 and the register tables). -/

namespace Sys2Proof.Machine

/-- What a write answers: the state after it, or the code of R275. -/
abbrev RegWrite := Except Nat State

/-- The state a command's meaning answers. -/
def landed (s : State) : Out → State
  | .next t => t
  | _ => s

/-- Only the owner writes. -/
def ownerSets (q : Nat) (t : State) : RegWrite := if q = 0 then .ok t else .error 2

/-- A write of read-only bits is ignored; a guest's is ignored only in the windows it reaches, and not permitted elsewhere (Table 0-4,
R358, R376, R414, R427). -/
def State.readOnly (s : State) (src q a : Nat) : RegWrite :=
  match s.mapRead src q a with
  | .error c => .error c
  | .ok _ => if q = 0 ∨ a < 0x1000 ∨ 0x1000000 ≤ a then .ok s else .error 2

/-! ### Lintel module registers -/

/-- ALERT_EN: bits 59:48 are stored; ALERT_N may change (R437, R438). -/
def State.setAlertEn (s : State) (v : Nat) : State :=
  let t := s.modMgmt (fun m => { m with alertEn := bits v 59 48 + 0xF000 })
  if t.alerted != s.alerted && t.mgmt.ibi.isNone then t.modMgmt (fun m => { m with ibi := some t.alertByte }) else t

/-- Put a selector of a requester (R426). -/
def State.setSel (s : State) (q k v : Nat) : State := s.modMgmt (fun m => { m with sel := mset m.sel (256 * q + k) v })

/-- Put word `w` of a 256-bit entry. -/
def setWord (e w v : Nat) : Nat := e - bits e (64 * w + 63) (64 * w) * 2 ^ (64 * w) + v % 2 ^ 64 * 2 ^ (64 * w)

/-- Is a port field a port, or 0x7F? -/
def portOr7F (v : Nat) : Bool := decide (v < 96) || v == 0x7F

/-- Word `w` of a multicast entry (Table 14-7). -/
def State.writeMc (s : State) (m w v : Nat) : RegWrite :=
  let v' := if w = 1 then v % 2 ^ 32 else if w = 2 then bits v 63 53 * 2 ^ 53 else v
  if w = 3 ∧ !portOr7F (bits v 61 55) then .error 6
  else .ok (s.modFabric (fun f => { f with mcTab := mset f.mcTab m (setWord (s.mcEntry m) w v') }))

/-- Word `w` of a barrier entry; GEN is kept (Table 14-10). -/
def State.writeBar (s : State) (t w v : Nat) : RegWrite :=
  let v' := if w = 1 then v % 2 ^ 32 else if w = 2 then bits v 63 33 * 2 ^ 33 else v
  if w = 3 ∧ !portOr7F (bits v 61 55) then .error 6 else .ok (s.setBar t { s.bar t with entry := setWord (s.bar t).entry w v' })

/-- A route entry as it is stored; none when OUT or ALT is no port (Table 14-5). -/
def routeWord (v : Nat) : Option Nat := if bits v 61 55 < 96 ∧ bits v 54 48 < 96 then some (bits v 63 48 * 2 ^ 48) else none

/-- BRIDGE_FA (Table 14-12): a change sends knocks (R294). -/
def State.setBridgeFa (s : State) (v : Nat) : State :=
  let t := s.modFabric (fun f => { f with bridgeFa := v % 65536 })
  if v % 65536 = s.fabric.bridgeFa then t else t.knockAll

/-- WRAP of a total of a region (Table 20-8). -/
def RegTotals.clearWrap (t : RegTotals) (i v : Nat) : RegTotals :=
  match i with
  | 0 => { t with steps := t.steps.clearWrap v }
  | 1 => { t with tokens := t.tokens.clearWrap v }
  | 2 => { t with abandoned := t.abandoned.clearWrap v }
  | 3 => { t with holdNs := t.holdNs.clearWrap v }
  | 4 => { t with pauseBeats := t.pauseBeats.clearWrap v }
  | 5 => { t with widen := t.widen.clearWrap v }
  | _ => t

/-- A write of a region block (Table 21-5). -/
def State.writeBlock (s : State) (src q a v : Nat) : RegWrite :=
  let r := regIdx a 0x12000 128
  let o := (a - 0x12000) % 128
  if o = 8 then
    if q ≠ 0 then .error 2
    else if bits v 63 54 = 0 ∨ 1000 < bits v 63 54 then .error 6
    else .ok (s.modRegion r (fun x => { x with wdogMs := bits v 63 54 }))
  else if o = 64 then (if s.holds q r then .ok (s.setSel q (2 + r) (v % 2 ^ 14)) else .error 2)
  else if o = 80 then (if s.holds q r then .ok (s.setSel q (66 + r) (v % 256)) else .error 2)
  else s.readOnly src q a

def State.writeLintel (s : State) (src q a v : Nat) : RegWrite :=
  if a = 0x10208 then ownerSets q (s.setAlertEn v)
  else if a = 0x10810 then .ok (s.setSel q 0 (v % 4096))
  else if a = 0x10C00 then
    if q ≠ 0 then .error 2 else if 93 < bits v 62 56 then .error 6 else .ok (s.setSel q 1 (bits v 63 56 * 2 ^ 56 + bits v 11 0))
  else if 0x12000 ≤ a ∧ a < 0x14000 then s.writeBlock src q a v
  else if 0x18000 ≤ a ∧ a < 0x1A000 then (if q = 0 then s.writeMc (regIdx a 0x18000 32) ((a - 0x18000) % 32 / 8) v else .error 2)
  else if 0x1A000 ≤ a ∧ a < 0x1A800 then (if q = 0 then s.writeBar (regIdx a 0x1A000 32) ((a - 0x1A000) % 32 / 8) v else .error 2)
  else if a = 0x1A810 then ownerSets q (s.setBridgeFa v)
  else if a = 0x1A818 then
    if q ≠ 0 then .error 2
    else if v % 128 ≠ 0 then .error 6
    else .ok (s.modFabric (fun f => { f with sinkFa := bits v 63 48, sinkAddr := bits v 47 0 }))
  else if a = 0x1A900 ∨ a = 0x1A940 ∨ a = 0x1A980 ∨ a = 0x1A9C0 ∨ a = 0x1AA00 then .error 2
  else if 0x1B000 ≤ a ∧ a < 0x1C200 then
    if q ≠ 0 then .error 2
    else
      match routeWord v with
      | none => .error 6
      | some e =>
        .ok (s.modFabric (fun f =>
          if a < 0x1C000 then { f with groupLocal := mset f.groupLocal (regIdx a 0x1B000 8) e }
          else { f with memberLocal := mset f.memberLocal (regIdx a 0x1C000 8) e }))
  else if 0x1D000 ≤ a ∧ a < 0x1E000 then
    ownerSets q (s.modRegion (regIdx a 0x1D000 64) (fun x => { x with totals := x.totals.clearWrap ((a - 0x1D000) % 64 / 8) v }))
  else s.readOnly src q a

/-! ### Power, thermal and profile registers -/

def State.writePower (s : State) (src q a v : Nat) : RegWrite :=
  if a = 0x20018 then ownerSets q (s.modPower (fun p => { p with idleShut := bits v 63 32, idleSeal := bits v 31 0 }))
  else if a = 0x20040 then ownerSets q (s.modPower (fun p => { p with authAddr := v }))
  else if a = 0x20048 then ownerSets q (s.modPower (fun p => { p with authValue := v }))
  else if a = 0x20050 then ownerSets q (s.modPower (fun p => { p with authCounter := v }))
  else if a = 0x20058 then ownerSets q (s.modPower (fun p => { p with authTagLo := v }))
  else if a = 0x20060 then ownerSets q (s.modPower (fun p => { p with authTagHi := v }))
  else if 0x20400 ≤ a ∧ a < 0x20600 then (if s.holds q (regIdx a 0x20400 8) then .error 6 else .error 2)
  else if a = 0x27008 then ownerSets q (s.modThermal (fun t => { t with logSel := v % 512 }))
  else if a = 0x28018 then ownerSets q (s.modProf (fun p => { p with shelfAddr := bits v 63 57 }))
  else s.readOnly src q a

/-! ### The mailboxes -/

/-- MB_GO: the request waits for the Keeper, in order; while STATE is BUSY it is ignored (R387). -/
def State.mailGo (s : State) (g : Nat) : State :=
  if (s.mailbox g).state = 1 then s
  else s.modKeeper (fun k => { k with queue := k.queue ++ [g], mail := mset k.mail g { mget {} k.mail g with state := 1 } })

def State.writeMail (s : State) (src q a v : Nat) : RegWrite :=
  let g := (a - 0x1000000) / 65536
  let o := a % 65536
  if q ≠ g then .error 2
  else if o = 8 then .ok (if bitAt v 63 then s.mailGo g else s)
  else if 0x1000 ≤ o ∧ o < 0x9000 then
    if (s.mailbox g).state = 1 then .error 2
    else
      let m := s.mailbox g
      .ok (s.modKeeper (fun k => { k with mail := mset k.mail g { m with req := m.req.write (o - 0x1000) (natLE 8 v) } }))
  else s.readOnly src q a

/-! ### Ports, controllers, Campion -/

/-- A write of a bandwidth block: WRAP of the totals, and FILT_RANGE (Table 20-7). -/
def BwBlock.write (b : BwBlock) (port : Bool) (i v : Nat) : BwBlock :=
  let t := if port then 11 else 5
  if i = t ∨ i = t + 1 then { b with total := mset b.total (i - t) ((mget {} b.total (i - t)).clearWrap v) }
  else if i = t + 3 then { b with filtTotal := b.filtTotal.clearWrap v }
  else if i = t + 4 then { b with range := if port then bits v 31 0 else bits v 57 0 }
  else b

def State.writePort (s : State) (src q a v : Nat) : RegWrite :=
  let p := (a - 0x10000000) / 65536
  let o := a % 65536
  if q ≠ 0 then .error 2
  else if o = 0x10 then .ok (s.modPort p (fun x => { x with weightA := max 1 (bits v 63 60), weightW := max 1 (bits v 59 56) }))
  else if 0x100 ≤ o ∧ o < 0x178 then
    let k := regIdx o 0x100 8
    .ok (s.modPort p (fun x => { x with counters := mset x.counters k ((mget {} x.counters k).clearWrap v) }))
  else if 0x1008 ≤ o ∧ o ≤ 0x1080 then .ok (s.modPort p (fun x => { x with bw := x.bw.write true (regIdx o 0x1000 8) v }))
  else if 0x2000 ≤ o ∧ o < 0x3200 then
    match routeWord v with
    | none => .error 6
    | some e =>
      if o < 0x3000 then .ok (s.modFabric (fun f => { f with groupTab := mset f.groupTab (512 * p + regIdx o 0x2000 8) e }))
      else .ok (s.modFabric (fun f => { f with memberTab := mset f.memberTab (64 * p + regIdx o 0x3000 8) e }))
  else s.readOnly src q a

def State.writeHbm (s : State) (src q a v : Nat) : RegWrite :=
  let n := (a - 0x20000000) / 65536
  let o := a % 65536
  if q ≠ 0 then .error 2
  else if o = 0x10 then .ok (s.modHctl n (fun h => { h with logValid := h.logValid && !bitAt v 63 }))
  else if 0x6008 ≤ o ∧ o ≤ 0x6050 then .ok (s.modHctl n (fun h => { h with bw := h.bw.write false (regIdx o 0x6000 8) v }))
  else s.readOnly src q a

/-- Is an RCFG value in the ranges of Table 10-7? -/
def rcfgOk (v : Nat) : Bool :=
  decide (1 ≤ bits v 63 55 ∧ bits v 63 55 ≤ 256) && decide (1 ≤ bits v 54 44 ∧ bits v 54 44 ≤ 1024) &&
    decide (1 ≤ bits v 43 34 ∧ bits v 63 55 * (256 * bits v 43 34) ≤ 262144) && decide (bits v 25 7 ≤ 262144)

def State.writeCampion (s : State) (src q a v : Nat) : RegWrite :=
  let u := (a - 0x30000000) / 2 ^ 20
  let o := a % 2 ^ 20
  if 0x100 ≤ o ∧ o ≤ 0x130 then
    let k := 16 * u + regIdx o 0x100 8
    ownerSets q (s.modCampion (fun c => { c with counters := mset c.counters k ((mget {} c.counters k).clearWrap v) }))
  else if u ≠ 0 then (if q = 0 then .error 1 else .error 2)
  else if 0x1000 ≤ o ∧ o < 0x1400 then
    let r := regIdx o 0x1000 16
    if !s.holds q r then .error 2
    else if o % 16 = 8 then .ok (s.modRegion r (fun x => { x with dpair := bits v 63 40 * 2 ^ 40 }))
    else if rcfgOk v then .ok (s.modRegion r (fun x => { x with rcfg := bits v 63 7 * 2 ^ 7 }))
    else .error 6
  else if 0x2000 ≤ o ∧ o < 0x2400 then
    let g := regIdx o 0x2000 16
    if q ≠ 0 ∧ q ≠ g then .error 2
    else if o % 16 = 8 then .error 6
    else .ok (s.modGuest g (fun x => { x with autSrc := v }))
  else if 0x80000 ≤ o then
    let g := (o - 0x80000) / 8192
    if q ≠ 0 ∧ q ≠ g then .error 2 else .ok (s.modGuest g (fun x => { x with staged := mset x.staged (4 * (o % 8192 / 32) + o % 32 / 8) v }))
  else s.readOnly src q a

/-! ### The map -/

/-- A write by a bound requester of a register without a command of its own. -/
def State.plainWrite (s : State) (src q a v : Nat) : RegWrite :=
  if 0x10000 ≤ a ∧ a < 0x20000 then s.writeLintel src q a v
  else if 0x20000 ≤ a ∧ a < 0x30000 then s.writePower src q a v
  else if 0x1000000 ≤ a ∧ a < 0x1400000 then s.writeMail src q a v
  else if 0x10000000 ≤ a ∧ a < 0x10600000 then s.writePort src q a v
  else if 0x20000000 ≤ a ∧ a < 0x20180000 then s.writeHbm src q a v
  else if 0x30000000 ≤ a ∧ a < 0x30C00000 then s.writeCampion src q a v
  else s.readOnly src q a

/-- The cell an address's window belongs to. -/
def windowCell (a : Nat) : Option Nat :=
  let c := a / 2 ^ 22 % 1024 * 528 + a / 2 ^ 12 % 1024
  if 0x1000000000 ≤ a ∧ a < 0x1060000000 ∧ a / 2 ^ 12 % 1024 < 528 ∧ cellExists c then some c else none

/-- A write of a register whose writes are commands of their own; none for any other. -/
def State.ownWrite (s : State) (src a v : Nat) : Option State :=
  let p := (a - 0x10000000) / 65536
  let n := (a - 0x20000000) / 65536
  let o := a % 65536
  if a = 0x10200 then some (landed s (execAlertCauseClear src v s))
  else if a = 0x10408 then some (landed s (execModuleReset src v s))
  else if a = 0x1A800 then some (landed s (execFabricAddrWrite src v s))
  else if a = 0x1A808 then some (landed s (execBridgeWrite src v s))
  else if a = 0x1A828 then some (landed s (execBarArrive src v s))
  else if a = authGoAddr then some (landed s (execAuthGo src v s))
  else if 0x20400 ≤ a ∧ a < 0x20600 then
    let r := regIdx a 0x20400 8
    match bits v 57 56 with
    | 0 => some (landed s (execForceAuto src r s))
    | 1 => some (landed s (execForceOpen src r s))
    | 2 => some (landed s (execForceBoarded src r s))
    | _ => none
  else if 0x10000000 ≤ a ∧ a < 0x10600000 then
    if o = 8 then some (s.portControl src p v) else if o = 0x1000 then some (landed s (execBwCtlWrite src true p v s)) else none
  else if 0x20000000 ≤ a ∧ a < 0x20180000 then
    if o = 8 ∧ bits v 63 62 = 1 then some (landed s (execClose src n v s))
    else if o = 8 ∧ bits v 63 62 = 2 then some (landed s (execHbmOpen src n v s))
    else if o = 0x6000 then some (landed s (execBwCtlWrite src false n v s))
    else none
  else if 0x30002000 ≤ a ∧ a < 0x30002400 then
    let g := regIdx a 0x30002000 16
    if a % 16 = 8 ∧ bits v 63 62 = 1 then some (landed s (execMaskSourceLoad src g v s))
    else if a % 16 = 8 ∧ bits v 63 62 = 2 then some (landed s (execMaskSourceFree src g v s))
    else none
  else if 0x30080000 ≤ a ∧ a < 0x30100000 ∧ a % 32 = 0 then
    some (landed s (execSamplingEntryCommit src ((a - 0x30080000) / 8192) (a % 8192 / 32) (BitVec.ofNat 64 v) s))
  else if 0x100000000 ≤ a ∧ a < 0x140000000 ∧ a % 2 ^ 22 = 0 then
    some (landed s (execCommandListIntake { kind := 0, vc := 1, dest := s.fabricAddr, src := src, addr := a, payload := natLE 8 v }
      (s.traced a true v)))
  else
    match windowCell a with
    | none => none
    | some c =>
      some (s.windowWrite src c (a % 4096) v)

/-- One management write of 64 bits by a source (R404, R424, R425). -/
def State.writeReg (s : State) (src a v : Nat) : State :=
  if s.boot.off then s
  else if !s.boot.ready && !earlyAddr a then (s.traced a true v).rejectAccess src a 0 false 2
  else if a % 8 ≠ 0 then (s.traced a true v).rejectAccess src a 0 false 3
  else
    match s.requester src with
    | none => ((s.traced a true v).security 5 src).rejectAccess src a 0 false 5
    | some q =>
      match s.ownWrite src a v with
      | some t => t
      | none =>
        match (s.traced a true v).plainWrite src q a v with
        | .ok t => t
        | .error c => (s.traced a true v).rejectAccess src a 0 false c

/-- REGISTER_WRITE: a write of `len` octets at a management address; only whole 64-bit words are written (R12-R15, R424). -/
def execRegisterWrite (src addr len val : Nat) (s : State) : Out :=
  if len = 8 then .next (s.writeReg src addr (val % 2 ^ 64))
  else if s.boot.off then .next s
  else .next ((s.traced addr true val).rejectAccess src addr 0 false (if !s.boot.ready && !earlyAddr addr then 2 else 3))

end Sys2Proof.Machine
end

