-- ==== Sys2Proof/Machine/RouteOps.lean ====
section
/-! DEFINITION. Routing of messages, directed messages, messages that end at this module, the counters' controls and the sills' quick
words (13 R274, R287, 14 R292, R293, R297-R299, 20 R415). -/

namespace Sys2Proof.Machine

/-! ### Counters and quick words -/

/-- PMC_FREEZE: FREEZE stops PMC_COUNT 0-7 and STALE, or lets them count (Table 20-2). -/
def execPmcFreeze (src c : Nat) (freeze : Bool) (s : State) : Out :=
  .next (s.windowWrite src c 0x110 (bit freeze * 2 ^ 63))

/-- PMC_CLEAR: CLEAR zeroes PMC_COUNT 0-7, STALE and their WRAP bits (Table 20-2). -/
def execPmcClear (src c : Nat) (freeze : Bool) (s : State) : Out :=
  .next (s.windowWrite src c 0x110 (bit freeze * 2 ^ 63 + 2 ^ 62))

/-- The 512 quick words as the module has them now; zero before READY (R404, R430). -/
def State.quickWords (s : State) : List Nat := if s.boot.ready then (List.range 512).map s.quickWord else []

/-- QUICK_WORD_REFRESH: 100 ns after its last refresh a sill takes all 512 words at once (R287). -/
def execQuickWordRefresh (n : Nat) (s : State) : Out :=
  if 12 ≤ n then .next s
  else
    let (last, _) := mget (0, []) s.quick n
    if mhas s.quick n ∧ s.time < last + ns 100 then .next s
    else .next { s with quick := mset s.quick n (s.time, s.quickWords) }

/-! ### Messages that end here (R274, R275) -/

/-- A management read: its answer, or its error completion (R275, R424). -/
def State.answerRead (s : State) (src a rtag len : Nat) : State :=
  if s.boot.off then s
  else if !s.boot.ready && !earlyAddr a then (s.traced a false 0).rejectAccess src a rtag true 2
  else if len ≠ 8 ∨ a % 8 ≠ 0 then (s.traced a false 0).rejectAccess src a rtag true 3
  else if a = 0x10818 then landed s (execFtMetaRead src rtag s)
  else
    match windowCell a with
    | some c => (s.traced a false 0).windowAccess src c (a % 4096) rtag none
    | none =>
      let s := s.traced a false 0
      match s.readReg src a with
      | .ok v => s.sendMsg { kind := 2, vc := 1, dest := src, src := s.fabricAddr, addr := rtag, payload := natLE 8 v }
      | .error c => (if c = 5 then s.security 5 src else s).rejectAccess src a rtag true c

/-- Is an engine message of a type its engine defines (R230, R254, R274)? -/
def engineDefines (m : Msg) : Bool :=
  let e := bits m.addr 45 42
  let t := bits m.addr 41 34
  (e == 1 && decide (1 ≤ t ∧ t ≤ 6) && m.kind == (if t = 5 then 1 else 0)) || (e == 4 && (t == 1 || t == 2) && m.kind == 0)

/-- A message ends at this module: a request is decoded by Table 13-7; a management read is answered, and a write, an engine message
or a region arrival is left to the command of its own (log 15). -/
def State.deliverHere (s : State) (m : Msg) : State :=
  let s := { s with delivered := s.delivered ++ [m] }
  if 2 ≤ m.kind then s
  else
    match bits m.addr 47 46 with
    | 0 =>
      if bits m.addr 45 40 ≠ 0 then s.sendError m 1
      else if m.kind = 1 then s.answerRead m.src m.addr (leAt m.payload 4 4) (leAt m.payload 0 4)
      else s
    | 2 => if engineDefines m then s else s.sendError m 1
    | 3 => if m.kind = 0 then s else s.sendError m 1
    | _ => s.sendError m 1

/-- The write of a message that ended here, where it writes a register or an intake. -/
def State.applyWrite (s : State) (m : Msg) : State :=
  if m.kind ≠ 0 ∨ bits m.addr 47 40 ≠ 0 then s
  else if 0x100000000 ≤ m.addr ∧ m.addr < 0x140000000 then landed s (execCommandListIntake m s)
  else landed s (execRegisterWrite m.src m.addr m.payload.length (leAt m.payload 0 8) s)

/-! ### Directed messages (R297) -/

/-- The path octets of an answer: HOPS, NEXT 0 and the ports in the opposite order. -/
def replyPath (b : List Byte) : List Byte :=
  let hops := min 14 (leAt b 0 1)
  slice (natLE 1 hops ++ [0] ++ ((b.drop 2).take hops).reverse) 0 16

/-- A directed message that ends here: its request is served, and its answers go back by the path. -/
def State.directedHere (s : State) (p : Nat) (m : Msg) : State :=
  let m' : Msg := { m with dest := s.fabricAddr, payload := m.payload.drop 16 }
  let t := (s.deliverHere m').applyWrite m'
  let back : ReplyPath :=
    { dest := m.src, addr := if m.kind = 1 then leAt m'.payload 4 4 else m.addr, port := p, path := replyPath m.payload }
  if m.kind = 1 ∨ s.outbox.length < t.outbox.length ∨ s.windowHeld.length < t.windowHeld.length then
    t.modFabric (fun f => { f with replyPaths := f.replyPaths ++ [back] })
  else t

/-- A directed message at a module: on along its list of ports, or it ends here; on another channel than M, with a bad path or at a port
that is not ACTIVE it is discarded. -/
def State.directed (s : State) (p : Nat) (m : Msg) : State :=
  let hops := leAt m.payload 0 1
  let next := leAt m.payload 1 1
  if m.vc ≠ 1 ∨ 14 < hops ∨ hops < next then s.countPort p cNoRoute 1
  else if next = hops then s.directedHere p m
  else
    let q := leAt m.payload (2 + next) 1
    if 96 ≤ q ∨ (s.port q).state ≠ 4 then s.countPort p cNoRoute 1
    else s.queueOn q { m with payload := (m.payload.set (2 + next) (BitVec.ofNat 8 p)).set 1 (BitVec.ofNat 8 (next + 1)) }

/-- DIRECTED_MESSAGE: a directed message from port `p` (R297). -/
def execDirectedMessage (p : Nat) (m : Msg) (s : State) : Out :=
  if 96 ≤ p then .next s
  else if m.dest ≠ 0xFFFD then .next s
  else .next ((s.takeRx p m).directed p m)

/-! ### Routing (R292, R293, R298, R299) -/

/-- The entry that routes an address, from an input port's tables or the local ones. -/
def State.routeEntry (s : State) (inp : Option Nat) (d : Nat) : Nat :=
  let idx := if faClass d = 0 then faMember d else 48 + faMember d
  if faGroup d ≠ faGroup s.fabricAddr then
    match inp with
    | some p => mget 0 s.fabric.groupTab (512 * p + faGroup d)
    | none => mget 0 s.fabric.groupLocal (faGroup d)
  else
    match inp with
    | some p => mget 0 s.fabric.memberTab (64 * p + idx)
    | none => mget 0 s.fabric.memberLocal idx

/-- The output port of a message, or the counter of its discard. -/
def State.routeOut (s : State) (inp : Option Nat) (d : Nat) : Except Nat Nat :=
  let e := s.routeEntry inp d
  if !bitAt e 63 then .error cNoRoute
  else
    let out := bits e 61 55
    let alt := bits e 54 48
    let out := if bitAt e 62 ∧ (s.port out).state ≠ 4 ∧ (s.port alt).state = 4 then alt else out
    if some out = inp then .error cRouteBack else .ok out

/-- A barrier message, on channel C (R310). -/
def barrierKind (m : Msg) : Nat := if isBarrier m 1 then 1 else if isBarrier m 2 then 2 else 0

/-- A message of an input port is discarded and counted: its buffers are freed, and what still comes of it is discarded too. -/
def State.discardRx (s : State) (p i : Nat) (y : RxMsg) (k : Nat) : State :=
  (s.countPort p k 1).modPort p (fun x => (x.freeBuf (y.msg.vc % 4) y.flits).modRx (fun r =>
    { r with msgs := if y.eom then r.msgs.eraseIdx i else r.msgs.set i { y with out := some 96 } }))

/-- A message of an input port goes to an output port; what still comes of it follows. -/
def State.forwardRx (s : State) (p i : Nat) (y : RxMsg) (q : Nat) : State :=
  (s.modPort p (fun x => x.modRx (fun r =>
    { r with msgs := if y.eom then r.msgs.eraseIdx i else r.msgs.set i { y with out := some q } }))).queueTx q
      { msg := y.msg, eom := y.eom, since := s.time, src := some p }

/-- Route message `i` of an input port (R298). Messages that end here, multicast and directed ones wait until they are whole. -/
def State.routeRx (s : State) (p i : Nat) (y : RxMsg) : State :=
  let m := y.msg
  let d := m.dest
  if !(s.port p).carries m then s.discardRx p i y cNoRoute
  else if d = 0xFFFE ∨ (d = s.fabricAddr ∧ d ≠ 0xFFFF) then (if y.eom then (s.takeRx p m).deliverHere m else s)
  else if d = 0xFFFD then (if y.eom then (s.takeRx p m).directed p m else s)
  else if s.fabricAddr = 0xFFFF then s.discardRx p i y cNoRoute
  else if 0xFE00 ≤ d ∧ d ≤ 0xFEFF then (if y.eom then landed s (execMulticastReceive (some p) m s) else s)
  else if 0xFF00 ≤ d ∧ d ≤ 0xFF3F then
    match barrierKind m with
    | 1 => landed s (execArrive p m s)
    | 2 => landed s (execReleaseBarrier p m s)
    | _ => s.discardRx p i y cMcReject
  else if faReserved d then s.discardRx p i y cNoRoute
  else
    match s.routeOut (some p) d with
    | .error k => s.discardRx p i y k
    | .ok q => s.forwardRx p i y q

/-- The way back of an answer, when it answers a directed message. -/
def State.replyOf (s : State) (m : Msg) : Option Nat :=
  if m.kind < 2 then none else s.fabric.replyPaths.findIdx? (fun r => r.dest == m.dest && r.addr == m.addr)

/-- Route a message of this module; what is discarded is counted at port 0, and a record in its queue's DROPPED (R162, R299). -/
def State.routeLocal (s : State) (o : OutMsg) : State :=
  let m := o.msg
  let d := m.dest
  let tx : TxMsg := { msg := m, since := s.time, queue := o.queue }
  let discard (k : Nat) : State := (s.countPort 0 k 1).dropRecord tx
  match s.replyOf m with
  | some i =>
    let r : ReplyPath := lget ⟨0, 0, 0, []⟩ s.fabric.replyPaths i
    (s.modFabric (fun f => { f with replyPaths := f.replyPaths.eraseIdx i })).queueOn r.port { m with dest := 0xFFFD, payload := r.path ++ m.payload }
  | none =>
    if s.fabricAddr = 0xFFFF then discard cNoRoute
    else if d = s.fabricAddr then s.deliverHere m
    else if 0xFE00 ≤ d ∧ d ≤ 0xFEFF then landed s (execMulticastReceive none m s)
    else if faReserved d ∨ 0xFF00 ≤ d then discard cNoRoute
    else
      match s.routeOut none d with
      | .error k => discard k
      | .ok q => s.queueTx q tx

/-- Must a message of this module wait: a multicast message for which the buffer has no room (R307)? -/
def State.localWaits (s : State) (m : Msg) : Bool :=
  decide (0xFE00 ≤ m.dest ∧ m.dest ≤ 0xFEFF) && decide (67108864 < s.mcUsed + m.payload.length)

/-- MESSAGE_ROUTE: the oldest message of a channel that is not routed, of an input port or of this module itself (R298). -/
def execMessageRoute (inp : Option Nat) (vc : Nat) (s : State) : Out :=
  if 96 ≤ inp.getD 0 ∨ 4 ≤ vc then .next s
  else
    match inp with
    | some p =>
      let l := (s.port p).rx.msgs
      match l.findIdx? (fun y => y.out.isNone && y.msg.vc == vc) with
      | none => .next s
      | some i => match l[i]? with | some y => .next (s.routeRx p i y) | none => .next s
    | none =>
      match s.outbox.findIdx? (fun o => o.msg.vc == vc) with
      | none => .next s
      | some i =>
        match s.outbox[i]? with
        | none => .next s
        | some o => if s.localWaits o.msg then .next s else .next ({ s with outbox := s.outbox.eraseIdx i }.routeLocal o)

end Sys2Proof.Machine
end

