-- ==== Sys2Proof/Machine/IfaceOps.lean ====
section
/-! DEFINITION. Commands of the module's connectors: busbar pairs, cables, the tray bus and the TAP (22 R440-R456). -/

namespace Sys2Proof.Machine

/-! ### Busbar and cables (R441-R444) -/

/-- BUSBAR_IMBALANCE: one pair has carried more than 65 % of the input current for 100 ms: from now K_PWR rises as for a round above PK
(R441). -/
def execBusbarImbalance (s : State) : Out :=
  let f := s.iface
  match f.pairSince with
  | none => .next s
  | some t =>
    if s.prof.imbalance ∨ s.time < t + ms 100 then .next s
    else .next (((s.powerModule 0xA (f.pair1 % 1024 * 2 ^ 16 + f.pair0 % 1024)).modProf (fun p => { p with imbalance := true })).modIface (fun f =>
      { f with pairSince := none }))

/-- CABLE_PRESENCE: CAB_PRES_N of a port changes: without a cable the port stays DOWN (R443). -/
def execCablePresence (p : Nat) (present : Bool) (s : State) : Out :=
  if 96 ≤ p then .next s
  else
    let s := s.modPort p (fun x => { x with cable := present })
    .next (if !present && decide (2 ≤ (s.port p).state) then s.enterDown p 1 else s)

/-- Is CAB_3V3 of a connector on (R444)? -/
def State.cableSupply (s : State) (c : Nat) : Bool :=
  s.boot.pwrOk && !s.iface.cabOff.contains c && (List.range 4).any (fun k => (s.port (4 * c + k)).cable)

/-- CABLE_POWER: a load above 3.5 A for 1 ms turns the supply of a connector off (R444). -/
def execCablePower (c : Nat) (s : State) : Out :=
  if 24 ≤ c then .next s
  else if !s.cableSupply c then .next s
  else .next ((s.modIface (fun f => { f with cabOff := c :: f.cabOff })).linkFault (4 * c) 0xD (c * 2 ^ 48))

/-! ### The tray bus (R448) -/

/-- Does the module answer on the bus? -/
def State.i3cUp (s : State) : Bool := s.boot.pwrOk && decide (s.boot.busAt ≤ s.time)

/-- Is a direct command addressed to the module? -/
def State.i3cMine (s : State) (addr : Nat) : Bool := s.i3cUp && s.iface.i3cAddr == some addr

def State.i3cAnswer (s : State) (data : List Nat) : State := s.modIface (fun f => { f with i3cOut := data })

/-- Octets of the provisional ID, the most significant first. -/
def i3cPidOctets : List Nat := (List.range 6).map (fun i => bits Config.i3cPid.toNat (47 - 8 * i) (40 - 8 * i))

/-- ENTDAA: a module without a dynamic address sends its characteristics and takes the address. -/
def execEntdaa (addr : Nat) (s : State) : Out :=
  if s.i3cUp ∧ s.iface.i3cAddr = none then
    .next ((s.i3cAnswer (i3cPidOctets ++ [Config.i3cBcr.toNat, Config.i3cDcr.toNat])).modIface (fun f => { f with i3cAddr := some (addr % 128) }))
  else .next s

/-- SETDASA: to the static address 0x2C of a module without a dynamic address. -/
def execSetdasa (static addr : Nat) (s : State) : Out :=
  if s.i3cUp ∧ static = 0x2C ∧ s.iface.i3cAddr = none then .next (s.modIface (fun f => { f with i3cAddr := some (addr % 128) })) else .next s

/-- RSTDAA: the dynamic address is given up. -/
def execRstdaa (s : State) : Out := if s.i3cUp then .next (s.modIface (fun f => { f with i3cAddr := none })) else .next s

/-- Does an ENEC or DISEC, broadcast or direct, reach the module? -/
def State.i3cHears (s : State) (addr : Option Nat) : Bool := match addr with | none => s.i3cUp | some a => s.i3cMine a

/-- ENEC: bit 0 of the events enables In-Band Interrupts. -/
def execEnec (addr : Option Nat) (events : Nat) (s : State) : Out :=
  if s.i3cHears addr && bitAt events 0 then .next (s.modIface (fun f => { f with ibiEn := true })) else .next s

/-- DISEC: bit 0 of the events disables In-Band Interrupts. -/
def execDisec (addr : Option Nat) (events : Nat) (s : State) : Out :=
  if s.i3cHears addr && bitAt events 0 then .next (s.modIface (fun f => { f with ibiEn := false })) else .next s

/-- GETPID. -/
def execGetpid (addr : Nat) (s : State) : Out := if s.i3cMine addr then .next (s.i3cAnswer i3cPidOctets) else .next s

/-- GETBCR. -/
def execGetbcr (addr : Nat) (s : State) : Out := if s.i3cMine addr then .next (s.i3cAnswer [Config.i3cBcr.toNat]) else .next s

/-- GETDCR. -/
def execGetdcr (addr : Nat) (s : State) : Out := if s.i3cMine addr then .next (s.i3cAnswer [Config.i3cDcr.toNat]) else .next s

/-- GETSTATUS: two octets, whose value no rule gives (log 9). -/
def execGetstatus (addr : Nat) (s : State) : Out :=
  if s.i3cMine addr then
    let v := s.free.toNat
    .next (s.useFree.i3cAnswer [bits v 15 8, bits v 7 0])
  else .next s

/-! ### The TAP (R446, R452-R454) -/

/-- TRST_N: low, it holds the TAP in Test-Logic-Reset. -/
def execTrstN (low : Bool) (s : State) : Out :=
  if low then .next (s.modIface (fun f => { f with trst := true, inst := 1, pins := 0, halted := false }))
  else .next (s.modIface (fun f => { f with trst := false }))

/-- Can instructions be loaded? -/
def State.tapLive (s : State) : Bool := !s.boot.off && !s.iface.trst

/-- Load an instruction: when it is available its register is selected, else BYPASS with B set (R454). `pins` says what drives the pins
while it is selected. -/
def State.tapLoad (s : State) (op pins : Nat) (ok : Bool) : State :=
  if ok then s.modIface (fun f => { f with inst := op, refused := false, dr := 0, pins := pins, halted := op == 0x81 })
  else s.modIface (fun f => { f with inst := 0xFF, refused := true, dr := 0, pins := 0, halted := false })

/-- May pins be driven: every port DISABLED and every region FREE (R454)? -/
def State.pinsFree (s : State) : Bool :=
  decide (1 ≤ s.keeper.tap) && (List.range 96).all (fun p => (s.port p).state == 0) && s.regions.all (fun q => q.2.state == 0)

/-- A capture, shift and update of the boundary-scan register: `sample` is what the pins carry, `shift` what is shifted in (R455). -/
def State.scan (s : State) (sample shift : Nat) : State :=
  s.modIface (fun f => { f with dr := sample % 2 ^ 1557, bsr := shift % 2 ^ 1557 })

/-- A pin test: its instruction, and one scan where it is available. -/
def State.pinTest (s : State) (op pins sample shift : Nat) : State :=
  let t := s.tapLoad op pins s.pinsFree
  if s.pinsFree then t.scan sample shift else t

/-- BYPASS. -/
def execBypass (s : State) : Out := if s.tapLive then .next (s.tapLoad 0xFF 0 true) else .next s

/-- IDCODE (R453). -/
def execIdcode (s : State) : Out :=
  if s.tapLive then .next ((s.tapLoad 1 0 true).modIface (fun f => { f with dr := if s.stepping = 0 then 0x194249AB else 0x294249AB })) else .next s

/-- SAMPLE_PRELOAD: the pins are sampled, and the register is loaded. -/
def execSamplePreload (sample shift : Nat) (s : State) : Out :=
  if !s.tapLive then .next s
  else
    let ok := decide (1 ≤ s.keeper.tap)
    let t := s.tapLoad 2 0 ok
    .next (if ok then t.scan sample shift else t)

/-- EXTEST: the register drives the pins. -/
def execExtest (sample shift : Nat) (s : State) : Out := if s.tapLive then .next (s.pinTest 0 1 sample shift) else .next s

/-- EXTEST_PULSE: pulse test of the link lanes. -/
def execExtestPulse (sample shift : Nat) (s : State) : Out := if s.tapLive then .next (s.pinTest 5 4 sample shift) else .next s

/-- EXTEST_TRAIN: train test of the link lanes. -/
def execExtestTrain (sample shift : Nat) (s : State) : Out := if s.tapLive then .next (s.pinTest 6 5 sample shift) else .next s

/-- CLAMP: the register holds the pins while bypass is selected. -/
def execClamp (s : State) : Out := if s.tapLive then .next (s.tapLoad 3 2 s.pinsFree) else .next s

/-- HIGHZ: outputs are in high impedance. -/
def execHighz (s : State) : Out := if s.tapLive then .next (s.tapLoad 4 3 s.pinsFree) else .next s

/-! ### Debug instructions (R452) -/

/-- A source address that counts as the owner (R425). -/
def State.ownerSource (s : State) : Nat := match s.ownerSrc.find? (fun q => q.2.1) with | some q => q.2.2 | none => 0xFFFF

/-- A MEM_DATA read through the TAP: the 64 bits, or a code (R63). -/
def State.tapMemRead (s : State) (c : Nat) : State × Option Nat :=
  let s := s.traced (windowAddr c 0x308) false 0
  let a := (s.cell c).memAddr
  if !s.boot.ready || !s.memDataAllowed c 0 || memDataCode a != 0 then (s, none)
  else
    let off := bits a 19 0
    let v := leNat (((s.cell c).mem (bits a 63 60)).read off 8)
    let mem := bits a 63 60
    let acc : Access := ⟨(s.pane (paneOfCell c)).runCycles, mem, 3, bankOf mem off, 0, 0, off, decide (8 < memWidth mem)⟩
    let count (x : Cell) : Cell := if mem = 5 then x else x.countAcc acc true { cls := 3, ev := 1, master := 4, byOwner := true, byGuest := false }
    ((s.touch c).modCell c (fun x => count { x with memAddr := if bitAt a 20 then a - off + (off + 8) % 2 ^ 20 else a }), some v)

/-- An access through the TAP, as the owner: the state, and the data or none where it fails. Its answer goes to the TAP, not to the
fabric. -/
def State.tapAccess (s : State) (addr : Nat) (write : Bool) (data : Nat) : State × Option Nat :=
  match (if addr % 4096 = 0x308 ∧ !write then windowCell addr else none) with
  | some c => s.tapMemRead c
  | none =>
    let src := s.ownerSource
    let n := s.outbox.length
    let t := if write then s.writeReg src addr (data % 2 ^ 64) else s.answerRead src addr 0 8
    let fresh := t.outbox.drop n
    let mine (o : OutMsg) : Bool := decide (2 ≤ o.msg.kind) && o.msg.dest == src
    let value : Option Nat :=
      match fresh.find? mine with
      | some o => if o.msg.kind = 2 then some (leAt o.msg.payload 0 8) else none
      | none => some (data % 2 ^ 64)
    ({ t with outbox := t.outbox.take n ++ fresh.filter (fun o => !mine o) }, value)

/-- Does an access have to wait: for a row-shift (R31), or a MEM_DATA read behind background accesses of its memory (R56)? -/
def State.tapWaits (s : State) (addr : Nat) : Bool :=
  match windowCell addr with
  | some c => s.rowShifting c || (addr % 4096 == 0x308 && (let x := s.cell c; (x.bg ++ x.bgMesh).any (fun b => b.mem == bits x.memAddr 63 60)))
  | none => false

/-- DBG_MGMT: an access as the owner; the register then holds its address, its write flag and its data. A failed access leaves data that no
rule gives (log 9). -/
def execDbgMgmt (addr : Nat) (write : Bool) (data : Nat) (s : State) : Out :=
  if !s.tapLive then .next s
  else if s.keeper.tap ≠ 2 then .next (s.tapLoad 0x80 0 false)
  else if !write && s.tapWaits addr then .next s
  else
    let (t, v) := (s.tapLoad 0x80 0 true).tapAccess (addr % 2 ^ 40) write data
    let head := addr % 2 ^ 40 * 2 ^ 72 + bit write * 2 ^ 64
    match v with
    | some v => .next (t.modIface (fun f => { f with dr := head + v }))
    | none => .next (t.useFree.modIface (fun f => { f with dr := head + t.free.toNat }))

/-- DBG_LINTEL_HALT: the Lintel processor is halted while the instruction is selected. -/
def execDbgLintelHalt (s : State) : Out := if s.tapLive then .next (s.tapLoad 0x81 0 (s.keeper.tap == 2)) else .next s

/-- The 64 entries of the trace, oldest first; the oldest in the lowest bits. -/
def Iface.traceBits (f : Iface) : Nat :=
  let l := f.trace.reverse
  (List.range 64).foldl (fun a i => a + (Config.traceWord ((l[i]?).map (fun t => (t.addr, t.write, t.val)))).toNat * 2 ^ (64 * i)) 0

/-- DBG_TRACE: the last 64 management accesses. -/
def execDbgTrace (s : State) : Out :=
  if !s.tapLive then .next s
  else
    let ok := s.keeper.tap == 2
    let t := s.tapLoad 0x82 0 ok
    .next (if ok then t.modIface (fun f => { f with dr := f.traceBits }) else t)

end Sys2Proof.Machine
end

