-- ==== Sys2Proof/Machine/MovOps.lean ====
section
/-! DEFINITION. Memory, register-move and mesh operations, MOV slot (02 R52-R60, Table 2-9, R462, 05 R110, R115). -/

namespace Sys2Proof.Machine

/-- LDA: an activation word to a v register half or an x register, 2 cycles (Table 2-9). -/
def execLda (c addr : Nat) (toX : Bool) (r h : Nat) (s : State) : Out :=
  issue c 4 (fun k =>
    let a := addr / 32 * 32
    let acc := k.access 2 3 4 a 0 false
    let d : W256 := BitVec.ofNat 256 (k.x.amem.readLE a 32)
    (k.base (if toX then decide (r < 4) else decide (r < 32) && decide (h < 2)) ++ k.range 2 3 4 addr ++
        (if addr < memSize 2 then k.clashNow acc ++ k.x.guardChk a 3 else []),
      k.land (k.x.addAcc acc) 2 (if toX then .xReg r d else .vHalf r h d))) s

/-- STA: a v register half to an activation word, access at +1 (Table 2-9). -/
def execSta (c v h addr : Nat) (s : State) : Out :=
  issue c 4 (fun k =>
    let a := addr / 32 * 32
    (k.base (decide (v < 32) && decide (h < 2)) ++ k.range 2 3 4 addr,
      k.land (k.x.addAcc (k.access 2 3 4 a 1 false)) 2 (.store 2 a (bytesOf 32 (vhalf (k.x.v v) h)) k.x.pc 4 3))) s

/-- Checks of STG: a slot in SEALED or DRAINING, an index at or beyond its SIZE (R59). -/
def Ctx.stgChk (k : Ctx) (idx : Nat) : List Chk :=
  let n := k.step % 2
  let t := k.x.stg n
  (if t.state ≥ 2 then [{ code := 0xE, hi := n * 2 ^ 56 + t.state * 2 ^ 48, lo := t.step }] else []) ++
  (if idx ≥ t.size then [{ code := 0x12, hi := n * 2 ^ 56 + idx % 65536 * 2 ^ 32 + t.size * 2 ^ 16, lo := t.step }] else [])

/-- STG: a v register half to word `idx` of the step's staging slot, access at +1; the first of a step makes the slot
FILLING (R58, R59). -/
def execStg (c v h idx : Nat) (s : State) : Out :=
  issue c 4 (fun k =>
    let n := k.step % 2
    let t := k.x.stg n
    let a := (t.base + idx) * 32
    let x := if t.state = 0 then k.x.setStg n { t with state := 1, step := k.step % 65536 } else k.x
    (k.base (decide (v < 32) && decide (h < 2)) ++ k.stgChk idx,
      k.land (x.addAcc (k.access 2 3 4 a 1 false)) 2 (.stgStore n idx (bytesOf 32 (vhalf (k.x.v v) h)) k.x.pc))) s

/-- LDP: a partial-sum word to a v register, 2 cycles. -/
def execLdp (c vd addr : Nat) (s : State) : Out :=
  issue c 4 (fun k =>
    let a := addr / 64 * 64
    let acc := k.access 3 3 4 a 0 false
    (k.base (decide (vd < 32)) ++ k.range 3 3 4 addr ++
        (if addr < memSize 3 then k.clashNow acc else []),
      k.land (k.x.addAcc acc) 2 (.vReg vd (BitVec.ofNat 512 (k.x.pmem.readLE a 64))))) s

/-- STP: a v register to a partial-sum word, access at +1. -/
def execStp (c v addr : Nat) (s : State) : Out :=
  issue c 4 (fun k =>
    let a := addr / 64 * 64
    (k.base (decide (v < 32)) ++ k.range 3 3 4 addr,
      k.land (k.x.addAcc (k.access 3 3 4 a 1 false)) 2 (.store 3 a (bytesOf 64 (k.x.v v)) k.x.pc 4 3))) s

/-- LDW: a weight word of the step's window to a v register, 3 cycles; the address is formed modulo 1 MiB (R235). -/
def execLdw (c vd addr : Nat) (s : State) : Out :=
  issue c 4 (fun k =>
    let a := (k.reg.windowBase + addr) % 2 ^ 20 / 64 * 64
    let acc := k.access 1 3 4 a 0 false
    (k.base (decide (vd < 32)) ++ k.clashNow acc,
      k.land (k.x.addAcc acc) 3 (.vReg vd (BitVec.ofNat 512 (k.x.wmem.readLE a 64))))) s

/-- SEND: 256 bits of a v register on a route; the first link cycle is at +1. A route for which the cell's own
router has no entry with IN = 0 is undefined (R42, Table 2-9). -/
def execSend (c route v h : Nat) (s : State) : Out :=
  issue c 4 (fun k =>
    let ok := match k.x.routes.find? (fun p => p.1 == route) with | some (_, e) => e.inn == 0 | none => false
    (k.base (ok && decide (v < 32) && decide (h < 2)),
      (k.land k.x 2 (.hop route 0 c (vhalf (k.x.v v) h))).countEv (schedEv 4 1) 1)) s

/-- The head of a boundary FIFO against the receiver's beat: CROSS_EARLY, CROSS_UNDERRUN (R110, Table 5-7). -/
def Ctx.fifoChk (k : Ctx) (side : Nat) : List Chk :=
  let q := mget [] k.x.fifo side
  let want := (k.beat + 3) % 4
  let det (found : Nat) : Nat := (7 + side) * 2 ^ 56 + q.length * 2 ^ 32 + found * 2 ^ 16 + want
  match q with
  | [] => [{ code := 0xA, hi := det 3 }]
  | e :: _ =>
    if e.tag = want then []
    else if e.tag = k.beat % 4 then [{ code := 8, hi := det e.tag }]
    else [{ code := 0xA, hi := det e.tag }]

/-- RECV: the inbound latch, or the next entry of a boundary FIFO, to a v register half, 1 cycle (R110, R462). -/
def execRecv (c vd h src : Nat) (s : State) : Out :=
  issue c 4 (fun k =>
    if src = 0 then
      (k.base (decide (vd < 32) && decide (h < 2)),
        (k.land k.x 1 (.vHalf vd h k.x.inLatch)).countEv (schedEv 4 2) 1)
    else
      let ok := match neighbour c src with
        | some m => hasLink c src && paneOfCell m != paneOfCell c
        | none => hasLink c src
      let q := mget [] k.x.fifo src
      let d : W256 := match q with | e :: _ => e.data | [] => 0
      (k.base (decide (vd < 32) && decide (h < 2) && decide (src < 5) && ok) ++ (if ok then k.fifoChk src else []),
        (k.land { k.x with fifo := mset k.x.fifo src (q.drop 1) } 1 (.vHalf vd h d)).countEv (schedEv 4 2) 1)) s

/-- MOVS: a scalar register to a lane, or a lane to a scalar register, 1 cycle. -/
def execMovs (c r v lane : Nat) (toScalar : Bool) (s : State) : Out :=
  issue c 4 (fun k =>
    (k.base (decide (r < 32) && decide (v < 32) && decide (lane < 16)),
      k.land k.x 1 (if toScalar then .sReg r (vlane (k.x.v v) lane) else .vLane v lane (k.x.s r)))) s

end Sys2Proof.Machine
end

