-- ==== Sys2Proof/Machine/SfrOps.lean ====
section
/-! DEFINITION. Special-function and rotor operations, SFR slot (02 R49-R51, Table 2-7, 05 R120-R121). -/

namespace Sys2Proof.Machine

/-- Latency of a special-function result: 10 in a native B0 image, else 14 (R49, R121, Table 5-6). -/
def sfuLatency (cls : Nat) : Nat := if cls = 2 then 10 else 14

/-- PORT_DOUBLE of a special-function issue while the unit is occupied (R51, Table 5-9). -/
def Ctx.sfuBusy (k : Ctx) : List Chk :=
  if k.n < k.x.sfuFree then [{ code := 4, hi := 7 * 2 ^ 40 + 3 * 2 ^ 32 + 3 * 2 ^ 16, lo := k.x.pc }] else []

/-- One special-function operation: the unit is occupied 4 cycles, all 16 lanes at the latency (R49, R51). -/
def sfuOp (f : SfuFn) (c vd va : Nat) (s : State) : Out :=
  issue c 3 (fun k =>
    (k.base (decide (vd < 32) && decide (va < 32)) ++ k.sfuBusy,
      { k.land k.x (sfuLatency k.reg.cls) (.vReg vd (vpack (fun i => sfuLane f (vlane (k.x.v va) i)))) with
        sfuFree := k.n + 4 })) s

def execExp (c vd va : Nat) (s : State) : Out := sfuOp .exp c vd va s
def execLog (c vd va : Nat) (s : State) : Out := sfuOp .log c vd va s
def execRcp (c vd va : Nat) (s : State) : Out := sfuOp .rcp c vd va s
def execRsqrt (c vd va : Nat) (s : State) : Out := sfuOp .rsqrt c vd va s
def execSqrt (c vd va : Nat) (s : State) : Out := sfuOp .sqrt c vd va s
def execSigm (c vd va : Nat) (s : State) : Out := sfuOp .sigm c vd va s
def execTanh (c vd va : Nat) (s : State) : Out := sfuOp .tanh c vd va s
def execSilu (c vd va : Nat) (s : State) : Out := sfuOp .silu c vd va s
def execGelu (c vd va : Nat) (s : State) : Out := sfuOp .gelu c vd va s

/-- Pair and part of a lane: adjacent (2i, 2i + 1) or split (i, i + 8) (R50). -/
def rotPair (split : Bool) (i : Nat) : Nat × Bool := if split then (i % 8, decide (i ≥ 8)) else (i / 2, i % 2 == 1)

/-- First and second lane of a pair. -/
def rotLanes (split : Bool) (p : Nat) : Nat × Nat := if split then (p, p + 8) else (2 * p, 2 * p + 1)

/-- ROT: the 8 pairs of `va` rotated by p × θ, with θ from the frequency table from `base` up, into `vd`; p is the
low 24 bits of a scalar register, and an index beyond the table's 128 entries begins again at 0, which the spec leaves open
(R50; DESIGN CHOICE, log 23). -/
def execRot (c vd va rs base : Nat) (split : Bool) (s : State) : Out :=
  issue c 3 (fun k =>
    let v := k.x.v va
    let p := (k.x.s rs).toNat % 2 ^ 24
    let theta (i : Nat) : R32 := BitVec.ofNat 32 (k.x.rotor.readLE (4 * ((base + i) % 128)) 4)
    let out := vpack (fun i =>
      let q := rotPair split i
      let l := rotLanes split q.1
      rotLane (vlane v l.1) (vlane v l.2) p (theta q.1) q.2)
    (k.base (decide (vd < 32) && decide (va < 32) && decide (rs < 32) && decide (base < 128)),
      k.land k.x 6 (.vReg vd out))) s true

end Sys2Proof.Machine
end

