-- ==== Sys2Proof/Machine/ThermalOps.lean ====
section
/-! DEFINITION. Commands of thermal management and of the shelf grant: the housekeeping round, rate samples, tray reports, coolant stops, profiles and
Sprint (16 R341-R359, 17 R360-R375, 22 R441, R449). -/

namespace Sys2Proof.Machine

/-! ### Rate samples (R349, R350) -/

/-- Regions a pane's sensors act on: its own, or of a sill pane every region (Table 16-2). -/
def State.actsOn (s : State) (p : Nat) : List Nat := if 738 ≤ p then s.placed else (match (s.pane p).region with | some r => [r] | none => [])

/-- Highest rate of a pane's sensors after a sample, in 0.01 °C/ms: the reading now less the one 250 µs before (R349). -/
def PaneThermal.rateOf (t : PaneThermal) (now0 now1 : Int) (use0 use1 : Bool) : Int :=
  let one (h : List Int) (v : Int) : List Int := match h[9]? with | some old => [(v - old) * 50] | none => []
  match (if use0 then one t.hist0 now0 else []) ++ (if use1 then one t.hist1 now1 else []) with
  | a :: l => l.foldl max a
  | [] => 0

/-- One pane is sampled: its rate, and an emergency at 6.0 °C/ms (R349, R350). -/
def State.sampleRate (s : State) (x : Nat × Int × Int) : State :=
  let p := x.1
  let t := (s.pane p).therm
  let pair := decide (p < 738)
  let use1 := pair && !t.failed1
  let a := if t.failed0 && !use1 then s.paneTemp p else x.2.1
  let b := if pair then x.2.2 else x.2.1
  let rate := t.rateOf a b (!t.failed0 || !use1) use1
  let s := s.modPane p (fun q => q.modTherm (fun t => { t with rate := rate, hist0 := (a :: t.hist0).take 10, hist1 := (b :: t.hist1).take 10 }))
  let rs := s.actsOn p
  let add (l : List Nat) : List Nat := l ++ rs.filter (fun r => !l.contains r)
  let s := if 100 ≤ rate then s.modThermal (fun t => { t with rose := add t.rose }) else s
  let s := if 200 ≤ rate then s.modThermal (fun t => { t with fast := add t.fast, roseFast := add t.roseFast }) else s
  if rate < 600 then s
  else
    let s := rs.foldl (fun a r => a.modRegion r (fun y => { y with kRate := 31 })) s
    let s := s.modThermal (fun t => { t with emerg := rs.foldl (fun m r => mset m r 0) t.emerg })
    (s.thermalPane p 4 (signedBits 16 rate)).event 0x01 { pane := p }

/-- Channels of working junction sensors in a sample. -/
def State.sampleChannels (s : State) (sens : List (Nat × Int × Int)) : List Channel :=
  sens.flatMap (fun x =>
    let t := (s.pane x.1).therm
    let one (i : Nat) (v : Int) : Channel :=
      if x.1 < 738 then { kind := 1, num := 2 * x.1 + i, val := v, pane := x.1, sub := { pane := x.1 } }
      else { kind := 3, num := x.1 - 738, val := v, pane := x.1, sub := { pane := x.1 } }
    (if t.failed0 || sensorBad x.2.1 then [] else [one 0 x.2.1]) ++
      (if t.failed1 || sensorBad x.2.2 || decide (738 ≤ x.1) then [] else [one 1 x.2.2]))

/-- The first channel at its critical reading shuts the module down; with none, the given state goes on (R351). -/
def State.orCritical (s t : State) (cs : List Channel) : State :=
  match cs.find? Channel.critical with
  | some c => (s.channelFault c 3).shutdown [0x02, 0x06] c.sub
  | none => t

/-- RATE_SAMPLE: every 25 µs the pane samplers read the junction sensors; every 100 µs K_RATE rises by 4 where a rate was 2.0 °C/ms or
more; a junction at 110 °C shuts the module down (R349-R351). -/
def execRateSample (sens : List (Nat × Int × Int)) (s : State) : Out :=
  if s.boot.off then .next s
  else
    let sens := sens.filter (fun x => decide (x.1 < 786))
    let s := sens.foldl State.sampleRate s
    let n := (s.thermal.sampleNo + 1) % 4
    let s := s.modThermal (fun t => { t with sampleNo := n })
    let t := if n ≠ 0 then s
      else (s.thermal.fast.foldl (fun a r => a.modRegion r (fun x => { x with kRate := satTo 31 (x.kRate + 4) })) s).modThermal (fun t => { t with fast := [] })
    .next (s.orCritical t (s.sampleChannels sens))

/-! ### The tray (R343, R354, R355, R449) -/

/-- TRAY_REPORT: eight octets from the tray; a report whose CRC fails or whose SEQ repeats is discarded (R343, R354, R355, R449). -/
def execTrayReport (b : List Byte) (s : State) : Out :=
  let w := beNat b
  if !s.lintelUp ∨ b.length ≠ 8 ∨ crc8 (b.take 7) ≠ w % 256 ∨ s.thermal.seq = some (bits w 63 56) then .next s
  else
    let signed (v : Nat) : Int := if 2048 ≤ v then (v : Int) - 4096 else v
    let flow := if bitAt w 21 then 0 else bits w 31 22
    let old := s.thermal
    let recent := old.flows.filter (fun q => decide (s.time ≤ q.1 + ms 100))
    let top := recent.foldl (fun a q => max a q.2) 0
    let inlet := signed (bits w 55 44)
    let outside := decide (inlet < 120) || decide (320 < inlet) || decide (flow < 300) || decide (600 < flow)
    let s := s.modThermal (fun t => { t with
      lastReport := some s.time
      seq := some (bits w 63 56)
      inlet := inlet
      outlet := signed (bits w 43 32)
      flow := flow
      flows := (s.time, flow) :: recent
      outside := outside })
    let due := match old.envAt with | some t => decide (t + secs 10 ≤ s.time) | none => true
    let s := if outside && due then
        (s.thermalModule 7 (signedBits 12 inlet + flow * 2 ^ 16)).modThermal (fun t => { t with envAt := some s.time })
      else s
    match old.stopAt with
    | some t =>
      let good := if 4 * flow ≥ 30 * old.flowNom ∧ s.time ≤ t + secs 5 then old.good + 1 else 0
      let s := s.modThermal (fun t => { t with good := good })
      .next (if 2 ≤ good then s.recoverStop else s)
    | none =>
      if 4 * flow < 10 * old.flowNom ∨ 2 * flow < top then .next (s.declareStop 5 0x03 (flow + old.flow * 2 ^ 16)) else .next s

/-- REPORT_LOST: no report for 100 ms is a sudden stop (R354). -/
def execReportLost (s : State) : Out :=
  match s.thermal.lastReport with
  | some t =>
    if s.lintelUp ∧ s.thermal.stopAt.isNone ∧ t + ms 100 ≤ s.time then .next (s.declareStop 6 0x04 (satTo 0xFFFF ((s.time - t) / ms 1))) else .next s
  | none => .next s

/-- COOLANT_STOP_TIMEOUT: a sudden stop that has not recovered in 5 s shuts the module down (R351, R355). -/
def execCoolantStopTimeout (s : State) : Out :=
  match s.thermal.stopAt with
  | some t => if !s.boot.off ∧ t + secs 5 ≤ s.time then .next (s.shutdown [0x06] {}) else .next s
  | none => .next s

/-! ### Profiles and the grant (R364-R371) -/

/-- PROFILE: a region's profile is requested (R160, R364, R460). -/
def execProfile (g : Nat) (s : State) : Out :=
  withCommand g 3 0x42 s (fun s id w =>
    let r := bits w 223 218
    if !s.regionOk g r [2, 3, 4] then s.complete id stNoRegion 0
    else (s.modRegProf r (fun p => { p with queue := p.queue ++ [(id, bits w 103 102, bits w 101 86)] })).settleProfiles r)

/-- Is a pane at a beat boundary: between beats, or between steps, or of a region that is STOPPED? -/
def State.atBoundary (s : State) (p : Nat) : Bool :=
  let q := s.pane p
  match q.cond with
  | .stopped | .complete => true
  | .running => q.cyc == 0
  | .faultHold => (match q.region with | some r => (s.region r).state == 4 | none => false)
  | _ => false

/-- PANE_CLOCK_SWITCH: a pane moves to its region's new clock at a beat boundary: on a raise once its lowest sensor is within 5 mV of
the new setpoint; after it, on a lowering, its rail ramps down (R360, R365, R366). -/
def execPaneClockSwitch (p vmin : Nat) (s : State) : Out :=
  if 738 ≤ p then .next s
  else
    let q := s.pane p
    match q.region with
    | none => .next s
    | some r =>
      let x := (s.region r).prof
      let mv := profileMv x.target
      let up := decide (q.clk.mhz < profileMhz x.target)
      if x.stage ≠ 3 ∨ q.clk.mhz = profileMhz x.target ∨ !s.atBoundary p ∨ (up ∧ (vmin + 5 < mv ∨ q.pwr.rail s.time + 5 < mv)) then .next s
      else
        let s := s.modPane p (fun y => (y.modClk (fun c => { c with mhz := profileMhz x.target })).modPwr (fun w =>
          let w := { w with vmin := vmin }
          if up then w else w.rampTo s.time mv))
        .next (s.finishSwitch r)

/-- The grant ends: Sprint ends with it, and a change to Sprint is refused (R370, R371). -/
def State.endGrant (s : State) : State :=
  let s := s.modProf (fun p => { p with grant := false, misses := 0 })
  let rs := (s.regions.filter (fun q => q.2.wantsSprint)).map (·.1)
  rs.foldl (fun a r =>
    let p := (a.region r).prof
    if p.stage = 2 then a.refuseProfile r stNoGrant else if p.stage = 1 then a else a.modRegProf r (fun y => { y with ending := max y.ending 1 })) s

/-- With the grant, changes to Sprint that waited for it go on (R364, R371). -/
def State.grantWaiting (s : State) : State :=
  let rs := (s.regions.filter (fun q => q.2.prof.stage == 1)).map (·.1)
  rs.foldl (fun a r =>
    let p := (a.region r).prof
    if a.sprintBar ≠ stOK then a.refuseProfile r a.sprintBar
    else match p.entry with
      | some id => (a.modRegProf r (fun y => { y with stage := 0, entry := none })).changeProfile r 3 id p.sprintMs
      | none => a) s

/-- What the shelf's answer says: granted W, lease in s, echoed sequence number (R369). -/
def State.readGrant (s : State) (a : Nat × Nat × Nat) : State := s.modProf (fun p => { p with granted := a.1, lease := a.2.1, leaseEnd := s.time + secs a.2.1 })

/-- GRANT_RENEWAL: the grant is requested and read: once a second while a region is at Sprint, and for a change to Sprint that waits; two
renewals without answer end it (R369, R370). -/
def execGrantRenewal (ans : Option (Nat × Nat × Nat)) (s : State) : Out :=
  let sprinting := s.regions.any (fun q => q.2.sprints)
  let waiting := s.regions.any (fun q => q.2.prof.stage == 1)
  if !s.lintelUp ∨ !(waiting || (sprinting && decide (s.prof.renewAt + secs 1 ≤ s.time))) then .next s
  else
    let s := s.askGrant s.grantW
    match ans with
    | none =>
      let s := s.modProf (fun p => { p with misses := p.misses + 1 })
      .next (if s.prof.grant && decide (2 ≤ s.prof.misses) then s.endGrant else s)
    | some a =>
      let s := s.readGrant a
      if s.grantW ≤ a.1 ∧ a.2.2 = s.prof.grantSeq then .next (s.modProf (fun p => { p with grant := true, misses := 0 })).grantWaiting
      else .next (if s.prof.grant then s.endGrant else s)

/-- SMBALERT: the module reads the grant within 100 µs; one smaller than GRANT_W ends it (R370). -/
def execSmbalert (ans : Option (Nat × Nat × Nat)) (s : State) : Out :=
  match ans with
  | none => .next s
  | some a =>
    if !s.lintelUp then .next s
    else
      let s := s.readGrant a
      if s.prof.grant ∧ a.1 < s.grantW then .next s.endGrant else .next s

/-- GRANT_LEASE_EXPIRY: the lease runs out (R370). -/
def execGrantLeaseExpiry (s : State) : Out :=
  if s.prof.grant ∧ s.prof.leaseEnd ≤ s.time then .next ((s.modProf (fun p => { p with lease := 0 })).endGrant) else .next s

/-- SPRINT_MS_EXPIRY: a region's SPRINT_MS has elapsed (R371). -/
def execSprintMsExpiry (r : Nat) (s : State) : Out :=
  if 64 ≤ r then .next s
  else
    let p := (s.region r).prof
    match p.sprintUntil with
    | some t => if p.profile = 3 ∧ p.ending = 0 ∧ t ≤ s.time then .next (s.modRegProf r (fun y => { y with ending := 1 })) else .next s
    | none => .next s

/-! ### The housekeeping round (R344) -/

/-- Step 1: every channel is read. -/
def State.roundRead (s : State) (rd : Readings) : State :=
  let s := (rd.sens.filter (fun x => decide (x.1 < 786))).foldl State.readSensor s
  let hot := match (rd.sens.filter (fun x => decide (x.1 < 786))).map (fun x => s.paneTemp x.1) with
    | [] => s.thermal.tHot
    | a :: l => l.foldl max a
  let s := s.modThermal (fun t => { t with tHot := hot, diodes := rd.diodes.foldl (fun m d => mset m d.1 d.2) t.diodes })
  let s := (rd.hbm.filter (fun x => decide (x.1 < 24))).foldl (fun a x => a.modHctl x.1 (fun h =>
    { h with
      temp := satTo 255 (x.2 / 8).toNat
      refresh2x := decide (680 ≤ x.2) || (h.refresh2x && decide (640 < x.2))
      halved := decide (800 ≤ x.2) })) s
  let s := rd.vmin.foldl (fun a x => a.modPane x.1 (fun q => q.modPwr (fun w => { w with vmin := x.2 }))) s
  s.modPower (fun p => { p with vin := rd.vin, pin := rd.pin, pwafer := rd.pwafer })

/-- Sensors whose drop exceeds the model's in 10 consecutive rounds are flagged once (R321). -/
def State.roundJoints (s : State) (rd : Readings) : State :=
  let hit (p k : Nat) : Option Nat := (rd.drops.find? (fun d => d.1 == p && d.2.1 == k && decide (12 < d.2.2))).map (fun d => d.2.2)
  let ps := ((rd.drops.map (·.1)).filter (fun p => decide (p < 786))).eraseDups
  let flag (s : State) (p : Nat) : State :=
    let q := (s.pane p).pwr
    let counts := (List.range 16).map (fun k => (k, if (hit p k).isSome then mget 0 q.jointRounds k + 1 else 0))
    let new := counts.filter (fun c => decide (10 ≤ c.2) && !bitAt q.joint c.1)
    let s := new.foldl (fun a c => a.powerPane p 4 (c.1 + (hit p c.1).getD 0 % 2 ^ 16 * 2 ^ 8)) s
    s.modPane p (fun y => y.modPwr (fun w => { w with
      joint := new.foldl (fun a c => a + 2 ^ c.1) w.joint
      jointRounds := counts.filter (fun c => c.2 != 0) }))
  let s := { s with panes := mmap (fun p q => if ps.contains p then q else q.modPwr (fun w => { w with jointRounds := [] })) s.panes }
  ps.foldl flag s

/-- A new day of powered operation begins every 86,400 s (R373). -/
def Prof.tickDay (p : Prof) : Prof :=
  if p.dayTime + 1 < 172800000 then { p with dayTime := p.dayTime + 1 }
  else { p with dayTime := 0, days := p.days + 1, wear := (0 :: p.wear).take 365 }

/-- A round in which a pane is at the Sprint setpoint is charged to the present day and the reserve (R373). -/
def Prof.charge (p : Prof) : Prof :=
  let p := p.commit
  { p with wear := (match p.wear with | [] => [1] | d :: r => (d + 1) :: r), reserve := p.reserve - 1 }

/-- P_ROUND, the integrator, I_MAX and the ledger (R367, R372, R373). -/
def State.roundPower (s : State) (p : Nat) : State :=
  let su := s.limitSU
  let t := s.thermal
  let room : Rat := 100 - (t.inlet : Rat) / 8 - t.rth * su / 1000000 - (t.margin : Rat)
  let sprint := s.panes.any (fun q => q.2.pwr.base == 840 && decide (q.2.power ≤ 1))
  s.modProf (fun x =>
    let x := { x with
      rounds := (p :: x.rounds).take 2000
      heat := max 0 (x.heat + ((p : Rat) - su) / 2000)
      heatMax := if t.frozen then 0 else 25000 * max 0 room }
    let x := x.tickDay
    if sprint then x.charge else x)

/-- P_1S (R367). -/
def Prof.mean (p : Prof) : Rat := ((p.rounds.foldl (· + ·) 0 : Nat) : Rat) / (p.rounds.length : Rat)

/-- Enforcement of the limits through K_PWR (R368, R441). -/
def State.roundEnforce (s : State) (p : Nat) : State :=
  let pk := s.limitPK
  let su := s.limitSU
  let mean := s.prof.mean
  let sprint := s.regions.any (fun q => q.2.sprints)
  let by_ (x : Region) : Nat := if x.prof.profile = 3 then 4 else if x.prof.profile = 2 then 2 else 1
  let s := if pk < (p : Rat) ∨ s.prof.imbalance then s.placed.foldl (fun a r => a.raisePwr r (by_ (a.region r))) s else s
  let s := if !sprint ∧ su < mean then s.runningRegions.foldl (fun a r => a.raisePwr r 1) s else s
  if (p : Rat) < pk * 97 / 100 ∧ mean < su * 97 / 100 ∧ !s.prof.imbalance then
    { s with regions := mmap (fun _ x => if x.prof.ending = 2 then x else { x with kPwr := x.kPwr - 1 }) s.regions }
  else s

/-- The conditions of Sprint, and its end (R371, R375). -/
def State.roundSprint (s : State) : State :=
  let spent := decide (s.prof.heatMax ≤ s.prof.heat) || decide (4320000000 ≤ s.prof.used)
  let mark (s : State) (r : Nat) : State :=
    let p := (s.region r).prof
    if p.profile = 3 ∧ spent ∧ p.ending = 0 then s.modRegProf r (fun y => { y with ending := 1 }) else s
  let act (s : State) (r : Nat) : State :=
    let x := s.region r
    if x.prof.profile ≠ 3 ∨ x.prof.ending ≠ 1 ∨ x.prof.stage ≠ 0 then s
    else if !x.isOpen then (s.recordProfile r 1).settleProfiles r
    else (s.modRegion r (fun y => { y with kPwr := max y.kPwr 12, prof := { y.prof with ending := 2 } })).beginSwitch r 1
  let rs := s.regions.map (·.1)
  rs.foldl act (rs.foldl mark s)

/-- Holds that end at a round: of the end of Sprint (R375 step 3), and of a capped region with no step to make (R324 step 3); and changes to
Sprint that found no grant in 10 ms (Table 17-2). -/
def State.roundHolds (s : State) : State :=
  let one (s : State) (r : Nat) : State :=
    let x := s.region r
    let s := if x.prof.ending = 3 then (s.modRegProf r (fun p => { p with ending := 0 })).settleProfiles r else s
    let s := if x.kHold ≠ 0 ∧ x.prof.stage = 0 ∧ x.prof.ending = 0 then s.modRegion r (fun y => { y with kHold := 0 }) else s
    if x.prof.stage = 1 ∧ x.prof.since + ms 10 ≤ s.time then s.refuseProfile r stNoGrant else s
  (s.regions.map (·.1)).foldl one s

/-- The pair currents of the busbar (R441). -/
def State.roundPairs (s : State) (a b : Nat) : State :=
  let high := decide (65 * (a + b) < 100 * max a b)
  let s := s.modIface (fun f => { f with pair0 := a, pair1 := b, pairSince := if high then some (f.pairSince.getD s.time) else none })
  if max a b ≤ 560 then s.modProf (fun p => { p with imbalance := false }) else s

/-- Page gauges of a region (R422). -/
def State.roundGauges (s : State) (r : Nat) : State :=
  let mine := (mvals s.cache.desc).filter (fun d => d.valid && !d.unbound && d.region == r)
  let count (f : Desc → Bool) : Nat := (mine.filter f).length
  s.modRegion r (fun x => { x with totals := { x.totals with
    framed := count (fun d => decide (2 ≤ d.tier))
    home := count (fun d => d.tier == 1)
    absent := count (fun d => d.tier == 0)
    reclaim := count (fun d => d.reclaim) } })

/-- LINTEL_ROUND: the housekeeping round (R344), with the rules that run once a round; the Lintel serves its watchdog in it (R405). A critical reading shuts the module down (R351). -/
def execLintelRound (rd : Readings) (s : State) : Out :=
  if !s.lintelUp then .next s
  else
    let s := (s.modBoot (fun b => { b with servedAt := s.time })).roundRead rd
    let core := match (rd.sens.filter (fun x => decide (x.1 < 738))).map (fun x => s.paneTemp x.1) with
      | [] => s.thermal.tHot
      | a :: l => l.foldl max a
    let s := s.updateCap core rd.pwafer
    let calm := s.thermal.warned.isEmpty
    let s := (s.channels rd).foldl State.warn s
    let s := if calm && !s.thermal.warned.isEmpty then s.cause 58 else s
    match (s.channels rd).find? Channel.critical with
    | some c => .next ((s.channelFault c 3).shutdown [0x02, 0x06] c.sub)
    | none =>
      let s := s.placed.foldl State.roundTh s
      let s := s.placed.foldl State.roundRate s
      let s := s.modThermal (fun t => { t with
        rose := []
        roseFast := []
        kCool := if t.stopAt.isNone then t.kCool - 4 else t.kCool })
      let s := s.applyEnv
      let s := (s.roundHolds).roundPower rd.pwafer
      let s := ((s.roundPairs rd.pair0 rd.pair1).roundEnforce rd.pwafer).roundSprint
      let s := (rd.sens.filter (fun x => decide (x.1 < 786))).foldl (fun a x => a.compensate x.1) s
      let s := s.roundJoints rd
      let s := { s with panes := mmap (fun _ q => q.modPwr (fun w => { w with droopSent := false })) s.panes }
      let s := s.placed.foldl State.roundGauges s
      let s := (s.modPower (fun p => { p with overRound := false })).shelfStatus
      .next (if s.mgmt.ibi.isSome && s.iface.ibiEn then s.modMgmt (fun m => { m with ibi := some s.alertByte }) else s)

end Sys2Proof.Machine
end

