-- ==== Sys2Proof/Machine/Dispatch.lean ====
section
/-! DEFINITION. One arm per command: the meaning it calls. -/

namespace Sys2Proof.Machine

def exec (i : Instr) (s : State) : Host.Outcome State Fault Refusal :=
  match i with
  | .add c rd ra rb => Sys2Proof.Machine.execAdd c rd ra rb s
  | .sub c rd ra rb => Sys2Proof.Machine.execSub c rd ra rb s
  | .sAnd c rd ra rb => Sys2Proof.Machine.execSAnd c rd ra rb s
  | .sOr c rd ra rb => Sys2Proof.Machine.execSOr c rd ra rb s
  | .sXor c rd ra rb => Sys2Proof.Machine.execSXor c rd ra rb s
  | .shl c rd ra rb => Sys2Proof.Machine.execShl c rd ra rb s
  | .shr c rd ra rb => Sys2Proof.Machine.execShr c rd ra rb s
  | .cmp c rd ra rb => Sys2Proof.Machine.execCmp c rd ra rb s
  | .movi c rd imm => Sys2Proof.Machine.execMovi c rd imm s
  | .mul c rd ra rb => Sys2Proof.Machine.execMul c rd ra rb s
  | .jmp c target => Sys2Proof.Machine.execJmp c target s
  | .br c rs target => Sys2Proof.Machine.execBr c rs target s
  | .loop c fromReg count last => Sys2Proof.Machine.execLoop c fromReg count last s
  | .await c item => Sys2Proof.Machine.execAwait c item s
  | .stepwait c => Sys2Proof.Machine.execStepwait c s
  | .dotW c o waddr saddr => Sys2Proof.Machine.execDotW c o waddr saddr s
  | .dotL c o grp => Sys2Proof.Machine.execDotL c o grp s
  | .dotFlush c e paddr => Sys2Proof.Machine.execDotFlush c e paddr s
  | .dotFlushAdd c e paddr => Sys2Proof.Machine.execDotFlushAdd c e paddr s
  | .dotClr c => Sys2Proof.Machine.execDotClr c s
  | .vadd c vd va vb => Sys2Proof.Machine.execVadd c vd va vb s
  | .vsub c vd va vb => Sys2Proof.Machine.execVsub c vd va vb s
  | .vmul c vd va vb => Sys2Proof.Machine.execVmul c vd va vb s
  | .vfma c vd va vb vc => Sys2Proof.Machine.execVfma c vd va vb vc s
  | .vmax c vd va vb => Sys2Proof.Machine.execVmax c vd va vb s
  | .vmin c vd va vb => Sys2Proof.Machine.execVmin c vd va vb s
  | .vcmp c vd va vb => Sys2Proof.Machine.execVcmp c vd va vb s
  | .vsel c vd va vb vc => Sys2Proof.Machine.execVsel c vd va vb vc s
  | .vand c vd va vb => Sys2Proof.Machine.execVand c vd va vb s
  | .vor c vd va vb => Sys2Proof.Machine.execVor c vd va vb s
  | .vperm c vd va vb => Sys2Proof.Machine.execVperm c vd va vb s
  | .vbcast c vd va lane => Sys2Proof.Machine.execVbcast c vd va lane s
  | .vredSum c vd va => Sys2Proof.Machine.execVredSum c vd va s
  | .vredMax c vd va => Sys2Proof.Machine.execVredMax c vd va s
  | .vcvt c o => Sys2Proof.Machine.execVcvt c o s
  | .vlse c vd va vb => Sys2Proof.Machine.execVlse c vd va vb s
  | .exp c vd va => Sys2Proof.Machine.execExp c vd va s
  | .log c vd va => Sys2Proof.Machine.execLog c vd va s
  | .rcp c vd va => Sys2Proof.Machine.execRcp c vd va s
  | .rsqrt c vd va => Sys2Proof.Machine.execRsqrt c vd va s
  | .sqrt c vd va => Sys2Proof.Machine.execSqrt c vd va s
  | .sigm c vd va => Sys2Proof.Machine.execSigm c vd va s
  | .tanh c vd va => Sys2Proof.Machine.execTanh c vd va s
  | .silu c vd va => Sys2Proof.Machine.execSilu c vd va s
  | .gelu c vd va => Sys2Proof.Machine.execGelu c vd va s
  | .rot c vd va rs base split => Sys2Proof.Machine.execRot c vd va rs base split s
  | .lda c addr toX r h => Sys2Proof.Machine.execLda c addr toX r h s
  | .sta c v h addr => Sys2Proof.Machine.execSta c v h addr s
  | .stg c v h idx => Sys2Proof.Machine.execStg c v h idx s
  | .ldp c vd addr => Sys2Proof.Machine.execLdp c vd addr s
  | .stp c v addr => Sys2Proof.Machine.execStp c v addr s
  | .ldw c vd addr => Sys2Proof.Machine.execLdw c vd addr s
  | .send c route v h => Sys2Proof.Machine.execSend c route v h s
  | .recv c vd h src => Sys2Proof.Machine.execRecv c vd h src s
  | .movs c r v lane toScalar => Sys2Proof.Machine.execMovs c r v lane toScalar s
  | .linkNoFree c dir => Sys2Proof.Machine.execLinkNoFree c dir s
  | .bankNoFree c mem bank port => Sys2Proof.Machine.execBankNoFree c mem bank port s
  | .beatComplete p => Sys2Proof.Machine.execBeatComplete p s
  | .beatBegin p => Sys2Proof.Machine.execBeatBegin p s
  | .pauseBeatEnd p => Sys2Proof.Machine.execPauseBeatEnd p s
  | .awaitResume p => Sys2Proof.Machine.execAwaitResume p s
  | .outboundResume p => Sys2Proof.Machine.execOutboundResume p s
  | .outboundPortDrain p last vc dest addr m => Sys2Proof.Machine.execOutboundPortDrain p last vc dest addr m s
  | .holdTimeout r => Sys2Proof.Machine.execHoldTimeout r s
  | .itemDelivery r k => Sys2Proof.Machine.execItemDelivery r k s
  | .backgroundAccessGrant c mem => Sys2Proof.Machine.execBackgroundAccessGrant c mem s
  | .verdictWord c w => Sys2Proof.Machine.execVerdictWord c w s
  | .wload g => Sys2Proof.Machine.execWload g s
  | .manifestVerified id bytes ok => Sys2Proof.Machine.execManifestVerified id bytes ok s
  | .shardArrived id k bytes => Sys2Proof.Machine.execShardArrived id k bytes s
  | .shardTimeout id k => Sys2Proof.Machine.execShardTimeout id k s
  | .swing g => Sys2Proof.Machine.execSwing g s
  | .retire g => Sys2Proof.Machine.execRetire g s
  | .join m => Sys2Proof.Machine.execJoin m s
  | .shard m => Sys2Proof.Machine.execShard m s
  | .hold m => Sys2Proof.Machine.execHold m s
  | .chainHoldTimer id => Sys2Proof.Machine.execChainHoldTimer id s
  | .chainAbort m => Sys2Proof.Machine.execChainAbort m s
  | .manifest m => Sys2Proof.Machine.execManifest m s
  | .manifestReadTimeout id k => Sys2Proof.Machine.execManifestReadTimeout id k s
  | .shardAck m => Sys2Proof.Machine.execShardAck m s
  | .chainJoinTimeout id => Sys2Proof.Machine.execChainJoinTimeout id s
  | .load g hdr => Sys2Proof.Machine.execLoad g hdr s
  | .imageCopyComplete r bytes => Sys2Proof.Machine.execImageCopyComplete r bytes s
  | .signatureVerified r ok => Sys2Proof.Machine.execSignatureVerified r ok s
  | .loadAdmissionTimeout r => Sys2Proof.Machine.execLoadAdmissionTimeout r s
  | .cellWritesComplete r => Sys2Proof.Machine.execCellWritesComplete r s
  | .release g => Sys2Proof.Machine.execRelease g s
  | .scrubComplete r => Sys2Proof.Machine.execScrubComplete r s
  | .guestCreate g => Sys2Proof.Machine.execGuestCreate g s
  | .guestLimits g => Sys2Proof.Machine.execGuestLimits g s
  | .guestDelete g => Sys2Proof.Machine.execGuestDelete g s
  | .guestDeleteComplete n => Sys2Proof.Machine.execGuestDeleteComplete n s
  | .step g => Sys2Proof.Machine.execStep g s
  | .prefill g => Sys2Proof.Machine.execPrefill g s
  | .seqOpen g => Sys2Proof.Machine.execSeqOpen g s
  | .seqClose g => Sys2Proof.Machine.execSeqClose g s
  | .seqCloseTakesEffect r n => Sys2Proof.Machine.execSeqCloseTakesEffect r n s
  | .cancel g => Sys2Proof.Machine.execCancel g s
  | .cancelAll g => Sys2Proof.Machine.execCancelAll g s
  | .park g => Sys2Proof.Machine.execPark g s
  | .parkTakesEffect r n => Sys2Proof.Machine.execParkTakesEffect r n s
  | .resume g => Sys2Proof.Machine.execResume g s
  | .fork g => Sys2Proof.Machine.execFork g s
  | .forkTakesEffect r n => Sys2Proof.Machine.execForkTakesEffect r n s
  | .trim g => Sys2Proof.Machine.execTrim g s
  | .trimTakesEffect r n => Sys2Proof.Machine.execTrimTakesEffect r n s
  | .stepAdmission r waveAt maskAt prompt => Sys2Proof.Machine.execStepAdmission r waveAt maskAt prompt s
  | .stepStart r => Sys2Proof.Machine.execStepStart r s
  | .shardCandidates r bytes => Sys2Proof.Machine.execShardCandidates r bytes s
  | .campionResult r q => Sys2Proof.Machine.execCampionResult r q s
  | .stepCommit r => Sys2Proof.Machine.execStepCommit r s
  | .scatterComplete r => Sys2Proof.Machine.execScatterComplete r s
  | .promotionComplete r k => Sys2Proof.Machine.execPromotionComplete r k s
  | .epochPassed d => Sys2Proof.Machine.execEpochPassed d s
  | .parkExpiry k => Sys2Proof.Machine.execParkExpiry k s
  | .draftRecord m => Sys2Proof.Machine.execDraftRecord m s
  | .verifyRecord m => Sys2Proof.Machine.execVerifyRecord m s
  | .deadCellDetect c => Sys2Proof.Machine.execDeadCellDetect c s
  | .rowShiftCopyComplete r => Sys2Proof.Machine.execRowShiftCopyComplete r s
  | .memDataRead src c rtag => Sys2Proof.Machine.execMemDataRead src c rtag s
  | .memDataWrite src c w => Sys2Proof.Machine.execMemDataWrite src c w s
  | .clearBankCounters src c => Sys2Proof.Machine.execClearBankCounters src c s
  | .clearFaultLatch src c => Sys2Proof.Machine.execClearFaultLatch src c s
  | .commandListIntake m => Sys2Proof.Machine.execCommandListIntake m s
  | .nop g e => Sys2Proof.Machine.execNop g e s
  | .wait g e => Sys2Proof.Machine.execWait g e s
  | .waitTimeout g e seq idx => Sys2Proof.Machine.execWaitTimeout g e seq idx s
  | .auth g e => Sys2Proof.Machine.execAuth g e s
  | .completionRecordTimeout k => Sys2Proof.Machine.execCompletionRecordTimeout k s
  | .maskSourceLoad src g val => Sys2Proof.Machine.execMaskSourceLoad src g val s
  | .maskSourceLoadComplete n got => Sys2Proof.Machine.execMaskSourceLoadComplete n got s
  | .maskSourceFree src g val => Sys2Proof.Machine.execMaskSourceFree src g val s
  | .samplingEntryCommit src g e w => Sys2Proof.Machine.execSamplingEntryCommit src g e w s
  | .hbmRead a src master outcome use => Sys2Proof.Machine.execHbmRead a src master outcome use s
  | .hbmWrite a src master data => Sys2Proof.Machine.execHbmWrite a src master data s
  | .ueRetry n k outcome => Sys2Proof.Machine.execUeRetry n k outcome s
  | .hbmUnitZero u => Sys2Proof.Machine.execHbmUnitZero u s
  | .patrolScrub n corrected bad => Sys2Proof.Machine.execPatrolScrub n corrected bad s
  | .close src n val => Sys2Proof.Machine.execClose src n val s
  | .hbmOpen src n val => Sys2Proof.Machine.execHbmOpen src n val s
  | .closingComplete n c bank => Sys2Proof.Machine.execClosingComplete n c bank s
  | .openingComplete n c bank => Sys2Proof.Machine.execOpeningComplete n c bank s
  | .bwCtlWrite src port n val => Sys2Proof.Machine.execBwCtlWrite src port n val s
  | .bwWindowEnd port n => Sys2Proof.Machine.execBwWindowEnd port n s
  | .peerSignalDetect p => Sys2Proof.Machine.execPeerSignalDetect p s
  | .trainingComplete p lock pol snr => Sys2Proof.Machine.execTrainingComplete p lock pol snr s
  | .trainFail p lock => Sys2Proof.Machine.execTrainFail p lock s
  | .laneLoss p lane => Sys2Proof.Machine.execLaneLoss p lane s
  | .retrainComplete p lock => Sys2Proof.Machine.execRetrainComplete p lock s
  | .retrainTimeout p => Sys2Proof.Machine.execRetrainTimeout p s
  | .portEnable src p val => Sys2Proof.Machine.execPortEnable src p val s
  | .retrain src p val => Sys2Proof.Machine.execRetrain src p val s
  | .fullwidth src p val => Sys2Proof.Machine.execFullwidth src p val s
  | .rekey src p val => Sys2Proof.Machine.execRekey src p val s
  | .rekeyDue p => Sys2Proof.Machine.execRekeyDue p s
  | .runLimitExhausted p => Sys2Proof.Machine.execRunLimitExhausted p s
  | .securingTimeout p => Sys2Proof.Machine.execSecuringTimeout p s
  | .flitTransmit p => Sys2Proof.Machine.execFlitTransmit p s
  | .dataFlitReceive p f => Sys2Proof.Machine.execDataFlitReceive p f s
  | .idle p f => Sys2Proof.Machine.execIdle p f s
  | .seal p f => Sys2Proof.Machine.execSeal p f s
  | .retryReq p f => Sys2Proof.Machine.execRetryReq p f s
  | .retryReqRepeat p => Sys2Proof.Machine.execRetryReqRepeat p s
  | .replay p f => Sys2Proof.Machine.execReplay p f s
  | .creditStall p vc k => Sys2Proof.Machine.execCreditStall p vc k s
  | .quickRead p f => Sys2Proof.Machine.execQuickRead p f s
  | .regionArrival m => Sys2Proof.Machine.execRegionArrival m s
  | .errorCompletion m load => Sys2Proof.Machine.execErrorCompletion m load s
  | .knock p m => Sys2Proof.Machine.execKnock p m s
  | .answer p m => Sys2Proof.Machine.execAnswer p m s
  | .knockRetry p => Sys2Proof.Machine.execKnockRetry p s
  | .fabricAddrWrite src val => Sys2Proof.Machine.execFabricAddrWrite src val s
  | .bridgeWrite src val => Sys2Proof.Machine.execBridgeWrite src val s
  | .bridgeBeatTimer => Sys2Proof.Machine.execBridgeBeatTimer s
  | .bridgeBeat m => Sys2Proof.Machine.execBridgeBeat m s
  | .bridgeTakeover => Sys2Proof.Machine.execBridgeTakeover s
  | .bridgeAnnounce m => Sys2Proof.Machine.execBridgeAnnounce m s
  | .multicastReceive inp m => Sys2Proof.Machine.execMulticastReceive inp m s
  | .mcAck p m => Sys2Proof.Machine.execMcAck p m s
  | .arrive p m => Sys2Proof.Machine.execArrive p m s
  | .releaseBarrier p m => Sys2Proof.Machine.execReleaseBarrier p m s
  | .barArrive src val => Sys2Proof.Machine.execBarArrive src val s
  | .barrierTimeout t => Sys2Proof.Machine.execBarrierTimeout t s
  | .hello p certOk credOk => Sys2Proof.Machine.execHello p certOk credOk s
  | .encap p => Sys2Proof.Machine.execEncap p s
  | .finish p engineOk => Sys2Proof.Machine.execFinish p engineOk s
  | .linkAbort p => Sys2Proof.Machine.execLinkAbort p s
  | .linkAuthRetry p => Sys2Proof.Machine.execLinkAuthRetry p s
  | .faultForward => Sys2Proof.Machine.execFaultForward s
  | .faultMessageRetry k => Sys2Proof.Machine.execFaultMessageRetry k s
  | .faultMessage m => Sys2Proof.Machine.execFaultMessage m s
  | .faultAck m => Sys2Proof.Machine.execFaultAck m s
  | .faultSinkWrite => Sys2Proof.Machine.execFaultSinkWrite s
  | .faultReport k => Sys2Proof.Machine.execFaultReport k s
  | .faultEntrySettle k => Sys2Proof.Machine.execFaultEntrySettle k s
  | .alertCauseClear src val => Sys2Proof.Machine.execAlertCauseClear src val s
  | .ibiAck => Sys2Proof.Machine.execIbiAck s
  | .shelfStatusRetry => Sys2Proof.Machine.execShelfStatusRetry s
  | .ftMetaRead src rtag => Sys2Proof.Machine.execFtMetaRead src rtag s
  | .inputLow vin => Sys2Proof.Machine.execInputLow vin s
  | .inputLowRelease vin => Sys2Proof.Machine.execInputLowRelease vin s
  | .inputLowShutdown vin => Sys2Proof.Machine.execInputLowShutdown vin s
  | .inputHigh vin => Sys2Proof.Machine.execInputHigh vin s
  | .converterFail k c => Sys2Proof.Machine.execConverterFail k c s
  | .boost p vmin => Sys2Proof.Machine.execBoost p vmin s
  | .clockStretch p vmin => Sys2Proof.Machine.execClockStretch p vmin s
  | .shunt p vmax => Sys2Proof.Machine.execShunt p vmax s
  | .droop p vmin => Sys2Proof.Machine.execDroop p vmin s
  | .loadStepRaise p => Sys2Proof.Machine.execLoadStepRaise p s
  | .loadStepRaiseEnd p => Sys2Proof.Machine.execLoadStepRaiseEnd p s
  | .phaseFail p ph why => Sys2Proof.Machine.execPhaseFail p ph why s
  | .admissionTest r => Sys2Proof.Machine.execAdmissionTest r s
  | .admissionRetest r => Sys2Proof.Machine.execAdmissionRetest r s
  | .rampStep r => Sys2Proof.Machine.execRampStep r s
  | .segmentOver k => Sys2Proof.Machine.execSegmentOver k s
  | .powerFastSample amps bus => Sys2Proof.Machine.execPowerFastSample amps bus s
  | .powerStateLower r => Sys2Proof.Machine.execPowerStateLower r s
  | .idleEscalation r => Sys2Proof.Machine.execIdleEscalation r s
  | .plannedWake r => Sys2Proof.Machine.execPlannedWake r s
  | .powerStateEntryComplete r => Sys2Proof.Machine.execPowerStateEntryComplete r s
  | .wakeComplete r => Sys2Proof.Machine.execWakeComplete r s
  | .sealedWakeRewrite r => Sys2Proof.Machine.execSealedWakeRewrite r s
  | .forceBoarded src r => Sys2Proof.Machine.execForceBoarded src r s
  | .forceAuto src r => Sys2Proof.Machine.execForceAuto src r s
  | .forceOpen src r => Sys2Proof.Machine.execForceOpen src r s
  | .authGo src val => Sys2Proof.Machine.execAuthGo src val s
  | .authGoResult => Sys2Proof.Machine.execAuthGoResult s
  | .lintelRound rd => Sys2Proof.Machine.execLintelRound rd s
  | .rateSample sens => Sys2Proof.Machine.execRateSample sens s
  | .trayReport b => Sys2Proof.Machine.execTrayReport b s
  | .reportLost => Sys2Proof.Machine.execReportLost s
  | .coolantStopTimeout => Sys2Proof.Machine.execCoolantStopTimeout s
  | .profile g => Sys2Proof.Machine.execProfile g s
  | .paneClockSwitch p vmin => Sys2Proof.Machine.execPaneClockSwitch p vmin s
  | .grantRenewal ans => Sys2Proof.Machine.execGrantRenewal ans s
  | .smbalert ans => Sys2Proof.Machine.execSmbalert ans s
  | .grantLeaseExpiry => Sys2Proof.Machine.execGrantLeaseExpiry s
  | .sprintMsExpiry r => Sys2Proof.Machine.execSprintMsExpiry r s
  | .credGet g => Sys2Proof.Machine.execCredGet g s
  | .attest g => Sys2Proof.Machine.execAttest g s
  | .ownerClaim g => Sys2Proof.Machine.execOwnerClaim g s
  | .keyInstall g => Sys2Proof.Machine.execKeyInstall g s
  | .keyEnroll g => Sys2Proof.Machine.execKeyEnroll g s
  | .keyRevoke g => Sys2Proof.Machine.execKeyRevoke g s
  | .tapUnlock g => Sys2Proof.Machine.execTapUnlock g s
  | .tapLock g => Sys2Proof.Machine.execTapLock g s
  | .tapRelock => Sys2Proof.Machine.execTapRelock s
  | .approvedEnter g => Sys2Proof.Machine.execApprovedEnter g s
  | .approvedLeave g => Sys2Proof.Machine.execApprovedLeave g s
  | .zeroise g => Sys2Proof.Machine.execZeroise g s
  | .decommission g => Sys2Proof.Machine.execDecommission g s
  | .fwActivate g => Sys2Proof.Machine.execFwActivate g s
  | .reservationWriteComplete g => Sys2Proof.Machine.execReservationWriteComplete g s
  | .conditionalTestFail n sub => Sys2Proof.Machine.execConditionalTestFail n sub s
  | .drbgReseed => Sys2Proof.Machine.execDrbgReseed s
  | .tamper sw => Sys2Proof.Machine.execTamper sw s
  | .keeperRestart fail => Sys2Proof.Machine.execKeeperRestart fail s
  | .mbStatusDone bundle sigOk => Sys2Proof.Machine.execMbStatusDone bundle sigOk s
  | .powerOn vin => Sys2Proof.Machine.execPowerOn vin s
  | .resetN low => Sys2Proof.Machine.execResetN low s
  | .moduleReset src val => Sys2Proof.Machine.execModuleReset src val s
  | .lintelWatchdog => Sys2Proof.Machine.execLintelWatchdog s
  | .bootStageComplete f => Sys2Proof.Machine.execBootStageComplete f s
  | .fwAttempt => Sys2Proof.Machine.execFwAttempt s
  | .registerWrite src addr len val => Sys2Proof.Machine.execRegisterWrite src addr len val s
  | .pmcFreeze src c freeze => Sys2Proof.Machine.execPmcFreeze src c freeze s
  | .pmcClear src c freeze => Sys2Proof.Machine.execPmcClear src c freeze s
  | .quickWordRefresh n => Sys2Proof.Machine.execQuickWordRefresh n s
  | .messageRoute inp vc => Sys2Proof.Machine.execMessageRoute inp vc s
  | .directedMessage p m => Sys2Proof.Machine.execDirectedMessage p m s
  | .busbarImbalance => Sys2Proof.Machine.execBusbarImbalance s
  | .cablePresence p present => Sys2Proof.Machine.execCablePresence p present s
  | .cablePower c => Sys2Proof.Machine.execCablePower c s
  | .entdaa addr => Sys2Proof.Machine.execEntdaa addr s
  | .setdasa static addr => Sys2Proof.Machine.execSetdasa static addr s
  | .rstdaa => Sys2Proof.Machine.execRstdaa s
  | .enec addr events => Sys2Proof.Machine.execEnec addr events s
  | .disec addr events => Sys2Proof.Machine.execDisec addr events s
  | .getpid addr => Sys2Proof.Machine.execGetpid addr s
  | .getbcr addr => Sys2Proof.Machine.execGetbcr addr s
  | .getdcr addr => Sys2Proof.Machine.execGetdcr addr s
  | .getstatus addr => Sys2Proof.Machine.execGetstatus addr s
  | .trstN low => Sys2Proof.Machine.execTrstN low s
  | .bypass => Sys2Proof.Machine.execBypass s
  | .idcode => Sys2Proof.Machine.execIdcode s
  | .samplePreload sample shift => Sys2Proof.Machine.execSamplePreload sample shift s
  | .extest sample shift => Sys2Proof.Machine.execExtest sample shift s
  | .extestPulse sample shift => Sys2Proof.Machine.execExtestPulse sample shift s
  | .extestTrain sample shift => Sys2Proof.Machine.execExtestTrain sample shift s
  | .clamp => Sys2Proof.Machine.execClamp s
  | .highz => Sys2Proof.Machine.execHighz s
  | .dbgMgmt addr write data => Sys2Proof.Machine.execDbgMgmt addr write data s
  | .dbgLintelHalt => Sys2Proof.Machine.execDbgLintelHalt s
  | .dbgTrace => Sys2Proof.Machine.execDbgTrace s

end Sys2Proof.Machine
end

