-- ==== Sys2Proof/Machine/Tick.lean ====
section
/-! DEFINITION. What passing time does by itself: 250 ps of module time, and the clock periods of the core panes that end in
them (02 R41-R61, 05 R107-R119, 17 R360, 20 Table 20-6; log 1). -/

namespace Sys2Proof.Machine

/-- Frequency of a pane's clock, MHz: halved while it is stretched (15 R319, 17 R360). -/
def PaneClock.now (k : PaneClock) : Nat := if k.stretched then k.mhz / 2 else k.mhz

/-- The listed cells of a pane. -/
def State.listedCells (s : State) (p : Nat) : List Nat := (s.cells.filter (fun q => paneOfCell q.1 == p)).map (·.1)

/-- Core panes in which something is listed: in the others nothing is left to do in a clock period. -/
def State.livePanes (s : State) : List Nat :=
  ((s.panes.map (·.1) ++ s.cells.map (fun q => paneOfCell q.1)).eraseDups).filter (fun p => decide (p < 738))

/-- Event of class STOP that a period without a running cycle counts (Table 20-6). -/
def RunCond.stopEvent (shift : Bool) : RunCond → Nat
  | .awaitStall _ => 1
  | .outStall => 2
  | .paused _ => 3
  | .complete => 4
  | .faultHold => 5
  | .stopped | .running => if shift then 6 else 7

/-- Change every listed cell of a pane. -/
def State.modPaneListed (s : State) (p : Nat) (f : Cell → Cell) : State :=
  { s with cells := mmap (fun c x => if paneOfCell c == p then f x else x) s.cells }

/-- The background accesses asked for in a period are served where nothing stands against them (R56). -/
def State.serveAsked (s : State) (p : Nat) : State :=
  (s.listedCells p).foldl (fun a c => (a.cell c).grantAsk.foldl (fun b mem => b.serveBg c mem) a) s

/-- The AWAITs of a running cycle: those whose delivery is ready by now are taken, the others are left with their cells (R112). -/
def State.settleAwaits (s : State) (p n : Nat) : State × List (Nat × Nat) :=
  (s.listedCells p).foldl (fun a c =>
    let x := a.1.cell c
    match x.awaiting with
    | none => a
    | some item => if x.ready.contains (item, n) then (a.1.takeAwaited c item n, a.2) else (a.1, a.2 ++ [(c, item)])) (s, [])

/-- A running cycle of a pane ends. An AWAIT with no delivery ready stops the pane in it (R112); otherwise each cell's cycle ends, and
the pane counts it (R107, R416). An outbound stall that begins in it begins a shutter hold (R115, R116), and a failed check stops
the region once every cell has been through it (R122-R124). -/
def State.runCycle (s : State) (p r : Nat) : State :=
  let n := (s.pane p).runCycles
  let (s, waits) := (s.serveAsked p).settleAwaits p (s.region r).stepNo
  let bad (s : State) : Bool := (s.listedCells p).any (fun c => s.failed c)
  if waits ≠ [] && !bad s then
    ((s.modPane p (fun q => { q with cond := .awaitStall waits, resumeAt := none })).modPaneListed p
      (fun x => x.countEv (schedEv 2 1) 1)).settleHold r
  else
    let t := (s.listedCells p).foldl State.endCycle s
    let stop := bad t
    let t := t.modPane p (fun q => { q with runCycles := n + 1, cyc := q.cyc + 1, ranAt := s.time })
    let t := if (t.pane p).outWait = [] then t
      else (t.modPane p (fun q => { q with cond := .outStall, resumeAt := none })).settleHold r
    if stop then t.stopContract r else t

/-- One clock period of a pane: a running cycle, a period of a pause beat, or a period of another stop (R107, R116, R118);
the background accesses that were not served have waited (R56). -/
def State.clockPeriod (s : State) (p : Nat) : State :=
  let q := s.pane p
  let t : State :=
    match q.region with
    | none => s
    | some r =>
      let g := s.region r
      if q.power ≠ 0 then s
      else if q.cond = .running ∧ g.state = 3 ∧ q.cyc < g.beatLen then s.runCycle p r
      else
        let s := s.modPaneListed p (fun x => x.countEv (schedEv 2 (q.cond.stopEvent (g.shifts != []))) 1)
        match q.cond with
        | .paused (n + 1) => s.setPane p { q with cond := .paused n }
        | _ => s
  (t.serveAsked p).modPaneListed p Cell.waitBg

/-- 250 ps of one pane: its clock advances by f / 4000 periods. -/
def State.tickPane (s : State) (p : Nat) : State :=
  let q := s.pane p
  let ph := q.phase + q.clk.now
  if ph < 4000 then s.setPane p { q with phase := ph }
  else (s.setPane p { q with phase := ph - 4000 }).clockPeriod p

/-- 250 ps of module time (log 1). -/
def State.tick (s : State) : State := s.livePanes.foldl State.tickPane { s with time := s.time + 1 }

end Sys2Proof.Machine
end

