-- ==== Sys2Proof/Decode.lean ====
section
/-! DEFINITION. The command a word spells by the command table's bits. -/

namespace Sys2Proof

/-- The command table (spec/opcode_table.json) gives no row any bits, so no word spells a command (log 3). -/
def decodeTableWord (_nbits _w : Nat) : Option Instr := none

end Sys2Proof
end

