-- ==== Sys2Proof/Safety.lean ====
section
/-! DEFINITION. What the statements speak of: when a cell can issue, when a queue starts an entry, what a run may rely on, and
the invariant every step keeps. -/

namespace Sys2Proof.Machine

/-- A run that does not stop: the command answered a next state. -/
def Served (o : Out) : Prop := ∃ t, o = .next t

/-- Slot `slot` of a cell can issue in the present running cycle, its bundle's bits 3:0 are zero, and no check of the cell has failed in
the cycle (R41, R42, R44, R123). -/
abbrev Issues (s : State) (c slot : Nat) : Prop :=
  cellExists c = true ∧ s.slotLive c slot = true ∧ (s.cell c).bundle (s.cell c).pc % 16 = 0 ∧ s.failed c = false

/-- The state after a slot of a cell has issued with no failed check: the cell has become `x`, the slot is used in this cycle,
and the programmable counters have counted the issue (R41, R417). -/
def State.issuedAs (s : State) (c slot : Nat) (x : Cell) (rot : Bool := false) : State :=
  (s.keepSnap c).setCell c ((issueEvent slot rot).foldl (fun a e => a.countEv (schedEv 1 e) 1) { x with issued := slot :: x.issued })

/-- The state after a slot of a cell has issued and failed checks (R123). -/
def State.issueFails (s : State) (c slot : Nat) (l : List Chk) : State :=
  ((s.keepSnap c).modCell c (fun x => { x with issued := slot :: x.issued })).failCell c l

/-- The cell with an effect added that lands at the end of the running cycle `lat - 1` cycles after the present one, so that an
operation issued `lat` cycles later reads it (R43). -/
def State.landing (s : State) (c lat : Nat) (a : Act) : Cell := (s.ctx c).land (s.cell c) lat a

/-- The next entry of queue (g, e) may start now: entry `i` of list `l`, a waiting entry `x` with the given OP, its turn has
come, and the module is READY (R150, R154, R404). -/
abbrev Starts (s : State) (g e op : Nat) (l : ListRec) (i : Nat) (x : Entry) : Prop :=
  g < 64 ∧ e < 4 ∧ (s.queue g e).mayStart = some (l, i, x) ∧ x.op = op ∧ s.turn g e = true ∧ s.boot.ready = true

/-- The state in which that entry has just started. -/
def State.begun (s : State) (g e : Nat) (l : ListRec) (i : Nat) : State := s.startEntry ⟨g, e, l.seq, i⟩

/-- A command's entry starts with operands in their ranges (R151). -/
abbrev StartsWell (s : State) (g e op : Nat) (l : ListRec) (i : Nat) (x : Entry) : Prop :=
  Starts s g e op l i x ∧ operandsOk op x.word = true

/-- A critical command's entry starts behind a started AUTH entry `a` whose pair the Keeper accepts, which leaves the module as `u`;
an owner-only command is the owner's (R156, R157, R378). -/
abbrev Authorised (s : State) (g e op : Nat) (l : ListRec) (i : Nat) (x a : Entry) (u : State) : Prop :=
  Starts s g e op l i x ∧ s.keyReady g = true ∧ operandsOk op x.word = true ∧ (opOwner op = true → g = 0) ∧ 0 < i ∧
    (s.begun g e l i).entry ⟨g, e, l.seq, i - 1⟩ = some a ∧ a.op = 2 ∧ a.prog = 1 ∧
    (s.begun g e l i).checkPair g (bits a.word 223 160) (natLE 16 (bits a.word 159 32)) (natLE 32 x.word) = (u, true)

/-- A flit that a port in SECURING or ACTIVE takes: intact, its FEC not failed, and of no reserved type (R272, R280). -/
abbrev GoodFlit (s : State) (p : Nat) (f : RxFlit) : Prop :=
  ((s.port p).state = 3 ∨ (s.port p).state = 4) ∧ f.uncorr = false ∧ flitIntact f.bytes = true ∧
    hdrReserved (Flit.ofBytes f.bytes).hdr = false

/-- The state in which an arriving flit and its corrected symbols have been counted (R280, R290). -/
def State.flitCounted (s : State) (p : Nat) (f : RxFlit) : State :=
  let x := s.port p
  let lane (m : SMap Lane) (l : Nat) : SMap Lane :=
    let y := mget {} x.lane l
    if lget 0 f.corr l = 0 then m else mset m l { y with corr := satTo (2 ^ 48 - 1) (y.corr + lget 0 f.corr l) }
  s.modPort p (fun x => { ((x.count cFlitsRx 1).count cFecCorr (f.corr.foldl (· + ·) 0)) with lane := (List.range 8).foldl lane x.lane })

/-- The request at the head of the Keeper's queue is guest `g`'s, of operation `op`, with this body; the Keeper is OPERATIONAL, the
header is well formed, and an operation of the owner's is the owner's (R387, R388). -/
abbrev Asks (s : State) (g op : Nat) (body : List Byte) : Prop :=
  g < 64 ∧ s.mbHead = some g ∧ s.mbOp g = op ∧ s.keeper.st = 2 ∧ leAt (s.mbReq g 0 8) 2 2 = 0 ∧
    leAt (s.mbReq g 0 8) 4 4 ≤ 32736 ∧ s.mbReq g 32 (leAt (s.mbReq g 0 8) 4 4) = body ∧ (mbOwner op = true → g = 0)

/-- The same of an operation that is not critical: its COUNTER and TAG are 0 (R388). -/
abbrev AsksPlainly (s : State) (g op : Nat) (body : List Byte) : Prop :=
  Asks s g op body ∧ leNat (s.mbReq g 8 8) = 0 ∧ s.mbReq g 16 16 = zeros 16

/-- The same of a critical operation: the Keeper accepts its pair, which leaves the module as `u` (R378, R388). -/
abbrev AsksAuthorised (s : State) (g op : Nat) (body : List Byte) (u : State) : Prop :=
  Asks s g op body ∧ s.keyReady g = true ∧
    s.checkPair g (leNat (s.mbReq g 8 8)) (s.mbReq g 16 16) (s.mbReq g 0 8 ++ body) = (u, true)

/-- The limit registers: LIM_SUSTAINED, LIM_PEAK, the thermal margin, the nominal flow and SPRINT_ALLOW (R338, R343, R353, R374). -/
def State.limits (s : State) : List Nat :=
  [s.power.limSustained, s.power.limPeak, s.thermal.margin, s.thermal.flowNom, s.prof.allow]

end Sys2Proof.Machine
end

