-- ==== Sys2Proof/WellFormed.lean ====
section
/-! DEFINITION. Which commands name parts the module has, and which have operands that fit their fields. -/

namespace Sys2Proof

open Sys2Proof.Machine

/-- Fields of a message fit (Table 13-4, R273). -/
def Msg.fits (m : Msg) : Bool :=
  decide (m.kind < 4) && decide (m.vc < 4) && decide (m.dest < 65536) && decide (m.src < 65536) && decide (m.addr < 2 ^ 48) &&
    decide (m.payload.length ≤ 16777216)

/-- A flit has 256 octets (R272). -/
def RxFlit.fits (f : RxFlit) : Bool := f.bytes.length == 256

/-- Fields of a conversion (Tables 2-6, 4-6). -/
def CvtOp.fits (o : CvtOp) : Bool :=
  decide (o.fmt < 256) && decide (o.vd < 32) && decide (o.va < 32) && decide (o.ts < 32) && decide (o.site < 64) && decide (o.rd < 32)

/-- Fields of a dot issue (R46-R48). -/
def DotOp.fits (o : DotOp) : Bool :=
  decide (o.e < 16) && decide (o.wf < 256) && decide (o.af < 256) && decide (o.x < 4) && decide (o.h < 2) && decide (o.q < 2)

/-- Does the module have the part a command names: a cell (R18), a pane, port, controller, region, guest, engine or unit in the
range of its numbering? -/
def Instr.partsExist : Instr → Bool
  | .add c _ _ _ => cellExists c
  | .sub c _ _ _ => cellExists c
  | .sAnd c _ _ _ => cellExists c
  | .sOr c _ _ _ => cellExists c
  | .sXor c _ _ _ => cellExists c
  | .shl c _ _ _ => cellExists c
  | .shr c _ _ _ => cellExists c
  | .cmp c _ _ _ => cellExists c
  | .movi c _ _ => cellExists c
  | .mul c _ _ _ => cellExists c
  | .jmp c _ => cellExists c
  | .br c _ _ => cellExists c
  | .loop c _ _ _ => cellExists c
  | .await c _ => cellExists c
  | .stepwait c => cellExists c
  | .dotW c _ _ _ => cellExists c
  | .dotL c _ _ => cellExists c
  | .dotFlush c _ _ => cellExists c
  | .dotFlushAdd c _ _ => cellExists c
  | .dotClr c => cellExists c
  | .vadd c _ _ _ => cellExists c
  | .vsub c _ _ _ => cellExists c
  | .vmul c _ _ _ => cellExists c
  | .vfma c _ _ _ _ => cellExists c
  | .vmax c _ _ _ => cellExists c
  | .vmin c _ _ _ => cellExists c
  | .vcmp c _ _ _ => cellExists c
  | .vsel c _ _ _ _ => cellExists c
  | .vand c _ _ _ => cellExists c
  | .vor c _ _ _ => cellExists c
  | .vperm c _ _ _ => cellExists c
  | .vbcast c _ _ _ => cellExists c
  | .vredSum c _ _ => cellExists c
  | .vredMax c _ _ => cellExists c
  | .vcvt c _ => cellExists c
  | .vlse c _ _ _ => cellExists c
  | .exp c _ _ => cellExists c
  | .log c _ _ => cellExists c
  | .rcp c _ _ => cellExists c
  | .rsqrt c _ _ => cellExists c
  | .sqrt c _ _ => cellExists c
  | .sigm c _ _ => cellExists c
  | .tanh c _ _ => cellExists c
  | .silu c _ _ => cellExists c
  | .gelu c _ _ => cellExists c
  | .rot c _ _ _ _ _ => cellExists c
  | .lda c _ _ _ _ => cellExists c
  | .sta c _ _ _ => cellExists c
  | .stg c _ _ _ => cellExists c
  | .ldp c _ _ => cellExists c
  | .stp c _ _ => cellExists c
  | .ldw c _ _ => cellExists c
  | .send c _ _ _ => cellExists c
  | .recv c _ _ _ => cellExists c
  | .movs c _ _ _ _ => cellExists c
  | .linkNoFree c _ => cellExists c
  | .bankNoFree c _ _ _ => cellExists c
  | .beatComplete p => decide (p < 786)
  | .beatBegin p => decide (p < 786)
  | .pauseBeatEnd p => decide (p < 786)
  | .awaitResume p => decide (p < 786)
  | .outboundResume p => decide (p < 786)
  | .outboundPortDrain p _ _ _ _ _ => decide (p < 786)
  | .holdTimeout r => decide (r < 64)
  | .itemDelivery r _ => decide (r < 64)
  | .backgroundAccessGrant c _ => cellExists c
  | .verdictWord c _ => cellExists c
  | .wload g => decide (g < 64)
  | .manifestVerified _ _ _ => true
  | .shardArrived _ _ _ => true
  | .shardTimeout _ _ => true
  | .swing g => decide (g < 64)
  | .retire g => decide (g < 64)
  | .join _ => true
  | .shard _ => true
  | .hold _ => true
  | .chainHoldTimer _ => true
  | .chainAbort _ => true
  | .manifest _ => true
  | .manifestReadTimeout _ _ => true
  | .shardAck _ => true
  | .chainJoinTimeout _ => true
  | .load g _ => decide (g < 64)
  | .imageCopyComplete r _ => decide (r < 64)
  | .signatureVerified r _ => decide (r < 64)
  | .loadAdmissionTimeout r => decide (r < 64)
  | .cellWritesComplete r => decide (r < 64)
  | .release g => decide (g < 64)
  | .scrubComplete r => decide (r < 64)
  | .guestCreate g => decide (g < 64)
  | .guestLimits g => decide (g < 64)
  | .guestDelete g => decide (g < 64)
  | .guestDeleteComplete n => decide (n < 64)
  | .step g => decide (g < 64)
  | .prefill g => decide (g < 64)
  | .seqOpen g => decide (g < 64)
  | .seqClose g => decide (g < 64)
  | .seqCloseTakesEffect r n => decide (r < 64) && decide (n < 16384)
  | .cancel g => decide (g < 64)
  | .cancelAll g => decide (g < 64)
  | .park g => decide (g < 64)
  | .parkTakesEffect r n => decide (r < 64) && decide (n < 16384)
  | .resume g => decide (g < 64)
  | .fork g => decide (g < 64)
  | .forkTakesEffect r n => decide (r < 64) && decide (n < 16384)
  | .trim g => decide (g < 64)
  | .trimTakesEffect r n => decide (r < 64) && decide (n < 16384)
  | .stepAdmission r _ _ _ => decide (r < 64)
  | .stepStart r => decide (r < 64)
  | .shardCandidates r _ => decide (r < 64)
  | .campionResult r _ => decide (r < 64)
  | .stepCommit r => decide (r < 64)
  | .scatterComplete r => decide (r < 64)
  | .promotionComplete r _ => decide (r < 64)
  | .epochPassed d => decide (d < 4194304)
  | .parkExpiry k => decide (k < 65536)
  | .draftRecord _ => true
  | .verifyRecord _ => true
  | .deadCellDetect c => cellExists c
  | .rowShiftCopyComplete r => decide (r < 64)
  | .memDataRead _ c _ => cellExists c
  | .memDataWrite _ c _ => cellExists c
  | .clearBankCounters _ c => cellExists c
  | .clearFaultLatch _ c => cellExists c
  | .commandListIntake _ => true
  | .nop g e => decide (g < 64) && decide (e < 4)
  | .wait g e => decide (g < 64) && decide (e < 4)
  | .waitTimeout g e _ _ => decide (g < 64) && decide (e < 4)
  | .auth g e => decide (g < 64) && decide (e < 4)
  | .completionRecordTimeout _ => true
  | .maskSourceLoad _ g _ => decide (g < 64)
  | .maskSourceLoadComplete n _ => decide (n < 0x300)
  | .maskSourceFree _ g _ => decide (g < 64)
  | .samplingEntryCommit _ g e _ => decide (g < 64) && decide (e < 256)
  | .hbmRead _ _ _ _ _ => true
  | .hbmWrite _ _ _ _ => true
  | .ueRetry n _ _ => decide (n < 24)
  | .hbmUnitZero u => decide (u < 375000000)
  | .patrolScrub n _ _ => decide (n < 24)
  | .close _ n _ => decide (n < 24)
  | .hbmOpen _ n _ => decide (n < 24)
  | .closingComplete n c bank => decide (n < 24) && decide (c < 32) && decide (bank.getD 0 < 64)
  | .openingComplete n c bank => decide (n < 24) && decide (c < 32) && decide (bank.getD 0 < 64)
  | .bwCtlWrite _ port n _ => decide (n < (if port then 96 else 24))
  | .bwWindowEnd port n => decide (n < (if port then 96 else 24))
  | .peerSignalDetect p => decide (p < 96)
  | .trainingComplete p _ _ _ => decide (p < 96)
  | .trainFail p _ => decide (p < 96)
  | .laneLoss p lane => decide (p < 96) && decide (lane < 8)
  | .retrainComplete p _ => decide (p < 96)
  | .retrainTimeout p => decide (p < 96)
  | .portEnable _ p _ => decide (p < 96)
  | .retrain _ p _ => decide (p < 96)
  | .fullwidth _ p _ => decide (p < 96)
  | .rekey _ p _ => decide (p < 96)
  | .rekeyDue p => decide (p < 96)
  | .runLimitExhausted p => decide (p < 96)
  | .securingTimeout p => decide (p < 96)
  | .flitTransmit p => decide (p < 96)
  | .dataFlitReceive p _ => decide (p < 96)
  | .idle p _ => decide (p < 96)
  | .seal p _ => decide (p < 96)
  | .retryReq p _ => decide (p < 96)
  | .retryReqRepeat p => decide (p < 96)
  | .replay p _ => decide (p < 96)
  | .creditStall p vc _ => decide (p < 96) && decide (vc < 4)
  | .quickRead p _ => decide (p < 96)
  | .regionArrival _ => true
  | .errorCompletion _ _ => true
  | .knock p _ => decide (p < 96)
  | .answer p _ => decide (p < 96)
  | .knockRetry p => decide (p < 96)
  | .fabricAddrWrite _ _ => true
  | .bridgeWrite _ _ => true
  | .bridgeBeatTimer => true
  | .bridgeBeat _ => true
  | .bridgeTakeover => true
  | .bridgeAnnounce _ => true
  | .multicastReceive inp _ => decide (inp.getD 0 < 96)
  | .mcAck p _ => decide (p < 96)
  | .arrive p _ => decide (p < 96)
  | .releaseBarrier p _ => decide (p < 96)
  | .barArrive _ _ => true
  | .barrierTimeout t => decide (t < 64)
  | .hello p _ _ => decide (p < 96)
  | .encap p => decide (p < 96)
  | .finish p _ => decide (p < 96)
  | .linkAbort p => decide (p < 96)
  | .linkAuthRetry p => decide (p < 96)
  | .faultForward => true
  | .faultMessageRetry _ => true
  | .faultMessage _ => true
  | .faultAck _ => true
  | .faultSinkWrite => true
  | .faultReport _ => true
  | .faultEntrySettle _ => true
  | .alertCauseClear _ _ => true
  | .ibiAck => true
  | .shelfStatusRetry => true
  | .ftMetaRead _ _ => true
  | .inputLow _ => true
  | .inputLowRelease _ => true
  | .inputLowShutdown _ => true
  | .inputHigh _ => true
  | .converterFail k c => decide (k < 9) && decide (c < lget 4 [3, 4, 4, 4, 4, 4, 4, 3, 3] k)
  | .boost p _ => decide (p < 786)
  | .clockStretch p _ => decide (p < 786)
  | .shunt p _ => decide (p < 786)
  | .droop p _ => decide (p < 786)
  | .loadStepRaise p => decide (p < 738)
  | .loadStepRaiseEnd p => decide (p < 738)
  | .phaseFail p ph _ => decide (p < 786) && decide (ph < (if p < 738 then 4 else 3))
  | .admissionTest r => decide (r < 64)
  | .admissionRetest r => decide (r < 64)
  | .rampStep r => decide (r < 64)
  | .segmentOver k => decide (k < 9)
  | .powerFastSample _ _ => true
  | .powerStateLower r => decide (r < 64)
  | .idleEscalation r => decide (r < 64)
  | .plannedWake r => decide (r < 64)
  | .powerStateEntryComplete r => decide (r < 64)
  | .wakeComplete r => decide (r < 64)
  | .sealedWakeRewrite r => decide (r < 64)
  | .forceBoarded _ r => decide (r < 64)
  | .forceAuto _ r => decide (r < 64)
  | .forceOpen _ r => decide (r < 64)
  | .authGo _ _ => true
  | .authGoResult => true
  | .lintelRound _ => true
  | .rateSample _ => true
  | .trayReport _ => true
  | .reportLost => true
  | .coolantStopTimeout => true
  | .profile g => decide (g < 64)
  | .paneClockSwitch p _ => decide (p < 738)
  | .grantRenewal _ => true
  | .smbalert _ => true
  | .grantLeaseExpiry => true
  | .sprintMsExpiry r => decide (r < 64)
  | .credGet g => decide (g < 64)
  | .attest g => decide (g < 64)
  | .ownerClaim g => decide (g < 64)
  | .keyInstall g => decide (g < 64)
  | .keyEnroll g => decide (g < 64)
  | .keyRevoke g => decide (g < 64)
  | .tapUnlock g => decide (g < 64)
  | .tapLock g => decide (g < 64)
  | .tapRelock => true
  | .approvedEnter g => decide (g < 64)
  | .approvedLeave g => decide (g < 64)
  | .zeroise g => decide (g < 64)
  | .decommission g => decide (g < 64)
  | .fwActivate g => decide (g < 64)
  | .reservationWriteComplete g => decide (g < 64)
  | .conditionalTestFail _ _ => true
  | .drbgReseed => true
  | .tamper sw => decide (sw < 4)
  | .keeperRestart _ => true
  | .mbStatusDone _ _ => true
  | .powerOn _ => true
  | .resetN _ => true
  | .moduleReset _ _ => true
  | .lintelWatchdog => true
  | .bootStageComplete _ => true
  | .fwAttempt => true
  | .registerWrite _ _ _ _ => true
  | .pmcFreeze _ c _ => cellExists c
  | .pmcClear _ c _ => cellExists c
  | .quickWordRefresh n => decide (n < 12)
  | .messageRoute inp vc => decide (inp.getD 0 < 96) && decide (vc < 4)
  | .directedMessage p _ => decide (p < 96)
  | .busbarImbalance => true
  | .cablePresence p _ => decide (p < 96)
  | .cablePower c => decide (c < 24)
  | .entdaa _ => true
  | .setdasa _ _ => true
  | .rstdaa => true
  | .enec _ _ => true
  | .disec _ _ => true
  | .getpid _ => true
  | .getbcr _ => true
  | .getdcr _ => true
  | .getstatus _ => true
  | .trstN _ => true
  | .bypass => true
  | .idcode => true
  | .samplePreload _ _ => true
  | .extest _ _ => true
  | .extestPulse _ _ => true
  | .extestTrain _ _ => true
  | .clamp => true
  | .highz => true
  | .dbgMgmt _ _ _ => true
  | .dbgLintelHalt => true
  | .dbgTrace => true

/-- Do the command's operands fit the fields they stand for? -/
def Instr.fieldsFit : Instr → Bool
  | .add _ rd ra rb => decide (rd < 32) && decide (ra < 32) && decide (rb < 32)
  | .sub _ rd ra rb => decide (rd < 32) && decide (ra < 32) && decide (rb < 32)
  | .sAnd _ rd ra rb => decide (rd < 32) && decide (ra < 32) && decide (rb < 32)
  | .sOr _ rd ra rb => decide (rd < 32) && decide (ra < 32) && decide (rb < 32)
  | .sXor _ rd ra rb => decide (rd < 32) && decide (ra < 32) && decide (rb < 32)
  | .shl _ rd ra rb => decide (rd < 32) && decide (ra < 32) && decide (rb < 32)
  | .shr _ rd ra rb => decide (rd < 32) && decide (ra < 32) && decide (rb < 32)
  | .cmp _ rd ra rb => decide (rd < 32) && decide (ra < 32) && decide (rb < 32)
  | .movi _ rd imm => decide (rd < 32) && decide (imm < 2 ^ 20)
  | .mul _ rd ra rb => decide (rd < 32) && decide (ra < 32) && decide (rb < 32)
  | .jmp _ target => decide (target < 1024)
  | .br _ rs target => decide (rs < 32) && decide (target < 1024)
  | .loop _ fromReg count last => decide (if fromReg then count < 32 else count < 65536) && decide (last < 1024)
  | .await _ item => decide (item < 32)
  | .stepwait _ => true
  | .dotW _ o waddr saddr => o.fits && decide (waddr < 2 ^ 32) && decide (saddr < 2 ^ 32)
  | .dotL _ o grp => o.fits && decide (grp < 4)
  | .dotFlush _ e paddr => decide (e < 15) && decide (paddr < 2 ^ 32)
  | .dotFlushAdd _ e paddr => decide (e < 15) && decide (paddr < 2 ^ 32)
  | .dotClr _ => true
  | .vadd _ vd va vb => decide (vd < 32) && decide (va < 32) && decide (vb < 32)
  | .vsub _ vd va vb => decide (vd < 32) && decide (va < 32) && decide (vb < 32)
  | .vmul _ vd va vb => decide (vd < 32) && decide (va < 32) && decide (vb < 32)
  | .vfma _ vd va vb vc => decide (vd < 32) && decide (va < 32) && decide (vb < 32) && decide (vc < 32)
  | .vmax _ vd va vb => decide (vd < 32) && decide (va < 32) && decide (vb < 32)
  | .vmin _ vd va vb => decide (vd < 32) && decide (va < 32) && decide (vb < 32)
  | .vcmp _ vd va vb => decide (vd < 32) && decide (va < 32) && decide (vb < 32)
  | .vsel _ vd va vb vc => decide (vd < 32) && decide (va < 32) && decide (vb < 32) && decide (vc < 32)
  | .vand _ vd va vb => decide (vd < 32) && decide (va < 32) && decide (vb < 32)
  | .vor _ vd va vb => decide (vd < 32) && decide (va < 32) && decide (vb < 32)
  | .vperm _ vd va vb => decide (vd < 32) && decide (va < 32) && decide (vb < 32)
  | .vbcast _ vd va lane => decide (vd < 32) && decide (va < 32) && decide (lane < 16)
  | .vredSum _ vd va => decide (vd < 32) && decide (va < 32)
  | .vredMax _ vd va => decide (vd < 32) && decide (va < 32)
  | .vcvt _ o => o.fits
  | .vlse _ vd va vb => decide (vd < 32) && decide (va < 32) && decide (vb < 32)
  | .exp _ vd va => decide (vd < 32) && decide (va < 32)
  | .log _ vd va => decide (vd < 32) && decide (va < 32)
  | .rcp _ vd va => decide (vd < 32) && decide (va < 32)
  | .rsqrt _ vd va => decide (vd < 32) && decide (va < 32)
  | .sqrt _ vd va => decide (vd < 32) && decide (va < 32)
  | .sigm _ vd va => decide (vd < 32) && decide (va < 32)
  | .tanh _ vd va => decide (vd < 32) && decide (va < 32)
  | .silu _ vd va => decide (vd < 32) && decide (va < 32)
  | .gelu _ vd va => decide (vd < 32) && decide (va < 32)
  | .rot _ vd va rs base _ => decide (vd < 32) && decide (va < 32) && decide (rs < 32) && decide (base < 128)
  | .lda _ addr toX r h => decide (addr < 2 ^ 32) && decide (if toX then r < 4 else r < 32) && decide (h < 2)
  | .sta _ v h addr => decide (v < 32) && decide (h < 2) && decide (addr < 2 ^ 32)
  | .stg _ v h idx => decide (v < 32) && decide (h < 2) && decide (idx < 512)
  | .ldp _ vd addr => decide (vd < 32) && decide (addr < 2 ^ 32)
  | .stp _ v addr => decide (v < 32) && decide (addr < 2 ^ 32)
  | .ldw _ vd addr => decide (vd < 32) && decide (addr < 2 ^ 32)
  | .send _ route v h => decide (route < 32) && decide (v < 32) && decide (h < 2)
  | .recv _ vd h src => decide (vd < 32) && decide (h < 2) && decide (src < 5)
  | .movs _ r v lane _ => decide (r < 32) && decide (v < 32) && decide (lane < 16)
  | .linkNoFree _ dir => decide (dir < 5)
  | .bankNoFree _ mem bank _ => decide (mem < 6) && decide (bank < 64)
  | .beatComplete _ => true
  | .beatBegin _ => true
  | .pauseBeatEnd _ => true
  | .awaitResume _ => true
  | .outboundResume _ => true
  | .outboundPortDrain _ _ vc dest addr ⟨_, pre⟩ => decide (vc < 4) && decide (dest < 65536) && decide (addr < 2 ^ 48) &&
      (match pre with | some f => decide (f.fmt < 256) && decide (f.flags < 256) | none => true)
  | .holdTimeout _ => true
  | .itemDelivery _ _ => true
  | .backgroundAccessGrant _ mem => decide (mem < 6)
  | .verdictWord _ _ => true
  | .wload _ => true
  | .manifestVerified _ _ _ => true
  | .shardArrived _ _ _ => true
  | .shardTimeout _ _ => true
  | .swing _ => true
  | .retire _ => true
  | .join m => m.fits
  | .shard m => m.fits
  | .hold m => m.fits
  | .chainHoldTimer _ => true
  | .chainAbort m => m.fits
  | .manifest m => m.fits
  | .manifestReadTimeout _ _ => true
  | .shardAck m => m.fits
  | .chainJoinTimeout _ => true
  | .load _ _ => true
  | .imageCopyComplete _ _ => true
  | .signatureVerified _ _ => true
  | .loadAdmissionTimeout _ => true
  | .cellWritesComplete _ => true
  | .release _ => true
  | .scrubComplete _ => true
  | .guestCreate _ => true
  | .guestLimits _ => true
  | .guestDelete _ => true
  | .guestDeleteComplete _ => true
  | .step _ => true
  | .prefill _ => true
  | .seqOpen _ => true
  | .seqClose _ => true
  | .seqCloseTakesEffect _ _ => true
  | .cancel _ => true
  | .cancelAll _ => true
  | .park _ => true
  | .parkTakesEffect _ _ => true
  | .resume _ => true
  | .fork _ => true
  | .forkTakesEffect _ _ => true
  | .trim _ => true
  | .trimTakesEffect _ _ => true
  | .stepAdmission _ _ _ _ => true
  | .stepStart _ => true
  | .shardCandidates _ _ => true
  | .campionResult _ _ => true
  | .stepCommit _ => true
  | .scatterComplete _ => true
  | .promotionComplete _ _ => true
  | .epochPassed _ => true
  | .parkExpiry _ => true
  | .draftRecord m => m.fits
  | .verifyRecord m => m.fits
  | .deadCellDetect _ => true
  | .rowShiftCopyComplete _ => true
  | .memDataRead src _ rtag => decide (src < 65536) && decide (rtag < 2 ^ 32)
  | .memDataWrite src _ _ => decide (src < 65536)
  | .clearBankCounters src _ => decide (src < 65536)
  | .clearFaultLatch src _ => decide (src < 65536)
  | .commandListIntake m => m.fits
  | .nop _ _ => true
  | .wait _ _ => true
  | .waitTimeout _ _ seq _ => decide (seq < 2 ^ 48)
  | .auth _ _ => true
  | .completionRecordTimeout _ => true
  | .maskSourceLoad src _ val => decide (src < 65536) && decide (val < 2 ^ 64)
  | .maskSourceLoadComplete _ _ => true
  | .maskSourceFree src _ val => decide (src < 65536) && decide (val < 2 ^ 64)
  | .samplingEntryCommit src _ _ _ => decide (src < 65536)
  | .hbmRead a src master outcome ⟨_, rtag⟩ => decide (rtag < 2 ^ 32) && decide (a < 2 ^ 46) && decide (src < 65536) && decide (master < 16) && decide (outcome < 3)
  | .hbmWrite a src master _ => decide (a < 2 ^ 46) && decide (src < 65536) && decide (master < 16)
  | .ueRetry _ _ outcome => decide (outcome < 3)
  | .hbmUnitZero _ => true
  | .patrolScrub _ corrected _ => decide (corrected < 2 ^ 48)
  | .close src _ val => decide (src < 65536) && decide (val < 2 ^ 64)
  | .hbmOpen src _ val => decide (src < 65536) && decide (val < 2 ^ 64)
  | .closingComplete _ _ _ => true
  | .openingComplete _ _ _ => true
  | .bwCtlWrite src _ _ val => decide (src < 65536) && decide (val < 2 ^ 64)
  | .bwWindowEnd _ _ => true
  | .peerSignalDetect _ => true
  | .trainingComplete _ lock pol _ => decide (lock < 256) && decide (pol < 256)
  | .trainFail _ lock => decide (lock < 256)
  | .laneLoss _ _ => true
  | .retrainComplete _ lock => decide (lock < 256)
  | .retrainTimeout _ => true
  | .portEnable src _ val => decide (src < 65536) && decide (val < 2 ^ 64)
  | .retrain src _ val => decide (src < 65536) && decide (val < 2 ^ 64)
  | .fullwidth src _ val => decide (src < 65536) && decide (val < 2 ^ 64)
  | .rekey src _ val => decide (src < 65536) && decide (val < 2 ^ 64)
  | .rekeyDue _ => true
  | .runLimitExhausted _ => true
  | .securingTimeout _ => true
  | .flitTransmit _ => true
  | .dataFlitReceive _ f => f.fits
  | .idle _ f => f.fits
  | .seal _ f => f.fits
  | .retryReq _ f => f.fits
  | .retryReqRepeat _ => true
  | .replay _ f => f.fits
  | .creditStall _ vc _ => decide (vc < 4)
  | .quickRead _ f => f.fits
  | .regionArrival ⟨m, red⟩ => m.fits && (match red with | some q => decide (q.1 < q.2) | none => true)
  | .errorCompletion m _ => m.fits
  | .knock _ m => m.fits
  | .answer _ m => m.fits
  | .knockRetry _ => true
  | .fabricAddrWrite src val => decide (src < 65536) && decide (val < 2 ^ 64)
  | .bridgeWrite src val => decide (src < 65536) && decide (val < 2 ^ 64)
  | .bridgeBeatTimer => true
  | .bridgeBeat m => m.fits
  | .bridgeTakeover => true
  | .bridgeAnnounce m => m.fits
  | .multicastReceive _ m => m.fits
  | .mcAck _ m => m.fits
  | .arrive _ m => m.fits
  | .releaseBarrier _ m => m.fits
  | .barArrive src val => decide (src < 65536) && decide (val < 2 ^ 64)
  | .barrierTimeout _ => true
  | .hello _ _ _ => true
  | .encap _ => true
  | .finish _ _ => true
  | .linkAbort _ => true
  | .linkAuthRetry _ => true
  | .faultForward => true
  | .faultMessageRetry _ => true
  | .faultMessage m => m.fits
  | .faultAck m => m.fits
  | .faultSinkWrite => true
  | .faultReport _ => true
  | .faultEntrySettle _ => true
  | .alertCauseClear src val => decide (src < 65536) && decide (val < 2 ^ 64)
  | .ibiAck => true
  | .shelfStatusRetry => true
  | .ftMetaRead src rtag => decide (src < 65536) && decide (rtag < 2 ^ 32)
  | .inputLow vin => decide (vin < 2 ^ 16)
  | .inputLowRelease vin => decide (vin < 2 ^ 16)
  | .inputLowShutdown vin => decide (vin < 2 ^ 16)
  | .inputHigh vin => decide (vin < 2 ^ 16)
  | .converterFail _ _ => true
  | .boost _ lo => decide (lo < 2 ^ 16)
  | .clockStretch _ lo => decide (lo < 2 ^ 16)
  | .shunt _ hi => decide (hi < 2 ^ 16)
  | .droop _ lo => decide (lo < 2 ^ 16)
  | .loadStepRaise _ => true
  | .loadStepRaiseEnd _ => true
  | .phaseFail _ _ why => decide (why < 256)
  | .admissionTest _ => true
  | .admissionRetest _ => true
  | .rampStep _ => true
  | .segmentOver _ => true
  | .powerFastSample _ _ => true
  | .powerStateLower _ => true
  | .idleEscalation _ => true
  | .plannedWake _ => true
  | .powerStateEntryComplete _ => true
  | .wakeComplete _ => true
  | .sealedWakeRewrite _ => true
  | .forceBoarded src _ => decide (src < 65536)
  | .forceAuto src _ => decide (src < 65536)
  | .forceOpen src _ => decide (src < 65536)
  | .authGo src val => decide (src < 65536) && decide (val < 2 ^ 64)
  | .authGoResult => true
  | .lintelRound _ => true
  | .rateSample _ => true
  | .trayReport _ => true
  | .reportLost => true
  | .coolantStopTimeout => true
  | .profile _ => true
  | .paneClockSwitch _ lo => decide (lo < 2 ^ 16)
  | .grantRenewal _ => true
  | .smbalert _ => true
  | .grantLeaseExpiry => true
  | .sprintMsExpiry _ => true
  | .credGet _ => true
  | .attest _ => true
  | .ownerClaim _ => true
  | .keyInstall _ => true
  | .keyEnroll _ => true
  | .keyRevoke _ => true
  | .tapUnlock _ => true
  | .tapLock _ => true
  | .tapRelock => true
  | .approvedEnter _ => true
  | .approvedLeave _ => true
  | .zeroise _ => true
  | .decommission _ => true
  | .fwActivate _ => true
  | .reservationWriteComplete _ => true
  | .conditionalTestFail _ n => decide (n < 256)
  | .drbgReseed => true
  | .tamper _ => true
  | .keeperRestart fail => decide (fail < 2 ^ 16)
  | .mbStatusDone _ _ => true
  | .powerOn vin => decide (vin < 2 ^ 16)
  | .resetN _ => true
  | .moduleReset src val => decide (src < 65536) && decide (val < 2 ^ 64)
  | .lintelWatchdog => true
  | .bootStageComplete _ => true
  | .fwAttempt => true
  | .registerWrite src addr _ val => decide (src < 65536) && decide (addr < 2 ^ 40) && decide (val < 2 ^ 64)
  | .pmcFreeze src _ _ => decide (src < 65536)
  | .pmcClear src _ _ => decide (src < 65536)
  | .quickWordRefresh _ => true
  | .messageRoute _ vc => decide (vc < 4)
  | .directedMessage _ m => m.fits
  | .busbarImbalance => true
  | .cablePresence _ _ => true
  | .cablePower _ => true
  | .entdaa addr => decide (addr < 128)
  | .setdasa static addr => decide (static < 128) && decide (addr < 128)
  | .rstdaa => true
  | .enec _ events => decide (events < 256)
  | .disec _ events => decide (events < 256)
  | .getpid addr => decide (addr < 128)
  | .getbcr addr => decide (addr < 128)
  | .getdcr addr => decide (addr < 128)
  | .getstatus addr => decide (addr < 128)
  | .trstN _ => true
  | .bypass => true
  | .idcode => true
  | .samplePreload sample shift => decide (sample < 2 ^ 1557) && decide (shift < 2 ^ 1557)
  | .extest sample shift => decide (sample < 2 ^ 1557) && decide (shift < 2 ^ 1557)
  | .extestPulse sample shift => decide (sample < 2 ^ 1557) && decide (shift < 2 ^ 1557)
  | .extestTrain sample shift => decide (sample < 2 ^ 1557) && decide (shift < 2 ^ 1557)
  | .clamp => true
  | .highz => true
  | .dbgMgmt addr _ data => decide (addr < 2 ^ 40) && decide (data < 2 ^ 64)
  | .dbgLintelHalt => true
  | .dbgTrace => true

/-- A command that names parts the module has, with operands that fit. -/
def Instr.wellFormed (i : Instr) : Bool := i.partsExist && i.fieldsFit

end Sys2Proof
end

