-- ==== Sys2Proof/Certificates/Slice0/Obligations.lean ====
section
/-! DEFINITION. The statements about the module. -/

open Sys2Proof Sys2Proof.Machine

/-- Step takes the command at the front of the queue and answers what exec answers over the queue's rest. -/
def Obligations.StepRunsFrontCommand : Prop :=
  ∀ (s : State) (c : Instr) (rest : List Instr), s.pending = c :: rest → step s = exec c { s with pending := rest }

/-- With no command waiting, 250 ps of module time pass: the step always answers a next state, and where the module holds no pane
and no cell that anything has changed, nothing but the time differs (log 1: the model's choice). -/
def Obligations.IdleStepPassesTime : Prop :=
  ∀ s : State, s.pending = [] →
    step s = .next s.tick ∧ (s.panes = [] → s.cells = [] → s.tick = { s with time := s.time + 1 })

/-- The scalar operations of the CTL slot: the result of ADD, SUB, AND, OR, XOR, SHL, SHR, CMP and MOVI lands after 1 cycle, that of MUL
after 3, in register rd (R43); nothing else of the module changes but the slot's use and the counters of issues. A shift by 32 or
more gives the unconstrained value of log 9, and CMP's result is unconstrained (log 9). What lands at the end of a running cycle: a
scalar result is in its register, except that s0 keeps reading zero and discards the write; a vector result is in its register; and
no other register changes. -/
def Obligations.ScalarOperations : Prop :=
  (∀ (s : State) (c rd ra rb imm : Nat), Issues s c 0 → rd < 32 → ra < 32 → rb < 32 → imm < 2 ^ 20 →
    let x := s.cell c
    let out (lat : Nat) (v : R32) : Out := .next (s.issuedAs c 0 (s.landing c lat (.sReg rd v)))
    exec (.add c rd ra rb) s = out 1 (x.s ra + x.s rb) ∧
    exec (.sub c rd ra rb) s = out 1 (x.s ra - x.s rb) ∧
    exec (.sAnd c rd ra rb) s = out 1 (x.s ra &&& x.s rb) ∧
    exec (.sOr c rd ra rb) s = out 1 (x.s ra ||| x.s rb) ∧
    exec (.sXor c rd ra rb) s = out 1 (x.s ra ^^^ x.s rb) ∧
    ((x.s rb).toNat < 32 → exec (.shl c rd ra rb) s = out 1 (x.s ra <<< (x.s rb).toNat)) ∧
    ((x.s rb).toNat < 32 → exec (.shr c rd ra rb) s = out 1 (x.s ra >>> (x.s rb).toNat)) ∧
    (32 ≤ (x.s rb).toNat → exec (.shl c rd ra rb) s = out 1 (Config.longShift false (x.s ra) (x.s rb))) ∧
    (32 ≤ (x.s rb).toNat → exec (.shr c rd ra rb) s = out 1 (Config.longShift true (x.s ra) (x.s rb))) ∧
    exec (.cmp c rd ra rb) s = out 1 (Config.cmpResult (x.s ra) (x.s rb)) ∧
    exec (.movi c rd imm) s = out 1 ((BitVec.ofNat 20 imm).signExtend 32) ∧
    exec (.mul c rd ra rb) s = out 3 (x.s ra * x.s rb)) ∧
  (∀ (x : Cell) (n r q : Nat) (v : R32) (w : W512),
    (x.land1 n (.sReg r v)).s q = (if q = r ∧ r ≠ 0 then v else x.s q) ∧
    (x.land1 n (.sReg r v)).v q = x.v q ∧
    (x.land1 n (.vReg r w)).v q = (if q = r then w else x.v q) ∧
    (x.land1 n (.vReg r w)).s q = x.s q ∧
    (x.land1 n (.sReg r v)).wmem = x.wmem ∧ (x.land1 n (.sReg r v)).amem = x.amem ∧
    (x.land1 n (.vReg r w)).wmem = x.wmem ∧ (x.land1 n (.vReg r w)).amem = x.amem)

/-- JMP and BR outside a delay bundle and no loop end: the branch is remembered and takes effect after the next bundle in sequence; BR
is taken as the unconstrained condition of log 9 says (R45). A taken branch leaves one delay bundle: the cycle that issues it goes
on in sequence, and the next one goes to the target (R45). LOOP with 1 to 65,535 iterations and fewer than four loops open pushes a
loop of the bundles from the next one to `last`, its count an immediate or a register (R45); AWAIT with the item's delivery of the
present step ready records the take (R112); STEPWAIT in the step's last beat stops the cell's issue (R111); an AWAIT that finds none
ready is kept until its cycle ends. A running cycle in which an AWAIT finds no delivery ready, by the cycle's end, stops the running
cycles of its pane at that cycle: the cycle is not counted and no effect of it lands; a delivery that became ready within it is
taken as at once (R112). -/
def Obligations.BranchesLoopsAndAwaits : Prop :=
  (∀ (s : State) (c rs target : Nat), Issues s c 0 → rs < 32 → target < 1024 → (s.ctx c).branchChk = [] →
    let x := s.cell c
    exec (.jmp c target) s = .next (s.issuedAs c 0 { x with branchNext := some (some target) }) ∧
    exec (.br c rs target) s =
      .next (s.issuedAs c 0 { x with branchNext := some (if Config.branchTaken (x.s rs) then some target else none) })) ∧
  (∀ (x : Cell) (t : Nat), x.stepwait = false → x.loops = [] → x.inDelay = false → x.branchNext = some (some t) →
    x.advance.pc = x.pc + 1 ∧ x.advance.inDelay = true ∧ x.advance.advance.pc = t ∧ x.advance.advance.inDelay = false) ∧
  (∀ (s : State) (c : Nat), Issues s c 0 →
    let x := s.cell c
    (∀ (fromReg : Bool) (count last : Nat), last < 1024 → x.loops.length < 4 → (fromReg = true → count < 32) →
      let n := if fromReg then (x.s count).toNat else count
      1 ≤ n → n ≤ 65535 → (x.inDelay = false ∨ last ≠ x.pc) →
      exec (.loop c fromReg count last) s = .next (s.issuedAs c 0 { x with loops := ⟨x.pc + 1, last, n⟩ :: x.loops })) ∧
    (∀ item : Nat, item < 32 → item < x.items.length → item ∉ x.taken → (item, (s.ctx c).step) ∈ x.ready →
      exec (.await c item) s = .next (s.issuedAs c 0 (x.take item (s.ctx c).step))) ∧
    (∀ item : Nat, item < 32 → item < x.items.length → item ∉ x.taken → (item, (s.ctx c).step) ∉ x.ready →
      exec (.await c item) s = .next (s.issuedAs c 0 { x with awaiting := some item })) ∧
    ((s.ctx c).beat = (s.ctx c).reg.lastBeat →
      exec (.stepwait c) s = .next (s.issuedAs c 0 { x with stepwait := true }))) ∧
  ((∀ (s u : State) (p r : Nat) (w : Nat × Nat) (ws : List (Nat × Nat)),
    (s.serveAsked p).settleAwaits p (s.region r).stepNo = (u, w :: ws) → (u.listedCells p).any (fun c => u.failed c) = false →
    ((s.runCycle p r).pane p).cond = .awaitStall (w :: ws) ∧ ((s.runCycle p r).pane p).runCycles = (u.pane p).runCycles ∧
      ∀ c, ((s.runCycle p r).cell c).sreg = (u.cell c).sreg ∧ ((s.runCycle p r).cell c).evs = (u.cell c).evs) ∧
  (∀ (s : State) (p n c item : Nat) (x : Cell), s.cells = [(c, x)] → paneOfCell c = p → x.awaiting = some item →
    s.settleAwaits p n = (if (item, n) ∈ x.ready then (s.takeAwaited c item n, []) else (s, [(c, item)]))))

/-- Dot issues in the DOT slot (R46-R48, R92, R93): with usable operands and no access that meets another, DOT.W puts the weight
word into the latch and, in a scaled format, the side read's octets into the scale registers, and feeds it to the run adder; DOT.L feeds the latch's; both in the present cycle. DOT.FLUSH writes 16 entries to
a partial-sum word and clears them, DOT.FLUSHADD adds them to it, and DOT.CLR clears all entries; each ends the open run. -/
def Obligations.DotIssues : Prop :=
  ∀ (s : State) (c : Nat), Issues s c 1 →
    let x := s.cell c
    let k := s.ctx c
    (∀ (o : DotOp) (grp : Nat), dotOk o grp = true →
      exec (.dotL c o grp) s = .next (s.issuedAs c 1 (k.dot x o (dotIn x o grp x.latch x.scales)))) ∧
    (∀ (o : DotOp) (waddr saddr : Nat) (f : Fmt), dotOk o 0 = true → fmtOf o.wf = some f → f.scaled = false →
      let a := (k.reg.windowBase + waddr) % 2 ^ 20 / 64 * 64
      let word : W512 := BitVec.ofNat 512 (x.wmem.readLE a 64)
      let acc := k.access 1 1 1 a 0 false
      k.clashNow acc = [] →
      exec (.dotW c o waddr saddr) s =
        .next (s.issuedAs c 1 (k.dot (k.land (x.addAcc acc) 1 (.latch word)) o (dotIn x o 0 word x.scales)))) ∧
    (∀ (o : DotOp) (waddr saddr : Nat) (f : Fmt), dotOk o 0 = true → fmtOf o.wf = some f → f.scaled = true →
      let a := (k.reg.windowBase + waddr) % 2 ^ 20 / 64 * 64
      let b := (k.reg.windowBase + saddr) % 2 ^ 20 / 8 * 8
      let word : W512 := BitVec.ofNat 512 (x.wmem.readLE a 64)
      let fetched := (List.range (sideScales f)).map (fun i => (i, (x.wmem.get (b + i)).toNat))
      let acc := k.access 1 1 1 a 0 false
      let side := k.access 1 2 1 b 0 true
      k.clashNow acc = [] → k.clashNow side = [] → bankOf 1 a ≠ bankOf 1 b →
      exec (.dotW c o waddr saddr) s =
        .next (s.issuedAs c 1 (k.dot (k.land (k.land ((x.addAcc acc).addAcc side) 1 (.latch word)) 1 (.scales fetched)) o
          (dotIn x o 0 word (fetched.foldl (fun m p => mset m p.1 p.2) x.scales))))) ∧
    (∀ e paddr : Nat, e < 15 → paddr < 32768 →
      let a := paddr / 64 * 64
      exec (.dotFlush c e paddr) s =
        .next (s.issuedAs c 1 (k.land (k.land (x.closeRun.addAcc (k.access 3 5 1 a 1 false)) 2
          (.store 3 a ((x.flushVals e).flatMap (bytesOf 4)) x.pc 1 5)) 2 (.accClear [e, e + 1]))) ∧
      exec (.dotFlushAdd c e paddr) s =
        .next (s.issuedAs c 1 (k.land (k.land ((x.closeRun.addAcc (k.access 3 4 1 a 1 false)).addAcc (k.access 3 5 1 a 3 false)) 2
          (.flushRead a (x.flushVals e))) 4 (.accClear [e, e + 1])))) ∧
    exec (.dotClr c) s = .next (s.issuedAs c 1 (k.land x.closeRun 1 (.accClear (List.range 16))))

/-- The vector unit: each operation's result lands in vd after the latency of Table 2-6. The selection, comparison and
permutation rules that the spec does not state are the unconstrained ones of log 9. -/
def Obligations.VectorOperations : Prop :=
  ∀ (s : State) (c vd va vb vc lane : Nat), Issues s c 2 → vd < 32 → va < 32 → vb < 32 → vc < 32 → lane < 16 →
    let x := s.cell c
    let a := x.v va
    let b := x.v vb
    let out (lat : Nat) (w : W512) : Out := .next (s.issuedAs c 2 (s.landing c lat (.vReg vd w)))
    exec (.vadd c vd va vb) s = out 4 (lanes2 f32Add a b) ∧
    exec (.vsub c vd va vb) s = out 4 (lanes2 f32Sub a b) ∧
    exec (.vmul c vd va vb) s = out 4 (lanes2 f32Mul a b) ∧
    exec (.vfma c vd va vb vc) s = out 4 (vpack (fun i => f32Fma (vlane a i) (vlane b i) (vlane (x.v vc) i))) ∧
    exec (.vmax c vd va vb) s = out 4 (lanes2 (f32MaxMin false) a b) ∧
    exec (.vmin c vd va vb) s = out 4 (lanes2 (f32MaxMin true) a b) ∧
    exec (.vcmp c vd va vb) s = out 2 (lanes2 Config.vcmpResult a b) ∧
    exec (.vsel c vd va vb vc) s = out 2 (vpack (fun i =>
      if Config.selTakesFirst (vlane (x.v vc) i) then vlane a i else vlane b i)) ∧
    exec (.vand c vd va vb) s = out 2 (a &&& b) ∧
    exec (.vor c vd va vb) s = out 2 (a ||| b) ∧
    exec (.vperm c vd va vb) s = out 2 (vpack (fun i => vlane a (Config.permLane b i).val)) ∧
    exec (.vbcast c vd va lane) s = out 2 (vpack (fun _ => vlane a lane)) ∧
    exec (.vredSum c vd va) s = out 6 (vpack (fun _ => redTree f32Add a)) ∧
    exec (.vredMax c vd va) s = out 6 (vpack (fun _ => redTree (f32MaxMin false) a)) ∧
    exec (.vlse c vd va vb) s = out 6 (vpack (fun i =>
      if i % 2 = 0 then f32MaxMin false (vlane a (i / 2 * 2)) (vlane b (i / 2 * 2))
      else lseSum (vlane a (i / 2 * 2)) (vlane a (i / 2 * 2 + 1)) (vlane b (i / 2 * 2)) (vlane b (i / 2 * 2 + 1))))

/-- VCVT from a narrow format: the elements of one block, times its block scale and its tensor scale, as FP32 lanes, 16 to a register
(R70, R78, R80). VCVT to a format: the block in the interchange packing, with its site's verdict at a tile's end where the format is
narrow; a 32-bit format converts 16 lanes and adds to no site (R98, R99). Either way the saturated and flushed elements are counted (R80).
A reserved format code fails the issue (R64). -/
def Obligations.Conversions : Prop :=
  ∀ (s : State) (c : Nat) (o : CvtOp), Issues s c 2 →
    let x := s.cell c
    let k := s.ctx c
    (fmtOf o.fmt = none → exec (.vcvt c o) s = .next (s.issueFails c 2 [k.undefinedOp])) ∧
    (∀ f : Fmt, fmtOf o.fmt = some f → o.vd < 32 → o.va < 32 → o.ts < 32 → o.rd < 32 →
      let els := (unpackBlock f (x.s o.ts) (bytesOf 64 (x.v o.va))).map (fun v => cvtEl (.fp fp32) v 1 1)
      let vals := els.map (fun e => BitVec.ofNat 32 e.code)
      let low := k.land (x.countCvt els) 5 (.vReg o.vd (vpack (fun i => lget 0 vals i)))
      (o.narrow = false → f.perOp = 32 → o.vd < 31 → exec (.vcvt c o) s =
        .next (s.issuedAs c 2 (k.land low 5 (.vReg (o.vd + 1) (vpack (fun i => lget 0 vals (i + 16))))))) ∧
      (o.narrow = false → f.perOp ≠ 32 → exec (.vcvt c o) s = .next (s.issuedAs c 2 low)) ∧
      (o.narrow = true → (f.perOp = 32 → o.va < 31) →
        let src := (List.range 16).map (fun i => f32Val (vlane (x.v o.va) i)) ++
          (if f.perOp = 32 then (List.range 16).map (fun i => f32Val (vlane (x.v (o.va + 1)) i)) else [])
        let b := cvtBlock f (x.s o.ts) (s.free.toNat % 127) src
        let y := (k.land x 5 (.vReg o.vd (BitVec.ofNat 512 (leNat (packBlock f b))))).countCvt b.els
        (f.width = 32 → exec (.vcvt c o) s = .next (s.useFree.issuedAs c 2 y)) ∧
        (f.width ≠ 32 → o.site < x.sites.length → k.siteChk o = [] → exec (.vcvt c o) s = .next (s.useFree.issuedAs c 2 (k.site y o b)))))

/-- The special-function unit: all 16 lanes of the result land in vd, 14 cycles later or 10 in a native B0 image, and the unit is
occupied for 4 cycles (R49, R51, R121); ROT lands after 6 (R50). A lane's value is bounded by R49's error and otherwise
unconstrained (log 10). -/
def Obligations.SpecialFunctions : Prop :=
  ∀ (s : State) (c vd va rs base : Nat) (split : Bool), Issues s c 3 → vd < 32 → va < 32 → rs < 32 → base < 128 →
    let x := s.cell c
    let k := s.ctx c
    let fn (f : SfuFn) : Out := .next (s.issuedAs c 3
      { k.land x (sfuLatency k.reg.cls) (.vReg vd (vpack (fun i => sfuLane f (vlane (x.v va) i)))) with sfuFree := k.n + 4 })
    (x.sfuFree ≤ k.n →
      exec (.exp c vd va) s = fn .exp ∧ exec (.log c vd va) s = fn .log ∧ exec (.rcp c vd va) s = fn .rcp ∧
      exec (.rsqrt c vd va) s = fn .rsqrt ∧ exec (.sqrt c vd va) s = fn .sqrt ∧ exec (.sigm c vd va) s = fn .sigm ∧
      exec (.tanh c vd va) s = fn .tanh ∧ exec (.silu c vd va) s = fn .silu ∧ exec (.gelu c vd va) s = fn .gelu) ∧
    (∃ w : W512, exec (.rot c vd va rs base split) s = .next (s.issuedAs c 3 (k.land x 6 (.vReg vd w)) true) ∧
      ∀ i < 16, vlane w i =
        let q := rotPair split i
        let l := rotLanes split q.1
        rotLane (vlane (x.v va) l.1) (vlane (x.v va) l.2) ((x.s rs).toNat % 2 ^ 24)
          (BitVec.ofNat 32 (x.rotor.readLE (4 * ((base + q.1) % 128)) 4)) q.2)

/-- Loads and stores of the MOV slot (Table 2-9): with no access that meets another and no closed guard, an activation, partial-sum
or weight word lands in a register after 2, 2 or 3 cycles, and a store lands after 2; the address's low bits are ignored, and a
weight address is formed in the step's window modulo 1 MiB (R52, R235). -/
def Obligations.LoadsAndStores : Prop :=
  ∀ (s : State) (c r v h addr : Nat), Issues s c 4 → r < 32 → v < 32 → h < 2 →
    let x := s.cell c
    let k := s.ctx c
    (let a := addr / 32 * 32
     let acc := k.access 2 3 4 a 0 false
     let d : W256 := BitVec.ofNat 256 (x.amem.readLE a 32)
     addr < 196608 → k.clashNow acc = [] → x.guardHit a = none →
      exec (.lda c addr false r h) s = .next (s.issuedAs c 4 (k.land (x.addAcc acc) 2 (.vHalf r h d))) ∧
      (r < 4 → exec (.lda c addr true r h) s = .next (s.issuedAs c 4 (k.land (x.addAcc acc) 2 (.xReg r d))))) ∧
    (addr < 196608 → exec (.sta c v h addr) s = .next (s.issuedAs c 4 (k.land (x.addAcc (k.access 2 3 4 (addr / 32 * 32) 1 false)) 2
      (.store 2 (addr / 32 * 32) (bytesOf 32 (vhalf (x.v v) h)) x.pc 4 3)))) ∧
    (let a := addr / 64 * 64
     let acc := k.access 3 3 4 a 0 false
     addr < 32768 → k.clashNow acc = [] →
      exec (.ldp c r addr) s = .next (s.issuedAs c 4 (k.land (x.addAcc acc) 2 (.vReg r (BitVec.ofNat 512 (x.pmem.readLE a 64)))))) ∧
    (addr < 32768 → exec (.stp c v addr) s = .next (s.issuedAs c 4 (k.land (x.addAcc (k.access 3 3 4 (addr / 64 * 64) 1 false)) 2
      (.store 3 (addr / 64 * 64) (bytesOf 64 (x.v v)) x.pc 4 3)))) ∧
    (let a := (k.reg.windowBase + addr) % 2 ^ 20 / 64 * 64
     let acc := k.access 1 3 4 a 0 false
     k.clashNow acc = [] →
      exec (.ldw c r addr) s = .next (s.issuedAs c 4 (k.land (x.addAcc acc) 3 (.vReg r (BitVec.ofNat 512 (x.wmem.readLE a 64))))))

/-- The staging store and the moves of the MOV slot (R58, R59, R110, R462): STG writes word `idx` of the step's staging slot, SEND
puts half a register on a route of the cell's own router, RECV takes the inbound latch or the next entry of a boundary FIFO whose
tag is the beat before, and MOVS moves between a scalar register and a lane. -/
def Obligations.StagingMeshAndMoves : Prop :=
  ∀ (s : State) (c r v h lane : Nat), Issues s c 4 → r < 32 → v < 32 → h < 2 → lane < 16 →
    let x := s.cell c
    let k := s.ctx c
    (∀ idx : Nat, (x.stg (k.step % 2)).state < 2 → idx < (x.stg (k.step % 2)).size →
      let n := k.step % 2
      let t := x.stg n
      let y := if t.state = 0 then x.setStg n { t with state := 1, step := k.step % 65536 } else x
      exec (.stg c v h idx) s = .next (s.issuedAs c 4 (k.land (y.addAcc (k.access 2 3 4 ((t.base + idx) * 32) 1 false)) 2
        (.stgStore n idx (bytesOf 32 (vhalf (x.v v) h)) x.pc)))) ∧
    (∀ (route : Nat) (p : Nat × RouteEnt), x.routes.find? (fun q => q.1 == route) = some p → p.2.inn = 0 →
      exec (.send c route v h) s =
        .next (s.issuedAs c 4 ((k.land x 2 (.hop route 0 c (vhalf (x.v v) h))).countEv (schedEv 4 1) 1))) ∧
    exec (.recv c r h 0) s = .next (s.issuedAs c 4 ((k.land x 1 (.vHalf r h x.inLatch)).countEv (schedEv 4 2) 1)) ∧
    (∀ (side m : Nat) (e : FifoEnt) (rest : List FifoEnt), 1 ≤ side → side < 5 → neighbour c side = some m → hasLink c side = true →
      paneOfCell m ≠ paneOfCell c → mget [] x.fifo side = e :: rest → e.tag = (k.beat + 3) % 4 →
      exec (.recv c r h side) s = .next (s.issuedAs c 4
        ((k.land { x with fifo := mset x.fifo side rest } 1 (.vHalf r h e.data)).countEv (schedEv 4 2) 1))) ∧
    exec (.movs c r v lane true) s = .next (s.issuedAs c 4 (k.land x 1 (.sReg r (vlane (x.v v) lane)))) ∧
    exec (.movs c r v lane false) s = .next (s.issuedAs c 4 (k.land x 1 (.vLane v lane (x.s r))))

/-- LINK_NO_FREE and BANK_NO_FREE: a 16th consecutive assigned cycle of a link direction, and a 64th consecutive scheduled cycle of a bank
or of port G, fail the cell's check with the code, place and length of Table 5-7 (R34, R57). -/
def Obligations.NoFreeCycleFails : Prop :=
  ∀ (s : State) (c : Nat), (s.runningRegion (paneOfCell c)).isSome = true →
    let x := s.cell c
    let now := (s.pane (paneOfCell c)).runCycles
    (∀ dir : Nat, 1 ≤ dir → dir ≤ 4 → 15 ≤ mget 0 x.linkRun dir → dir ∈ (x.linksNow now).map (·.1) →
      exec (.linkNoFree c dir) s = .next (s.failCell c [{ code := 6, hi := (7 + dir) * 2 ^ 56, lo := mget 0 x.linkRun dir + 1 }])) ∧
    (∀ mem bank : Nat, (∀ a ∈ x.accsNow now, a.bank < 256) → (∃ a ∈ x.accsNow now, a.mem = mem ∧ a.bank = bank) →
      63 ≤ mget 0 x.bankRun (16 * mem + bank) →
      exec (.bankNoFree c mem bank false) s =
        .next (s.failCell c [{ code := 7, hi := mem * 2 ^ 56 + bank * 2 ^ 48, lo := mget 0 x.bankRun (16 * mem + bank) + 1 }])) ∧
    (∀ mem bank : Nat, (∃ a ∈ x.accsNow now, a.mem = mem ∧ a.port = 3) → 63 ≤ mget 0 x.portRun mem →
      exec (.bankNoFree c mem bank true) s =
        .next (s.failCell c [{ code := 7, hi := mem * 2 ^ 56 + 3 * 2 ^ 40, lo := mget 0 x.portRun mem + 1 }]))

/-- A failed check in a running cycle leaves the cell's registers as they stood before the cycle and its memories as they are, drops what
would land in it, and does not stop the other cells of the cycle; the cycle's end stops the region. Where no running cycle is under way
the region stops at once (R122-R124). -/
def Obligations.FailedCheckStopsTheRegion : Prop :=
  (∀ (s : State) (c r : Nat) (k : Chk), s.regionOfCell c = some r → (s.region r).state = 3 →
    let p := s.pane (paneOfCell c)
    let t := s.failCell c [k]
    let old := mget (s.cell c) s.snap c
    (p.cond = .running → p.cyc < (s.region r).beatLen →
      t.failed c = true ∧ (t.region r).state = 3 ∧ (t.cell c).sreg = old.sreg ∧ (t.cell c).vreg = old.vreg ∧ (t.cell c).acc = old.acc ∧
        (t.cell c).pc = old.pc ∧ (t.cell c).amem = (s.cell c).amem ∧ (t.cell c).pmem = (s.cell c).pmem ∧
        (t.cell c).evs = old.evs.filter (fun e => decide (p.runCycles < e.due))) ∧
    (p.cond ≠ .running → (t.region r).state = 4)) ∧
  (∀ (s : State) (p r : Nat), (s.pane p).region = some r → (s.region r).state = 3 → (s.pane p).cond = .running → (s.pane p).cyc < (s.region r).beatLen →
    (∀ c ∈ s.listedCells p, (s.cell c).grantAsk = [] ∧ (s.cell c).awaiting = none) → (∃ c ∈ s.listedCells p, s.failed c = true) →
    ((s.runCycle p r).region r).state = 4)

/-- BEAT_COMPLETE: a pane that has run its beat's cycles waits for its neighbours; after the step's last beat it stops, and when every
pane of the region has, the step's beats are over. BEAT_BEGIN and PAUSE_BEAT_END: where the pane may begin, the next slot is a pause
beat or a beat (R107-R111, R118, R172). At pause level k exactly k of any 32 successive slots are pause beats (R118). The next slot
of a pane: a pause beat stands for the region's B clock periods and begins no beat; otherwise the pane runs the next beat from its
first cycle; the slot counter advances modulo 32 either way (R118). A stalled pane goes on: AWAIT_RESUME 2 cycles after its
deliveries are ready records the takes, OUTBOUND_RESUME 2 cycles after the waiting entries were written; OUTBOUND_PORT_DRAIN takes
the oldest entry, writes a waiting one, and at an entry marked last sends the message, on channel A behind its preamble where it
carries values (R86, R112, R115; its addressing is the command's, log 24). HOLD_TIMEOUT: a shutter hold as long as the watchdog
limit, outside a row-shift, reports HOLD_TIMEOUT for the lowest stalled cell, latches it there and stops the region; with no cell at
an AWAIT or a SEND it names the lowest held pane (R119). -/
def Obligations.BeatsPausesStallsAndTheWatchdog : Prop :=
  (∀ (s : State) (p r : Nat), s.runningRegion p = some r →
    let q := s.pane p
    let g := s.region r
    let ended (i : Nat) : Prop := (s.pane i).cond = .stopped ∧ (s.pane i).beat = g.lastBeat
    (q.cond = .running → q.cyc = g.beatLen → q.beat ≠ g.lastBeat →
      exec (.beatComplete p) s = .next (s.setPane p { q with cond := .complete })) ∧
    (q.cond = .running → q.cyc = g.beatLen → q.beat = g.lastBeat → (∃ i ∈ g.panes, i ≠ p ∧ ¬ ended i) →
      exec (.beatComplete p) s = .next (s.setPane p { q with cond := .stopped })) ∧
    (q.cond = .running → q.cyc = g.beatLen → q.beat = g.lastBeat → (∀ i ∈ g.panes, i ≠ p → ended i) →
      exec (.beatComplete p) s = .next ((s.setPane p { q with cond := .stopped }).modRegion r (fun x =>
        { x with flight := x.flight.map (fun f => { f with beatsOver := true }) }))) ∧
    (q.cond = .complete → s.neighboursDone p g = true → exec (.beatBegin p) s = .next (s.beginOrPause p r)) ∧
    (q.cond = .paused 0 → exec (.pauseBeatEnd p) s = .next (s.beginOrPause p r))) ∧
  (∀ k : Nat, k ≤ 32 → ((List.range 32).filter (fun j => pauseSlot j k)).length = k) ∧
  (∀ (s : State) (p r : Nat),
    let q := s.pane p
    let g := s.region r
    let t := s.beginOrPause p r
    (pauseSlot q.slotJ g.k = true → (t.pane p).cond = .paused g.beatLen ∧ (t.pane p).begun = q.begun ∧ (t.pane p).slotJ = (q.slotJ + 1) % 32) ∧
    (pauseSlot q.slotJ g.k = false →
      (t.pane p).cond = .running ∧ (t.pane p).beat = q.begun ∧ (t.pane p).begun = q.begun + 1 ∧ (t.pane p).cyc = 0 ∧
      (t.pane p).slotJ = (q.slotJ + 1) % 32)) ∧
  (∀ (s : State) (p : Nat),
    let q := s.pane p
    (∀ (ws : List (Nat × Nat)) (a r : Nat), q.cond = .awaitStall ws → q.resumeAt = some a → a ≤ s.time → s.runningRegion p = some r →
      exec (.awaitResume p) s = .next
        (((ws.foldl (fun b w => b.takeAwaited w.1 w.2 (s.region r).stepNo) s).setPane p
          { q with cond := .running, resumeAt := none }).settleHold r)) ∧
    (∀ a r : Nat, q.cond = .outStall → q.outWait = [] → q.resumeAt = some a → a ≤ s.time → s.runningRegion p = some r →
      exec (.outboundResume p) s = .next ((s.setPane p { q with cond := .running, resumeAt := none }).settleHold r)) ∧
    (∀ (e : W256) (rest : List W256) (vc dest addr len : Nat) (pre : Option LinkFmt), q.outPort = e :: rest →
      let port := match q.outWait with | w :: _ => rest ++ [w.2] | [] => rest
      let resume := if q.cond = .outStall ∧ q.outWait.drop 1 = [] ∧ q.resumeAt = none then some (s.time + q.cycles 2) else q.resumeAt
      let data := ((q.outMsg ++ [e]).flatMap (bytesOf 32)).take len
      exec (.outboundPortDrain p false vc dest addr ⟨len, pre⟩) s =
        .next (s.setPane p { q with outPort := port, outWait := q.outWait.drop 1, resumeAt := resume, outMsg := q.outMsg ++ [e] }) ∧
      exec (.outboundPortDrain p true vc dest addr ⟨len, none⟩) s =
        .next ((s.setPane p { q with outPort := port, outWait := q.outWait.drop 1, resumeAt := resume, outMsg := [] }).sendWrite (vc % 4)
          dest addr data) ∧
      (∀ f : LinkFmt, exec (.outboundPortDrain p true 2 dest addr ⟨len, some f⟩) s =
        .next ((s.setPane p { q with outPort := port, outWait := q.outWait.drop 1, resumeAt := resume, outMsg := [] }).sendWrite 2
          dest addr (valuesPayload f data))))) ∧
  (∀ (s : State) (r t : Nat), (s.region r).holdSince = some t → (s.region r).state = 3 →
    (s.region r).shifts = [] → t + ms (s.region r).wdogMs ≤ s.time →
    let g := s.region r
    let len := (s.time - t) / 4000
    (∀ c cause item cl : Nat, (c, cause, item, cl) ∈ s.stalledCells g → (∀ w ∈ s.stalledCells g, w = (c, cause, item, cl) ∨ c < w.1) →
      exec (.holdTimeout r) s =
        (let f := s.cellRec c { cls := 0, code := 0x10, iaddr := min (s.cell c).pc 1023,
                                detHi := cause * 2 ^ 56 + item * 2 ^ 48 + cl * 2 ^ 40, detLo := len }
         .next (((s.report c f).modCell c (fun x => x.latchFault f)).stopContract r))) ∧
    (s.stalledCells g = [] →
      exec (.holdTimeout r) s =
        (let p := (g.panes.filter (fun i => (s.pane i).cond.holds)).foldl min 785
         .next ((s.report (unitPane p) (s.paneRec p { cls := 0, code := 0x10, detHi := 3 * 2 ^ 56, detLo := len })).stopContract r))))

/-- Deliveries, background accesses and verdict words (R53, R56, R101, R102, R113): a waiting delivery that its cell takes leaves the
queue; a background access asked for in a running cycle waits for the cycle's end, and in any other period the head of the memory's
queue is served at once; the last declared verdict word of a repeat slot makes its item ready, and a word too many, or one after the
slot's AWAIT, is REPEAT_OVERFLOW. The cell window (R31, R61, R63): an allowed access of MEM_DATA in an idle or loaded cell joins the
background queue of its memory, and steps MEM_ADDR where its increment bit is set; the rotor table is served at once. An allowed
write of CELL_CONTROL clears the bank counters or the fault latch, and outside a row-shift changes nothing else of the cell. -/
def Obligations.DeliveriesAndCellWindows : Prop :=
  (∀ s : State,
    (∀ (r k : Nat) (d : Delivery) (t : State), (s.region r).deliveries[k]? = some d → s.deliver r d = (t, true) →
      exec (.itemDelivery r k) s = .next (t.modRegion r (fun x => { x with deliveries := x.deliveries.eraseIdx k }))) ∧
    (∀ c mem : Nat, s.inCycle (paneOfCell c) = true → mem ∉ (s.cell c).grantAsk →
      exec (.backgroundAccessGrant c mem) s = .next (s.modCell c (fun x => { x with grantAsk := x.grantAsk ++ [mem] }))) ∧
    (∀ (c mem i : Nat) (b : BgReq) (d : List Byte), mem ≠ 5 →
      (s.cell c).bg.findIdx? (fun q => q.mem == mem) = some i → (s.cell c).bg[i]? = some b →
      (s.pane (paneOfCell c)).cond ≠ .running → mem ∉ (s.cell c).granted → s.rowShifting c = false → (s.pane (paneOfCell c)).power = 0 →
      b.data = some d → (∃ src req rtag, b.purpose = .window src req rtag) →
      ∃ t, exec (.backgroundAccessGrant c mem) s = .next t ∧
        (t.cell c).mem mem = ((s.cell c).mem mem).write b.offset d ∧ (t.cell c).bg = ((s.cell c).popBg i).bg ∧
        (t.cell c).granted = mem :: (s.cell c).granted) ∧
    (∀ (c r : Nat) (w : BitVec 64) (tileIn : Bool) (decl : Nat), s.runningRegion (paneOfCell c) = some r → s.regionOfCell c = some r →
      (s.cell c).repeats.find? (fun e => bits e 63 58 == bits w.toNat 57 52) = some decl →
      let old := mget ({} : RepeatState) (s.cell c).repState (bits w.toNat 57 52)
      (bits decl 49 45 ∉ (s.cell c).taken → old.words + 1 = bits decl 57 50 → old.widened ≤ old.tiles → bitAt w.toNat 31 = false →
        exec (.verdictWord c ⟨w, tileIn⟩) s =
          .next ((s.setCell c { s.cell c with repState := mset (s.cell c).repState (bits w.toNat 57 52) { old with words := old.words + 1 } }).makeReady
            c (bits decl 49 45) (s.region r).stepNo)) ∧
      (bits decl 49 45 ∈ (s.cell c).taken ∨ bits decl 57 50 ≤ old.words →
        ∃ k : Chk, k.code = 0xF ∧ k.lo = bits decl 57 50 ∧ exec (.verdictWord c ⟨w, tileIn⟩) s = .next (s.failCell c [k])))) ∧
  (∀ (s : State) (src c req rtag : Nat), cellExists c = true → s.accessor src = some req → s.windowAllowed c req = true →
    s.rowShifting c = false →
    let s1 (off : Nat) (wr : Bool) (v : Nat) := s.traced (windowAddr c off) wr v
    (∀ w : BitVec 64, s.keeper.approved = false → s.runState c ≤ 1 → memDataCode (s.cell c).memAddr = 0 →
      bits (s.cell c).memAddr 63 60 ≠ 5 →
      let a := (s.cell c).memAddr
      let off := bits a 19 0
      let next := if bitAt a 20 then a - off + (off + 8) % 2 ^ 20 else a
      let queued (t : State) (data : Option (List Byte)) : State :=
        ((t.touch c).modCell c (fun x => { x with memAddr := next })).queueBg c
          { mem := bits a 63 60, offset := off, data := data, purpose := .window src req (if data.isNone then rtag else 0) }
      exec (.memDataRead src c rtag) s = .next (queued (s1 0x308 false 0) none) ∧
      exec (.memDataWrite src c w) s = .next (queued (s1 0x308 true w.toNat) (some (natLE 8 w.toNat)))) ∧
    exec (.clearBankCounters src c) s = .next (((s1 0x010 true 2).touch c).modCell c (fun x => { x with bankCnt := [] })) ∧
    exec (.clearFaultLatch src c) s = .next (((s1 0x010 true 1).touch c).modCell c (fun x => { x with latchReg := {} })))

/-- The death of a cell and the copy of a row-shift (R27-R31, R125): a cell outside every region is recorded and never runs again; one
in a LOADED or RUNNING region also does what R27 and R30 say of the region. A completed copy switches the row, records the position,
and lets the next shift of the region begin. -/
def Obligations.DeadCellsAndRowShifts : Prop :=
  ∀ s : State,
    (∀ c : Nat, cellExists c = true → (s.cell c).dead = false → s.loadWriting (paneOfCell c) = none → s.regionOfCell c = none →
      exec (.deadCellDetect c) s = .next (s.markDead c) ∧ ((s.markDead c).cell c).dead = true) ∧
    (∀ c r : Nat, cellExists c = true → (s.cell c).dead = false → s.loadWriting (paneOfCell c) = none → s.regionOfCell c = some r →
      (s.region r).state = 3 → exec (.deadCellDetect c) s = .next (s.dieInRegion r c)) ∧
    (∀ (r : Nat) (q : ShiftRec) (rest : List ShiftRec), r < 64 → (s.region r).shifts = q :: rest →
      (rest ≠ [] ∨ ∀ f, (s.region r).flight = some f → f.beatsOver = true) →
      let d := pcolOf q.cell
      let copied : State := match (match (s.region r).image with | some i => parseImage i.bytes | none => none) with
        | none => s.useFree
        | some p => ((List.range (16 - d)).map (fun j => paneCell q.pane q.prow (d + j))).foldl (fun a c =>
            a.modCell c (p.afterShift (((a.region r).localIndex c).getD 0) (lossNo s.freeCount c 2) (c == q.cell))) s.useFree
      exec (.rowShiftCopyComplete r) s =
        .next ((({ copied with spareMem := mset copied.spareMem (16 * q.pane + q.prow) (copied.cell q.cell).wmem }.mapOut q.cell q.prow
          q.pcol).modRegion r (fun y => { y with shifts := rest })).serveHeld (fun c => paneOfCell c == q.pane && prowOf c == q.prow)))

/-- A command list written to an intake window of a READY module by a source bound to the ACTIVE guest the window names, with the magic,
the engine, the count and the length of R149, joins that guest's queue of that engine under the next sequence number, its entries
waiting in order (R147-R149). The commands of every engine (R151, R155-R157, R162): NOP completes with OK; WAIT completes when the
list it awaits has retired, and otherwise has started and waits; AUTH before a critical entry starts; a WAIT whose TIMEOUT has
passed completes with WAIT_TIMEOUT; a record not accepted within 2 ms is dropped and counted against its queue. -/
def Obligations.ListsAndCommonCommands : Prop :=
  (∀ (s : State) (m : Msg), s.boot.ready = true → m.kind = 0 → m.vc = 1 → bits m.addr 47 32 = 1 → bits m.addr 31 30 = 0 →
    bits m.addr 21 0 = 0 →
    let g := bits m.addr 29 24
    let e := bits m.addr 23 22
    let h := leNat (m.payload.take 32)
    (s.guest g).gstate = 1 → s.sourceBound g m.src = true → bits h 255 240 = 0x434C → bits h 228 227 = e → bits h 130 0 = 0 →
    1 ≤ bits h 239 229 → bits h 239 229 ≤ 1024 → m.payload.length = 32 + 32 * bits h 239 229 → (s.queue g e).lists.length < 256 →
    exec (.commandListIntake m) s = .next (s.setQueue g e { s.queue g e with
      lists := (s.queue g e).lists ++ [{ seq := (s.queue g e).nextSeq, tag := bits h 162 131, sinkFa := bits h 226 211,
                                         sinkAddr := bits h 210 163,
                                         entries := (records 32 (m.payload.drop 32)).map (fun w => { word := w }) }]
      nextSeq := ((s.queue g e).nextSeq + 1) % 2 ^ 48 })) ∧
  (∀ (s : State) (g e : Nat) (l : ListRec) (i : Nat) (x : Entry),
    let id : EntryId := ⟨g, e, l.seq, i⟩
    (StartsWell s g e 0 l i x → exec (.nop g e) s = .next ((s.begun g e l i).complete id stOK 0)) ∧
    (StartsWell s g e 1 l i x → (s.begun g e l i).waitMet g x.word = true →
      exec (.wait g e) s = .next ((s.begun g e l i).complete id stOK 0)) ∧
    (StartsWell s g e 1 l i x → (s.begun g e l i).waitMet g x.word = false → exec (.wait g e) s = .next (s.begun g e l i)) ∧
    (∀ y : Entry, StartsWell s g e 2 l i x → (s.begun g e l i).entry ⟨g, e, l.seq, i + 1⟩ = some y → opCritical y.op = true →
      opListed e y.op = true → exec (.auth g e) s = .next (s.begun g e l i)) ∧
    (g < 64 → e < 4 → s.entry id = some x → x.op = 1 → x.prog = 1 → x.startAt + ms (bits x.word 173 158) ≤ s.time →
      exec (.waitTimeout g e l.seq i) s = .next (s.complete id stWaitTimeout 0)) ∧
    (∀ (k : Nat) (o : OutMsg), s.outbox[k]? = some o → o.queue = some (g, e) → o.time + ms 2 ≤ s.time →
      exec (.completionRecordTimeout k) s = .next ({ s with outbox := s.outbox.eraseIdx k }.setQueue g e
        { s.queue g e with dropped := satTo 0xFFFF ((s.queue g e).dropped + 1) })))

/-- The Step engine's entries (R152, R159, R165, R170, R176-R178): a STEP or PREFILL that names a LOADED or RUNNING region of its
guest, not forced to Boarded, joins the region's runs; SEQ_OPEN, SEQ_CLOSE and CANCEL join the waiting entries of their slot, which
go on where they may, SEQ_CLOSE at once where the slot has settled; CANCEL with ALL has the effect R178 gives it. -/
def Obligations.StepEngineEntries : Prop :=
  ∀ (s : State) (g : Nat) (l : ListRec) (i : Nat) (x : Entry),
    let id : EntryId := ⟨g, 0, l.seq, i⟩
    let u := s.begun g 0 l i
    let r := bits x.word 223 218
    let n := bits x.word 217 204
    (StartsWell s g 0 0x10 l i x → u.regionOk g r [2, 3] = true → (u.region r).power.force ≠ 2 →
      exec (.step g) s = .next (u.startRun r
        { id := id, prefill := false, tpl := bits x.word 217 214, left := bits x.word 213 198, quiet := bits x.word 197 174 })) ∧
    (StartsWell s g 0 0x11 l i x → u.regionOk g r [2, 3] = true → (u.region r).power.force ≠ 2 →
      bits x.word 213 200 < (u.region r).slotsMax →
      exec (.prefill g) s = .next ((u.pushOp r (bits x.word 213 200) id 0x11).startRun r
        { id := id, prefill := true, tpl := bits x.word 217 214, left := ceilDiv (bits x.word 135 112) 256, slot := bits x.word 213 200,
          srcFa := bits x.word 199 184, srcAddr := bits x.word 183 136, tokens := bits x.word 135 112, pos := bits x.word 111 88,
          final := bitAt x.word 87 })) ∧
    (StartsWell s g 0 0x12 l i x → u.regionOk g r [2, 3] = true → n < (u.region r).slotsMax →
      exec (.seqOpen g) s = .next ((u.pushOp r n id 0x12).settleSlot r n)) ∧
    (StartsWell s g 0 0x13 l i x → u.regionOk g r [2, 3, 4] = true → n < (u.region r).slotsMax →
      exec (.seqClose g) s = .next (if (u.pushOp r n id 0x13).opReady r n id 0x13 then (u.pushOp r n id 0x13).opEffect r n id 0x13
        else u.pushOp r n id 0x13)) ∧
    (StartsWell s g 0 0x14 l i x → bitAt x.word 203 = false → u.regionOk g r [2, 3, 4] = true → n < (u.region r).slotsMax →
      exec (.cancel g) s = .next ((u.pushOp r n id 0x14).settleSlot r n)) ∧
    (StartsWell s g 0 0x14 l i x → bitAt x.word 203 = true → u.regionOk g r [2, 3, 4] = true →
      exec (.cancelAll g) s = .next (u.cancelAll r id))

/-- The Cache engine's entries (R197, R198, R204, R206): PARK, TRIM and FORK of a settled slot take effect at once, of another they join
its waiting entries; a RESUME that passes its tests claims its record and goes on as its slot's waiting entries may, and one that
fails a test completes with the test's status. An entry of SEQ_CLOSE, PARK, FORK or TRIM that waits first on its slot takes effect
once the slot has settled, a FORK also first on its destination (R176, R197, R198, R204). -/
def Obligations.CacheEngineEntries : Prop :=
  (∀ (s : State) (g : Nat) (l : ListRec) (i : Nat) (x : Entry),
    let id : EntryId := ⟨g, 2, l.seq, i⟩
    let u := s.begun g 2 l i
    let r := bits x.word 223 218
    let n := bits x.word 217 204
    let dst := bits x.word 203 190
    u.regionOk g r [2, 3, 4] = true →
    let joined (v : State) (op : Nat) : State :=
      if (v.pushOp r n id op).opReady r n id op then (v.pushOp r n id op).opEffect r n id op else v.pushOp r n id op
    (StartsWell s g 2 0x30 l i x → n < (u.region r).slotsMax → exec (.park g) s = .next (joined u 0x30)) ∧
    (StartsWell s g 2 0x31 l i x → u.resumeTest r n g x.word = stOK →
      exec (.resume g) s = .next (((u.claimPark x.word 2).pushOp r n id 0x31).settleSlot r n)) ∧
    (StartsWell s g 2 0x31 l i x → u.resumeTest r n g x.word ≠ stOK →
      exec (.resume g) s = .next (u.complete id (u.resumeTest r n g x.word) 0)) ∧
    (StartsWell s g 2 0x32 l i x → n < (u.region r).slotsMax → dst < (u.region r).slotsMax →
      exec (.fork g) s = .next (joined (if dst = n then u else u.pushOp r dst id 0x32) 0x32)) ∧
    (StartsWell s g 2 0x33 l i x → n < (u.region r).slotsMax → exec (.trim g) s = .next (joined u 0x33))) ∧
  (∀ (s : State) (r n : Nat) (id : EntryId) (op : Nat) (rest : List (EntryId × Nat)), r < 64 → n < 16384 →
    (s.slot r n).ops = (id, op) :: rest → s.opReady r n id op = true →
    (op = 0x13 → exec (.seqCloseTakesEffect r n) s = .next (s.opEffect r n id op)) ∧
    (op = 0x30 → exec (.parkTakesEffect r n) s = .next (s.opEffect r n id op)) ∧
    (op = 0x32 → n = bits (s.wordOf id) 217 204 → exec (.forkTakesEffect r n) s = .next (s.opEffect r n id op)) ∧
    (op = 0x33 → exec (.trimTakesEffect r n) s = .next (s.opEffect r n id op)))

/-- Loads (R137, R138): an authorised LOAD that names a FREE region begins its load; a copy of the stated length with a well-formed
header and directory is measured; an accepted signature and placement reserve the panes, and go on to the writes where they are
Open, to Open without admission where none is further than Ajar, and else to admission; a failed check refuses the load with its
status; panes not admitted within 100 ms refuse the load; and completed writes make the region LOADED. Releases (R139, R141, R142):
an authorised RELEASE of a region that is not loading begins its release, one of a LOADING region aborts the load; a completed scrub
frees the region, and the loads queued behind the release meet the region number again (R137). -/
def Obligations.RegionsLoadAndRelease : Prop :=
  (∀ s : State,
    (∀ (g : Nat) (hdr : List Byte) (l : ListRec) (i : Nat) (x a : Entry) (u : State), Authorised s g 3 0x40 l i x a u →
      (u.region (bits x.word 223 218)).state = 0 →
      exec (.load g hdr) s = .next (u.startLoad (bits x.word 223 218)
        { entry := ⟨g, 3, l.seq, i⟩, guest := g, phase := 1, anyPlace := bitAt x.word 217, anchorX := bits x.word 216 207,
          anchorY := bits x.word 206 198, srcFa := bits x.word 197 182, srcAddr := bits x.word 181 134, len := bits x.word 133 104,
          bytes := hdr })) ∧
    (∀ (r : Nat) (k : LoadRec) (bytes : List Byte), r < 64 → (s.region r).load = some k → k.phase = 2 → bytes.length = k.len →
      structureOk bytes k.len = true →
      exec (.imageCopyComplete r bytes) s = .next (s.modRegion r (fun y => { y with load := some { k with
        phase := 3, bytes := bytes, measure := sha256 (bytes.take (bytes.length - 7880)), since := s.time } }))) ∧
    (∀ (r : Nat) (k : LoadRec) (im : Image) (ps : List Nat), r < 64 → (s.region r).load = some k → k.phase = 3 → s.keeper.st = 2 →
      s.loadVerdict r k true = .ok (im, ps) →
      let open_ := ps.all (fun p => (s.pane p).power == 0)
      let rails := ps.map (fun p => (p, (s.pane p).pwr.base, (s.pane p).pwr.from_, (s.pane p).pwr.rampAt))
      let v := s.modRegion r (fun y => { y with load := some { k with
        phase := if open_ then 5 else 4, image := some im, panes := ps, rails := rails, since := s.time } })
      exec (.signatureVerified r true) s = .next
        (if open_ then v
         else if ps.all (fun p => decide ((s.pane p).power ≤ 1)) then v.modRegPower r (fun p => { p with trans := 2, target := 0, transAt := s.time })
         else v.modRegPower r (fun p => { p with trans := 3, target := 0, ramp := none, req := some { kind := 1, since := s.time } }))) ∧
    (∀ (r : Nat) (k : LoadRec) (ok : Bool) (st : Nat), r < 64 → (s.region r).load = some k → k.phase = 3 → s.keeper.st = 2 →
      s.loadVerdict r k ok = .error st → exec (.signatureVerified r ok) s = .next (s.refuseLoadOf r st)) ∧
    (∀ (r : Nat) (k : LoadRec), r < 64 → (s.region r).load = some k → k.phase = 4 → (s.region r).power.req.isSome = true →
      k.since + ms 100 ≤ s.time → exec (.loadAdmissionTimeout r) s = .next (s.refuseLoadOf r stPowerDeferred)) ∧
    (∀ (r : Nat) (k : LoadRec), r < 64 → (s.region r).load = some k → k.phase = 5 →
      exec (.cellWritesComplete r) s = .next (s.finishLoadOf r))) ∧
  (∀ s : State,
    (∀ (g : Nat) (l : ListRec) (i : Nat) (x a : Entry) (u : State), Authorised s g 3 0x41 l i x a u →
      u.regionOk g (bits x.word 223 218) [2, 3, 4] = true →
      exec (.release g) s = .next (u.beginRelease (bits x.word 223 218) (some ⟨g, 3, l.seq, i⟩))) ∧
    (∀ (g : Nat) (l : ListRec) (i : Nat) (x a : Entry) (u : State), Authorised s g 3 0x41 l i x a u →
      u.regionOk g (bits x.word 223 218) [1] = true →
      let v := u.abortLoad (bits x.word 223 218)
      exec (.release g) s = .next (if (v.region (bits x.word 223 218)).state = 4 then
        v.beginRelease (bits x.word 223 218) (some ⟨g, 3, l.seq, i⟩) else v.complete ⟨g, 3, l.seq, i⟩ stOK 0)) ∧
    (∀ r : Nat, r < 64 → (s.region r).state = 5 → (s.region r).shifts = [] →
      exec (.scrubComplete r) s = .next ((s.region r).loadPending.foldl (fun a l => a.tryLoad r l)
        ((s.endRelease r).modRegion r (fun y => { y with loadPending := [] }))).settleZeroise))

/-- Guests (R143-R146): an authorised GUEST_CREATE of an ABSENT guest with debug locked makes it ACTIVE with the entry's allowances;
GUEST_LIMITS replaces an ACTIVE guest's; GUEST_DELETE begins a deletion, and once the guest's regions are FREE the deletion
completes: the guest is ABSENT, its queues and its key are gone. -/
def Obligations.GuestsComeAndGo : Prop :=
  ∀ s : State,
    (∀ (l : ListRec) (i : Nat) (x a : Entry) (u : State), Authorised s 0 3 0x48 l i x a u → u.keeper.tap ≠ 2 →
      (u.guest (bits x.word 223 218)).gstate = 0 →
      exec (.guestCreate 0) s = .next (u.createGuest ⟨0, 3, l.seq, i⟩ x.word)) ∧
    (∀ (l : ListRec) (i : Nat) (x a : Entry) (u : State), Authorised s 0 3 0x4A l i x a u →
      (u.guest (bits x.word 223 218)).gstate = 1 →
      exec (.guestLimits 0) s = .next ((u.setGuest (bits x.word 223 218) { u.guest (bits x.word 223 218) with
        panes := bits x.word 217 208, slots := bits x.word 207 191, hbm := bits x.word 190 180,
        src0 := bits x.word 179 164, src1 := bits x.word 163 148 }).complete ⟨0, 3, l.seq, i⟩ stOK 0)) ∧
    (∀ (l : ListRec) (i : Nat) (x a : Entry) (u : State), Authorised s 0 3 0x49 l i x a u →
      (u.guest (bits x.word 223 218)).gstate = 1 →
      exec (.guestDelete 0) s = .next (u.beginDelete (bits x.word 223 218) (some ⟨0, 3, l.seq, i⟩))) ∧
    (∀ n : Nat, n < 64 → (s.guest n).gstate = 2 → s.regions.any (fun q => q.2.guest == n && q.2.state != 0) = false →
      (s.guest n).delEntry = none → (s.guest n).createWait = [] → s.keeper.zeroing = none →
      ∃ t, exec (.guestDeleteComplete n) s = .next t ∧ (t.guest n).gstate = 0 ∧ (t.guest n).queues = [] ∧ t.cmdKey n = none)

/-- An accepted pair takes its counter, clears the failures under its key, and changes nothing of the module but that key (R157, R389);
its tag is the one the key gives, and its counter lies above the last one accepted and not above P (R378, R389). -/
def Obligations.AcceptedPairTakesItsCounter : Prop :=
  ∀ (s u : State) (g counter : Nat) (tag body : List Byte), s.checkPair g counter tag body = (u, true) →
    ∃ k k' : CmdKey, s.cmdKey g = some k ∧ u.cmdKey g = some k' ∧ k.lac < counter ∧ counter ≤ k.persisted ∧
      (hmac k.key (natLE 2 s.fabricAddr ++ natLE 1 g ++ natLE 8 counter ++ body)).take 16 = tag ∧
      k'.lac = counter ∧ k'.fails = 0 ∧ k'.key = k.key ∧
      u = { s with keeper := { s.keeper with keys := mset s.keeper.keys g k' } }

/-- Admission (R6, R167, R170, R194): in a region that may do so, the entry at the head of its runs is admitted. A decode or verify step
takes the slots in the cursor's order, as far as the template's width, the frame lists and the reservations let it, and null
positions for the rest; a prompt's chunk takes its own slot. Either is then in flight. An admitted step is in flight under the
region's next step number, which moves on by one (R166, R168). -/
def Obligations.StepsAreAdmitted : Prop :=
  (∀ (s : State) (r k : Nat) (e : RunEntry) (rest : List RunEntry) (t : StepTpl) (w : Window) (waveAt maskAt : List (Nat × Nat))
    (prompt : List Byte), r < 64 → (s.region r).runs = e :: rest → s.mayAdmit r = true → (s.region r).tplOf e.tpl = some t →
    (s.region r).shards ≠ 0 → (s.region r).swings = [] → (s.region r).current = some (k, w) →
    (((s.region r).slots.map (·.1)).foldl (fun a n => a.applyVerify r n) s).settleRedo r = s →
    (e.prefill = false → t.kind = 1 ∨ t.kind = 3 →
      let v := (s.region r).chooseWindow k
      let gen := (lget ({} : Window) (s.region r).windows v).gen
      let group := if t.kind = 3 then t.draft + 1 else 1
      let order := (s.region r).cursorOrder t gen (s.candidates r v)
      (∀ n ∈ order, s.maskless r n = false ∧ s.absentAt r n = none ∧ s.maskHeld (s.slot r n).mask = false) →
      (∀ q ∈ (s.region r).slots, q.2.state ≠ 4) →
      ∀ (a : Taking) (ps : List StepPos) (taken : List Nat),
        State.takeSlots r t group (order.take (t.width / group)) [] [] { s := s } = (a, ps, taken) →
        (taken = [] → order.take (t.width / group) = []) →
        let u := a.s.modRegion r (fun y => { y with
          lastPinned := gen
          cursor := match taken.getLast? with | some n => mset y.cursor (65536 * t.tpl + gen) n | none => y.cursor })
        exec (.stepAdmission r waveAt maskAt prompt) s =
          .next (u.admitStep r (newFlight (u.region r) t v (some e.id) ps a) waveAt maskAt)) ∧
    (e.prefill = true → s.opFirst r e.slot e.id = true → t.kind = 2 → t.width = 256 →
      let x := s.slot r e.slot
      let n := min 256 (e.tokens - e.done)
      x.state = 1 ∨ x.state = 2 → x.length = e.pos + e.done → s.maskless r e.slot = false → s.absentAt r e.slot = none →
      prompt.length = 4 * n → s.maskHeld x.mask = false → s.listsFit r 256 (List.replicate n e.slot) = true →
      ∀ v : Nat, (s.region r).slotWindow x = some v →
        let a := s.reserveSlot r e.slot x.length n [e.slot]
        a.ok = true →
        exec (.stepAdmission r waveAt maskAt prompt) s =
          .next (a.s.admitStep r { newFlight (a.s.region r) t v (some e.id)
              (slotPositions e.slot x.length n ((records 4 prompt).map (fun b => bits b 17 0))) a with
            prefill := true, lastChunk := e.final && decide (e.tokens ≤ e.done + n) } waveAt maskAt))) ∧
  (∀ (s : State) (r : Nat) (f : Flight) (waveAt maskAt : List (Nat × Nat)),
    let t := s.admitStep r f waveAt maskAt
    (t.region r).stepNext = (s.region r).stepNext + 1 ∧
    ∃ lanes params, (t.region r).flight = some { f with number := (s.region r).stepNext, lanes := lanes, params := params })

/-- The run of a step (R111, R172, R193, R195, R220, R222): an admitted step starts once the region is LOADED or RUNNING, Open, and has
no row-shift; candidates of a live position join it; a position with all its shards gets its token; a step whose beats are over and
whose results are there commits; the frame lists of a KV layer whose pages are Framed are delivered once. What ends after a step
(R195, R199, R205): the scatter at the head appends its rows, frees its staging slots and returns what it did not use, and the next
one begins; a descriptor in Reclaim whose epoch has passed is Free, its home units returned for zeroing, or kept with ZPEND until
they are zeroed; a parked record past its EXPIRY is expired and holds no slot. Draft and verify records of a paired region (R225,
R229, R230): an accepted draft of the next position joins its slot's buffer; an accepted verify record of an open slot is taken; a
record that is not accepted changes nothing but a count. -/
def Obligations.StepsRunCommitAndVerify : Prop :=
  (∀ (s : State) (r : Nat) (f : Flight), r < 64 → (s.region r).flight = some f →
    let x := s.region r
    (f.started = false → x.state = 2 ∨ x.state = 3 → x.shifts = [] → x.isOpen = true →
      let f' := { f with started := true, firstBeat := (s.pane (x.panes.headD 0)).begun }
      exec (.stepStart r) s = .next ((s.modRegion r (fun y => { y with state := 3, flight := some f' })).runFlight r f')) ∧
    (∀ (bytes : List Byte) (n : Nat), let h := shardHeader bytes
      let q := bits h 127 106
      let known := mget [] f.cands q
      f.started = true → (f.positions[q]?).bind (·.slot) = some n → bits h 105 98 < x.shards → bits h 97 87 ≤ x.cand →
      bytes.length = 16 + 8 * bits h 97 87 → (∀ b ∈ known, bits (shardHeader b) 105 98 ≠ bits h 105 98) →
      s.shardOk x (lget .every (s.rowsFor r (f.prefill || f.recompute.isSome) f.positions) q) bytes = true →
      exec (.shardCandidates r bytes) s =
        .next (s.modRegion r (fun y => { y with flight := some { f with cands := mset f.cands q (known ++ [bytes]) } }))) ∧
    (∀ (q n : Nat) (p : StepPos), f.positions[q]? = some p → p.slot = some n → q ∈ f.sampledAt → mhas f.sampled q = false →
      (mget [] f.cands q).length = x.shards →
      let shards := sortBy (fun a b => decide (bits (shardHeader a) 105 98 ≤ bits (shardHeader b) 105 98)) (mget [] f.cands q)
      let y := x.slot n
      let res := samplePosition x.coverMin (mget 0 f.params q) y.rngKey (p.pos + 1) (f.before y q) shards
      ∃ t, exec (.campionResult r q) s = .next t ∧
        (t.region r).flight = some { f with sampled := mset f.sampled q res.token }) ∧
    (f.beatsOver = true → f.sampledAt.all (fun q => mhas f.sampled q) = true → exec (.stepCommit r) s = .next (s.commit r f)) ∧
    (∀ (k : Nat) (l : KvLayer), x.kv[k]? = some l → k ∉ f.kvReady →
      (∀ p ∈ f.positions, ∀ n, p.slot = some n → ∀ d ∈ mget [] (x.slot n).pages k, (s.desc d).tier ≠ 3) →
      let entry (p : StepPos) : List Byte :=
        match p.slot with
        | none => natLE 2 0
        | some n => if f.nulls.contains n then natLE 2 0
          else natLE 2 (mget [] (x.slot n).pages k).length ++ (mget [] (x.slot n).pages k).flatMap (fun d => natLE 2 (s.desc d).frame)
      exec (.promotionComplete r k) s = .next ((s.modRegion r (fun y => { y with
        deliveries := y.deliveries ++ (List.range l.cells).filterMap (fun i => (x.localCell (l.firstCell + i)).map (fun c =>
          { cell := c, item := l.item, tag := f.number, data := f.positions.flatMap entry }))
        flight := some { f with kvReady := f.kvReady ++ [k], promos := f.promos.filter (fun q => q.1 != k) } })).returnPromos
          (f.promos.filter (fun q => q.1 == k))))) ∧
  (∀ s : State,
    (∀ (r : Nat) (c : Scatter) (rest : List Scatter), r < 64 → (s.region r).scatters = c :: rest →
      let u := (s.scatterRows r c).modListed r (fun _ x =>
        if (x.stg c.stg).state = 3 then x.setStg c.stg { x.stg c.stg with state := 0 } else x)
      (∀ f, (u.region r).flight = some f → f.started = false ∨ f.number ≠ c.step + 1) →
      exec (.scatterComplete r) s =
        .next (((c.rows.map (·.1)).eraseDups).foldl (fun a n => a.settleSlot r n)
          ((((u.modRegion r (fun x => { x with scatters := rest })).returnResv r c.resv).settleHolds).startScatter r))) ∧
    (∀ d : Nat, d < 4194304 → (s.desc d).reclaim = true → s.descPassed d = true →
      let x := s.desc d
      let kept := s.setDesc d { guest := x.guest, loc := x.loc, units := x.units, zpend := true }
      exec (.epochPassed d) s = .next
        (if x.tier = 0 then (if x.zpend then kept else s.delDesc d) else kept.freeUnits x.loc x.units)) ∧
    (∀ k : Nat, k < 65536 → (mget {} s.cache.parks k).state = 1 → (mget {} s.cache.parks k).expiry ≤ s.nowNs →
      ∃ t, exec (.parkExpiry k) s = .next t ∧ (mget {} t.cache.parks k).state = 3 ∧ (mget {} t.cache.parks k).slot = {})) ∧
  (∀ (s : State) (m : Msg),
    let r := pairDest m
    let v := leAt m.payload 0 16
    let n := bits v 127 114
    (isPair m 1 = true → s.pairAccepts m 0 = true → (s.slot r n).state ≠ 0 → (s.slot r n).drafts.length < 8 →
      bits v 113 90 = (s.slot r n).length + 1 + (s.slot r n).drafts.length →
      exec (.draftRecord m) s = .next (s.modSlot r n (fun y => { y with drafts := y.drafts ++ [bits v 89 72] }))) ∧
    (isPair m 2 = true → s.pairAccepts m 1 = true → (s.slot r n).state ≠ 0 →
      exec (.verifyRecord m) s = .next ((s.modSlot r n (fun y =>
        { y with verify := some (bits v 113 90, bits v 89 72, bits v 71 68) })).applyVerify r n)) ∧
    (isPair m 1 = true → s.pairAccepts m 0 = false → exec (.draftRecord m) s = .next (s.countCampion 0 6 1)) ∧
    (isPair m 2 = true → s.pairAccepts m 1 = false → exec (.verifyRecord m) s = .next (s.countCampion 0 6 1)))

/-- Mask sources and sampling entries (R218, R221): a permitted write of AUT_CMD begins the load of a free source or frees one that
nothing refers to; a fetch that brought nothing fails the source; and the write of a sampling entry's first word makes all four
words take effect. The end of a mask source's fetch (R214-R216, R218): without its octets the source has FAILED with error 3, with
an image out of form with error 1, without room for two copies with error 2; with a valid image and room it is READY and both copies
are in HBM. -/
def Obligations.SamplingSourcesAndEntries : Prop :=
  (∀ (s : State) (src g req : Nat), g < 64 → s.accessor src = some req → (req = 0 ∨ req = g) →
    (∀ val : Nat, bits val 63 62 = 1 → bits val 61 52 < 0x300 → ((s.source (bits val 61 52)).state = 0 ∨
      (((s.source (bits val 61 52)).state = 2 ∨ (s.source (bits val 61 52)).state = 3) ∧ (s.source (bits val 61 52)).guest = g ∧
        s.maskRefs (bits val 61 52) = 0)) →
      let n := bits val 61 52
      let u := s.traced (0x30002008 + 16 * g) true val
      exec (.maskSourceLoad src g val) s = .next (((u.dropSourceCopies n).setSource n
        { state := 1, guest := g, srcFa := bits (s.guest g).autSrc 63 48, srcAddr := bits (s.guest g).autSrc 47 0,
          len := bits val 51 20 }).setAut g n 0)) ∧
    (∀ val : Nat, bits val 63 62 = 2 → bits val 61 52 < 0x300 → (s.source (bits val 61 52)).state ≠ 1 → s.maskRefs (bits val 61 52) = 0 →
      (g = 0 ∨ ((s.source (bits val 61 52)).state ≠ 0 ∧ (s.source (bits val 61 52)).guest = g)) →
      let n := bits val 61 52
      exec (.maskSourceFree src g val) s = .next (((s.traced (0x30002008 + 16 * g) true val).freeSource n).setAut g n 0)) ∧
    (∀ (e : Nat) (w : BitVec 64), e < 256 →
      let x := s.guest g
      ∃ t, exec (.samplingEntryCommit src g e w) s = .next t ∧
        mget 0 (t.guest g).sampling e = bits w.toNat 63 53 * 2 ^ 53 + x.samplingWord e 1 * 2 ^ 64 + x.samplingWord e 2 * 2 ^ 128 +
          x.samplingWord e 3 * 2 ^ 192)) ∧
  (∀ (s : State) (n : Nat), n < 0x300 → (s.source n).state = 1 →
    let failed (err : Nat) : State := s.setSource n { state := 3, guest := (s.source n).guest, err := err }
    exec (.maskSourceLoadComplete n none) s = .next (failed 3) ∧
    (∀ b : List Byte, b.length = (s.source n).len → maskImageOk n b = false → exec (.maskSourceLoadComplete n (some b)) s = .next (failed 1)) ∧
    (∀ b : List Byte, b.length = (s.source n).len → maskImageOk n b = true →
      s.twoCopies (s.source n).guest (ceilDiv b.length 4096) = none → exec (.maskSourceLoadComplete n (some b)) s = .next (failed 2)) ∧
    (∀ (b : List Byte) (a c : Nat) (t : State), b.length = (s.source n).len → maskImageOk n b = true →
      s.twoCopies (s.source n).guest (ceilDiv b.length 4096) = some (a, c, t) →
      exec (.maskSourceLoadComplete n (some b)) s =
        .next ({ t with hbm := (t.hbm.write (a * 4096) b).write (c * 4096) b }.setSource n { s.source n with
          state := 2, image := b, copy0 := [(a, ceilDiv b.length 4096)], copy1 := [(c, ceilDiv b.length 4096)] })))

/-- HBM reads and writes (R256, R258-R260, R263, R265): where the unit's channel and bank serve it, a burst write puts its 64 octets at
the burst's address and a read leaves the contents; both count in the controller's traffic; a read the code corrects counts a
correction, one it cannot correct is held for its retry. An access of a CLOSED target is turned away with LATE_WRITE, one of a
target that opens waits, and a management read that is not permitted gets code 2. Retries, zeroing and patrol (R257-R261): a retry
that reads clean releases the held burst, and the streamed slices that awaited it go on; one that fails again retires its unit; a
freed unit that is zeroed reads zero where its content was not lost, and is free; patrol moves on to the next unit and leaves the
contents. Closing and opening a channel or bank (R263, R264, R266): the owner's CLOSE of an ACTIVE target with nothing allocated
makes it CLOSING, his OPEN of a CLOSED one makes it OPENING, a bank's only while its channel is ACTIVE; a closing with no write
under way whose units are all free and zeroed ends CLOSED, or OPENING where an open is pending, and an opening ends ACTIVE, or
CLOSING where a close is pending, and the accesses that waited go on. Bandwidth windows (R421): the owner's write of BW_CTL with a
WINDOW of 1 to 1,000,000 µs takes effect, and a window ends when its time has passed. The counters of a cell window (Table 20-2): an
allowed write of PMC_CTL outside a row-shift stops the counters or lets them count, and CLEAR zeroes them and STALE. -/
def Obligations.HbmAccessesTargetsAndCounters : Prop :=
  (∀ (s : State) (a src master rtag : Nat) (data : List Byte) (use : HbmUse),
    (s.mayReadUnit src master = true →
      let u := s.hbmTraffic (unitStack (a / 4096)) 0 master 64 (a / 4096)
      (s.hbmGate a = .go →
        exec (.hbmRead a src master 0 ⟨use, rtag⟩) s = .next u ∧
        exec (.hbmRead a src master 1 ⟨use, rtag⟩) s = .next (u.countCe (a / 4096)) ∧
        exec (.hbmRead a src master 2 ⟨use, rtag⟩) s = .next (u.holdRead a use)) ∧
      (s.hbmGate a = .reject → exec (.hbmRead a src master 0 ⟨use, rtag⟩) s = .next (s.lateAccess src a (some rtag))) ∧
      (s.hbmGate a = .wait → exec (.hbmRead a src master 0 ⟨use, rtag⟩) s =
        .next (s.hbmPark { addr := a, src := src, master := master, read := some (0, use), rtag := rtag }))) ∧
    (s.mayReadUnit src master = false → exec (.hbmRead a src master 0 ⟨use, rtag⟩) s = .next (s.hbmError src a 2 (some rtag))) ∧
    (s.hbmGate a = .go → ∃ t, exec (.hbmWrite a src master data) s = .next t ∧ t.hbm = s.hbm.write (a / 64 * 64) (data.take 64)) ∧
    (s.hbmGate a = .reject → exec (.hbmWrite a src master data) s = .next (s.lateAccess src a none))) ∧
  (∀ s : State,
    (∀ (n k : Nat) (h : HeldRead), n < 24 → (s.hctl n).held[k]? = some h →
      let u := s.modHctl n (fun x => { x with held := x.held.eraseIdx k })
      exec (.ueRetry n k 0) s = .next u.feedAgain ∧
      exec (.ueRetry n k 1) s = .next (u.countCe (h.addr / 4096)).feedAgain ∧
      exec (.ueRetry n k 2) s = .next ((((u.hbmFault n 2 (h.addr % 2 ^ 41)).modHctl n (fun x =>
        { x with logLost := x.logLost || (x.logValid && x.logAddr == h.addr % 2 ^ 41) })).retire h.addr).loseRead h)) ∧
    (∀ (u : Nat) (x : Extent), u < 375000000 → s.extents.find? (fun x => x.st == 2 && decide (x.start ≤ u ∧ u < x.start + x.len)) = some x →
      exec (.hbmUnitZero u) s = .next ((s.zeroUnits u 1 x.guest).hbmTraffic (unitStack u) 1 4 4096 u) ∧
        (s.zeroUnits u 1 x.guest).hbm = s.hbm.zero (u * 4096) 4096) ∧
    (∀ (n corrected : Nat) (bad : Option Nat), n < 24 →
      ∃ t, exec (.patrolScrub n corrected bad) s = .next t ∧ (t.hctl n).patrol = ((s.hctl n).patrol + 1) % 15625000 ∧ t.hbm = s.hbm)) ∧
  (∀ (s : State) (n : Nat), n < 24 →
    (∀ src val : Nat, s.accessor src = some 0 → ((pwrBank val).isSome = true → ((s.hctl n).chan (pwrChannel val)).state = 0) →
      let x := (s.hctl n).target (pwrChannel val) (pwrBank val)
      let cmd := s.traced (pwrCmdAddr n) true val
      (bits val 63 62 = 1 → x.state = 0 → s.targetHas n (pwrChannel val) (pwrBank val) 1 = false →
        exec (.close src n val) s = .next ((cmd.modTarget n (pwrChannel val) (pwrBank val) (fun x => { x with state := 1, pend := 0 })).pwrResult n 0)) ∧
      (bits val 63 62 = 1 → x.state = 0 → s.targetHas n (pwrChannel val) (pwrBank val) 1 = true →
        exec (.close src n val) s = .next (cmd.pwrResult n 1)) ∧
      (bits val 63 62 = 2 → x.state = 2 →
        exec (.hbmOpen src n val) s = .next ((cmd.modTarget n (pwrChannel val) (pwrBank val) (fun x => { x with state := 3, pend := 0 })).pwrResult n 0))) ∧
    (∀ (c : Nat) (bank : Option Nat), c < 32 → bank.getD 0 < 64 →
      let x := (s.hctl n).target c bank
      (x.state = 1 → (s.hctl n).writes n c bank = 0 → s.targetHas n c bank 2 = false →
        exec (.closingComplete n c bank) s = .next (s.modTarget n c bank (fun y => { y with state := if x.pend = 1 then 3 else 2, pend := 0 }))) ∧
      (x.state = 3 →
        exec (.openingComplete n c bank) s =
          .next ((s.modTarget n c bank (fun y => { y with state := if x.pend = 2 then 1 else 0, pend := 0 })).hbmAgain n)))) ∧
  (∀ (s : State) (port : Bool) (n : Nat), n < (if port then 96 else 24) →
    (∀ src val : Nat, s.accessor src = some 0 → 1 ≤ bits val 63 44 → bits val 63 44 ≤ 1000000 →
      exec (.bwCtlWrite src port n val) s =
        .next ((s.traced (bwCtlAddr port n) true val).modBw port n (fun b => b.rewrite s.time val))) ∧
    ((s.bwBlock port n).startAt + us (s.bwBlock port n).window ≤ s.time →
      exec (.bwWindowEnd port n) s = .next (s.modBw port n (fun b => b.roll s.time)))) ∧
  (∀ (s : State) (src c req : Nat) (freeze : Bool), cellExists c = true → s.accessor src = some req → s.windowAllowed c req = true →
    s.rowShifting c = false →
    exec (.pmcFreeze src c freeze) s =
      .next (((s.traced (windowAddr c 0x110) true (bit freeze * 2 ^ 63)).touch c).modCell c (fun x => { x with freeze := freeze })) ∧
    exec (.pmcClear src c freeze) s =
      .next (((s.traced (windowAddr c 0x110) true (bit freeze * 2 ^ 63 + 2 ^ 62)).touch c).modCell c (fun x =>
        { x with freeze := freeze, pmc := [], stale := {} })))

/-- What a memory in canonical form holds after a write: each octet written reads as written, every other octet as before, and the form
is kept. -/
def Obligations.MemoryWriteFrame : Prop :=
  ∀ (m : Mem) (a b : Nat) (data : List Byte), m.wf = true →
    (∀ i < data.length, b = a + i → (m.write a data).get b = data.getD i 0) ∧
    ((b < a ∨ a + data.length ≤ b) → (m.write a data).get b = m.get b) ∧
    (m.write a data).wf = true

/-- The Weight engine's entries (R233, R238, R247, R252): an authorised WLOAD begins a load, and reads the manifest of an upstream
module; a SWING to a generation that a window holds is pending, and is taken where it may; an unused generation is retired. The
checks of a manifest end well for a load into HBM that joins no chain (R236-R239): the units of the blob are reserved, the
generation is known under its measurement, and the shards are asked for. A failed check is reported as MANIFEST_BAD with its reason
and refuses the load; of a downstream link the header comes first, and the engine then reads the whole length (R238). Shards of a
load (R239, R243, R245): a requested shard that has arrived, from a source of the manifest, over a chain, or from the generation's
own copy in HBM, is checked and taken; one without progress for TIMEOUT ms fails the load with a WEIGHT report. -/
def Obligations.WeightEntriesManifestsAndShards : Prop :=
  (∀ (s : State) (g : Nat) (l : ListRec) (i : Nat) (x a : Entry) (u : State),
    let id : EntryId := ⟨g, 1, l.seq, i⟩
    let gen := bits x.word 223 208
    (StartsWell s g 1 0x20 l i x → u = s.begun g 1 l i →
      (bits x.word 207 206 = 0 ∨ u.regionOk g (bits x.word 205 200) [2, 3, 4] = true) →
      ((u.generation g gen).isSome = true ∨ u.weight.gens.length < 256) →
      let w : WloadRec := { id := u.weight.nextId, entry := some id, guest := g, gen := gen, target := bits x.word 207 206,
                            region := bits x.word 205 200, srcFa := bits x.word 199 184, srcAddr := bits x.word 183 136,
                            fwdFa := bits x.word 135 120, startAt := u.time, holdAt := u.time }
      let t := u.modWeight (fun e => { e with loads := e.loads ++ [w], nextId := u.weight.nextId + 1 })
      (w.downstream = false → exec (.wload g) s = .next t) ∧
      (w.downstream = true → exec (.wload g) s = .next (t.sendMsg
        { kind := 1, vc := 3, dest := w.srcFa, src := u.fabricAddr, addr := chainAddr 5 gen,
          payload := natLE 4 128 ++ natLE 4 u.weight.nextId }))) ∧
    (∀ (n : Generation) (im : Image) (m : Manifest) (k : Nat), Authorised s g 1 0x21 l i x a u →
      let r := bits x.word 207 202
      u.regionOk g r [2, 3] = true → u.generation g gen = some n → (u.region r).image = some im → parseManifest n.manifest = some m →
      m.layout = im.wlayout → (u.region r).windowOf g gen = some k → ((lget ({} : Window) (u.region r).windows k).state ≠ 3 ∨ (u.region r).swings ≠ []) →
      exec (.swing g) s = .next ((u.modRegion r (fun y => { y with swings := y.swings ++ [(id, gen)] })).settleSwings r)) ∧
    (∀ n : Generation, StartsWell s g 1 0x22 l i x → u = s.begun g 1 l i → u.generation g gen = some n → u.genInUse g gen = false →
      let drop (y : Region) : Region := { y with windows := y.windows.map (fun v => if v.gen == gen && v.owner == g then {} else v) }
      exec (.retire g) s = .next ((({ u with regions := mmap (fun _ y => drop y) u.regions }.freeRuns n.runs).modWeight (fun e =>
        { e with gens := e.gens.filter (fun y => !(y.guest == g && y.num == gen)) })).complete id stOK 0))) ∧
  (∀ (s : State) (id : Nat) (l : WloadRec) (bytes : List Byte), s.wload id = some l → l.phase = 0 → s.keeper.st = 2 →
    (l.downstream = true → l.manLen = 0 → bytes.length = 128 →
      let n := manifestLen (leNat bytes)
      exec (.manifestVerified id bytes true) s = .next ((s.modWload id (fun y => { y with manLen := n })).sendMsg
        { kind := 1, vc := 3, dest := l.srcFa, src := s.fabricAddr, addr := chainAddr 5 l.gen, payload := natLE 4 n ++ natLE 4 id })) ∧
    (∀ ok : Bool, (l.downstream = true → l.manLen ≠ 0 ∧ bytes.length = l.manLen) → s.manifestVerdict l bytes ok ≠ 0 →
      exec (.manifestVerified id bytes ok) s = .next ((s.weightFault l 3 (l.gen + s.manifestVerdict l bytes ok * 2 ^ 16)).refuseLoad l
        (if s.manifestVerdict l bytes ok = 2 then stBadSignature else stBadFormat))) ∧
    ∀ (t : State) (runs : List (Nat × Nat)) (m : Manifest), parseManifest bytes = some m → s.manifestVerdict l bytes true = 0 →
    s.generation l.guest l.gen = none → s.weight.gens.length < 256 →
    l.target = 0 → l.downstream = false → l.held = [] → m.blobLen ≠ 0 →
    s.settleHolds.allocCopy l.guest (ceilDiv m.blobLen 4096) = some (runs, t) →
    let meas := sha256 (bytes.take (bytes.length - 7880))
    exec (.manifestVerified id bytes true) s =
      .next (((((t.modWeight (fun e => { e with gens := e.gens ++ [{ guest := l.guest, num := l.gen, manifest := bytes, measure := meas }] })).modWload
        id (fun y => { y with
          phase := 1
          manifest := bytes
          measure := meas
          window := none
          runs := runs
          rooms := []
          startAt := t.time
          shards := List.replicate (bits m.hdr 903 887) { source := 0 }
          held := [] })).requestShards id).finishLoad id))) ∧
  (∀ (s : State) (id k : Nat) (l : WloadRec) (m : Manifest), s.wload id = some l → l.man = some m → l.phase = 1 →
    (lget ({} : ShardRec) l.shards k).state = 1 →
    (∀ bytes : List Byte, (lget ({} : ShardRec) l.shards k).source < 8 →
      exec (.shardArrived id k bytes) s = .next (s.shardIn l m k bytes).feedAgain) ∧
    (∀ bytes : List Byte, (lget ({} : ShardRec) l.shards k).source = 8 →
      exec (.shardArrived id k bytes) s = .next (s.shardIn l m k (lget ({} : ShardRec) l.shards k).data).feedAgain) ∧
    (∀ (bytes : List Byte) (g : Generation), (lget ({} : ShardRec) l.shards k).source = 9 → s.generation l.guest l.gen = some g →
      g.badIn (shardSize * k) (m.shardLen k) = false →
      exec (.shardArrived id k bytes) s = .next (s.shardIn l m k (readRuns s.hbm g.runs (shardSize * k) (m.shardLen k))).feedAgain) ∧
    ((lget ({} : ShardRec) l.shards k).at_ + ms m.timeout ≤ s.time →
      exec (.shardTimeout id k) s = .next ((s.weightFault l 2
        (k + l.sourceFa m (lget ({} : ShardRec) l.shards k).source * 2 ^ 32)).undoLoad id stShardTimeout)))

/-- Chain messages that meet their load (R240, R241, R244, R254): upstream, JOIN begins the forwarding, SHARD_ACK gives back the room of
a held shard, and MANIFEST is held until the manifest is verified and then answered; downstream, SHARD brings data in order, HOLD
restarts the progress timers and ABORT ends the load with the status it carries. Timers of a chain (R241, R254): 100 ms with no
verified shard left to forward send a HOLD downstream; a MANIFEST read held for 2,000 ms is answered with an error; a load that
nobody joined goes on to its end. -/
def Obligations.GenerationChains : Prop :=
  (∀ (s : State) (m : Msg) (l : WloadRec),
    (isChain m 1 = true → s.upstreamLoad m true = some l →
      exec (.join m) s = .next (((s.modWload l.id (fun y => { y with
        joined := some (leAt m.payload 32 4), nextFwd := if y.joined.isNone then leAt m.payload 32 4 else y.nextFwd })).forwardShards
          l.id 65537).finishLoad l.id)) ∧
    (isChain m 6 = true → s.upstreamLoad m true = some l →
      exec (.shardAck m) s = .next ((s.freeRuns (mget [] l.rooms (leAt m.payload 32 4))).modWload l.id (fun y =>
        { y with rooms := mdel y.rooms (leAt m.payload 32 4) }))) ∧
    (isChain m 5 = true → (s.upstreamLoad m false = none → exec (.manifest m) s = .next (s.sendError m 1)) ∧
      (s.upstreamLoad m false = some l → readLenOk (leNat (m.payload.take 4)) = false → exec (.manifest m) s = .next (s.sendError m 3))) ∧
    (isChain m 5 = true → s.upstreamLoad m false = some l → readLenOk (leNat (m.payload.take 4)) = true → l.phase = 0 →
      exec (.manifest m) s = .next (s.modWload l.id (fun y => { y with held := y.held ++ [(m, s.time)] }))) ∧
    (isChain m 5 = true → s.upstreamLoad m false = some l → readLenOk (leNat (m.payload.take 4)) = true → l.phase ≠ 0 →
      exec (.manifest m) s = .next (s.sendResponse m (slice l.manifest 0 (leNat (m.payload.take 4))))) ∧
    (isChain m 2 = true → s.downstreamLoad m = some l →
      exec (.shard m) s = .next (s.modWload l.id (fun y => { y with shards := y.shards.modify (leAt m.payload 32 4) (fun z =>
        if z.state = 2 ∨ z.source ≠ 8 ∨ z.data.length ≠ leAt m.payload 36 4 then z
        else { z with data := z.data ++ m.payload.drop 64, at_ := s.time }) }))) ∧
    (isChain m 3 = true → s.downstreamLoad m = some l →
      exec (.hold m) s = .next (s.modWload l.id (fun y => { y with shards := y.shards.map (fun z =>
        if z.state = 1 ∧ z.source = 8 then { z with at_ := s.time } else z) }))) ∧
    (isChain m 4 = true → s.downstreamLoad m = some l →
      exec (.chainAbort m) s = .next ((s.weightFault l 5 (l.gen + m.src * 2 ^ 32)).undoLoad l.id (leAt m.payload 40 2)))) ∧
  (∀ (s : State) (id : Nat) (l : WloadRec), s.wload id = some l →
    (l.phase = 1 → l.fwdFa ≠ 0xFFFF → (lget ({} : ShardRec) l.shards l.nextFwd).state ≠ 2 →
      l.holdAt + ms 100 ≤ s.time →
      exec (.chainHoldTimer id) s = .next ((s.sendChain l.fwdFa 3 l.gen (chainHeader l.measure 0 0 0)).modWload id (fun y =>
        { y with holdAt := s.time }))) ∧
    (∀ (k : Nat) (q : Msg) (t : Nat), l.held[k]? = some (q, t) → t + ms 2000 ≤ s.time →
      exec (.manifestReadTimeout id k) s = .next ((s.sendError q 1).modWload id (fun y => { y with held := y.held.eraseIdx k }))) ∧
    (l.joined = none → l.fwdFa ≠ 0xFFFF → exec (.chainJoinTimeout id) s = .next (s.finishLoad id)))

/-- Training and width (R269-R271, R290, R443): a DOWN port with a cable whose peer signals begins training; trained lanes that lock at
some width take it into SECURING; 500 ms without that put it DOWN with a fault; an ACTIVE port that loses a lane in use retrains at
the next narrower width; a retrain that ends makes it ACTIVE at the widest width whose lanes lock, and one not complete in 2 ms puts
it DOWN. Writes of PORT_CONTROL by the owner (R269, R270, R284): one that clears ENABLE disables an enabled port, one that sets it
puts a DISABLED port DOWN, from where it trains; with ENABLE kept on an ACTIVE port, RETRAIN retrains at the present width,
FULLWIDTH at full width, and REKEY begins a rekey. -/
def Obligations.PortsTrainRetrainAndAreControlled : Prop :=
  (∀ (s : State) (p : Nat), p < 96 →
    let x := s.port p
    (x.state = 1 → x.mayTrain = true → s.portServed p = true →
      exec (.peerSignalDetect p) s = .next (s.modPort p (fun y => { y with state := 2, since := s.time }))) ∧
    (∀ (lock pol w g : Nat) (snr : List Nat), x.state = 2 → widest (x.usable lock) 3 = some (w, g) →
      exec (.trainingComplete p lock pol snr) s =
        .next ((s.modPort p (fun y => { (y.withLanes lock pol snr) with width := w, lanes := g })).enterSecuring p)) ∧
    (∀ lock : Nat, x.state = 2 → x.since + ms 500 ≤ s.time →
      exec (.trainFail p lock) s = .next ((s.linkFault p 1 (lock % 256 * 2 ^ 48)).enterDown p 1)) ∧
    (∀ lane : Nat, lane < 8 → x.state = 4 → bitAt x.lanes lane = true →
      exec (.laneLoss p lane) s = .next ((s.modPort p (fun y =>
        { y with lane := mset y.lane lane { mget {} y.lane lane with lock := false } })).enterRetraining p (x.width - 1))) ∧
    (∀ lock w g : Nat, x.state = 5 → widest (x.usable lock) x.want = some (w, g) →
      ∃ t, exec (.retrainComplete p lock) s = .next t ∧ (t.port p).state = 4 ∧ (t.port p).width = w ∧ (t.port p).lanes = g ∧
        (t.port p).keys = x.keys ∧ (t.port p).tx.buf = x.tx.buf) ∧
    (x.state = 5 → x.since + ms 2 ≤ s.time → exec (.retrainTimeout p) s = .next (s.enterDown p 1))) ∧
  (∀ (s : State) (src p val : Nat), p < 96 → s.accessor src = some 0 →
    let u := (s.traced (portControlAddr p) true val).modPort p (fun x =>
      { x with clear := bitAt val 60, laneOff := bits val 58 51, enable := bitAt val 63 })
    let v : State := { u with iface := { u.iface with cabOff := u.iface.cabOff.filter (· != p / 4) } }
    (bitAt val 63 = false → bitAt val 62 = false → bitAt val 61 = false → (s.port p).enable = true → (s.port p).state ≠ 0 →
      exec (.portEnable src p val) s = .next (u.enterDown p 0)) ∧
    (bitAt val 63 = true → bitAt val 62 = false → bitAt val 61 = false → (s.port p).enable = false → (s.port p).state = 0 →
      exec (.portEnable src p val) s = .next (u.modPort p (fun x => { x with state := 1, since := s.time }))) ∧
    (bitAt val 63 = true → (s.port p).state = 4 → bitAt val 62 = true → bitAt val 61 = false →
      exec (.retrain src p val) s = .next (v.enterRetraining p (v.port p).width)) ∧
    (bitAt val 63 = true → (s.port p).state = 4 → bitAt val 61 = true →
      exec (.fullwidth src p val) s = .next (v.enterRetraining p 3)) ∧
    (bitAt val 63 = true → (s.port p).state = 4 → bitAt val 62 = false → bitAt val 61 = false → bitAt val 59 = true →
      exec (.rekey src p val) s = .next (u.beginRekey p)))

/-- Timers of a link's key (R284, R392): 2^31 runs or 1 h begin a rekey; 2^32 runs without a new key put the port DOWN; 25 ms of
SECURING without an exchange go on in cleartext where CLEAR allows it outside approved mode, and otherwise fail the exchange; 1 s
after a failed exchange it begins again. KEY messages (R284, R391, R392): a HELLO whose certificate and credential verify is
answered with an ENCAP, and one that does not verify fails the exchange; an ENCAP is decapsulated, at an ACTIVE port behind the
rekey it begins; a FINISH whose confirmation verifies makes a port in SECURING ACTIVE under the new keys and has an ACTIVE one hold
them until the switch, and a wrong one fails the exchange; an ABORT ends it for 1 s. -/
def Obligations.LinksExchangeTheirKeys : Prop :=
  (∀ (s : State) (p : Nat), p < 96 →
    let x := s.port p
    (x.state = 4 → (2 ^ 31 ≤ x.tx.runNo ∨ x.keyAt + secs 3600 ≤ s.time) → exec (.rekeyDue p) s = .next (s.beginRekey p)) ∧
    (x.state = 4 → x.cleartext = false → 2 ^ 32 ≤ x.tx.runNo → exec (.runLimitExhausted p) s = .next (s.enterDown p 1)) ∧
    (x.state = 3 → x.since + ms 25 ≤ s.time → x.clear = true → s.keeper.approved = false →
      exec (.securingTimeout p) s = .next (s.enterActive p true)) ∧
    (x.state = 3 → x.since + ms 25 ≤ s.time → x.clear = false → x.auth.failed = false →
      exec (.securingTimeout p) s = .next (s.linkFail p 4)) ∧
    (∀ a : Nat, x.auth.retryAt = some a → a ≤ s.time → x.state = 3 →
      exec (.linkAuthRetry p) s = .next ((s.modPort p (fun y => { y with since := s.time })).beginExchange p)) ∧
    (∀ a : Nat, x.auth.retryAt = some a → a ≤ s.time → x.state ≠ 3 →
      exec (.linkAuthRetry p) s =
        .next ((s.modAuth p (fun y => { y with failed := false, retryAt := none, rekey := false })).beginRekey p))) ∧
  (∀ (s u : State) (p : Nat) (c : List Byte), p < 96 →
    (s.canExchange p = true → (s.port p).state = 3 → s.takeKey p 1 = some (c, u) →
      exec (.hello p true true) s = .next (((u.modAuth p (fun a => { a with helloIn := c })).sendEncap p).tryKeys p) ∧
      (∀ cred : Bool, exec (.hello p false cred) s = .next (u.linkFail p 1)) ∧
      exec (.hello p true false) s = .next (u.linkFail p 2)) ∧
    (s.canExchange p = true → s.takeKey p 2 = some (c, u) →
      let v := if (u.port p).state = 4 then u.beginRekey p else u
      exec (.encap p) s = .next ((v.modAuth p (fun a =>
        { a with encapIn := c, secretIn := Config.kemDecap v.keeper.kemNo (c.take 1088) })).tryKeys p)) ∧
    (∀ k : LinkKeys, s.canExchange p = true → (s.port p).auth.keys = some k → s.takeKey p 3 = some (c, u) →
      let a := (u.port p).auth
      (c.take 32 = (finishMac k a.peer a.transcript).take 32 → (u.port p).state = 3 →
        ∃ t, exec (.finish p true) s = .next t ∧ (t.port p).state = 4 ∧ (t.port p).cleartext = false ∧ (t.port p).keys = k) ∧
      (c.take 32 = (finishMac k a.peer a.transcript).take 32 → (u.port p).state = 4 →
        exec (.finish p true) s = .next (u.modPort p (fun x =>
          { x with keyState := 2, stagedTx := some k, stagedRx := some k, auth := { x.auth with keys := none, rekey := false } }))) ∧
      (c.take 32 ≠ (finishMac k a.peer a.transcript).take 32 → exec (.finish p true) s = .next (u.linkFail p 3))) ∧
    (s.takeKey p 4 = some (c, u) →
      exec (.linkAbort p) s = .next (u.modPort p (fun x =>
        { x with keyState := 3, auth := { x.auth with failed := true, keys := none, retryAt := some (u.time + secs 1) } }))))

/-- One flit slot of a port (R270, R276, R277): TRAIN in training; control and KEY flits or IDLE while securing; in ACTIVE the first
ready item of R276, of which a replayed flit is the first and a flit of channel C the second; an IDLE where freed buffers have gone
unreported for 16 slots (log 80). Good flits (R270, R273, R277, R279, R280, R282, R285): each is counted and its acknowledgement and
credits are taken; an IDLE does no more, a RETRY_REQ makes a replay due, a REPLAY of the flit expected ends the discard, and a KEY
flit takes the next number. In ACTIVE, where no replay is awaited, a SEAL verifies the run before it and a data flit or quick read
takes the next number; in SECURING they are only counted. A bad flit at a port that awaits no replay changes no message and asks for
a replay from the flit expected; 64 flit slots without a REPLAY ask again; the eighth request for one flit retrains an ACTIVE link,
and one in SECURING goes on asking (R280, R281; log 81). A message none of whose flits has been sent for 2 ms is discarded and
counted (R278). -/
def Obligations.FlitsAreSentTakenAndRetried : Prop :=
  (∀ (s : State) (p : Nat), p < 96 →
    let u := s.modPort p Port.passSlot
    let x := u.port p
    (x.state = 2 → exec (.flitTransmit p) s = .next (u.putFlit p { hdr := x.linkHeader 5 0, payload := zeros 240 })) ∧
    (x.state = 3 → exec (.flitTransmit p) s = .next (u.slotSecuring p) ∧
      (x.tx.replay = [] → x.tx.retryReq = false → x.tx.replayDue = false → x.tx.keyFlits = [] →
        exec (.flitTransmit p) s = .next (u.putFlit p { hdr := x.linkHeader 0 0, payload := zeros 240 }))) ∧
    (x.state = 4 → 16 ≤ x.tx.crWait → exec (.flitTransmit p) s = .next (u.putIdle p)) ∧
    (x.state = 4 → x.tx.crWait < 16 →
      exec (.flitTransmit p) s = .next (u.slotActive p) ∧
      (∀ (f : Flit) (r : List Flit), x.tx.replay = f :: r → exec (.flitTransmit p) s = .next (u.putReplay p f r)) ∧
      (x.tx.replay = [] → x.ready 0 = true → x.tx.run.length < 48 → exec (.flitTransmit p) s = .next (u.putData p 0)))) ∧
  (∀ (s : State) (p : Nat) (f : RxFlit), p < 96 → GoodFlit s p f →
    let g := Flit.ofBytes f.bytes
    let h := g.hdr
    let u := (s.flitCounted p f).takeHeader p h
    let x := s.port p
    (isLink f 0 = true → exec (.idle p f) s = .next u) ∧
    (isLink f 2 = true → exec (.retryReq p f) s = .next (u.takeRetryReq p (bits h 23 12))) ∧
    (isLink f 3 = true → bits h 23 12 = x.rx.seq →
      exec (.replay p f) s = .next (u.modPort p (fun x => x.modRx (fun r => { r with discard := false })))) ∧
    (isLink f 4 = true → x.rx.discard = false → exec (.dataFlitReceive p f) s = .next (u.acceptFlit p g)) ∧
    (x.state = 4 → x.rx.discard = false →
      (isLink f 1 = true → exec (.seal p f) s = .next (u.takeSeal p g)) ∧
      (hdrKind h < 5 → exec (.dataFlitReceive p f) s =
        .next ((u.modPort p (fun x => x.traffic 1 (some (bits h 92 91)) (bits h 81 66) (bits h 65 50))).acceptFlit p g)) ∧
      (hdrKind h = 6 → exec (.quickRead p f) s =
        .next ((u.modPort p (fun x => x.traffic 1 none (bits h 81 66) (bits h 65 50))).acceptFlit p g))) ∧
    (x.state = 3 →
      (isLink f 1 = true → exec (.seal p f) s = .next (s.flitCounted p f)) ∧
      (hdrKind h < 5 → exec (.dataFlitReceive p f) s = .next (s.flitCounted p f)) ∧
      (hdrKind h = 6 → exec (.quickRead p f) s = .next (s.flitCounted p f)))) ∧
  (∀ (s : State) (p : Nat), p < 96 →
    let x := s.port p
    (x.state = 3 ∨ x.state = 4 → x.rx.discard = true → 64 ≤ x.rx.slots → exec (.retryReqRepeat p) s = .next (s.requestRetry p)) ∧
    (x.rx.reqRef = x.rx.seq → x.rx.requests = 7 → x.state = 4 → ((s.requestRetry p).port p).state = 5) ∧
    (x.rx.reqRef = x.rx.seq → x.rx.requests = 7 → x.state = 3 → ((s.requestRetry p).port p).state = 3 ∧
      ((s.requestRetry p).port p).rx.requests = 0 ∧ ((s.requestRetry p).port p).tx.retryReq = true) ∧
    (∀ f : RxFlit, x.state = 3 ∨ x.state = 4 → x.rx.discard = false → f.uncorr = true →
      exec (.dataFlitReceive p f) s = .next (let u := (s.flitCounted p f).countPort p cFecUncorr 1
        (if flitIntact f.bytes then u else u.countPort p cCrcErr 1).requestRetry p)) ∧
    (x.rx.reqRef ≠ x.rx.seq → ((s.requestRetry p).port p).rx.discard = true ∧ ((s.requestRetry p).port p).rx.requests = 1 ∧
      ((s.requestRetry p).port p).tx.retryReq = true ∧ ((s.requestRetry p).port p).rx.msgs = x.rx.msgs) ∧
    (∀ (vc k : Nat) (t : TxMsg), vc < 4 → (mget [] x.tx.queues vc)[k]? = some t → t.sent = 0 → t.since + ms 2 ≤ s.time →
      let v := (((s.modPort p (fun y => (y.count cDiscarded 1).modTx (fun z =>
        { z with queues := mset z.queues vc ((mget [] z.queues vc).eraseIdx k) }))).linkFault p 6
          (vc * 2 ^ 46 + t.msg.dest % 65536 * 2 ^ 16)).dropTx t).dropRecord t
      exec (.creditStall p vc k) s = .next (match t.mc with | some m => v.mcBranchFail p m.1 m.2 x.peerFa | none => v)))

/-- Discovery (R294-R296): a KNOCK at an ACTIVE port replaces the neighbour record and is answered on the same port with its nonce; an
ANSWER replaces the record, and ends the knock whose nonce it echoes; a knock without an answer goes out again every 1 ms under the
same nonce, the eighth send leaves the neighbour SILENT, and from then on a new knock goes out every 1 s. The owner's writes of
FABRIC_ADDR and BRIDGE (R293, R303, R304): a class-0 address that is not reserved is taken and knocks go out, any other value is
refused; a role and host port in range are taken, with knocks when the role changes, and a standby that the owner makes active takes
the role over. The bridge pair (R303, R304): the active bridge beats every 1 ms; a beat that reaches the standby is noted, and one
of a lower EPOCH makes it take the role; 3 ms without a beat do so as well; an announcement of a later EPOCH sets BRIDGE_FA and
EPOCH, makes a former active bridge the standby, sends every unacknowledged fault message again to the new bridge, and where the
role or the bridge changes has knocks go out. -/
def Obligations.NeighboursAndBridges : Prop :=
  (∀ (s : State) (p : Nat) (m : Msg), p < 96 → (s.port p).state = 4 →
    let u := (s.takeRx p m).meetNeighbour p m.payload
    let x := (s.port p).nbr
    (isDiscovery m 1 = true →
      exec (.knock p m) s = .next (u.queueOn p (u.peerMsg 1 0xFFFE 0x1A900 (u.knockData 2 p (leAt m.payload 12 4))))) ∧
    (isDiscovery m 2 = true → exec (.answer p m) s = .next (u.modPort p (fun y =>
      if leAt m.payload 12 4 = y.nbr.nonce then { y with nbr := { y.nbr with sends := 0 } } else y))) ∧
    (1 ≤ x.sends → x.sends < 8 → x.sentAt + ms 1 ≤ s.time →
      exec (.knockRetry p) s = .next ((s.modPort p (fun y => { y with nbr := { y.nbr with
        state := if x.sends = 7 then 2 else y.nbr.state
        sends := x.sends + 1
        sentAt := s.time } })).queueKnock p)) ∧
    (8 ≤ x.sends → x.sentAt + secs 1 ≤ s.time →
      exec (.knockRetry p) s = .next ((s.sendKnock p).modPort p (fun y => { y with nbr := { y.nbr with sends := 8 } }))) ∧
    ((s.queueKnock p) = s.queueOn p (s.peerMsg 1 0xFFFE 0x1A900 (s.knockData 1 p x.nonce)))) ∧
  (∀ (s : State) (src val : Nat), s.accessor src = some 0 →
    (faClass (val % 65536) = 0 → faReserved (val % 65536) = false →
      exec (.fabricAddrWrite src val) s = .next { s.traced 0x1A800 true val with fabricAddr := val % 65536 }.knockAll) ∧
    (faClass (val % 65536) ≠ 0 ∨ faReserved (val % 65536) = true →
      exec (.fabricAddrWrite src val) s = .next ((s.traced 0x1A800 true val).rejectAccess src 0x1A800 0 false 6)) ∧
    (let u := (s.traced 0x1A808 true val).modFabric (fun f =>
        { f with role := bits val 63 62, hostPort := bits val 61 55, partner := bits val 54 39, beatAt := s.time })
     let v := (s.traced 0x1A808 true val).modFabric (fun f =>
        { f with role := bits val 63 62, hostPort := bits val 61 55, partner := bits val 54 39 })
     (bits val 63 62 < 3 → bits val 61 55 < 96 →
      (bits val 63 62 = s.fabric.role → exec (.bridgeWrite src val) s = .next v) ∧
      (s.fabric.role = 2 → bits val 63 62 = 1 → exec (.bridgeWrite src val) s = .next u.takeRole) ∧
      (bits val 63 62 ≠ s.fabric.role → ¬ (s.fabric.role = 2 ∧ bits val 63 62 = 1) →
        exec (.bridgeWrite src val) s = .next u.knockAll))) ∧
    (3 ≤ bits val 63 62 ∨ 96 ≤ bits val 61 55 →
      exec (.bridgeWrite src val) s = .next ((s.traced 0x1A808 true val).rejectAccess src 0x1A808 0 false 6))) ∧
  (∀ s : State,
    (s.fabric.role = 1 → s.fabric.partner ≠ 0xFFFF → s.fabric.beatAt + ms 1 ≤ s.time →
      exec .bridgeBeatTimer s = .next ((s.sendWrite 0 s.fabric.partner 0x1A9C0 (natLE 2 s.fabric.epoch ++ natLE 2 s.fabricAddr)).modFabric
        (fun f => { f with beatAt := s.time }))) ∧
    (∀ m : Msg, m.kind = 0 → m.vc = 0 → m.addr = 0x1A9C0 → s.fabric.role = 2 →
      (s.fabric.epoch ≤ leAt m.payload 0 2 → exec (.bridgeBeat m) s = .next (s.modFabric (fun f => { f with beatAt := s.time }))) ∧
      (leAt m.payload 0 2 < s.fabric.epoch →
        exec (.bridgeBeat m) s = .next (s.modFabric (fun f => { f with beatAt := s.time })).takeRole)) ∧
    (s.fabric.role = 2 → s.fabric.beatAt + ms 3 ≤ s.time → exec .bridgeTakeover s = .next s.takeRole) ∧
    (∀ m : Msg, m.kind = 0 → m.vc = 1 → m.addr = 0x1A9C0 →
      let ahead := (leAt m.payload 0 2 + 65536 - s.fabric.epoch % 65536) % 65536
      let fa := leAt m.payload 2 2
      let u := s.modFabric (fun f => { f with
        epoch := leAt m.payload 0 2
        bridgeFa := fa
        role := if f.role = 1 then 2 else f.role
        beatAt := if f.role = 1 then s.time else f.beatAt
        unacked := f.unacked.map (fun y => { y with sentAt := s.time }) })
      let v := s.fabric.unacked.foldl (fun a y => a.sendWrite 1 fa 0x1AA00 y.data) u
      ahead ≠ 0 → ahead < 0x8000 →
        exec (.bridgeAnnounce m) s = .next (if s.fabric.role = 1 ∨ s.fabric.bridgeFa ≠ fa then v.knockAll else v)))

/-- Multicast (R306-R308): a message of its group's root that comes in where the entry says and fits joins the buffer, leaves the port
it came from, goes to the local member and to every branch; any other for a group is counted and discarded; an acknowledgement
completes its branch, with the failures it names, at least one where it says so. Barriers (R310, R311): an arrival of the present
generation from a child is taken while none was sent up, one of the next generation is held for it, and one of no child or of
another generation is discarded and counted; the parent's release of this generation is made; the owner or the entry's guest makes
the local arrival; and TIMEOUT ms after the first arrival a barrier that has not gone up fails. -/
def Obligations.MulticastAndBarriers : Prop :=
  (∀ (s : State) (m : Msg),
    (0xFE00 ≤ m.dest → m.dest ≤ 0xFEFF →
      let g := m.dest - 0xFE00
      let e := s.mcEntry g
      (∀ inp : Option Nat, inp.getD 0 < 96 →
        let taken (t : State) : State := match inp with | some p => t.takeRx p m | none => t
        (bitAt e 255 = true → m.kind = 0 → m.vc = mcVc e → m.vc ≠ 0 → m.src = mcRoot e → mcIn e = inp.getD 0x7F → 8 ≤ m.payload.length →
          m.payload.length ≤ 1048576 → s.mcUsed + m.payload.length ≤ 67108864 →
          exec (.multicastReceive inp m) s =
            (let seq := leAt m.payload 0 4
             let rec_ : McMsg := { group := g, seq := seq, msg := m, branches := mcOut e, unsent := mcOut e }
             let u := (taken s).modFabric (fun f => { f with mcBuf := f.mcBuf ++ [rec_] })
             let v : State := if bitAt e 254 = true then { u with delivered := u.delivered ++ [{ m with payload := m.payload.drop 8 }] } else u
             let w := (mcOut e).foldl (fun a p => a.queueTx p { msg := m, since := a.time, mc := some (g, seq) }) v
             .next (w.mcFlush g (w.fabric.mcBuf.length + 1)))) ∧
        (bitAt e 255 = false ∨ m.kind ≠ 0 ∨ m.vc ≠ mcVc e ∨ m.vc = 0 ∨ m.src ≠ mcRoot e ∨ mcIn e ≠ inp.getD 0x7F ∨ m.payload.length < 8 ∨
          1048576 < m.payload.length →
          exec (.multicastReceive inp m) s = .next ((taken s).countPort (inp.getD 0) cMcReject 1)))) ∧
    (∀ p : Nat, p < 96 → m.kind = 0 → m.vc = 1 → m.dest = 0xFFFE → m.addr = 0x1A940 →
      exec (.mcAck p m) s = .next ((s.takeRx p m).mcBranchDone p (leAt m.payload 0 1) (leAt m.payload 4 4) (leAt m.payload 2 2)
        (if leAt m.payload 1 1 = 0 then 0 else max 1 (leAt m.payload 8 2))))) ∧
  (∀ (s : State) (p : Nat) (m : Msg), p < 96 →
    let t := m.dest - 0xFF00
    let u := s.takeRx p m
    let b := u.bar t
    let gen := leAt m.payload 4 4
    (isBarrier m 1 = true →
      (b.valid = true → p ∈ b.children → gen = b.gen →
        exec (.arrive p m) s = .next (if b.up = true then u else
          (u.setBar t (b.arrive u.time (some p) (leAt m.payload 1 1 == 1) (leAt m.payload 2 2))).barCheck t 2)) ∧
      (b.valid = true → p ∈ b.children → gen = (b.gen + 1) % 2 ^ 32 → gen ≠ b.gen →
        exec (.arrive p m) s = .next (u.setBar t { b with early := b.early ++ [(p, leAt m.payload 1 1, leAt m.payload 2 2)] })) ∧
      (b.valid = false ∨ p ∉ b.children ∨ (gen ≠ b.gen ∧ gen ≠ (b.gen + 1) % 2 ^ 32) →
        exec (.arrive p m) s = .next (u.countPort p cMcReject 1))) ∧
    (isBarrier m 2 = true →
      (b.valid = true → b.parent = p → gen = b.gen →
        exec (.releaseBarrier p m) s = .next ((u.barRelease t (leAt m.payload 1 1 == 1) (leAt m.payload 2 2)).barCheck t 2)) ∧
      (b.valid = false ∨ b.parent ≠ p ∨ gen ≠ b.gen → exec (.releaseBarrier p m) s = .next (u.countPort p cMcReject 1))) ∧
    (∀ src val q : Nat, s.accessor src = some q → (q = 0 ∨ q = bits (s.bar (bits val 5 0)).entry 246 241) → bitAt val 63 = true →
      (s.bar (bits val 5 0)).valid = true → (s.bar (bits val 5 0)).isLocal = true → (s.bar (bits val 5 0)).here = false →
      exec (.barArrive src val) s = .next (((s.traced 0x1A828 true val).setBar (bits val 5 0)
        ((s.bar (bits val 5 0)).arrive s.time none false 0)).barCheck (bits val 5 0) 2)) ∧
    (∀ n f : Nat, n < 64 → (s.bar n).first = some f → (s.bar n).valid = true → bits (s.bar n).entry 240 225 ≠ 0 →
      (s.bar n).up = false → f + ms (bits (s.bar n).entry 240 225) ≤ s.time →
      exec (.barrierTimeout n) s = .next (s.barFail n 2)))

/-- Messages for a region's item (R64, R86-R88, R104, R113, R115, R274, R275): an arrival at a LOADED or RUNNING region is offered to
its cell: off channel A and as a verdict word with its octets as they are; on channel A as values, without the padding of its flits,
or as a contribution to its reduction; one with a reserved format code, and one for a region or cell that is not there, is answered
with an error; at a region that a contract fault stopped it is accepted and counted; and an error completion that arrives here is
the requester's. Routing and the sill's words (R287, R297, R298): the oldest message of a channel that is not routed yet is routed,
from an input port or from this module; a directed message goes on along its path or ends here; and 100 ns after its last refresh a
sill takes all 512 words at once, at its first refresh too. -/
def Obligations.MessagesArriveAndAreRouted : Prop :=
  (∀ (s : State) (m : Msg),
    (bits m.addr 47 46 = 3 → m.kind = 0 →
      let r := bits m.addr 45 40
      let i := bits m.addr 39 22
      (∀ (red : Option (Nat × Nat)) (c n : Nat), (s.region r).state = 2 ∨ (s.region r).state = 3 → i < 256 * (s.region r).panes.length →
        (s.region r).localCell i = some c → stepOfTag (s.region r).stepNo (bits m.addr 16 0) = some n →
        let d : Delivery := { cell := c, item := bits m.addr 21 17, tag := n, data := m.payload, src := m.src }
        (m.vc ≠ 2 ∨ s.isVerdict d = true → exec (.regionArrival ⟨m, red⟩) s = .next (s.offer r d)) ∧
        (m.vc = 2 → s.isVerdict d = false → d.item < (s.cell c).items.length →
          (readPreamble m.payload = none → exec (.regionArrival ⟨m, red⟩) s = .next (s.sendError m 6)) ∧
          (∀ f, readPreamble m.payload = some f →
            (red = none ∨ partialSums f = false →
              exec (.regionArrival ⟨m, red⟩) s = .next (s.offer r { d with data := m.payload.take 8 ++ valuesOf f m.payload })) ∧
            (∀ k total : Nat, red = some (k, total) → partialSums f = true →
              exec (.regionArrival ⟨m, red⟩) s =
                .next (s.reduce r d k total (decodeValues f.fmt f.scale (valuesOf f m.payload))))))) ∧
      (∀ red : Option (Nat × Nat), (s.region r).state = 0 ∨ (s.region r).state = 1 →
        exec (.regionArrival ⟨m, red⟩) s = .next (s.sendError m 1)) ∧
      (∀ (red : Option (Nat × Nat)) (c : Nat), (s.region r).state = 4 → (s.region r).contract = true → i < 256 * (s.region r).panes.length →
        (s.region r).localCell i = some c →
        exec (.regionArrival ⟨m, red⟩) s = .next (s.modCell c (fun x => x.countEv { cls := 6, ev := 3, master := 6 } 1)))) ∧
    (m.kind = 3 → m.dest = s.fabricAddr → exec (.errorCompletion m none) s = .next { s with delivered := s.delivered ++ [m] })) ∧
  (∀ s : State,
    (∀ (p vc i : Nat) (y : RxMsg), p < 96 → vc < 4 →
      (s.port p).rx.msgs.findIdx? (fun z => z.out.isNone && z.msg.vc == vc) = some i → (s.port p).rx.msgs[i]? = some y →
      exec (.messageRoute (some p) vc) s = .next (s.routeRx p i y)) ∧
    (∀ (vc i : Nat) (o : OutMsg), vc < 4 → s.outbox.findIdx? (fun z => z.msg.vc == vc) = some i → s.outbox[i]? = some o →
      s.localWaits o.msg = false →
      exec (.messageRoute none vc) s = .next ({ s with outbox := s.outbox.eraseIdx i }.routeLocal o)) ∧
    (∀ (p : Nat) (m : Msg), p < 96 → m.dest = 0xFFFD → exec (.directedMessage p m) s = .next ((s.takeRx p m).directed p m)) ∧
    (∀ n : Nat, n < 12 → mhas s.quick n = false ∨ (mget (0, []) s.quick n).1 + ns 100 ≤ s.time →
      exec (.quickWordRefresh n) s = .next { s with quick := mset s.quick n (s.time, s.quickWords) }))

/-- A unit keeps at most 8 reports for the Lintel (R433): a ninth of another key is lost and counted, and one of a key it already holds
adds its count to that report. The fault table (R433-R435): a report the Lintel takes leaves its unit and enters the table; an
acknowledged SENT entry, and an OPEN one where nothing forwards, settles once its LAST_TIME is 1 ms old. Alerts (R436-R439): the
owner clears the causes he writes, but never bit 63; an acknowledged interrupt goes, and comes back when the state differs from the
octet it carried; a shelf status write not acknowledged is retried once after 1 ms; a read of FT_META by the owner, or by the guest
that the selected entry names, copies that entry for the reader's reads of FT_DATA and answers its state. -/
def Obligations.FaultReportsAndAlerts : Prop :=
  (∀ (s : State) (unit : Nat) (f : FaultRec),
    let mine := s.reports.filter (fun p => p.unit == unit)
    (mine.any (fun p => p.fr.key == f.key) = false → 8 ≤ mine.length →
      (s.report unit f).reports = s.reports ∧ (s.report unit f).lost = min (2 ^ 32 - 1) (s.lost + 1) ∧
        (s.report unit f).lostClass = f.cls) ∧
    (mine.any (fun p => p.fr.key == f.key) = false → mine.length < 8 →
      (s.report unit f).reports = s.reports ++ [⟨unit, { f with first := s.nowNs, last := s.nowNs }⟩]) ∧
    (mine.any (fun p => p.fr.key == f.key) = true → (s.report unit f).reports.length = s.reports.length ∧ (s.report unit f).lost = s.lost)) ∧
  (∀ s : State,
    (∀ (k : Nat) (r : Report), s.reports[k]? = some r → s.iface.halted = false →
      exec (.faultReport k) s = .next ({ s with reports := s.reports.eraseIdx k }.enterFault r.fr)) ∧
    (∀ (k : Nat) (e : FtEntry), s.ftEntry k = some e → s.ftOld e = true →
      ((e.state = 2 ∧ e.acked = true) ∨ (e.state = 1 ∧ s.fabric.bridgeFa = 0xFFFF)) →
      exec (.faultEntrySettle k) s = .next (s.setFt k { e with state := 3 }))) ∧
  (∀ s : State,
    (∀ src val : Nat, s.accessor src = some 0 →
      exec (.alertCauseClear src val) s = .next ((s.traced 0x10200 true val).setCauses ((List.range 16).foldl (fun a i =>
        if bitAt s.mgmt.cause i && (!bitAt val (48 + i) || i == 15) then a + 2 ^ i else a) 0))) ∧
    (∀ b : Nat, s.mgmt.ibi = some b → s.iface.ibiEn = true →
      exec .ibiAck s = .next (s.modMgmt (fun m => { m with ibi := if s.alertByte ≠ b then some s.alertByte else none }))) ∧
    (∀ t : Nat, s.mgmt.shelfAt = some t → t + ms 1 ≤ s.time →
      exec .shelfStatusRetry s = .next ((s.shelfWrite 0xD2 (natLE 2 s.mgmt.shelfBits)).modMgmt (fun m => { m with shelfAt := none }))) ∧
    (∀ (src rtag q : Nat) (e : FtEntry), s.accessor src = some q → s.ftEntry (s.selOf q 0) = some e → (q = 0 ∨ e.fr.guest = q) →
      exec (.ftMetaRead src rtag) s = .next (((s.traced 0x10818 false 0).modMgmt (fun m => { m with ftCopy := mset m.ftCopy q e })).sendMsg
        { kind := 2, vc := 1, dest := src, src := s.fabricAddr, addr := rtag, payload := natLE 8 (ftMeta (some e)) })))

/-- Fault forwarding (R313, R314, R435): once in a window of 1 ms up to three OPEN records go to the bridge in one message under the next
sequence number, and become SENT, or at the active bridge itself into its queue for the sink; a message not acknowledged for 10 ms goes
out again; an acknowledgement settles those of its entries that are still SENT, at once or when they are 1 ms old; the active bridge
acknowledges a fault message, and takes no record of one that is not later than the last from its source; and it writes its oldest record
into the sink, at most 16,000 a second. -/
def Obligations.FaultMessages : Prop :=
  ∀ s : State,
    (s.fabric.bridgeFa ≠ 0xFFFF → s.openEntries 3 ≠ [] → s.fabric.window ≠ some (s.time / ms 1) → s.iface.halted = false →
      let es := s.openEntries 3
      let u := s.modFabric (fun f => { f with window := some (s.time / ms 1) })
      (s.fabric.role = 1 →
        exec .faultForward s = .next (es.foldl (fun a q =>
          (a.sinkPush a.fabricAddr q.2.fr.word).setFt q.1 { q.2 with state := if a.ftOld q.2 then 3 else 2, acked := true }) u)) ∧
      (s.fabric.role ≠ 1 →
        let n := (s.fabric.msgSeq + 1) % 2 ^ 32
        let data := natLE 2 s.fabricAddr ++ natLE 1 es.length ++ [0] ++ natLE 4 n ++ es.flatMap (fun q => natLE 64 q.2.fr.word)
        exec .faultForward s = .next (((es.foldl (fun a q => a.setFt q.1 { q.2 with state := 2, acked := false }) u).modFabric (fun f =>
          { f with
            msgSeq := n
            unacked := f.unacked ++ [{ seq := n, data := data, entries := es.map (·.1), sentAt := s.time }] })).sendWrite 1
              s.fabric.bridgeFa 0x1AA00 data))) ∧
    (∀ (k : Nat) (u : FaultMsg), s.fabric.unacked[k]? = some u → u.sentAt + ms 10 ≤ s.time →
      exec (.faultMessageRetry k) s = .next ((s.modFabric (fun f =>
        { f with unacked := f.unacked.set k { u with sentAt := s.time } })).sendWrite 1 s.fabric.bridgeFa 0x1AA00 u.data)) ∧
    (∀ (m : Msg) (u : FaultMsg), m.kind = 0 → m.addr = 0x1A980 →
      s.fabric.unacked.find? (fun y => y.seq == leAt m.payload 0 4) = some u →
      exec (.faultAck m) s = .next (u.entries.foldl (fun a i =>
        match a.ftEntry i with
        | some e => if e.state = 2 then a.setFt i { e with acked := true, state := if a.ftOld e then 3 else 2 } else a
        | none => a) (s.modFabric (fun f => { f with unacked := f.unacked.filter (fun y => y.seq != u.seq) })))) ∧
    (∀ m : Msg, m.kind = 0 → m.vc = 1 → m.addr = 0x1AA00 → s.fabric.role = 1 →
      let src := leAt m.payload 0 2
      let seq := leAt m.payload 4 4
      let u := s.sendWrite 1 src 0x1A980 (natLE 4 seq)
      let later : Bool := match s.fabric.sources.find? (fun q => q.1 == src) with | some q => decide (q.2 < seq) | none => true
      (later = true → exec (.faultMessage m) s = .next ((records 64 ((m.payload.drop 8).take (64 * min 3 (leAt m.payload 2 1)))).foldl
        (fun a v => a.sinkPush src v) (u.modFabric (fun f => { f with sources := mset f.sources src seq })))) ∧
      (later = false → exec (.faultMessage m) s = .next u)) ∧
    (∀ (q : SinkRec) (rest : List SinkRec), s.fabric.sinkQ = q :: rest → s.fabric.role = 1 → s.fabric.sinkFa ≠ 0xFFFF →
      let n := if s.fabric.sinkSec = s.time / secs 1 then s.fabric.sinkCount else 0
      n < 16000 →
      exec .faultSinkWrite s = .next ((s.sendWrite 1 s.fabric.sinkFa (s.fabric.sinkAddr + 128 * (s.fabric.faultSeq % 4096))
        (natLE 64 q.rec_ ++ natLE 2 q.src ++ zeros 6 ++ natLE 8 s.nowNs ++ zeros 48)).modFabric (fun f =>
          { f with sinkQ := rest, faultSeq := (f.faultSeq + 1) % 2 ^ 48, sinkSec := s.time / secs 1, sinkCount := n + 1 })))

/-- The input voltage and the converters (Table 15-2, R316, R352): low input caps the module at 2 kW and holds every region at pause
level 31, until the voltage is back; a deeper, longer or too high fall of the input turns the module off; the first converter a
segment loses costs nothing, and each further one 166 A. Pane regulation (R319, R320, R323-R325): a boost, a stretch of the clock, a
shunt and a droop act on the pane alone and are counted; a load-step mark reached in a running pane raises the setpoint by 15 mV, to
at most 860 mV, for its running cycles, a stop of more than 20 µs suspends the raises, and the next running cycle applies them
again; a failed phase is recorded, the second of a core pane caps the pane, the third of a core pane and the second of a sill pane
take it off. -/
def Obligations.PowerInputAndPaneRegulation : Prop :=
  (∀ s : State, s.boot.off = false →
    (∀ vin, vin < 460 → s.power.inputLow = false →
      ∃ t, exec (.inputLow vin) s = .next t ∧ t.power.inputLow = true ∧ t.power.vin = vin ∧ t.capNow = some 2000 ∧
        ∀ r < 64, (t.region r).kEnv = 31) ∧
    (∀ vin, 470 ≤ vin → s.power.inputLow = true →
      ∃ t, exec (.inputLowRelease vin) s = .next t ∧ t.power.inputLow = false ∧ t.capNow = s.thermal.cap ∧
        ∀ r < 64, (t.region r).kEnv = s.thermal.kCool) ∧
    (∀ vin, (vin < 420 ∨ (vin < 460 ∧ ∃ t0, s.power.lowSince = some t0 ∧ t0 + secs 5 ≤ s.time)) →
      exec (.inputLowShutdown vin) s = .next ((s.setVin vin).shutdown (if s.power.inputLow = true then [0x08] else [0x07, 0x08]) {})) ∧
    (∀ vin, 600 < vin →
      exec (.inputHigh vin) s = .next ((((s.setVin vin).powerModule 9 (vin % 2 ^ 12)).cause 57).shutdownHigh)) ∧
    (∀ k c : Nat, k < 9 → c < segConverters k → (s.seg k).lost.contains c = false →
      let t := s.setSeg k { s.seg k with lost := (s.seg k).lost ++ [c] }
      exec (.converterFail k c) s = .next (if (s.seg k).lost = [] then t else (t.powerModule 7 (k + 16 * c)).shelfStatus) ∧
        t.segRating k = s.segRating k - (if (s.seg k).lost = [] then 0 else 166))) ∧
  (∀ (s : State) (p : Nat),
    (∀ vmin, p < 786 → s.regulated p = true → vmin + 25 ≤ s.setpointOf p → (∀ t0, (s.pane p).pwr.boostAt = some t0 → t0 + us 5 ≤ s.time) →
      exec (.boost p vmin) s = .next (s.modPane p (fun y => y.modPwr (fun w =>
        { w with vmin := vmin, boosts := min 2047 (w.boosts + 1), boostAt := some s.time })))) ∧
    (∀ vmin, p < 786 → (s.pane p).clk.stretched = false → s.regulated p = true → vmin + 50 ≤ s.setpointOf p →
      exec (.clockStretch p vmin) s = .next (s.modPane p (fun y => (y.modClk (fun c => { c with stretched := true })).modPwr (fun w =>
        { w with vmin := vmin, stretch := min 2047 (w.stretch + 1) })))) ∧
    (∀ vmin, p < 786 → (s.pane p).clk.stretched = true → s.setpointOf p < vmin + 25 →
      exec (.clockStretch p vmin) s = .next (s.modPane p (fun y => (y.modClk (fun c => { c with stretched := false })).modPwr (fun w =>
        { w with vmin := vmin })))) ∧
    (∀ vmax, p < 786 → s.regulated p = true → s.setpointOf p + 25 ≤ vmax →
      exec (.shunt p vmax) s = .next (s.modPane p (fun y => y.modPwr (fun w => { w with shunts := min (2 ^ 32 - 1) (w.shunts + 1) })))) ∧
    (∀ vmin, p < 786 → s.regulated p = true → vmin + 25 ≤ s.setpointOf p → (s.pane p).pwr.droopSent = false →
      exec (.droop p vmin) s = .next ((s.powerPane p 5 (vmin % 2 ^ 16)).modPane p (fun y => y.modPwr (fun w =>
        { w with vmin := vmin, droopSent := true })))) ∧
    (p < 738 → (s.pane p).cond = .running →
      let n := s.stepCycles p
      let new := (((s.marksOf p).filter (fun m => decide (m.1 ≤ n ∧ n < m.2))).map (fun m => (s.pane p).runCycles + (m.2 - n))).filter
        (fun e => !(s.pane p).pwr.raises.contains e)
      ((s.pane p).pwr.raiseOff = true →
        exec (.loadStepRaise p) s = .next (s.modPane p (fun y => y.modPwr (fun w => { w with raiseOff := false })))) ∧
      ((s.pane p).pwr.raiseOff = false → new ≠ [] →
        exec (.loadStepRaise p) s = .next (s.modPane p (fun y => y.modPwr (fun w => { w with raises := w.raises ++ new }))) ∧
        ((s.pane p).pwr.cap ≠ 2 → (s.pane p).pwr.base ≠ 0 →
          (s.modPane p (fun y => y.modPwr (fun w => { w with raises := w.raises ++ new }))).setpointOf p =
            min 860 ((s.pane p).pwr.rail s.time + 15)))) ∧
    (p < 738 →
      let left := (s.pane p).pwr.raises.filter (fun e => decide ((s.pane p).runCycles < e))
      let long := (s.pane p).cond ≠ .running ∧ (s.pane p).ranAt + us 20 < s.time
      exec (.loadStepRaiseEnd p) s = .next (s.modPane p (fun y => y.modPwr (fun w =>
        { w with raises := left, raiseOff := ((s.pane p).pwr.raiseOff || decide long) && !left.isEmpty })))) ∧
    (∀ ph why : Nat, p < 786 → ph < (if p < 738 then 4 else 3) → (s.pane p).pwr.failed.contains ph = false →
      let failed := (s.pane p).pwr.failed ++ [ph]
      let mask := failed.foldl (fun a i => a + 2 ^ i) 0
      let u := ((s.modPane p (fun y => y.modPwr (fun w => { w with failed := failed }))).modPower (fun w =>
        { w with phaseMap := if w.phaseMap.contains (4 * p + ph) then w.phaseMap else w.phaseMap ++ [4 * p + ph] })).powerPane p 1
          (ph + why % 16 * 2 ^ 8)
      let v := (u.powerPane p 2 mask).modPane p (fun y => y.modPwr (fun w => { w with cap := 1 }))
      let w := u.powerPane p 3 (mask + (s.pane p).region.getD 0 * 2 ^ 16)
      (p < 738 →
        (failed.length = 2 → exec (.phaseFail p ph why) s =
          .next (match (s.pane p).region with | some r => v.capRegion r | none => v)) ∧
        (failed.length = 3 → exec (.phaseFail p ph why) s = .next (w.darkCore p)) ∧
        (failed.length ≠ 2 → failed.length ≠ 3 → exec (.phaseFail p ph why) s = .next u)) ∧
      (738 ≤ p →
        (failed.length = 2 → exec (.phaseFail p ph why) s = .next (w.darkSill p)) ∧
        (failed.length ≠ 2 → exec (.phaseFail p ph why) s = .next u))))

/-- Admission and fast samples (R327-R331, R368): requests are tested in the order they arrive; one that fits its segments and that no
older one holds back is admitted, and waits otherwise, to be tested again every 100 µs, after 2 ms once per round, when its STEP entries
send DEFERRED, and a raise of profile is refused after 100 ms; a ramp switches on one pane in eight at each step; a module power above
the peak limit raises the pause level of every running region by 8; and a segment over its rating for 1 ms raises that of the one
admitted last in it, by a free amount. -/
def Obligations.PowerIsAdmittedAndEnforced : Prop :=
  ∀ (s : State) (r : Nat), r < 64 → s.boot.off = false →
    (∀ q, (s.region r).power.req = some q → q.tested = none → s.iface.halted = false → s.testedLater r q.since = false →
      (s.fits r = true → s.heldBack r = false → exec (.admissionTest r) s = .next (s.admitPower r)) ∧
      (s.fits r = false ∨ s.heldBack r = true → exec (.admissionTest r) s = .next (s.modRegPower r (fun w =>
        { w with req := some { q with tested := some s.time } })))) ∧
    (∀ (q : AdmReq) (t0 : Nat), (s.region r).power.req = some q → q.tested = some t0 → s.iface.halted = false →
      let u := s.testPower r
      (s.time < q.since + ms 2 → t0 + us 100 ≤ s.time → exec (.admissionRetest r) s = .next u) ∧
      (q.since + ms 2 ≤ s.time → t0 + (if q.since + ms 2 ≤ t0 then us 500 else us 100) ≤ s.time →
        ((u.region r).power.req = none → exec (.admissionRetest r) s = .next u) ∧
        ((u.region r).power.req ≠ none → q.kind = 2 → q.since + ms 100 ≤ s.time →
          exec (.admissionRetest r) s = .next (u.refuseProfile r stPowerDeferred)) ∧
        ((u.region r).power.req ≠ none → q.kind ≠ 2 ∨ s.time < q.since + ms 100 →
          exec (.admissionRetest r) s = .next (u.sendDeferrals r)))) ∧
    (∀ i : Nat, (s.region r).power.ramp = some i → i < (s.region r).rampSteps → (s.region r).power.rampAt + us (5 * i) ≤ s.time →
      let ps := (s.region r).wakePanes
      let mine := (List.range ps.length).filter (fun k => (s.region r).rampSteps == 1 || k % 8 == i)
      exec (.rampStep r) s = .next ((mine.foldl (fun a k => a.modPane (lget 0 ps k) (fun q => q.modPwr (fun w =>
        w.setTo s.time (profileMv (s.region r).prof.profile)))) s).modRegPower r (fun w => { w with ramp := some (i + 1) }))) ∧
    (∀ (amps : List Nat) (bus : Nat), amps.length = 9 → (s.region r).state = 3 →
      ∃ t, exec (.powerFastSample amps bus) s = .next t ∧ t.prof.pfast = amps.foldl (· + ·) 0 * bus / 1000 ∧
        (s.limitPK * 1000 < ((amps.foldl (· + ·) 0 * bus : Nat) : Rat) → (s.regions.map (·.1)).Nodup →
          (t.region r).kPwr = min 31 ((s.region r).kPwr + 8))) ∧
    (∀ k t0 : Nat, k < 9 → (s.seg k).overSince = some t0 → t0 + ms 1 ≤ s.time → s.regions = [(r, s.region r)] →
      0 < panesInSeg (s.region r).panes k → (s.region r).kPower < 31 →
      ∃ t, exec (.segmentOver k) s = .next t ∧ (t.region r).kPwr = min 31 ((s.region r).kPwr + (1 + s.free.toNat % 31)))

/-- The power states of a region (R332-R336, R209): the Lintel lowers a quiet region that has become LOADED to a state its QUIET time
allows, or deeper as it stays idle; a lowering ends in its state, with what a pane keeps there, and a raise that waited for it begins; a
wake from Sealed rewrites the cells and makes Framed pages Home; at the end of a wake every pane is Open; and the owner or the region's
guest may hold it Open, or board it; of a FREE region the owner's value is kept. -/
def Obligations.RegionsWakeAndLower : Prop :=
  ∀ (s : State) (r : Nat), r < 64 →
    ((s.region r).state = 2 → (s.region r).load = none → (s.region r).power.trans = 0 → (s.region r).power.req = none →
      s.iface.halted = false → s.quiesced r = true →
      ((s.region r).power.force = 0 → (s.region r).power.state = 0 → (s.region r).power.due = true → (s.region r).power.quiet = 0 →
        ∃ t, exec (.powerStateLower r) s = .next t ∧ (t.region r).power.trans = 1 ∧ (t.region r).power.target = 1 ∧
          (t.region r).power.due = false) ∧
      ((s.region r).power.force = 0 → (s.region r).power.state = 0 → (s.region r).power.due = true →
        (s.region r).deepest (s.region r).power.quiet ≠ 0 → (s.region r).power.quiet ≠ 0 →
        ∃ t, exec (.powerStateLower r) s = .next t ∧ (t.region r).power.target = (s.region r).deepest (s.region r).power.quiet ∧
          (t.region r).power.trans = 1 ∧ (t.region r).power.plannedWake = some ((s.region r).power.idleSince + us (s.region r).power.quiet -
            (s.region r).wakeTime ((s.region r).deepest (s.region r).power.quiet))) ∧
      ((s.region r).power.force = 0 → (s.region r).power.quiet = 0 → (s.region r).power.state = 1 ∨ (s.region r).power.state = 2 →
        s.power.idleSeal ≠ 0 → (s.region r).power.idleSince + us s.power.idleSeal ≤ s.time →
        ∃ t, exec (.idleEscalation r) s = .next t ∧ (t.region r).power.trans = 1 ∧ (t.region r).power.target = 3)) ∧
    ((s.region r).power.trans = 1 →
      let w := (s.region r).power
      let t := (s.region r).panes.foldl (fun a p => a.lowerPane p w.target (profileMv (s.region r).prof.profile)) s
      let u := if w.target = 4 then t.modRegion r (fun y => { y with windows := y.windows.map (fun _ => {}) }) else t
      let v := u.modRegPower r (fun y => { y with
        state := w.target
        trans := 0
        pendRaise := 0
        rewritten := decide (w.target < 3) })
      exec (.powerStateEntryComplete r) s = .next (if w.pendRaise = 1 then v.askRaise r 3 else v)) ∧
    (∀ t0, (s.region r).power.plannedWake = some t0 → t0 ≤ s.time → s.iface.halted = false → (s.region r).power.trans = 0 →
      2 ≤ (s.region r).power.state →
      ∃ t, exec (.plannedWake r) s = .next t ∧ (t.region r).power.plannedWake = none ∧ (t.region r).power.trans = 3 ∧
        (t.region r).power.req = some { kind := 3, since := s.time }) ∧
    (∀ (im : Image) (p : Parsed), (s.region r).power.trans = 2 → (s.region r).power.rewritten = false →
      (s.region r).rampOver s.time = true → (s.region r).image = some im → parseImage im.bytes = some p →
      exec (.sealedWakeRewrite r) s = .next (((s.installRegion r p).homeAll r).modRegPower r (fun w =>
        { w with rewritten := true, pendCur := 0 }))) ∧
    ((s.region r).power.trans = 2 → (s.region r).load = none →
      (s.region r).power.state = 1 ∨ ((s.region r).rampOver s.time = true ∧ (s.region r).power.rewritten = true) →
      ∃ t, exec (.wakeComplete r) s = .next t ∧ (t.region r).power.state = 0 ∧ (t.region r).power.trans = 0 ∧
        ∀ p ∈ (s.region r).panes, (t.pane p).power = 0) ∧
    (∀ l, (s.region r).power.trans = 2 → (s.region r).load = some l → l.phase = 4 →
      (s.region r).rampOver s.time = true ∨ l.panes.all (fun p => decide ((s.pane p).power ≤ 1)) = true →
      exec (.wakeComplete r) s = .next ((s.setOpen r).modRegion r (fun y => { y with load := some { l with phase := 5, since := s.time } }))) ∧
    (∀ src g : Nat, s.accessor src = some g → (s.region r).state ≠ 0 → (g = 0 ∨ (s.region r).guest = g) →
      (∃ t, exec (.forceOpen src r) s = .next t ∧ (t.region r).power.force = 1) ∧
      (∃ t, exec (.forceAuto src r) s = .next t ∧ (t.region r).power.force = 0 ∧
        ((s.region r).power.state = 4 → (s.region r).power.trans = 0 → (t.region r).power.trans = 3)) ∧
      (let inFlight := ((s.region r).flight).bind (fun f => f.entry)
       let u := (s.traced (regionPwrAddr r) true (2 * 2 ^ 56)).modRegPower r (fun w => { w with force := 2 })
       let v := ((u.region r).runs.filter (fun e => some e.id != inFlight)).foldl (fun a e => a.endRun r e stNoRegion e.lastStep) u
       exec (.forceBoarded src r) s = .next (if v.quiesced r = true then v.board r else v))) ∧
    (∀ src : Nat, s.accessor src = some 0 → (s.region r).state = 0 →
      (∀ f : Nat, let t := (s.traced (regionPwrAddr r) true (f * 2 ^ 56)).modRegPower r (fun w => { w with force := f })
        (f = 0 → exec (.forceAuto src r) s = .next t) ∧ (f = 1 → exec (.forceOpen src r) s = .next t) ∧
        (f = 2 → exec (.forceBoarded src r) s = .next t)))

/-- Authenticated limits (R338, R339, R428): the owner starts a check, which is ignored while one runs; the register takes the value of a
pair that the Keeper accepts when the value is in its range, and only then. -/
def Obligations.LimitsChangeByAPair : Prop :=
  ∀ s : State,
    (∀ src val : Nat, s.accessor src = some 0 → bitAt val 63 = true → s.power.authResult ≠ 3 →
      exec (.authGo src val) s = .next ((s.traced 0x20068 true val).modPower (fun p => { p with authResult := 3 }))) ∧
    (∀ src val : Nat, s.accessor src = some 0 → s.power.authResult = 3 → exec (.authGo src val) s = .next (s.traced 0x20068 true val)) ∧
    (∀ (u : State) (ok : Bool), s.power.authResult = 3 → s.keyReady 0 = true →
      s.checkPair 0 s.power.authCounter (natLE 8 s.power.authTagLo ++ natLE 8 s.power.authTagHi)
        (natLE 8 s.power.authAddr ++ natLE 8 s.power.authValue) = (u, ok) →
      (ok = false → exec .authGoResult s = .next (u.modPower (fun p => { p with authResult := 1 }))) ∧
      (ok = true → exec .authGoResult s = .next (match u.setLimit s.power.authAddr s.power.authValue with
        | some t => t.modPower (fun p => { p with authResult := 0 })
        | none => u.modPower (fun p => { p with authResult := 2 })))) ∧
    (∀ v : Nat,
      s.setLimit 0x20008 v = (if 2000 ≤ v ∧ v ≤ 26000 then some (s.modPower (fun p => { p with limSustained := v })) else none) ∧
      s.setLimit 0x20010 v = (if s.power.limSustained ≤ v ∧ v ≤ 34000 then some (s.modPower (fun p => { p with limPeak := v })) else none) ∧
      s.setLimit 0x24010 v = (if 2 ≤ v ∧ v ≤ 20 then some (s.modThermal (fun t => { t with margin := v })) else none) ∧
      s.setLimit 0x24018 v = (if 30 ≤ v ∧ v ≤ 60 then some (s.modThermal (fun t => { t with flowNom := v })) else none) ∧
      s.setLimit 0x28020 v = some (s.modProf (fun p => { p with allow := v })))

/-- Rates of rise, coolant and critical temperatures (R343, R344, R349-R351, R354, R355, R405): every fourth sample raises K_RATE of the
regions in which one since the last was 2.0 °C/ms or more; one of 6.0 °C/ms takes it to 31; a junction at its critical reading turns the module
off; a tray report takes effect only with its CRC
right and a new SEQ; a fall of the flow below a quarter of the nominal, or no report for 100 ms, is a sudden stop, which holds every region
at pause level 31 and turns the module off if it lasts 5 s; and the housekeeping round takes its readings, serves the watchdog, and turns the
module off at 110 °C. -/
def Obligations.HeatSlowsAndStopsTheModule : Prop :=
  ∀ s : State,
    (s.boot.off = false → ∀ sens : List (Nat × Int × Int),
      let sens' := sens.filter (fun x => decide (x.1 < 786))
      let n := (s.thermal.sampleNo + 1) % 4
      let u := (sens'.foldl State.sampleRate s)
      let v := u.modThermal (fun t => { t with sampleNo := (u.thermal.sampleNo + 1) % 4 })
      ((u.thermal.sampleNo + 1) % 4 ≠ 0 → exec (.rateSample sens) s = .next (v.orCritical v (v.sampleChannels sens'))) ∧
      ((u.thermal.sampleNo + 1) % 4 = 0 → exec (.rateSample sens) s = .next (v.orCritical
        ((v.thermal.fast.foldl (fun a r => a.modRegion r (fun x => { x with kRate := min 31 (x.kRate + 4) })) v).modThermal (fun t =>
          { t with fast := [] })) (v.sampleChannels sens'))) ∧
      (sens' = [] → u.thermal.sampleNo = s.thermal.sampleNo ∧ v.thermal.sampleNo = n)) ∧
    (∀ (p r : Nat) (a b old : Int), p < 738 → (s.pane p).region = some r → (s.pane p).therm.failed0 = false →
      (s.pane p).therm.hist0[9]? = some old → 600 ≤ (a - old) * 50 → ((s.sampleRate (p, a, b)).region r).kRate = 31) ∧
    (∀ (t : State) (cs : List Channel), cs.find? Channel.critical = none → s.orCritical t cs = t) ∧
    (∀ (t : State) (cs : List Channel) (c : Channel), cs.find? Channel.critical = some c →
      s.orCritical t cs = (s.channelFault c 3).shutdown [0x02, 0x06] c.sub) ∧
    (∀ b : List Byte, b.length ≠ 8 ∨ crc8 (b.take 7) ≠ beNat b % 256 ∨ s.thermal.seq = some (bits (beNat b) 63 56) →
      exec (.trayReport b) s = .next s) ∧
    (∀ b : List Byte, s.lintelUp = true → b.length = 8 → crc8 (b.take 7) = beNat b % 256 → s.thermal.seq ≠ some (bits (beNat b) 63 56) →
      ∃ t, exec (.trayReport b) s = .next t ∧ t.thermal.lastReport = some s.time ∧ t.thermal.seq = some (bits (beNat b) 63 56) ∧
        t.thermal.flow = (if bitAt (beNat b) 21 then 0 else bits (beNat b) 31 22) ∧
        (s.thermal.stopAt = none → 4 * t.thermal.flow < 10 * s.thermal.flowNom →
          t.thermal.stopAt = some s.time ∧ ∀ r < 64, (t.region r).kEnv = 31)) ∧
    (∀ t0, s.thermal.lastReport = some t0 → s.lintelUp = true → s.thermal.stopAt = none → t0 + ms 100 ≤ s.time →
      ∃ t, exec .reportLost s = .next t ∧ t.thermal.stopAt = some s.time ∧ ∀ r < 64, (t.region r).kEnv = 31) ∧
    (∀ t0, s.thermal.stopAt = some t0 → s.boot.off = false → t0 + secs 5 ≤ s.time →
      exec .coolantStopTimeout s = .next (s.shutdown [0x06] {})) ∧
    (∀ rd : Readings, s.lintelUp = true → rd.sens = [] → rd.diodes = [] → rd.hbm = [] →
      ∃ t, exec (.lintelRound rd) s = .next t ∧ t.boot.servedAt = s.time ∧ t.power.pwafer = rd.pwafer ∧ t.power.vin = rd.vin ∧
        t.prof.rounds = (rd.pwafer :: s.prof.rounds).take 2000) ∧
    (∀ (p : Nat) (a b : Int), s.lintelUp = true → p < 738 → 880 ≤ a → a ≤ 1200 → 0 ≤ b → b ≤ 1200 → a ≤ b + 120 → b ≤ a + 120 →
      (s.pane p).therm.failed0 = false → (s.pane p).therm.failed1 = false →
      ∃ t, exec (.lintelRound { sens := [(p, a, b)] }) s = .next t ∧ t.boot.off = true ∧ t.boot.hold = true)

/-- Profiles and Sprint (R364-R371, Table 17-2): an entry waits for those before it; one for the profile in force ends at once, one that
a region may not have is refused, and any other begins its change; a pane moves to its region's clock at a
beat boundary, on a raise only with its rail within 5 mV of the new setpoint; the grant is asked for under the next sequence number, and
holds while what the shelf grants is enough; and a Sprint ends when its time has run out. -/
def Obligations.ProfilesAndGrants : Prop :=
  ∀ s : State,
    (∀ (g i : Nat) (l : ListRec) (x : Entry), StartsWell s g 3 0x42 l i x →
      let r := bits x.word 223 218
      let u := s.begun g 3 l i
      (u.regionOk g r [2, 3, 4] = false → exec (.profile g) s = .next (u.complete ⟨g, 3, l.seq, i⟩ stNoRegion 0)) ∧
      (u.regionOk g r [2, 3, 4] = true →
        exec (.profile g) s = .next ((u.modRegProf r (fun p =>
          { p with queue := p.queue ++ [(⟨g, 3, l.seq, i⟩, bits x.word 103 102, bits x.word 101 86)] })).settleProfiles r))) ∧
    (∀ (r p limit : Nat) (id : EntryId), (s.region r).prof.queue = [(id, p, limit)] → (s.region r).prof.stage = 0 →
      (s.region r).prof.ending = 0 → (s.region r).prof.entry = none →
      let u := s.modRegProf r (fun y => { y with queue := [] })
      (p = (s.region r).prof.profile → s.settleProfiles r = u.complete id stOK 0) ∧
      (p = 3 → p ≠ (s.region r).prof.profile → bitAt s.prof.allow id.guest = false → s.settleProfiles r = u.complete id stNotPermitted 0) ∧
      (2 ≤ p → p ≠ 3 → p ≠ (s.region r).prof.profile → s.capped r = true → s.settleProfiles r = u.complete id stProfileCapped 0) ∧
      (p < 3 → p ≠ (s.region r).prof.profile → s.capped r = false → (s.region r).isOpen = false →
        s.settleProfiles r = u.changeProfile r p id limit) ∧
      (p < 3 → p ≠ (s.region r).prof.profile → s.capped r = false → (s.region r).isOpen = true → (s.region r).prof.profile ≠ 3 →
        s.settleProfiles r = u.changeProfile r p id limit)) ∧
    (∀ p r vmin : Nat, p < 738 → (s.pane p).region = some r → (s.region r).prof.stage = 3 →
      let target := (s.region r).prof.target
      (s.pane p).clk.mhz ≠ profileMhz target → s.atBoundary p = true →
      ((s.pane p).clk.mhz < profileMhz target → profileMv target ≤ vmin + 5 → profileMv target ≤ (s.pane p).pwr.rail s.time + 5 →
        exec (.paneClockSwitch p vmin) s = .next ((s.modPane p (fun y => (y.modClk (fun c => { c with mhz := profileMhz target })).modPwr
          (fun w => { w with vmin := vmin }))).finishSwitch r)) ∧
      (profileMhz target < (s.pane p).clk.mhz →
        exec (.paneClockSwitch p vmin) s = .next ((s.modPane p (fun y => (y.modClk (fun c => { c with mhz := profileMhz target })).modPwr
          (fun w => { w with vmin := vmin }.rampTo s.time (profileMv target)))).finishSwitch r))) ∧
    (∀ p r vmin : Nat, p < 738 → (s.pane p).region = some r → (s.pane p).clk.mhz < profileMhz (s.region r).prof.target →
      vmin + 5 < profileMv (s.region r).prof.target → exec (.paneClockSwitch p vmin) s = .next s) ∧
    (s.lintelUp = true → (s.regions.any (fun q => q.2.prof.stage == 1) = true ∨
        (s.regions.any (fun q => q.2.sprints) = true ∧ s.prof.renewAt + secs 1 ≤ s.time)) →
      let u := s.askGrant s.grantW
      (exec (.grantRenewal none) s = .next (if s.prof.grant = true ∧ 2 ≤ s.prof.misses + 1 then
        (u.modProf (fun p => { p with misses := p.misses + 1 })).endGrant else u.modProf (fun p => { p with misses := p.misses + 1 }))) ∧
      (∀ w lease q : Nat, s.grantW ≤ w → q = (s.prof.grantSeq + 1) % 256 →
        exec (.grantRenewal (some (w, lease, q))) s =
          .next ((u.readGrant (w, lease, q)).modProf (fun p => { p with grant := true, misses := 0 })).grantWaiting) ∧
      (∀ w lease q : Nat, w < s.grantW ∨ q ≠ (s.prof.grantSeq + 1) % 256 →
        exec (.grantRenewal (some (w, lease, q))) s =
          .next (if s.prof.grant = true then (u.readGrant (w, lease, q)).endGrant else u.readGrant (w, lease, q)))) ∧
    (∀ w lease q : Nat, s.lintelUp = true →
      exec (.smbalert (some (w, lease, q))) s = .next (if s.prof.grant = true ∧ w < s.grantW then
        (s.readGrant (w, lease, q)).endGrant else s.readGrant (w, lease, q))) ∧
    (s.prof.grant = true → s.prof.leaseEnd ≤ s.time →
      exec .grantLeaseExpiry s = .next (s.modProf (fun p => { p with lease := 0 })).endGrant) ∧
    (∀ r t0, r < 64 → (s.region r).prof.sprintUntil = some t0 → t0 ≤ s.time → (s.region r).prof.profile = 3 → (s.region r).prof.ending = 0 →
      exec (.sprintMsExpiry r) s = .next (s.modRegProf r (fun y => { y with ending := 1 })))

/-- Requests of the Keeper for credentials and keys (R387, R388, R390, R394): a claim needs an unclaimed module and clears the tamper
latch; an installed key starts from LAC 0 and P 131,072; an enrolled key is known by the first 16 octets of its SHA-256; it is revoked by
its enrolling party or the owner; and an attestation is answered when it is complete. -/
def Obligations.KeeperKeysAndCredentials : Prop :=
  ∀ (s u : State) (g : Nat) (body : List Byte),
    (AsksPlainly s g 0x10 [] →
      exec (.credGet g) s = .next (s.mbDone g 0 (Config.certificates 0 ++ Config.certificates 1 ++ s.credential))) ∧
    (AsksPlainly s g 0x11 body → body.length = 32 →
      ∃ (t : State) (j : MbJob), exec (.attest g) s = .next t ∧ t.keeper.job = some j ∧ j.resp = s.attestation g body ∧
        exec (.mbStatusDone none false) t = .next (t.mbDone g 0 j.resp)) ∧
    (∀ key, AsksPlainly s g 0x20 body → body.length = 1136 → s.cmdKey 0 = none → s.unwrap 0 body = some key →
      ∃ t, exec (.ownerClaim g) s = .next t ∧ t.cmdKey 0 = some (newKey key) ∧ t.keeper.tamper = false ∧ (t.mailbox g).state = 2 ∧
        (t.mailbox g).result = 0) ∧
    (AsksPlainly s g 0x20 body → body.length = 1136 → (s.cmdKey 0).isSome = true → exec (.ownerClaim g) s = .next (s.mbDone g mbClaimed [])) ∧
    (∀ key, AsksAuthorised s g 0x21 body u → body.length = 1140 → leAt body 1 3 = 0 → leAt body 0 1 < 64 →
      (g = 0 ∨ leAt body 0 1 = g) → (u.guest (leAt body 0 1)).gstate = 1 → u.unwrap (leAt body 0 1) (body.drop 4) = some key →
      ∃ t, exec (.keyInstall g) s = .next t ∧ t.cmdKey (leAt body 0 1) = some (newKey key) ∧ (t.mailbox g).result = 0) ∧
    (AsksAuthorised s g 0x22 body u → body.length = 48 → 1 ≤ leAt body 0 1 → leAt body 0 1 ≤ 3 → leAt body 1 7 = 0 →
      (g = 0 ∨ leAt body 8 8 = 2 ^ g) → u.keeper.enrolled.any (fun e => e.keyid == (sha256 (slice body 16 32)).take 16) = false →
      u.keeper.enrolled.length < 64 → (g = 0 ∨ (u.keeper.enrolled.filter (fun e => e.by_ == g)).length < 4) →
      ∃ t, exec (.keyEnroll g) s = .next t ∧ (t.mailbox g).resp = (sha256 (slice body 16 32)).take 16 ∧
        t.keeper.enrolled = u.keeper.enrolled ++ [{ keyid := (sha256 (slice body 16 32)).take 16, kind := leAt body 0 1, mask := leAt body 8 8,
                                                    pub := slice body 16 32, by_ := g }]) ∧
    (∀ e, AsksAuthorised s g 0x23 body u → u.keeper.enrolled.find? (fun x => x.keyid == body) = some e → (g = 0 ∨ e.by_ = g) →
      ∃ t, exec (.keyRevoke g) s = .next t ∧ t.keeper.enrolled = u.keeper.enrolled.filter (fun x => x.keyid != body) ∧
        (t.mailbox g).result = 0) ∧
    (∀ e, AsksAuthorised s g 0x23 body u → u.keeper.enrolled.find? (fun x => x.keyid == body) = some e → g ≠ 0 → e.by_ ≠ g →
      exec (.keyRevoke g) s = .next (u.mbDone g mbNotPermitted []))

/-- The Keeper's other requests (R385, R386, R395, R397, R409): the TAP is unlocked in a scope for up to 86,400 s and locked again;
approved mode is entered at once, and left at the next cold boot; a zeroisation with nothing left to clear erases every key and enrolment
and ends approved mode, and DECOMMISSION the identity as well; a firmware fetch empties the inactive slot, and a length of 0 disarms it; a
request being served ends with its result, and one of no defined operation with BAD_ENTRY. -/
def Obligations.KeeperModesAndErasure : Prop :=
  ∀ (s u : State) (body : List Byte),
    (AsksAuthorised s 0 0x30 body u → body.length = 8 → (leAt body 0 1 = 1 ∨ leAt body 0 1 = 2) → leAt body 1 3 = 0 → leAt body 4 4 ≠ 0 →
      leAt body 4 4 ≤ 86400 → u.keeper.approved = false →
      (leAt body 0 1 = 2 → u.guests.any (fun q => q.1 != 0 && q.2.gstate == 1) = false) →
      ∃ t, exec (.tapUnlock 0) s = .next t ∧ t.keeper.tap = leAt body 0 1 ∧ t.keeper.tapUntil = s.time + secs (leAt body 4 4)) ∧
    (AsksPlainly s 0 0x31 [] → ∃ t, exec (.tapLock 0) s = .next t ∧ t.keeper.tap = 0 ∧ (t.mailbox 0).result = 0) ∧
    (s.keeper.tap ≠ 0 → s.keeper.tapUntil ≤ s.time → ∃ t, exec .tapRelock s = .next t ∧ t.keeper.tap = 0 ∧
      (s.iface.inst ≠ 0xFF → s.iface.inst ≠ 1 → t.iface.inst = 0xFF ∧ t.iface.pins = 0 ∧ t.iface.halted = false)) ∧
    (AsksAuthorised s 0 0x40 [] u → u.ownerSrc.any (fun q => q.2.1) = true → u.keeper.tap = 0 → u.ports.any (fun q => q.2.cleartext) = false →
      ∃ t, exec (.approvedEnter 0) s = .next t ∧ t.keeper.approved = true) ∧
    (AsksAuthorised s 0 0x41 [] u →
      ∃ t, exec (.approvedLeave 0) s = .next t ∧ t.keeper.leave = true ∧ t.keeper.approved = u.keeper.approved) ∧
    (AsksAuthorised s 0 0x50 [] u → exec (.zeroise 0) s = .next ((u.zeroiseJob 0 0x50).beginZeroise 1)) ∧
    (AsksAuthorised s 0 0x51 wordDecommission u → exec (.decommission 0) s = .next ((u.zeroiseJob 0 0x51).beginZeroise 3)) ∧
    (AsksAuthorised s 0 0x50 [] u → s.guests = [] → s.regions = [] →
      ∃ t, exec (.zeroise 0) s = .next t ∧ t.keeper.keys = [] ∧ t.keeper.enrolled = [] ∧ t.keeper.approved = false ∧
        t.keeper.decommissioned = s.keeper.decommissioned) ∧
    (AsksAuthorised s 0 0x51 wordDecommission u → s.guests = [] → s.regions = [] →
      ∃ t, exec (.decommission 0) s = .next t ∧ t.keeper.keys = [] ∧ t.keeper.decommissioned = true ∧ t.keeper.st = 4) ∧
    (AsksAuthorised s 0 0x60 body u → body.length = 56 → leAt body 2 6 = 0 → leAt body 20 4 = 0 →
      let i := 1 - u.boot.active
      let v := u.modBoot (fun b => { (b.setSlot i {}) with attempts := 0 })
      (0 < leAt body 16 4 → leAt body 16 4 ≤ 67108864 →
        exec (.fwActivate 0) s = .next (v.modKeeper (fun k =>
          { k with job := some { guest := 0, op := 0x60, result := mbOK, resp := [], startAt := v.time } }))) ∧
      (leAt body 16 4 = 0 →
        let w := if (u.boot.slotAt i).state = 1 then v else u
        exec (.fwActivate 0) s = .next (w.mbDone 0 mbOK (natLE 1 (1 - u.boot.active) ++ zeros 3 ++ natLE 4 (w.boot.slotAt i).bversion)))) ∧
    (∀ (j : MbJob) (sig : Bool) (b : Option (List Byte)), s.keeper.job = some j →
      (j.op ≠ 0x50 → j.op ≠ 0x51 → s.keeper.st ≠ 2 → exec (.mbStatusDone b sig) s = .next (s.mbDone j.guest mbKeeperError [])) ∧
      (j.op = 0x60 → s.keeper.st = 2 → exec (.mbStatusDone b sig) s = .next (s.endFetch j.guest b sig)) ∧
      (j.op ≠ 0x50 → j.op ≠ 0x51 → j.op ≠ 0x60 → s.keeper.st = 2 →
        exec (.mbStatusDone b sig) s = .next (s.mbDone j.guest j.result j.resp))) ∧
    (∀ (g : Nat) (sig : Bool) (b : Option (List Byte)), s.keeper.job = none → s.mbHead = some g → mbOps.contains (s.mbOp g) = false →
      exec (.mbStatusDone b sig) s = .next (s.mbDone g (if s.keeper.st ≠ 2 then mbKeeperError else mbBadEntry) []))

/-- The Keeper on its own (R381, R383, R389, R396): a cover switch zeroises the module; a reservation write raises P by 65,536; a failed
conditional test puts it in ERROR, from which one rerun of its tests brings it back; and the generator is seeded anew after 65,536 requests or
one hour. -/
def Obligations.KeeperTestsAndTamper : Prop :=
  ∀ s : State,
    (∀ sw, sw < 4 → s.boot.off = true → exec (.tamper sw) s = .next (s.modKeeper (fun k => { k with tamper := true }))) ∧
    (∀ sw, sw < 4 → s.boot.off = false →
      exec (.tamper sw) s = .next ((((s.modKeeper (fun k => { k with tamper := true })).security 0xD sw).cause 61).beginZeroise 2)) ∧
    (∀ sw, sw < 4 → s.boot.off = false → s.guests = [] → s.regions = [] →
      ∃ t, exec (.tamper sw) s = .next t ∧ t.keeper.tamper = true ∧ t.keeper.keys = [] ∧ t.keeper.enrolled = [] ∧
        t.keeper.approved = false) ∧
    (∀ (g : Nat) (k : CmdKey), g < 64 → s.cmdKey g = some k → k.writing = true →
      ∃ (t : State) (k' : CmdKey), exec (.reservationWriteComplete g) s = .next t ∧ t.cmdKey g = some k' ∧
        k'.persisted = min (2 ^ 64 - 1) (k.persisted + 65536) ∧ k'.lac = k.lac ∧ k'.key = k.key) ∧
    (∀ n sub : Nat, s.keeper.st = 2 → (n = 8 ∨ n = 9 ∨ n = 10) →
      let u := s.modKeeper (fun k => { k with
        st := 3
        stFail := n
        entropyOk := k.entropyOk && n != 8
        restarted := false
        drbgCount := 0 })
      exec (.conditionalTestFail n sub) s =
        .next (((if n = 8 then u.security 2 (sub % 16) else u.security 1 (n + 256 * bit u.keeper.standby)).cause 60).dropLinks)) ∧
    (s.keeper.st = 3 → s.keeper.restarted = false →
      exec (.keeperRestart 0) s = .next ((List.range 96).foldl (fun a p => if (a.port p).state = 3 then a.beginExchange p else a)
        (s.modKeeper (fun k => { k with
          st := 2
          entropyOk := true
          drbgAt := s.time
          keys := mmap (fun _ x => x.restart) k.keys })))) ∧
    (∀ k : CmdKey, k.restart.lac = k.persisted ∧ k.restart.persisted = min (2 ^ 64 - 1) (k.persisted + 131072) ∧ k.restart.key = k.key) ∧
    (∀ n : Nat, s.keeper.st = 3 → s.keeper.restarted = false → n ≠ 0 →
      exec (.keeperRestart n) s = .next (s.modKeeper (fun k => { k with restarted := true, stFail := n % 256 }))) ∧
    (s.keeper.st = 2 → (65536 ≤ s.keeper.drbgCount ∨ s.keeper.drbgAt + secs 3600 ≤ s.time) →
      exec .drbgReseed s = .next (s.modKeeper (fun k => { k with drbgCount := 0, drbgAt := s.time })))

/-- Resets (R399-R401, R404, R405, R411): a cold boot counts, restarts module time and keeps what flash and fuses hold; RESET_N, the
owner's key, a watchdog that is not served for 100 ms and a failed firmware attempt reset the module, and each leaves its cause; the third
boot in succession that does not reach READY stops it instead. -/
def Obligations.ResetsStartACauseAndCount : Prop :=
  ∀ s : State,
    (∀ vin, s.boot.off = true → 460 ≤ vin →
      ∃ t, exec (.powerOn vin) s = .next t ∧ t.time = 0 ∧ t.wafer.boots = s.wafer.boots + 1 ∧ t.boot.cause = 0 ∧ t.boot.off = false ∧
        t.boot.ready = false ∧ t.retired = s.retired ∧ t.keeper.enrolled = s.keeper.enrolled ∧ t.boot.svn = s.boot.svn ∧
        t.regions = [] ∧ t.cells = []) ∧
    (∀ cause : Nat, (s.coldBoot cause).time = 0 ∧ (s.coldBoot cause).wafer.boots = s.wafer.boots + 1 ∧
      (s.coldBoot cause).boot.cause = cause ∧ (s.coldBoot cause).boot.ready = false ∧ (s.coldBoot cause).regions = [] ∧
      (s.coldBoot cause).cells = [] ∧ (s.coldBoot cause).keeper.enrolled = s.keeper.enrolled ∧ (s.coldBoot cause).boot.svn = s.boot.svn ∧
      (s.coldBoot cause).boot.stage = (if cause = 0 then 0 else 1)) ∧
    (s.boot.resetLow = false →
      let u := if s.boot.off = true ∨ s.boot.stage = 0 then s else ((s.holdRunning).portsDown).lowerAll 4
      exec (.resetN true) s = .next (u.tapLock.modBoot (fun b => { b with resetLow := true, ready := false }))) ∧
    (s.boot.resetLow = true →
      (s.boot.stage ≠ 0 ∨ s.boot.off = true → exec (.resetN false) s = .next (s.coldBoot 1)) ∧
      (s.boot.stage = 0 → s.boot.off = false → exec (.resetN false) s = .next (s.modBoot (fun b => { b with resetLow := false })))) ∧
    (∀ src, s.accessor src = some 0 →
      exec (.moduleReset src 0x52535445) s = .next ((s.traced 0x10408 true 0x52535445).moduleReset 2)) ∧
    (∀ src val, s.accessor src = some 0 → val ≠ 0x52535445 →
      exec (.moduleReset src val) s = .next ((s.traced 0x10408 true val).refuseSource src 0x10408 0 false)) ∧
    (s.boot.off = false → s.boot.resetLow = false → 4 ≤ s.boot.stage → s.boot.stage ≠ 0xF → s.boot.servedAt + ms 100 ≤ s.time →
      exec .lintelWatchdog s = .next (s.moduleReset 3)) ∧
    (∀ t0, s.boot.bothFailed = some t0 → t0 + secs 1 ≤ s.time → s.boot.resetLow = false → exec .fwAttempt s = .next (s.moduleReset 5)) ∧
    (∀ cause : Nat, let u := ((s.holdRunning).portsDown).lowerAll 4
      (u.boot.reached = false → u.boot.armed = false → 2 ≤ u.boot.fails → (s.moduleReset cause).boot.stage = 0xF ∧
        (s.moduleReset cause).boot.ready = false) ∧
      (u.boot.reached = true ∨ u.boot.armed = true ∨ u.boot.fails < 2 → s.moduleReset cause = u.coldBoot cause))

/-- The boot sequence (Table 19-3, R402-R406, R411): each stage that finds no failure is followed by the next; the Keeper's stage ends
with the Keeper OPERATIONAL; the Lintel's loads the flash structures, merges the phase map, and BIST finds defects; HBM
training leaves zeroed memory; the last stage ends in READY; and a stage whose copy fails goes on
with the other copies, or, where those have failed too, stops the module. -/
def Obligations.BootStagesFollow : Prop :=
  ∀ s : State, s.boot.off = false → s.boot.resetLow = false → s.boot.bothFailed = none → s.boot.attempting = false → ∀ f : BootFinds,
    (s.boot.stage = 0 → ∃ t, exec (.bootStageComplete f) s = .next t ∧ t.boot.stage = 1) ∧
    (s.boot.stage = 1 → f.fail = 0 → exec (.bootStageComplete f) s = .next (s.toStage 2)) ∧
    (s.boot.stage = 1 → f.fail ≠ 0 → exec (.bootStageComplete f) s = .next (s.keeperFails 1)) ∧
    (s.boot.stage = 2 → f.fail = 0 → s.keeper.decommissioned = false →
      ∃ t, exec (.bootStageComplete f) s = .next t ∧ t.boot.stage = 3 ∧ t.keeper.st = 2 ∧ t.keeper.leave = false) ∧
    (s.boot.stage = 2 → f.fail ≠ 0 → s.keeper.standby = false → s.keeper.decommissioned = false →
      ∃ t, exec (.bootStageComplete f) s = .next t ∧ t.boot.stage = 1 ∧ t.keeper.standby = true ∧ t.keeper.st = 1) ∧
    (s.boot.stage = 2 → f.fail ≠ 0 → s.keeper.standby = true →
      ∃ t, exec (.bootStageComplete f) s = .next t ∧ t.boot.stage = 0xF ∧ t.boot.ready = false) ∧
    (s.boot.stage = 3 → f.fail = 0 → exec (.bootStageComplete f) s = .next (((s.loadFlash f.tags).mergePhases).toStage 4)) ∧
    (s.boot.stage = 3 → f.fail ≠ 0 → exec (.bootStageComplete f) s = .next s.toStandby) ∧
    (s.boot.stage = 4 → exec (.bootStageComplete f) s = .next (s.toStage 5)) ∧
    (s.boot.stage = 5 → exec (.bootStageComplete f) s = .next ((s.bist f.found).toStage (if s.boot.hold = true then 0xA else 6))) ∧
    (s.boot.stage = 0xA → s.holdOver = true → ∃ t, exec (.bootStageComplete f) s = .next t ∧ t.boot.stage = 6 ∧ t.boot.hold = false) ∧
    (s.boot.stage = 6 → s.retired = [] → ∃ t, exec (.bootStageComplete f) s = .next t ∧ t.boot.stage = 7 ∧ t.hbm = {}) ∧
    (s.boot.stage = 6 → exec (.bootStageComplete f) s = .next ((s.trainHbm f.chans).toStage 7)) ∧
    (s.boot.stage = 7 → ∃ t, exec (.bootStageComplete f) s = .next t ∧ t.boot.stage = 8) ∧
    (s.boot.stage = 8 → ∃ t, exec (.bootStageComplete f) s = .next t ∧ t.boot.stage = 9 ∧ t.boot.ready = true ∧ t.boot.reached = true ∧
      t.boot.fails = 0)

/-- Management writes (R12-R15, R404, R424, R425): a write is refused with code 2 before READY, 3 where its length or alignment is not a
register's, and 5 from a source that is bound to nobody; the owner's limits of idleness, a guest's selectors and a mailbox request are taken
as written; and any other register takes a value its own rules allow, or refuses it with their code. -/
def Obligations.RegisterWritesAreChecked : Prop :=
  ∀ (s : State) (src addr val : Nat), s.boot.off = false → val < 2 ^ 64 →
    (s.boot.ready = false → earlyAddr addr = false →
      exec (.registerWrite src addr 8 val) s = .next ((s.traced addr true val).rejectAccess src addr 0 false 2)) ∧
    (∀ len, s.boot.ready = true → len ≠ 8 ∨ addr % 8 ≠ 0 →
      exec (.registerWrite src addr len val) s = .next ((s.traced addr true val).rejectAccess src addr 0 false 3)) ∧
    (s.boot.ready = true → addr % 8 = 0 → s.requester src = none →
      exec (.registerWrite src addr 8 val) s = .next (((s.traced addr true val).security 5 src).rejectAccess src addr 0 false 5)) ∧
    (s.boot.ready = true → s.requester src = some 0 → addr = 0x20018 →
      exec (.registerWrite src addr 8 val) s = .next ((s.traced addr true val).modPower (fun p =>
        { p with idleShut := bits val 63 32, idleSeal := bits val 31 0 }))) ∧
    (∀ q, s.boot.ready = true → s.requester src = some q → q ≠ 0 → addr = 0x20018 →
      exec (.registerWrite src addr 8 val) s = .next ((s.traced addr true val).rejectAccess src addr 0 false 2)) ∧
    (∀ q, s.boot.ready = true → s.requester src = some q → addr = 0x10810 →
      exec (.registerWrite src addr 8 val) s = .next ((s.traced addr true val).setSel q 0 (val % 4096))) ∧
    (∀ g, g < 64 → s.boot.ready = true → s.requester src = some g → addr = 0x1000008 + 65536 * g → bitAt val 63 = true →
      (s.mailbox g).state ≠ 1 →
      ∃ t, exec (.registerWrite src addr 8 val) s = .next t ∧ t.keeper.queue = s.keeper.queue ++ [g] ∧ (t.mailbox g).state = 1) ∧
    (∀ q, s.boot.ready = true → addr % 8 = 0 → s.requester src = some q → s.ownWrite src addr val = none →
      (∀ t, (s.traced addr true val).plainWrite src q addr val = .ok t → exec (.registerWrite src addr 8 val) s = .next t) ∧
      (∀ c, (s.traced addr true val).plainWrite src q addr val = .error c →
        exec (.registerWrite src addr 8 val) s = .next ((s.traced addr true val).rejectAccess src addr 0 false c)))

/-- Busbar, cables and the tray bus (R441-R444, R448): an imbalance of 100 ms raises its fault; a port without a cable is DOWN; an overload
turns the supply of a connector off; and the module takes a dynamic address once, answers the commands addressed to it with its identity,
and lets its In-Band Interrupts be switched. -/
def Obligations.BusbarCablesAndTrayBus : Prop :=
  ∀ s : State,
    (∀ t0, s.iface.pairSince = some t0 → s.prof.imbalance = false → t0 + ms 100 ≤ s.time →
      exec .busbarImbalance s = .next (((s.powerModule 0xA (s.iface.pair1 % 1024 * 2 ^ 16 + s.iface.pair0 % 1024)).modProf (fun p =>
        { p with imbalance := true })).modIface (fun f => { f with pairSince := none }))) ∧
    (∀ p, p < 96 → exec (.cablePresence p true) s = .next (s.modPort p (fun x => { x with cable := true }))) ∧
    (∀ p, p < 96 →
      let u := s.modPort p (fun x => { x with cable := false })
      (2 ≤ (s.port p).state → exec (.cablePresence p false) s = .next (u.enterDown p 1)) ∧
      ((s.port p).state < 2 → exec (.cablePresence p false) s = .next u)) ∧
    (∀ c, c < 24 → s.cableSupply c = true →
      exec (.cablePower c) s = .next ((s.modIface (fun f => { f with cabOff := c :: f.cabOff })).linkFault (4 * c) 0xD (c * 2 ^ 48))) ∧
    (s.i3cUp = true →
      (∀ addr, s.iface.i3cAddr = none → ∃ t, exec (.entdaa addr) s = .next t ∧ t.iface.i3cAddr = some (addr % 128) ∧
        t.iface.i3cOut.length = 8) ∧
      (∀ addr, s.iface.i3cAddr = none →
        exec (.setdasa 0x2C addr) s = .next (s.modIface (fun f => { f with i3cAddr := some (addr % 128) }))) ∧
      exec .rstdaa s = .next (s.modIface (fun f => { f with i3cAddr := none })) ∧
      (∀ addr events, (addr = none ∨ addr = s.iface.i3cAddr) → bitAt events 0 = true →
        exec (.enec addr events) s = .next (s.modIface (fun f => { f with ibiEn := true })) ∧
        exec (.disec addr events) s = .next (s.modIface (fun f => { f with ibiEn := false }))) ∧
      (∀ addr, s.iface.i3cAddr = some addr →
        exec (.getpid addr) s = .next (s.modIface (fun f => { f with i3cOut := i3cPidOctets })) ∧
        exec (.getbcr addr) s = .next (s.modIface (fun f => { f with i3cOut := [Config.i3cBcr.toNat] })) ∧
        exec (.getdcr addr) s = .next (s.modIface (fun f => { f with i3cOut := [Config.i3cDcr.toNat] })) ∧
        (∃ t, exec (.getstatus addr) s = .next t ∧ t.iface.i3cOut.length = 2)) ∧
      (∀ addr, s.iface.i3cAddr ≠ some addr → exec (.getpid addr) s = .next s ∧ exec (.getstatus addr) s = .next s))

/-- The TAP (R452-R455): TRST_N selects IDCODE; an instruction loads its register when the lock allows it, and selects BYPASS with B set
when it does not; a pin is driven only with every port DISABLED and every region FREE; an access through the TAP is the owner's. -/
def Obligations.TapInstructions : Prop :=
  ∀ s : State,
    (∃ t, exec (.trstN true) s = .next t ∧ t.iface.inst = 1 ∧ t.iface.pins = 0 ∧ t.iface.halted = false ∧ t.tapLive = false) ∧
    (exec (.trstN false) s = .next (s.modIface (fun f => { f with trst := false }))) ∧
    (s.tapLive = true →
      (∃ t, exec .bypass s = .next t ∧ t.iface.inst = 0xFF ∧ t.iface.dr = 0) ∧
      (∃ t, exec .idcode s = .next t ∧ t.iface.inst = 1 ∧ t.iface.dr = if s.stepping = 0 then 0x194249AB else 0x294249AB) ∧
      (∀ a b, 1 ≤ s.keeper.tap → ∃ t, exec (.samplePreload a b) s = .next t ∧ t.iface.inst = 2 ∧ t.iface.dr = a % 2 ^ 1557 ∧
        t.iface.bsr = b % 2 ^ 1557 ∧ t.iface.pins = 0) ∧
      (∀ a b, s.keeper.tap = 0 → ∃ t, exec (.samplePreload a b) s = .next t ∧ t.iface.inst = 0xFF ∧ t.iface.refused = true ∧
        t.iface.bsr = s.iface.bsr) ∧
      (∀ a b, s.pinsFree = true →
        (∃ t, exec (.extest a b) s = .next t ∧ t.iface.inst = 0 ∧ t.iface.pins = 1 ∧ t.iface.bsr = b % 2 ^ 1557) ∧
        (∃ t, exec (.extestPulse a b) s = .next t ∧ t.iface.inst = 5 ∧ t.iface.pins = 4 ∧ t.iface.bsr = b % 2 ^ 1557) ∧
        (∃ t, exec (.extestTrain a b) s = .next t ∧ t.iface.inst = 6 ∧ t.iface.pins = 5 ∧ t.iface.bsr = b % 2 ^ 1557) ∧
        (∃ t, exec .clamp s = .next t ∧ t.iface.inst = 3 ∧ t.iface.pins = 2) ∧
        (∃ t, exec .highz s = .next t ∧ t.iface.inst = 4 ∧ t.iface.pins = 3)) ∧
      (∀ a b, s.pinsFree = false →
        (∃ t, exec (.extest a b) s = .next t ∧ t.iface.inst = 0xFF ∧ t.iface.refused = true ∧ t.iface.pins = 0) ∧
        (∃ t, exec .clamp s = .next t ∧ t.iface.inst = 0xFF ∧ t.iface.refused = true ∧ t.iface.pins = 0)) ∧
      (s.keeper.tap = 2 →
        (∃ t, exec .dbgLintelHalt s = .next t ∧ t.iface.inst = 0x81 ∧ t.iface.halted = true) ∧
        (∃ t, exec .dbgTrace s = .next t ∧ t.iface.inst = 0x82 ∧ t.iface.dr = s.iface.traceBits) ∧
        (∀ (a data : Nat) (write : Bool), write = true ∨ s.tapWaits a = false →
          let u := s.tapLoad 0x80 0 true
          let head := a % 2 ^ 40 * 2 ^ 72 + bit write * 2 ^ 64
          (∀ (t : State) (v : Nat), u.tapAccess (a % 2 ^ 40) write data = (t, some v) →
            exec (.dbgMgmt a write data) s = .next (t.modIface (fun f => { f with dr := head + v }))) ∧
          (∀ t : State, u.tapAccess (a % 2 ^ 40) write data = (t, none) →
            exec (.dbgMgmt a write data) s = .next (t.useFree.modIface (fun f => { f with dr := head + t.free.toNat })))) ∧
        (∀ val, s.boot.off = false → s.boot.ready = true → val < 2 ^ 64 → s.requester s.ownerSource = some 0 →
          ∃ t, exec (.dbgMgmt 0x20018 true val) s = .next t ∧ t.power.idleShut = bits val 63 32 ∧ t.power.idleSeal = bits val 31 0 ∧
            t.outbox = s.outbox ∧ t.iface.dr = 0x20018 * 2 ^ 72 + 2 ^ 64 + val)) ∧
      (s.keeper.tap ≠ 2 → ∀ a v,
        (∃ t, exec (.dbgMgmt a true v) s = .next t ∧ t.iface.inst = 0xFF ∧ t.iface.refused = true ∧ t.power = s.power) ∧
        (∃ t, exec .dbgTrace s = .next t ∧ t.iface.inst = 0xFF) ∧
        (∃ t, exec .dbgLintelHalt s = .next t ∧ t.iface.halted = false)))

/-- What a register reads after reset is the value its table gives (LIM_SUSTAINED, LIM_PEAK, TH_CAP, the margin, the nominal flow, SHELF,
MODULE_ID, ALERT_EN, FABRIC_ADDR, BRIDGE, BRIDGE_FA, SINK, REGION_PWR, a port's status, control and VC_CONFIG, a multicast and a barrier
entry, NEXT_SEQ), the queue is empty, module time is 0, and the memory lists nothing and is in its form. -/
def Obligations.ResetValues : Prop :=
  (∀ e ∈ [(0x20008, 26000), (0x20010, 34000), (0x24008, 3000 * 2 ^ 48), (0x24010, 5), (0x24018, 40),
          (0x28018, 0x58 * 2 ^ 57 + 37000 * 2 ^ 17), (0x800, 2 ^ 56 + 0xFFFF), (0x10000, 0x9424 * 2 ^ 32), (0x10208, 0xF3E8 * 2 ^ 48), (0x1A800, 0xFFFF), (0x1A808, 0xFFFF * 2 ^ 39), (0x1A810, 0xFFFF),
          (0x1A818, 0xFFFF * 2 ^ 48), (0x20400, 4 * 2 ^ 61), (0x10000000, 7 * 2 ^ 59 + 0xFFFF * 2 ^ 32), (0x10000008, 2 ^ 63),
          (0x18000 + 24, 0xFFFF * 2 ^ 37), (0x1A000 + 24, 0xFFFF * 2 ^ 17)],
    State.reset.mapRead 0 0 e.1 = .ok e.2) ∧
    State.reset.pending = [] ∧ State.reset.time = 0 ∧ State.reset.hbm.cells = [] ∧ State.reset.hbm.wf = true ∧
    State.reset.retired = [] ∧ (State.reset.queue 0 0).nextSeq = 1 ∧ State.reset.prof.allow = 1

/-- Every command completes: whatever the command, its operands and the state, exec answers a next state. A command whose conditions do
not hold, or that names a part the module does not have, changes what its rules say and no more (log 44). -/
def Obligations.EveryCommandCompletes : Prop :=
  ∀ (i : Instr) (s : State), ∃ t, exec i s = .next t

/-- A step never stops, and it takes exactly the command at the front of the queue: no command takes from the queue or adds to it. -/
def Obligations.AStepTakesTheFrontCommandAndNeverStops : Prop :=
  ∀ s : State, ∃ t, step s = .next t ∧ t.pending = s.pending.drop 1

/-- Every step keeps the canonical form of the HBM: its addresses rise strictly, and no listed octet is the one an unlisted address reads
as (log 2). -/
def Obligations.StepsKeepTheMemoryInItsForm : Prop :=
  ∀ s t : State, s.hbm.wf = true → s.hbm.lost = none → step s = .next t → t.hbm.wf = true ∧ t.hbm.lost = none

/-- The limit registers change only by the authenticated sequence (R338, R339, R374): a command leaves every one of them as it was, or it is
the end of a check of an authenticated pair, or it began a cold boot, after which they hold their reset values. SPRINT_ALLOW holds
one bit per guest, the owner's bit 0 alone at reset; a guest whose bit is 0 is refused Sprint. -/
def Obligations.LimitsChangeOnlyByTheSequence : Prop :=
  (∀ (c : Instr) (s t : State), exec c s = .next t → t.limits ≠ s.limits →
    c = .authGoResult ∨ (s.wafer.boots < t.wafer.boots ∧ t.limits = State.reset.limits)) ∧
  State.reset.prof.allow = 1 ∧
  (∀ (s : State) (g i : Nat) (l : ListRec) (x : Entry), StartsWell s g 3 0x42 l i x → bits x.word 103 102 = 3 →
    bitAt s.prof.allow g = false → s.regionOk g (bits x.word 223 218) [2, 3, 4] = true → (s.region (bits x.word 223 218)).prof.queue = [] →
    (s.region (bits x.word 223 218)).prof.stage = 0 → (s.region (bits x.word 223 218)).prof.ending = 0 →
    (s.region (bits x.word 223 218)).prof.entry = none →
    ∃ t, exec (.profile g) s = .next t ∧ (t.region (bits x.word 223 218)).prof.profile = (s.region (bits x.word 223 218)).prof.profile ∧
      (t.region (bits x.word 223 218)).prof.stage = 0 ∧ t.prof.grantSeq = s.prof.grantSeq)

/-- R18: a coordinate outside every core field names no cell: an access to its cell window, a write or a read, receives an error completion
and changes nothing (the access itself is traced, R452). -/
def Obligations.CoordinatesOutsideTheFieldsNameNoCell : Prop :=
  ∀ (s : State) (x y o src q v : Nat), x < 1024 → y < 384 → o < 4096 → o % 8 = 0 → placeOf x y = none → v < 2 ^ 64 →
    s.boot.off = false → s.boot.ready = true → s.requester src = some q →
    exec (.registerWrite src (0x1000000000 + y * 2 ^ 22 + x * 2 ^ 12 + o) 8 v) s =
      .next ((s.traced (0x1000000000 + y * 2 ^ 22 + x * 2 ^ 12 + o) true v).rejectAccess src (0x1000000000 + y * 2 ^ 22 + x * 2 ^ 12 + o) 0 false 1) ∧
    (∀ rtag, s.answerRead src (0x1000000000 + y * 2 ^ 22 + x * 2 ^ 12 + o) rtag 8 =
      (s.traced (0x1000000000 + y * 2 ^ 22 + x * 2 ^ 12 + o) false 0).rejectAccess src (0x1000000000 + y * 2 ^ 22 + x * 2 ^ 12 + o) rtag true 1)

/-- R19: core field `f` holds 3 × 3 panes of 16 × 16 cells. Pane `i = 3 × py + px` of it has the number `9 × (f − 6) + i`, in the range 0 to 737; its
row `r` and column `j` is the cell `16 × px + j` right of and `16 × py + r` below the field's own origin (R17), and every cell there is, is
one of these. -/
def Obligations.PanesHoldTheirCells : Prop :=
  (∀ f px py r j : Nat, 6 ≤ f → f < 88 → px < 3 → py < 3 → r < 16 → j < 16 →
    let p := 9 * (f - 6) + (3 * py + px)
    let c := paneCell p r j
    p ≤ 737 ∧ cellExists c = true ∧ paneOfCell c = p ∧ prowOf c = r ∧ pcolOf c = j ∧
      cellX c = rowX0 (rowOfField f) + 48 * (f - firstField (rowOfField f)) + 16 * px + j ∧
      cellY c = 48 * rowOfField f + 16 * py + r) ∧
  (∀ c, cellExists c = true → paneOfCell c < 738 ∧ paneCell (paneOfCell c) (prowOf c) (pcolOf c) = c)

/-- R453: what IDCODE reads, and the fields of it. -/
def Obligations.IdcodeReads : Prop :=
  ∀ s : State, s.tapLive = true → s.stepping < 2 →
    ∃ t, exec .idcode s = .next t ∧ (s.stepping = 0 → t.iface.dr = 0x194249AB) ∧ (s.stepping = 1 → t.iface.dr = 0x294249AB) ∧
      bits t.iface.dr 31 28 = s.stepping + 1 ∧ bits t.iface.dr 27 12 = 0x9424 ∧ bits t.iface.dr 11 1 = 0x4D5 ∧ bits t.iface.dr 0 0 = 1

/-- R386: APPROVED_LEAVE alone changes neither the mode nor the owner's key; the cold boot keeps it pending, and at that boot the Keeper erases
the owner's command key with its counters, which leaves the module UNCLAIMED, and approved mode has ended. -/
def Obligations.ApprovedLeaveTakesEffectAtTheNextBoot : Prop :=
  (∀ s u : State, AsksAuthorised s 0 0x41 [] u →
    ∃ t, exec (.approvedLeave 0) s = .next t ∧ t.keeper.leave = true ∧ t.keeper.approved = u.keeper.approved ∧ t.keeper.keys = u.keeper.keys) ∧
  (∀ (s : State) (cause : Nat), s.keeper.leave = true → (s.coldBoot cause).keeper.leave = true ∧
    (s.coldBoot cause).keeper.approved = s.keeper.approved) ∧
  (∀ (s : State) (f : BootFinds), s.boot.off = false → s.boot.resetLow = false → s.boot.bothFailed = none → s.boot.attempting = false →
    s.boot.stage = 2 → f.fail = 0 → s.keeper.leave = true →
    ∃ t, exec (.bootStageComplete f) s = .next t ∧ t.cmdKey 0 = none ∧ t.keeper.approved = false ∧ t.keeper.leave = false)
end

