-- ==== Sys2Proof/Laws/Maps.lean ====
section
/-! SUPPORT. Laws of tables and memories: what a table reads after a change, what a memory reads after a write, and that every memory
operation keeps the canonical form. -/

namespace Sys2Proof.Machine

variable {α : Type}

/-! ### Tables -/

@[simp] theorem mget_nil (d : α) (k : Nat) : mget d [] k = d := rfl

theorem mget_mset (d : α) (m : SMap α) (k q : Nat) (v : α) : mget d (mset m k v) q = if q = k then v else mget d m q := by
  induction m with
  | nil => simp [mset, mget]; grind
  | cons a m ih =>
    obtain ⟨i, w⟩ := a
    simp only [mset]
    split
    · simp [mget]; grind
    · split
      · simp [mget]; grind
      · simp [mget, ih]; grind

@[simp] theorem mget_mset_same (d : α) (m : SMap α) (k : Nat) (v : α) : mget d (mset m k v) k = v := by simp [mget_mset]

theorem mget_mset_other (d : α) (m : SMap α) {k q : Nat} (v : α) (h : q ≠ k) : mget d (mset m k v) q = mget d m q := by
  simp [mget_mset, h]

@[simp] theorem mset_mset (m : SMap α) (k : Nat) (v w : α) : mset (mset m k v) k w = mset m k w := by
  induction m with
  | nil => simp [mset]
  | cons a m ih =>
    obtain ⟨i, x⟩ := a
    by_cases h1 : i = k
    · simp [mset, h1]
    · by_cases h2 : k < i
      · simp [mset, h1, h2]
      · simp [mset, h1, h2, ih]

theorem mset_ne_nil (m : SMap α) (k : Nat) (v : α) : mset m k v ≠ [] := by
  cases m with
  | nil => simp [mset]
  | cons a m => simp only [mset]; split <;> [simp; (split <;> simp)]

theorem mget_mdel (d : α) (m : SMap α) (k q : Nat) : mget d (mdel m k) q = if q = k then d else mget d m q := by
  induction m with
  | nil => simp [mdel, mget]
  | cons a m ih =>
    obtain ⟨i, v⟩ := a
    simp only [mdel] at ih
    simp only [mdel, List.filter_cons]
    split
    · simp [mget]; grind
    · simp [mget]; grind

theorem mget_mmap (d : α) (f : Nat → α → α) (m : SMap α) (q : Nat) (h : f q d = d) : mget d (mmap f m) q = f q (mget d m q) := by
  induction m with
  | nil => simp [mmap, mget, h]
  | cons a m ih =>
    obtain ⟨i, v⟩ := a
    simp only [mmap] at ih
    simp only [mmap, List.map_cons, mget]
    split
    · next e => subst e; rfl
    · exact ih

/-- What a search for a number finds after a change. -/
theorem find_mset (m : SMap α) (k q : Nat) (v : α) :
    ((mset m k v).find? (fun p => p.1 == q)).map (·.2) = if q = k then some v else (m.find? (fun p => p.1 == q)).map (·.2) := by
  induction m with
  | nil => simp [mset, List.find?_cons]; grind
  | cons a m ih =>
    obtain ⟨i, w⟩ := a
    simp only [mset]
    split
    · simp [List.find?_cons]; grind
    · split
      · simp [List.find?_cons]; grind
      · simp only [List.find?_cons]; grind

/-! ### Memories -/

theorem rising_cons {i : Nat} {v : Byte} {l : List Host.Cell} (h : rising ((i, v) :: l) = true) :
    rising l = true ∧ ∀ c ∈ l, i < c.1 := by
  induction l generalizing i v with
  | nil => simp [rising]
  | cons x l ih =>
    obtain ⟨j, w⟩ := x
    simp [rising] at h
    refine ⟨h.2, fun c hc => ?_⟩
    rcases List.mem_cons.mp hc with rfl | hc
    · exact h.1
    · exact Nat.lt_trans h.1 ((ih h.2).2 c hc)

theorem rising_of {i : Nat} {v : Byte} {l : List Host.Cell} (h : rising l = true) (hl : ∀ c ∈ l, i < c.1) : rising ((i, v) :: l) = true := by
  cases l with
  | nil => rfl
  | cons x l => obtain ⟨j, w⟩ := x; simp [rising, h]; exact hl (j, w) (by simp)

/-- Nothing is listed at or below the head of a rising list but the head. -/
theorem cellsGet_below (d : Byte) {i : Nat} {v : Byte} {l : List Host.Cell} (h : rising ((i, v) :: l) = true) (q : Nat) (hq : q ≤ i) :
    cellsGet d l q = d := by
  have hc := (rising_cons h).2
  clear h
  induction l with
  | nil => rfl
  | cons x l ih =>
    obtain ⟨j, w⟩ := x
    have h1 : i < j := hc (j, w) (by simp)
    have h2 : j ≠ q := by omega
    simp [cellsGet, h2, ih (fun c hm => hc c (by simp [hm]))]

theorem cellsGet_cellsSet (d : Byte) (keep : Bool) (b : Byte) (l : List Host.Cell) (a q : Nat) (hr : rising l = true)
    (hk : keep = false → b = d) : cellsGet d (cellsSet keep b l a) q = if q = a then b else cellsGet d l q := by
  induction l with
  | nil =>
    cases keep with
    | true => simp [cellsSet, cellsGet]; grind
    | false => simp [cellsSet, cellsGet, hk rfl]
  | cons x l ih =>
    obtain ⟨i, v⟩ := x
    have hr' := (rising_cons hr).1
    simp only [cellsSet]
    split
    · next h =>
      cases keep with
      | true => simp [cellsGet]; grind
      | false =>
        by_cases hq : q = a
        · subst hq
          have h1 : i ≠ q := by omega
          simp [cellsGet, h1, cellsGet_below d hr q (by omega), hk rfl]
        · simp [hq]
    · split
      · next e =>
        subst e
        cases keep with
        | true => simp [cellsGet]; grind
        | false =>
          by_cases hq : q = i
          · subst hq; simp [cellsGet_below d hr q (Nat.le_refl q), hk rfl]
          · have : i ≠ q := fun h => hq h.symm
            simp [hq, cellsGet, this]
      · simp [cellsGet, ih hr']
        grind

/-- A changed list of cells holds the changed cell, and otherwise cells it held. -/
theorem mem_cellsSet {keep : Bool} {b : Byte} {l : List Host.Cell} {a : Nat} {c : Host.Cell} (h : c ∈ cellsSet keep b l a) :
    (keep = true ∧ c = (a, b)) ∨ c ∈ l := by
  induction l with
  | nil => cases keep <;> simp_all [cellsSet]
  | cons x l ih =>
    obtain ⟨i, v⟩ := x
    simp only [cellsSet] at h
    split at h
    · cases keep <;> simp_all
    · split at h
      · cases keep <;> simp_all
        rcases h with h | h <;> simp [h]
      · rcases List.mem_cons.mp h with h | h
        · simp [h]
        · rcases ih h with h | h <;> simp [h]

theorem rising_cellsSet (keep : Bool) (b : Byte) (l : List Host.Cell) (a : Nat) (hr : rising l = true) :
    rising (cellsSet keep b l a) = true := by
  induction l with
  | nil => cases keep <;> simp [cellsSet, rising]
  | cons x l ih =>
    obtain ⟨i, v⟩ := x
    have hc := rising_cons hr
    simp only [cellsSet]
    split
    · next h =>
      cases keep with
      | true =>
        refine rising_of hr (fun c hm => ?_)
        rcases List.mem_cons.mp hm with rfl | hm
        · exact h
        · exact Nat.lt_trans h (hc.2 c hm)
      | false => exact hr
    · split
      · next e =>
        subst e
        cases keep with
        | true => exact rising_of hc.1 hc.2
        | false => exact hc.1
      · refine rising_of (ih hc.1) (fun c hm => ?_)
        rcases mem_cellsSet hm with ⟨_, rfl⟩ | hm
        · show i < a; omega
        · exact hc.2 c hm

@[simp] theorem Mem.set_lost (m : Mem) (a : Nat) (b : Byte) : (m.set a b).lost = m.lost := rfl
@[simp] theorem Mem.set_unlisted (m : Mem) (a : Nat) (b : Byte) (q : Nat) : (m.set a b).unlisted q = m.unlisted q := rfl

/-- A write of one octet keeps the canonical form. -/
theorem Mem.wf_set (m : Mem) (a : Nat) (b : Byte) (h : m.wf = true) : (m.set a b).wf = true := by
  simp only [Mem.wf, Bool.and_eq_true, List.all_eq_true] at h ⊢
  refine ⟨rising_cellsSet _ b m.cells a h.1, fun c hm => ?_⟩
  rcases mem_cellsSet hm with ⟨hk, rfl⟩ | hm
  · exact hk
  · exact h.2 c hm

/-- What an address reads after a write of one octet. -/
theorem Mem.get_set (m : Mem) (a : Nat) (b : Byte) (q : Nat) (h : m.wf = true) : (m.set a b).get q = if q = a then b else m.get q := by
  simp only [Mem.wf, Bool.and_eq_true] at h
  by_cases hq : q = a
  · subst hq
    exact cellsGet_cellsSet (m.unlisted q) _ b m.cells q q h.1 (by simp)
  · by_cases hk : b = m.unlisted a
    · have key : ∀ l, rising l = true → cellsGet (m.unlisted q) (cellsSet false b l a) q = cellsGet (m.unlisted q) l q := by
        intro l
        induction l with
        | nil => intro _; simp [cellsSet]
        | cons x l ih =>
          obtain ⟨i, v⟩ := x
          intro hl
          simp only [cellsSet]
          split
          · simp
          · split
            · next e => subst e; have : i ≠ q := fun z => hq z.symm; simp [cellsGet, this]
            · simp [cellsGet, ih (rising_cons hl).1]
      have e : decide (b ≠ m.unlisted a) = false := by simp [hk]
      simp only [Mem.get, Mem.set, e, hq, if_false]
      exact key m.cells h.1
    · have e : decide (b ≠ m.unlisted a) = true := by simp [hk]
      simp only [Mem.get, Mem.set, e]
      exact cellsGet_cellsSet (m.unlisted q) true b m.cells a q h.1 (by simp)

@[simp] theorem Mem.write_lost (m : Mem) (a : Nat) (l : List Byte) : (m.write a l).lost = m.lost := by
  induction l generalizing m a with
  | nil => rfl
  | cons b l ih => simp [Mem.write, ih]

/-- A write keeps the canonical form. -/
theorem Mem.wf_write (m : Mem) (a : Nat) (l : List Byte) (h : m.wf = true) : (m.write a l).wf = true := by
  induction l generalizing m a with
  | nil => exact h
  | cons b l ih => exact ih _ _ (m.wf_set a b h)

/-- What an address reads after a write: the octet written there, or what it read before. -/
theorem Mem.get_write (m : Mem) (a : Nat) (l : List Byte) (q : Nat) (h : m.wf = true) :
    (m.write a l).get q = if a ≤ q ∧ q < a + l.length then (l[q - a]?).getD 0 else m.get q := by
  induction l generalizing m a with
  | nil => simp [Mem.write]
  | cons b l ih =>
    rw [Mem.write, ih _ _ (m.wf_set a b h), Mem.get_set m a b q h]
    by_cases h1 : q = a
    · subst h1; simp
    · by_cases h2 : a + 1 ≤ q ∧ q < a + 1 + l.length
      · have h3 : a ≤ q ∧ q < a + (b :: l).length := by simp; omega
        have h4 : q - a = (q - (a + 1)) + 1 := by omega
        rw [if_pos h2, if_pos h3, h4, List.getElem?_cons_succ]
      · have h3 : ¬(a ≤ q ∧ q < a + (b :: l).length) := by simp; omega
        rw [if_neg h2, if_neg h3, if_neg h1]

theorem Mem.wf_writeLE (m : Mem) (a n v : Nat) (h : m.wf = true) : (m.writeLE a n v).wf = true := m.wf_write a _ h

@[simp] theorem Mem.writeLE_lost (m : Mem) (a n v : Nat) : (m.writeLE a n v).lost = m.lost := m.write_lost a _

@[simp] theorem Mem.zero_lost (m : Mem) (a n : Nat) : (m.zero a n).lost = m.lost := rfl

theorem rising_filter (p : Host.Cell → Bool) (l : List Host.Cell) (h : rising l = true) : rising (l.filter p) = true := by
  induction l with
  | nil => rfl
  | cons x l ih =>
    obtain ⟨i, v⟩ := x
    have hc := rising_cons h
    simp only [List.filter_cons]
    split
    · exact rising_of (ih hc.1) (fun c hm => hc.2 c (List.mem_of_mem_filter hm))
    · exact ih hc.1

/-- Zeroing a range keeps the canonical form. -/
theorem Mem.wf_zero (m : Mem) (a n : Nat) (h : m.wf = true) : (m.zero a n).wf = true := by
  simp only [Mem.wf, Bool.and_eq_true] at h ⊢
  refine ⟨rising_filter _ _ h.1, ?_⟩
  simp only [Mem.zero, List.all_eq_true] at h ⊢
  exact fun c hc => h.2 c (List.mem_of_mem_filter hc)

/-- What an address reads after a range has been zeroed, where an unlisted octet reads 0. -/
theorem Mem.get_zero (m : Mem) (a n q : Nat) (hl : m.lost = none) : (m.zero a n).get q = if a ≤ q ∧ q < a + n then 0 else m.get q := by
  have key : ∀ l : List Host.Cell, cellsGet 0 (l.filter (fun c => decide (c.1 < a ∨ a + n ≤ c.1))) q =
      if a ≤ q ∧ q < a + n then 0 else cellsGet 0 l q := by
    intro l
    induction l with
    | nil => simp [cellsGet]
    | cons x l ih =>
      obtain ⟨i, v⟩ := x
      simp only [List.filter_cons]
      split
      · next h => simp at h; simp only [cellsGet, ih]; grind
      · next h => simp at h; simp only [cellsGet, ih]; grind
  simpa [Mem.get, Mem.zero, Mem.unlisted, hl] using key m.cells

end Sys2Proof.Machine
end

