-- ==== Sys2Proof/Laws/Bytes.lean ====
section
/-! SUPPORT. Octet strings: numbers in little-endian octets, parts of strings, what a memory holds after one write, the lengths of
digests, and when a pair of counter and tag is accepted. -/

namespace Sys2Proof.Machine

theorem eq_some_getD {α : Type} {o : Option α} {d : α} (h : o.isSome = true) : o = some (o.getD d) := by
  cases o <;> simp_all

theorem find_one {α : Type} {p : α → Bool} {a : α} (h : p a = true) : [a].find? p = some a := by simp [h]

theorem leNat_natLE (n v : Nat) (h : v < 256 ^ n) : leNat (natLE n v) = v := by
  induction n generalizing v with
  | zero => simp [natLE, leNat]; omega
  | succ n ih =>
    have : v / 256 < 256 ^ n := Nat.div_lt_of_lt_mul (by rw [Nat.pow_succ] at h; omega)
    simp only [natLE, leNat, ih _ this, BitVec.toNat_ofNat]
    omega

theorem natLE_length (n v : Nat) : (natLE n v).length = n := by
  induction n generalizing v with
  | zero => rfl
  | succ n ih => simp [natLE, ih]

theorem slice_length (l : List Byte) (off n : Nat) : (slice l off n).length = n := by
  simp [slice]

theorem slice_succ (l : List Byte) (a n : Nat) : slice l a (n + 1) = (l[a]?).getD 0 :: slice l (a + 1) n := by
  unfold slice
  by_cases h : a < l.length
  · rw [List.drop_eq_getElem_cons h, List.take_succ_cons, List.getElem?_eq_getElem h]
    simp only [List.length_cons, Nat.add_sub_add_right]
    rfl
  · have h' : l.length ≤ a := by omega
    rw [List.drop_eq_nil_of_le h', List.drop_eq_nil_of_le (by omega), List.getElem?_eq_none h']
    simp [List.replicate_succ]

/-- The part of a list that lies within a longer one. -/
theorem slice_mid (p l r : List Byte) : slice (p ++ (l ++ r)) p.length l.length = l := by simp [slice]

theorem read_written (d : List Byte) (a n : Nat) : (({} : Mem).write 0 d).read a n = slice d a n := by
  induction n generalizing a with
  | zero => simp [Mem.read, slice]
  | succ n ih =>
    rw [Mem.read, slice_succ, ih, Mem.get_write _ _ _ _ rfl]
    congr 1
    by_cases h : a < d.length
    · simp [h]
    · have h' : d.length ≤ a := by omega
      simp [h, Mem.get, Mem.unlisted, cellsGet]

theorem zeros_length (n : Nat) : (zeros n).length = n := List.length_replicate
theorem shaRound_length (v : List Nat) (kw : Nat) (h : v.length = 8) : (shaRound v kw).length = 8 := by simp [shaRound, h]

theorem shaBlock_length (h : List Nat) (b : List Byte) (hh : h.length = 8) : (shaBlock h b).length = 8 := by
  have (l : List Nat) : ∀ a : List Nat, a.length = 8 → (l.foldl shaRound a).length = 8 := by
    induction l with
    | nil => exact fun a ha => ha
    | cons x l ih => exact fun a ha => ih _ (shaRound_length a x ha)
  simp only [shaBlock, List.length_zipWith, this _ _ hh, hh, Nat.min_self]

theorem shaBlocks_length (n : Nat) (h : List Nat) (l : List Byte) (hh : h.length = 8) : (shaBlocks n h l).length = 8 := by
  induction n generalizing h l with
  | zero => exact hh
  | succ n ih => rw [shaBlocks]; split <;> simp [ih, shaBlock_length, hh]

theorem natBE_length (n v : Nat) : (natBE n v).length = n := by
  rw [natBE, List.length_reverse, natLE_length]

theorem sha256_length (l : List Byte) : (sha256 l).length = 32 := by
  have (ws : List Nat) : (ws.flatMap (natBE 4)).length = 4 * ws.length := by
    induction ws with
    | nil => rfl
    | cons w ws ih => rw [List.flatMap_cons, List.length_append, ih, natBE_length, List.length_cons]; omega
  rw [sha256, this, shaBlocks_length _ _ _ (by decide)]

theorem hmac_length (key msg : List Byte) : (hmac key msg).length = 32 := sha256_length _

theorem natLE_leNat (l : List Byte) : natLE l.length (leNat l) = l := by
  induction l with
  | nil => rfl
  | cons b l ih =>
    have hb := b.isLt
    rw [List.length_cons, natLE, leNat, show (b.toNat + 256 * leNat l) / 256 = leNat l by omega, ih]
    congr 1
    apply BitVec.eq_of_toNat_eq
    rw [BitVec.toNat_ofNat]
    omega

theorem leNat_lt (l : List Byte) : leNat l < 256 ^ l.length := by
  induction l with
  | nil => exact Nat.one_pos
  | cons b l ih =>
    have hb := b.isLt
    rw [leNat, List.length_cons, Nat.pow_succ]
    omega

/-- The Keeper accepts a pair with the right tag, a counter above LAC and one that P covers; nothing but the key changes (R378). -/
theorem checkPair_accepts (s : State) (g counter : Nat) (body : List Byte) (k : CmdKey) (hs : s.keeper.st = 2) (hk : s.cmdKey g = some k)
    (hl : k.lac < counter) (hp : counter ≤ k.persisted) :
    s.checkPair g counter ((hmac k.key (natLE 2 s.fabricAddr ++ natLE 1 g ++ natLE 8 counter ++ body)).take 16) body =
      (s.modKeeper (fun x =>
        { x with keys := mset x.keys g ({ k with lac := counter, fails := 0, writing := k.writing || k.advances counter } : CmdKey) }), true) := by
  have hv : s.pairVerdict g counter ((hmac k.key (natLE 2 s.fabricAddr ++ natLE 1 g ++ natLE 8 counter ++ body)).take 16) body = 0 := by
    simp [State.pairVerdict, hk, Nat.not_le.mpr hl, Nat.not_lt.mpr hp]
  simp only [State.checkPair, hs, hv, hk]
  rfl

end Sys2Proof.Machine
end

