-- ==== Sys2Proof/Laws/Dispatch.lean ====
section
/-! SUPPORT. What `exec` calls for each command: one law per constructor, so that no proof need unfold the dispatch. -/

namespace Sys2Proof.Machine

@[simp] theorem exec_add (c : Nat) (rd : Nat) (ra : Nat) (rb : Nat) (s : State) : exec (.add c rd ra rb) s = execAdd c rd ra rb s := rfl
@[simp] theorem exec_sub (c : Nat) (rd : Nat) (ra : Nat) (rb : Nat) (s : State) : exec (.sub c rd ra rb) s = execSub c rd ra rb s := rfl
@[simp] theorem exec_sAnd (c : Nat) (rd : Nat) (ra : Nat) (rb : Nat) (s : State) : exec (.sAnd c rd ra rb) s = execSAnd c rd ra rb s := rfl
@[simp] theorem exec_sOr (c : Nat) (rd : Nat) (ra : Nat) (rb : Nat) (s : State) : exec (.sOr c rd ra rb) s = execSOr c rd ra rb s := rfl
@[simp] theorem exec_sXor (c : Nat) (rd : Nat) (ra : Nat) (rb : Nat) (s : State) : exec (.sXor c rd ra rb) s = execSXor c rd ra rb s := rfl
@[simp] theorem exec_shl (c : Nat) (rd : Nat) (ra : Nat) (rb : Nat) (s : State) : exec (.shl c rd ra rb) s = execShl c rd ra rb s := rfl
@[simp] theorem exec_shr (c : Nat) (rd : Nat) (ra : Nat) (rb : Nat) (s : State) : exec (.shr c rd ra rb) s = execShr c rd ra rb s := rfl
@[simp] theorem exec_cmp (c : Nat) (rd : Nat) (ra : Nat) (rb : Nat) (s : State) : exec (.cmp c rd ra rb) s = execCmp c rd ra rb s := rfl
@[simp] theorem exec_movi (c : Nat) (rd : Nat) (imm : Nat) (s : State) : exec (.movi c rd imm) s = execMovi c rd imm s := rfl
@[simp] theorem exec_mul (c : Nat) (rd : Nat) (ra : Nat) (rb : Nat) (s : State) : exec (.mul c rd ra rb) s = execMul c rd ra rb s := rfl
@[simp] theorem exec_jmp (c : Nat) (target : Nat) (s : State) : exec (.jmp c target) s = execJmp c target s := rfl
@[simp] theorem exec_br (c : Nat) (rs : Nat) (target : Nat) (s : State) : exec (.br c rs target) s = execBr c rs target s := rfl
@[simp] theorem exec_loop (c : Nat) (fromReg : Bool) (count : Nat) (last : Nat) (s : State) : exec (.loop c fromReg count last) s = execLoop c fromReg count last s := rfl
@[simp] theorem exec_await (c : Nat) (item : Nat) (s : State) : exec (.await c item) s = execAwait c item s := rfl
@[simp] theorem exec_stepwait (c : Nat) (s : State) : exec (.stepwait c) s = execStepwait c s := rfl
@[simp] theorem exec_dotW (c : Nat) (o : DotOp) (waddr : Nat) (saddr : Nat) (s : State) : exec (.dotW c o waddr saddr) s = execDotW c o waddr saddr s := rfl
@[simp] theorem exec_dotL (c : Nat) (o : DotOp) (grp : Nat) (s : State) : exec (.dotL c o grp) s = execDotL c o grp s := rfl
@[simp] theorem exec_dotFlush (c : Nat) (e : Nat) (paddr : Nat) (s : State) : exec (.dotFlush c e paddr) s = execDotFlush c e paddr s := rfl
@[simp] theorem exec_dotFlushAdd (c : Nat) (e : Nat) (paddr : Nat) (s : State) : exec (.dotFlushAdd c e paddr) s = execDotFlushAdd c e paddr s := rfl
@[simp] theorem exec_dotClr (c : Nat) (s : State) : exec (.dotClr c) s = execDotClr c s := rfl
@[simp] theorem exec_vadd (c : Nat) (vd : Nat) (va : Nat) (vb : Nat) (s : State) : exec (.vadd c vd va vb) s = execVadd c vd va vb s := rfl
@[simp] theorem exec_vsub (c : Nat) (vd : Nat) (va : Nat) (vb : Nat) (s : State) : exec (.vsub c vd va vb) s = execVsub c vd va vb s := rfl
@[simp] theorem exec_vmul (c : Nat) (vd : Nat) (va : Nat) (vb : Nat) (s : State) : exec (.vmul c vd va vb) s = execVmul c vd va vb s := rfl
@[simp] theorem exec_vfma (c : Nat) (vd : Nat) (va : Nat) (vb : Nat) (vc : Nat) (s : State) : exec (.vfma c vd va vb vc) s = execVfma c vd va vb vc s := rfl
@[simp] theorem exec_vmax (c : Nat) (vd : Nat) (va : Nat) (vb : Nat) (s : State) : exec (.vmax c vd va vb) s = execVmax c vd va vb s := rfl
@[simp] theorem exec_vmin (c : Nat) (vd : Nat) (va : Nat) (vb : Nat) (s : State) : exec (.vmin c vd va vb) s = execVmin c vd va vb s := rfl
@[simp] theorem exec_vcmp (c : Nat) (vd : Nat) (va : Nat) (vb : Nat) (s : State) : exec (.vcmp c vd va vb) s = execVcmp c vd va vb s := rfl
@[simp] theorem exec_vsel (c : Nat) (vd : Nat) (va : Nat) (vb : Nat) (vc : Nat) (s : State) : exec (.vsel c vd va vb vc) s = execVsel c vd va vb vc s := rfl
@[simp] theorem exec_vand (c : Nat) (vd : Nat) (va : Nat) (vb : Nat) (s : State) : exec (.vand c vd va vb) s = execVand c vd va vb s := rfl
@[simp] theorem exec_vor (c : Nat) (vd : Nat) (va : Nat) (vb : Nat) (s : State) : exec (.vor c vd va vb) s = execVor c vd va vb s := rfl
@[simp] theorem exec_vperm (c : Nat) (vd : Nat) (va : Nat) (vb : Nat) (s : State) : exec (.vperm c vd va vb) s = execVperm c vd va vb s := rfl
@[simp] theorem exec_vbcast (c : Nat) (vd : Nat) (va : Nat) (lane : Nat) (s : State) : exec (.vbcast c vd va lane) s = execVbcast c vd va lane s := rfl
@[simp] theorem exec_vredSum (c : Nat) (vd : Nat) (va : Nat) (s : State) : exec (.vredSum c vd va) s = execVredSum c vd va s := rfl
@[simp] theorem exec_vredMax (c : Nat) (vd : Nat) (va : Nat) (s : State) : exec (.vredMax c vd va) s = execVredMax c vd va s := rfl
@[simp] theorem exec_vcvt (c : Nat) (o : CvtOp) (s : State) : exec (.vcvt c o) s = execVcvt c o s := rfl
@[simp] theorem exec_vlse (c : Nat) (vd : Nat) (va : Nat) (vb : Nat) (s : State) : exec (.vlse c vd va vb) s = execVlse c vd va vb s := rfl
@[simp] theorem exec_exp (c : Nat) (vd : Nat) (va : Nat) (s : State) : exec (.exp c vd va) s = execExp c vd va s := rfl
@[simp] theorem exec_log (c : Nat) (vd : Nat) (va : Nat) (s : State) : exec (.log c vd va) s = execLog c vd va s := rfl
@[simp] theorem exec_rcp (c : Nat) (vd : Nat) (va : Nat) (s : State) : exec (.rcp c vd va) s = execRcp c vd va s := rfl
@[simp] theorem exec_rsqrt (c : Nat) (vd : Nat) (va : Nat) (s : State) : exec (.rsqrt c vd va) s = execRsqrt c vd va s := rfl
@[simp] theorem exec_sqrt (c : Nat) (vd : Nat) (va : Nat) (s : State) : exec (.sqrt c vd va) s = execSqrt c vd va s := rfl
@[simp] theorem exec_sigm (c : Nat) (vd : Nat) (va : Nat) (s : State) : exec (.sigm c vd va) s = execSigm c vd va s := rfl
@[simp] theorem exec_tanh (c : Nat) (vd : Nat) (va : Nat) (s : State) : exec (.tanh c vd va) s = execTanh c vd va s := rfl
@[simp] theorem exec_silu (c : Nat) (vd : Nat) (va : Nat) (s : State) : exec (.silu c vd va) s = execSilu c vd va s := rfl
@[simp] theorem exec_gelu (c : Nat) (vd : Nat) (va : Nat) (s : State) : exec (.gelu c vd va) s = execGelu c vd va s := rfl
@[simp] theorem exec_rot (c : Nat) (vd : Nat) (va : Nat) (rs : Nat) (base : Nat) (split : Bool) (s : State) : exec (.rot c vd va rs base split) s = execRot c vd va rs base split s := rfl
@[simp] theorem exec_lda (c : Nat) (addr : Nat) (toX : Bool) (r : Nat) (h : Nat) (s : State) : exec (.lda c addr toX r h) s = execLda c addr toX r h s := rfl
@[simp] theorem exec_sta (c : Nat) (v : Nat) (h : Nat) (addr : Nat) (s : State) : exec (.sta c v h addr) s = execSta c v h addr s := rfl
@[simp] theorem exec_stg (c : Nat) (v : Nat) (h : Nat) (idx : Nat) (s : State) : exec (.stg c v h idx) s = execStg c v h idx s := rfl
@[simp] theorem exec_ldp (c : Nat) (vd : Nat) (addr : Nat) (s : State) : exec (.ldp c vd addr) s = execLdp c vd addr s := rfl
@[simp] theorem exec_stp (c : Nat) (v : Nat) (addr : Nat) (s : State) : exec (.stp c v addr) s = execStp c v addr s := rfl
@[simp] theorem exec_ldw (c : Nat) (vd : Nat) (addr : Nat) (s : State) : exec (.ldw c vd addr) s = execLdw c vd addr s := rfl
@[simp] theorem exec_send (c : Nat) (route : Nat) (v : Nat) (h : Nat) (s : State) : exec (.send c route v h) s = execSend c route v h s := rfl
@[simp] theorem exec_recv (c : Nat) (vd : Nat) (h : Nat) (src : Nat) (s : State) : exec (.recv c vd h src) s = execRecv c vd h src s := rfl
@[simp] theorem exec_movs (c : Nat) (r : Nat) (v : Nat) (lane : Nat) (toScalar : Bool) (s : State) : exec (.movs c r v lane toScalar) s = execMovs c r v lane toScalar s := rfl
@[simp] theorem exec_linkNoFree (c : Nat) (dir : Nat) (s : State) : exec (.linkNoFree c dir) s = execLinkNoFree c dir s := rfl
@[simp] theorem exec_bankNoFree (c : Nat) (mem : Nat) (bank : Nat) (port : Bool) (s : State) : exec (.bankNoFree c mem bank port) s = execBankNoFree c mem bank port s := rfl
@[simp] theorem exec_beatComplete (p : Nat) (s : State) : exec (.beatComplete p) s = execBeatComplete p s := rfl
@[simp] theorem exec_beatBegin (p : Nat) (s : State) : exec (.beatBegin p) s = execBeatBegin p s := rfl
@[simp] theorem exec_pauseBeatEnd (p : Nat) (s : State) : exec (.pauseBeatEnd p) s = execPauseBeatEnd p s := rfl
@[simp] theorem exec_awaitResume (p : Nat) (s : State) : exec (.awaitResume p) s = execAwaitResume p s := rfl
@[simp] theorem exec_outboundResume (p : Nat) (s : State) : exec (.outboundResume p) s = execOutboundResume p s := rfl
@[simp] theorem exec_outboundPortDrain (p : Nat) (last : Bool) (vc : Nat) (dest : Nat) (addr : Nat) (m : PortMsg) (s : State) : exec (.outboundPortDrain p last vc dest addr m) s = execOutboundPortDrain p last vc dest addr m s := rfl
@[simp] theorem exec_holdTimeout (r : Nat) (s : State) : exec (.holdTimeout r) s = execHoldTimeout r s := rfl
@[simp] theorem exec_itemDelivery (r : Nat) (k : Nat) (s : State) : exec (.itemDelivery r k) s = execItemDelivery r k s := rfl
@[simp] theorem exec_backgroundAccessGrant (c : Nat) (mem : Nat) (s : State) : exec (.backgroundAccessGrant c mem) s = execBackgroundAccessGrant c mem s := rfl
@[simp] theorem exec_verdictWord (c : Nat) (w : VerdictIn) (s : State) : exec (.verdictWord c w) s = execVerdictWord c w s := rfl
@[simp] theorem exec_wload (g : Nat) (s : State) : exec (.wload g) s = execWload g s := rfl
@[simp] theorem exec_manifestVerified (id : Nat) (bytes : List Byte) (ok : Bool) (s : State) : exec (.manifestVerified id bytes ok) s = execManifestVerified id bytes ok s := rfl
@[simp] theorem exec_shardArrived (id : Nat) (k : Nat) (bytes : List Byte) (s : State) : exec (.shardArrived id k bytes) s = execShardArrived id k bytes s := rfl
@[simp] theorem exec_shardTimeout (id : Nat) (k : Nat) (s : State) : exec (.shardTimeout id k) s = execShardTimeout id k s := rfl
@[simp] theorem exec_swing (g : Nat) (s : State) : exec (.swing g) s = execSwing g s := rfl
@[simp] theorem exec_retire (g : Nat) (s : State) : exec (.retire g) s = execRetire g s := rfl
@[simp] theorem exec_join (m : Msg) (s : State) : exec (.join m) s = execJoin m s := rfl
@[simp] theorem exec_shard (m : Msg) (s : State) : exec (.shard m) s = execShard m s := rfl
@[simp] theorem exec_hold (m : Msg) (s : State) : exec (.hold m) s = execHold m s := rfl
@[simp] theorem exec_chainHoldTimer (id : Nat) (s : State) : exec (.chainHoldTimer id) s = execChainHoldTimer id s := rfl
@[simp] theorem exec_chainAbort (m : Msg) (s : State) : exec (.chainAbort m) s = execChainAbort m s := rfl
@[simp] theorem exec_manifest (m : Msg) (s : State) : exec (.manifest m) s = execManifest m s := rfl
@[simp] theorem exec_manifestReadTimeout (id : Nat) (k : Nat) (s : State) : exec (.manifestReadTimeout id k) s = execManifestReadTimeout id k s := rfl
@[simp] theorem exec_shardAck (m : Msg) (s : State) : exec (.shardAck m) s = execShardAck m s := rfl
@[simp] theorem exec_chainJoinTimeout (id : Nat) (s : State) : exec (.chainJoinTimeout id) s = execChainJoinTimeout id s := rfl
@[simp] theorem exec_load (g : Nat) (hdr : List Byte) (s : State) : exec (.load g hdr) s = execLoad g hdr s := rfl
@[simp] theorem exec_imageCopyComplete (r : Nat) (bytes : List Byte) (s : State) : exec (.imageCopyComplete r bytes) s = execImageCopyComplete r bytes s := rfl
@[simp] theorem exec_signatureVerified (r : Nat) (ok : Bool) (s : State) : exec (.signatureVerified r ok) s = execSignatureVerified r ok s := rfl
@[simp] theorem exec_loadAdmissionTimeout (r : Nat) (s : State) : exec (.loadAdmissionTimeout r) s = execLoadAdmissionTimeout r s := rfl
@[simp] theorem exec_cellWritesComplete (r : Nat) (s : State) : exec (.cellWritesComplete r) s = execCellWritesComplete r s := rfl
@[simp] theorem exec_release (g : Nat) (s : State) : exec (.release g) s = execRelease g s := rfl
@[simp] theorem exec_scrubComplete (r : Nat) (s : State) : exec (.scrubComplete r) s = execScrubComplete r s := rfl
@[simp] theorem exec_guestCreate (g : Nat) (s : State) : exec (.guestCreate g) s = execGuestCreate g s := rfl
@[simp] theorem exec_guestLimits (g : Nat) (s : State) : exec (.guestLimits g) s = execGuestLimits g s := rfl
@[simp] theorem exec_guestDelete (g : Nat) (s : State) : exec (.guestDelete g) s = execGuestDelete g s := rfl
@[simp] theorem exec_guestDeleteComplete (n : Nat) (s : State) : exec (.guestDeleteComplete n) s = execGuestDeleteComplete n s := rfl
@[simp] theorem exec_step (g : Nat) (s : State) : exec (.step g) s = execStep g s := rfl
@[simp] theorem exec_prefill (g : Nat) (s : State) : exec (.prefill g) s = execPrefill g s := rfl
@[simp] theorem exec_seqOpen (g : Nat) (s : State) : exec (.seqOpen g) s = execSeqOpen g s := rfl
@[simp] theorem exec_seqClose (g : Nat) (s : State) : exec (.seqClose g) s = execSeqClose g s := rfl
@[simp] theorem exec_seqCloseTakesEffect (r : Nat) (n : Nat) (s : State) : exec (.seqCloseTakesEffect r n) s = execSeqCloseTakesEffect r n s := rfl
@[simp] theorem exec_cancel (g : Nat) (s : State) : exec (.cancel g) s = execCancel g s := rfl
@[simp] theorem exec_cancelAll (g : Nat) (s : State) : exec (.cancelAll g) s = execCancelAll g s := rfl
@[simp] theorem exec_park (g : Nat) (s : State) : exec (.park g) s = execPark g s := rfl
@[simp] theorem exec_parkTakesEffect (r : Nat) (n : Nat) (s : State) : exec (.parkTakesEffect r n) s = execParkTakesEffect r n s := rfl
@[simp] theorem exec_resume (g : Nat) (s : State) : exec (.resume g) s = execResume g s := rfl
@[simp] theorem exec_fork (g : Nat) (s : State) : exec (.fork g) s = execFork g s := rfl
@[simp] theorem exec_forkTakesEffect (r : Nat) (n : Nat) (s : State) : exec (.forkTakesEffect r n) s = execForkTakesEffect r n s := rfl
@[simp] theorem exec_trim (g : Nat) (s : State) : exec (.trim g) s = execTrim g s := rfl
@[simp] theorem exec_trimTakesEffect (r : Nat) (n : Nat) (s : State) : exec (.trimTakesEffect r n) s = execTrimTakesEffect r n s := rfl
@[simp] theorem exec_stepAdmission (r : Nat) (waveAt : List (Nat × Nat)) (maskAt : List (Nat × Nat)) (prompt : List Byte) (s : State) : exec (.stepAdmission r waveAt maskAt prompt) s = execStepAdmission r waveAt maskAt prompt s := rfl
@[simp] theorem exec_stepStart (r : Nat) (s : State) : exec (.stepStart r) s = execStepStart r s := rfl
@[simp] theorem exec_shardCandidates (r : Nat) (bytes : List Byte) (s : State) : exec (.shardCandidates r bytes) s = execShardCandidates r bytes s := rfl
@[simp] theorem exec_campionResult (r : Nat) (q : Nat) (s : State) : exec (.campionResult r q) s = execCampionResult r q s := rfl
@[simp] theorem exec_stepCommit (r : Nat) (s : State) : exec (.stepCommit r) s = execStepCommit r s := rfl
@[simp] theorem exec_scatterComplete (r : Nat) (s : State) : exec (.scatterComplete r) s = execScatterComplete r s := rfl
@[simp] theorem exec_promotionComplete (r : Nat) (k : Nat) (s : State) : exec (.promotionComplete r k) s = execPromotionComplete r k s := rfl
@[simp] theorem exec_epochPassed (d : Nat) (s : State) : exec (.epochPassed d) s = execEpochPassed d s := rfl
@[simp] theorem exec_parkExpiry (k : Nat) (s : State) : exec (.parkExpiry k) s = execParkExpiry k s := rfl
@[simp] theorem exec_draftRecord (m : Msg) (s : State) : exec (.draftRecord m) s = execDraftRecord m s := rfl
@[simp] theorem exec_verifyRecord (m : Msg) (s : State) : exec (.verifyRecord m) s = execVerifyRecord m s := rfl
@[simp] theorem exec_deadCellDetect (c : Nat) (s : State) : exec (.deadCellDetect c) s = execDeadCellDetect c s := rfl
@[simp] theorem exec_rowShiftCopyComplete (r : Nat) (s : State) : exec (.rowShiftCopyComplete r) s = execRowShiftCopyComplete r s := rfl
@[simp] theorem exec_memDataRead (src : Nat) (c : Nat) (rtag : Nat) (s : State) : exec (.memDataRead src c rtag) s = execMemDataRead src c rtag s := rfl
@[simp] theorem exec_memDataWrite (src : Nat) (c : Nat) (w : BitVec 64) (s : State) : exec (.memDataWrite src c w) s = execMemDataWrite src c w s := rfl
@[simp] theorem exec_clearBankCounters (src : Nat) (c : Nat) (s : State) : exec (.clearBankCounters src c) s = execClearBankCounters src c s := rfl
@[simp] theorem exec_clearFaultLatch (src : Nat) (c : Nat) (s : State) : exec (.clearFaultLatch src c) s = execClearFaultLatch src c s := rfl
@[simp] theorem exec_commandListIntake (m : Msg) (s : State) : exec (.commandListIntake m) s = execCommandListIntake m s := rfl
@[simp] theorem exec_nop (g : Nat) (e : Nat) (s : State) : exec (.nop g e) s = execNop g e s := rfl
@[simp] theorem exec_wait (g : Nat) (e : Nat) (s : State) : exec (.wait g e) s = execWait g e s := rfl
@[simp] theorem exec_waitTimeout (g : Nat) (e : Nat) (seq : Nat) (idx : Nat) (s : State) : exec (.waitTimeout g e seq idx) s = execWaitTimeout g e seq idx s := rfl
@[simp] theorem exec_auth (g : Nat) (e : Nat) (s : State) : exec (.auth g e) s = execAuth g e s := rfl
@[simp] theorem exec_completionRecordTimeout (k : Nat) (s : State) : exec (.completionRecordTimeout k) s = execCompletionRecordTimeout k s := rfl
@[simp] theorem exec_maskSourceLoad (src : Nat) (g : Nat) (val : Nat) (s : State) : exec (.maskSourceLoad src g val) s = execMaskSourceLoad src g val s := rfl
@[simp] theorem exec_maskSourceLoadComplete (n : Nat) (got : Option (List Byte)) (s : State) : exec (.maskSourceLoadComplete n got) s = execMaskSourceLoadComplete n got s := rfl
@[simp] theorem exec_maskSourceFree (src : Nat) (g : Nat) (val : Nat) (s : State) : exec (.maskSourceFree src g val) s = execMaskSourceFree src g val s := rfl
@[simp] theorem exec_samplingEntryCommit (src : Nat) (g : Nat) (e : Nat) (w : BitVec 64) (s : State) : exec (.samplingEntryCommit src g e w) s = execSamplingEntryCommit src g e w s := rfl
@[simp] theorem exec_hbmRead (a : Nat) (src : Nat) (master : Nat) (outcome : Nat) (use : BurstUse) (s : State) : exec (.hbmRead a src master outcome use) s = execHbmRead a src master outcome use s := rfl
@[simp] theorem exec_hbmWrite (a : Nat) (src : Nat) (master : Nat) (data : List Byte) (s : State) : exec (.hbmWrite a src master data) s = execHbmWrite a src master data s := rfl
@[simp] theorem exec_ueRetry (n : Nat) (k : Nat) (outcome : Nat) (s : State) : exec (.ueRetry n k outcome) s = execUeRetry n k outcome s := rfl
@[simp] theorem exec_hbmUnitZero (u : Nat) (s : State) : exec (.hbmUnitZero u) s = execHbmUnitZero u s := rfl
@[simp] theorem exec_patrolScrub (n : Nat) (corrected : Nat) (bad : Option Nat) (s : State) : exec (.patrolScrub n corrected bad) s = execPatrolScrub n corrected bad s := rfl
@[simp] theorem exec_close (src : Nat) (n : Nat) (val : Nat) (s : State) : exec (.close src n val) s = execClose src n val s := rfl
@[simp] theorem exec_hbmOpen (src : Nat) (n : Nat) (val : Nat) (s : State) : exec (.hbmOpen src n val) s = execHbmOpen src n val s := rfl
@[simp] theorem exec_closingComplete (n : Nat) (c : Nat) (bank : Option Nat) (s : State) : exec (.closingComplete n c bank) s = execClosingComplete n c bank s := rfl
@[simp] theorem exec_openingComplete (n : Nat) (c : Nat) (bank : Option Nat) (s : State) : exec (.openingComplete n c bank) s = execOpeningComplete n c bank s := rfl
@[simp] theorem exec_bwCtlWrite (src : Nat) (port : Bool) (n : Nat) (val : Nat) (s : State) : exec (.bwCtlWrite src port n val) s = execBwCtlWrite src port n val s := rfl
@[simp] theorem exec_bwWindowEnd (port : Bool) (n : Nat) (s : State) : exec (.bwWindowEnd port n) s = execBwWindowEnd port n s := rfl
@[simp] theorem exec_peerSignalDetect (p : Nat) (s : State) : exec (.peerSignalDetect p) s = execPeerSignalDetect p s := rfl
@[simp] theorem exec_trainingComplete (p : Nat) (lock : Nat) (pol : Nat) (snr : List Nat) (s : State) : exec (.trainingComplete p lock pol snr) s = execTrainingComplete p lock pol snr s := rfl
@[simp] theorem exec_trainFail (p : Nat) (lock : Nat) (s : State) : exec (.trainFail p lock) s = execTrainFail p lock s := rfl
@[simp] theorem exec_laneLoss (p : Nat) (lane : Nat) (s : State) : exec (.laneLoss p lane) s = execLaneLoss p lane s := rfl
@[simp] theorem exec_retrainComplete (p : Nat) (lock : Nat) (s : State) : exec (.retrainComplete p lock) s = execRetrainComplete p lock s := rfl
@[simp] theorem exec_retrainTimeout (p : Nat) (s : State) : exec (.retrainTimeout p) s = execRetrainTimeout p s := rfl
@[simp] theorem exec_portEnable (src : Nat) (p : Nat) (val : Nat) (s : State) : exec (.portEnable src p val) s = execPortEnable src p val s := rfl
@[simp] theorem exec_retrain (src : Nat) (p : Nat) (val : Nat) (s : State) : exec (.retrain src p val) s = execRetrain src p val s := rfl
@[simp] theorem exec_fullwidth (src : Nat) (p : Nat) (val : Nat) (s : State) : exec (.fullwidth src p val) s = execFullwidth src p val s := rfl
@[simp] theorem exec_rekey (src : Nat) (p : Nat) (val : Nat) (s : State) : exec (.rekey src p val) s = execRekey src p val s := rfl
@[simp] theorem exec_rekeyDue (p : Nat) (s : State) : exec (.rekeyDue p) s = execRekeyDue p s := rfl
@[simp] theorem exec_runLimitExhausted (p : Nat) (s : State) : exec (.runLimitExhausted p) s = execRunLimitExhausted p s := rfl
@[simp] theorem exec_securingTimeout (p : Nat) (s : State) : exec (.securingTimeout p) s = execSecuringTimeout p s := rfl
@[simp] theorem exec_flitTransmit (p : Nat) (s : State) : exec (.flitTransmit p) s = execFlitTransmit p s := rfl
@[simp] theorem exec_dataFlitReceive (p : Nat) (f : RxFlit) (s : State) : exec (.dataFlitReceive p f) s = execDataFlitReceive p f s := rfl
@[simp] theorem exec_idle (p : Nat) (f : RxFlit) (s : State) : exec (.idle p f) s = execIdle p f s := rfl
@[simp] theorem exec_seal (p : Nat) (f : RxFlit) (s : State) : exec (.seal p f) s = execSeal p f s := rfl
@[simp] theorem exec_retryReq (p : Nat) (f : RxFlit) (s : State) : exec (.retryReq p f) s = execRetryReq p f s := rfl
@[simp] theorem exec_retryReqRepeat (p : Nat) (s : State) : exec (.retryReqRepeat p) s = execRetryReqRepeat p s := rfl
@[simp] theorem exec_replay (p : Nat) (f : RxFlit) (s : State) : exec (.replay p f) s = execReplay p f s := rfl
@[simp] theorem exec_creditStall (p : Nat) (vc : Nat) (k : Nat) (s : State) : exec (.creditStall p vc k) s = execCreditStall p vc k s := rfl
@[simp] theorem exec_quickRead (p : Nat) (f : RxFlit) (s : State) : exec (.quickRead p f) s = execQuickRead p f s := rfl
@[simp] theorem exec_regionArrival (m : Arrival) (s : State) : exec (.regionArrival m) s = execRegionArrival m s := rfl
@[simp] theorem exec_errorCompletion (m : Msg) (load : Option Nat) (s : State) : exec (.errorCompletion m load) s = execErrorCompletion m load s := rfl
@[simp] theorem exec_knock (p : Nat) (m : Msg) (s : State) : exec (.knock p m) s = execKnock p m s := rfl
@[simp] theorem exec_answer (p : Nat) (m : Msg) (s : State) : exec (.answer p m) s = execAnswer p m s := rfl
@[simp] theorem exec_knockRetry (p : Nat) (s : State) : exec (.knockRetry p) s = execKnockRetry p s := rfl
@[simp] theorem exec_fabricAddrWrite (src : Nat) (val : Nat) (s : State) : exec (.fabricAddrWrite src val) s = execFabricAddrWrite src val s := rfl
@[simp] theorem exec_bridgeWrite (src : Nat) (val : Nat) (s : State) : exec (.bridgeWrite src val) s = execBridgeWrite src val s := rfl
@[simp] theorem exec_bridgeBeatTimer (s : State) : exec (.bridgeBeatTimer) s = execBridgeBeatTimer s := rfl
@[simp] theorem exec_bridgeBeat (m : Msg) (s : State) : exec (.bridgeBeat m) s = execBridgeBeat m s := rfl
@[simp] theorem exec_bridgeTakeover (s : State) : exec (.bridgeTakeover) s = execBridgeTakeover s := rfl
@[simp] theorem exec_bridgeAnnounce (m : Msg) (s : State) : exec (.bridgeAnnounce m) s = execBridgeAnnounce m s := rfl
@[simp] theorem exec_multicastReceive (inp : Option Nat) (m : Msg) (s : State) : exec (.multicastReceive inp m) s = execMulticastReceive inp m s := rfl
@[simp] theorem exec_mcAck (p : Nat) (m : Msg) (s : State) : exec (.mcAck p m) s = execMcAck p m s := rfl
@[simp] theorem exec_arrive (p : Nat) (m : Msg) (s : State) : exec (.arrive p m) s = execArrive p m s := rfl
@[simp] theorem exec_releaseBarrier (p : Nat) (m : Msg) (s : State) : exec (.releaseBarrier p m) s = execReleaseBarrier p m s := rfl
@[simp] theorem exec_barArrive (src : Nat) (val : Nat) (s : State) : exec (.barArrive src val) s = execBarArrive src val s := rfl
@[simp] theorem exec_barrierTimeout (t : Nat) (s : State) : exec (.barrierTimeout t) s = execBarrierTimeout t s := rfl
@[simp] theorem exec_hello (p : Nat) (certOk : Bool) (credOk : Bool) (s : State) : exec (.hello p certOk credOk) s = execHello p certOk credOk s := rfl
@[simp] theorem exec_encap (p : Nat) (s : State) : exec (.encap p) s = execEncap p s := rfl
@[simp] theorem exec_finish (p : Nat) (engineOk : Bool) (s : State) : exec (.finish p engineOk) s = execFinish p engineOk s := rfl
@[simp] theorem exec_linkAbort (p : Nat) (s : State) : exec (.linkAbort p) s = execLinkAbort p s := rfl
@[simp] theorem exec_linkAuthRetry (p : Nat) (s : State) : exec (.linkAuthRetry p) s = execLinkAuthRetry p s := rfl
@[simp] theorem exec_faultForward (s : State) : exec (.faultForward) s = execFaultForward s := rfl
@[simp] theorem exec_faultMessageRetry (k : Nat) (s : State) : exec (.faultMessageRetry k) s = execFaultMessageRetry k s := rfl
@[simp] theorem exec_faultMessage (m : Msg) (s : State) : exec (.faultMessage m) s = execFaultMessage m s := rfl
@[simp] theorem exec_faultAck (m : Msg) (s : State) : exec (.faultAck m) s = execFaultAck m s := rfl
@[simp] theorem exec_faultSinkWrite (s : State) : exec (.faultSinkWrite) s = execFaultSinkWrite s := rfl
@[simp] theorem exec_faultReport (k : Nat) (s : State) : exec (.faultReport k) s = execFaultReport k s := rfl
@[simp] theorem exec_faultEntrySettle (k : Nat) (s : State) : exec (.faultEntrySettle k) s = execFaultEntrySettle k s := rfl
@[simp] theorem exec_alertCauseClear (src : Nat) (val : Nat) (s : State) : exec (.alertCauseClear src val) s = execAlertCauseClear src val s := rfl
@[simp] theorem exec_ibiAck (s : State) : exec (.ibiAck) s = execIbiAck s := rfl
@[simp] theorem exec_shelfStatusRetry (s : State) : exec (.shelfStatusRetry) s = execShelfStatusRetry s := rfl
@[simp] theorem exec_ftMetaRead (src : Nat) (rtag : Nat) (s : State) : exec (.ftMetaRead src rtag) s = execFtMetaRead src rtag s := rfl
@[simp] theorem exec_inputLow (vin : Nat) (s : State) : exec (.inputLow vin) s = execInputLow vin s := rfl
@[simp] theorem exec_inputLowRelease (vin : Nat) (s : State) : exec (.inputLowRelease vin) s = execInputLowRelease vin s := rfl
@[simp] theorem exec_inputLowShutdown (vin : Nat) (s : State) : exec (.inputLowShutdown vin) s = execInputLowShutdown vin s := rfl
@[simp] theorem exec_inputHigh (vin : Nat) (s : State) : exec (.inputHigh vin) s = execInputHigh vin s := rfl
@[simp] theorem exec_converterFail (k : Nat) (c : Nat) (s : State) : exec (.converterFail k c) s = execConverterFail k c s := rfl
@[simp] theorem exec_boost (p : Nat) (vmin : Nat) (s : State) : exec (.boost p vmin) s = execBoost p vmin s := rfl
@[simp] theorem exec_clockStretch (p : Nat) (vmin : Nat) (s : State) : exec (.clockStretch p vmin) s = execClockStretch p vmin s := rfl
@[simp] theorem exec_shunt (p : Nat) (vmax : Nat) (s : State) : exec (.shunt p vmax) s = execShunt p vmax s := rfl
@[simp] theorem exec_droop (p : Nat) (vmin : Nat) (s : State) : exec (.droop p vmin) s = execDroop p vmin s := rfl
@[simp] theorem exec_loadStepRaise (p : Nat) (s : State) : exec (.loadStepRaise p) s = execLoadStepRaise p s := rfl
@[simp] theorem exec_loadStepRaiseEnd (p : Nat) (s : State) : exec (.loadStepRaiseEnd p) s = execLoadStepRaiseEnd p s := rfl
@[simp] theorem exec_phaseFail (p : Nat) (ph : Nat) (why : Nat) (s : State) : exec (.phaseFail p ph why) s = execPhaseFail p ph why s := rfl
@[simp] theorem exec_admissionTest (r : Nat) (s : State) : exec (.admissionTest r) s = execAdmissionTest r s := rfl
@[simp] theorem exec_admissionRetest (r : Nat) (s : State) : exec (.admissionRetest r) s = execAdmissionRetest r s := rfl
@[simp] theorem exec_rampStep (r : Nat) (s : State) : exec (.rampStep r) s = execRampStep r s := rfl
@[simp] theorem exec_segmentOver (k : Nat) (s : State) : exec (.segmentOver k) s = execSegmentOver k s := rfl
@[simp] theorem exec_powerFastSample (amps : List Nat) (bus : Nat) (s : State) : exec (.powerFastSample amps bus) s = execPowerFastSample amps bus s := rfl
@[simp] theorem exec_powerStateLower (r : Nat) (s : State) : exec (.powerStateLower r) s = execPowerStateLower r s := rfl
@[simp] theorem exec_idleEscalation (r : Nat) (s : State) : exec (.idleEscalation r) s = execIdleEscalation r s := rfl
@[simp] theorem exec_plannedWake (r : Nat) (s : State) : exec (.plannedWake r) s = execPlannedWake r s := rfl
@[simp] theorem exec_powerStateEntryComplete (r : Nat) (s : State) : exec (.powerStateEntryComplete r) s = execPowerStateEntryComplete r s := rfl
@[simp] theorem exec_wakeComplete (r : Nat) (s : State) : exec (.wakeComplete r) s = execWakeComplete r s := rfl
@[simp] theorem exec_sealedWakeRewrite (r : Nat) (s : State) : exec (.sealedWakeRewrite r) s = execSealedWakeRewrite r s := rfl
@[simp] theorem exec_forceBoarded (src : Nat) (r : Nat) (s : State) : exec (.forceBoarded src r) s = execForceBoarded src r s := rfl
@[simp] theorem exec_forceAuto (src : Nat) (r : Nat) (s : State) : exec (.forceAuto src r) s = execForceAuto src r s := rfl
@[simp] theorem exec_forceOpen (src : Nat) (r : Nat) (s : State) : exec (.forceOpen src r) s = execForceOpen src r s := rfl
@[simp] theorem exec_authGo (src : Nat) (val : Nat) (s : State) : exec (.authGo src val) s = execAuthGo src val s := rfl
@[simp] theorem exec_authGoResult (s : State) : exec (.authGoResult) s = execAuthGoResult s := rfl
@[simp] theorem exec_lintelRound (rd : Readings) (s : State) : exec (.lintelRound rd) s = execLintelRound rd s := rfl
@[simp] theorem exec_rateSample (sens : List (Nat × Int × Int)) (s : State) : exec (.rateSample sens) s = execRateSample sens s := rfl
@[simp] theorem exec_trayReport (b : List Byte) (s : State) : exec (.trayReport b) s = execTrayReport b s := rfl
@[simp] theorem exec_reportLost (s : State) : exec (.reportLost) s = execReportLost s := rfl
@[simp] theorem exec_coolantStopTimeout (s : State) : exec (.coolantStopTimeout) s = execCoolantStopTimeout s := rfl
@[simp] theorem exec_profile (g : Nat) (s : State) : exec (.profile g) s = execProfile g s := rfl
@[simp] theorem exec_paneClockSwitch (p : Nat) (vmin : Nat) (s : State) : exec (.paneClockSwitch p vmin) s = execPaneClockSwitch p vmin s := rfl
@[simp] theorem exec_grantRenewal (ans : Option (Nat × Nat × Nat)) (s : State) : exec (.grantRenewal ans) s = execGrantRenewal ans s := rfl
@[simp] theorem exec_smbalert (ans : Option (Nat × Nat × Nat)) (s : State) : exec (.smbalert ans) s = execSmbalert ans s := rfl
@[simp] theorem exec_grantLeaseExpiry (s : State) : exec (.grantLeaseExpiry) s = execGrantLeaseExpiry s := rfl
@[simp] theorem exec_sprintMsExpiry (r : Nat) (s : State) : exec (.sprintMsExpiry r) s = execSprintMsExpiry r s := rfl
@[simp] theorem exec_credGet (g : Nat) (s : State) : exec (.credGet g) s = execCredGet g s := rfl
@[simp] theorem exec_attest (g : Nat) (s : State) : exec (.attest g) s = execAttest g s := rfl
@[simp] theorem exec_ownerClaim (g : Nat) (s : State) : exec (.ownerClaim g) s = execOwnerClaim g s := rfl
@[simp] theorem exec_keyInstall (g : Nat) (s : State) : exec (.keyInstall g) s = execKeyInstall g s := rfl
@[simp] theorem exec_keyEnroll (g : Nat) (s : State) : exec (.keyEnroll g) s = execKeyEnroll g s := rfl
@[simp] theorem exec_keyRevoke (g : Nat) (s : State) : exec (.keyRevoke g) s = execKeyRevoke g s := rfl
@[simp] theorem exec_tapUnlock (g : Nat) (s : State) : exec (.tapUnlock g) s = execTapUnlock g s := rfl
@[simp] theorem exec_tapLock (g : Nat) (s : State) : exec (.tapLock g) s = execTapLock g s := rfl
@[simp] theorem exec_tapRelock (s : State) : exec (.tapRelock) s = execTapRelock s := rfl
@[simp] theorem exec_approvedEnter (g : Nat) (s : State) : exec (.approvedEnter g) s = execApprovedEnter g s := rfl
@[simp] theorem exec_approvedLeave (g : Nat) (s : State) : exec (.approvedLeave g) s = execApprovedLeave g s := rfl
@[simp] theorem exec_zeroise (g : Nat) (s : State) : exec (.zeroise g) s = execZeroise g s := rfl
@[simp] theorem exec_decommission (g : Nat) (s : State) : exec (.decommission g) s = execDecommission g s := rfl
@[simp] theorem exec_fwActivate (g : Nat) (s : State) : exec (.fwActivate g) s = execFwActivate g s := rfl
@[simp] theorem exec_reservationWriteComplete (g : Nat) (s : State) : exec (.reservationWriteComplete g) s = execReservationWriteComplete g s := rfl
@[simp] theorem exec_conditionalTestFail (n : Nat) (sub : Nat) (s : State) : exec (.conditionalTestFail n sub) s = execConditionalTestFail n sub s := rfl
@[simp] theorem exec_drbgReseed (s : State) : exec (.drbgReseed) s = execDrbgReseed s := rfl
@[simp] theorem exec_tamper (sw : Nat) (s : State) : exec (.tamper sw) s = execTamper sw s := rfl
@[simp] theorem exec_keeperRestart (fail : Nat) (s : State) : exec (.keeperRestart fail) s = execKeeperRestart fail s := rfl
@[simp] theorem exec_mbStatusDone (bundle : Option (List Byte)) (sigOk : Bool) (s : State) : exec (.mbStatusDone bundle sigOk) s = execMbStatusDone bundle sigOk s := rfl
@[simp] theorem exec_powerOn (vin : Nat) (s : State) : exec (.powerOn vin) s = execPowerOn vin s := rfl
@[simp] theorem exec_resetN (low : Bool) (s : State) : exec (.resetN low) s = execResetN low s := rfl
@[simp] theorem exec_moduleReset (src : Nat) (val : Nat) (s : State) : exec (.moduleReset src val) s = execModuleReset src val s := rfl
@[simp] theorem exec_lintelWatchdog (s : State) : exec (.lintelWatchdog) s = execLintelWatchdog s := rfl
@[simp] theorem exec_bootStageComplete (f : BootFinds) (s : State) : exec (.bootStageComplete f) s = execBootStageComplete f s := rfl
@[simp] theorem exec_fwAttempt (s : State) : exec (.fwAttempt) s = execFwAttempt s := rfl
@[simp] theorem exec_registerWrite (src : Nat) (addr : Nat) (len : Nat) (val : Nat) (s : State) : exec (.registerWrite src addr len val) s = execRegisterWrite src addr len val s := rfl
@[simp] theorem exec_pmcFreeze (src : Nat) (c : Nat) (freeze : Bool) (s : State) : exec (.pmcFreeze src c freeze) s = execPmcFreeze src c freeze s := rfl
@[simp] theorem exec_pmcClear (src : Nat) (c : Nat) (freeze : Bool) (s : State) : exec (.pmcClear src c freeze) s = execPmcClear src c freeze s := rfl
@[simp] theorem exec_quickWordRefresh (n : Nat) (s : State) : exec (.quickWordRefresh n) s = execQuickWordRefresh n s := rfl
@[simp] theorem exec_messageRoute (inp : Option Nat) (vc : Nat) (s : State) : exec (.messageRoute inp vc) s = execMessageRoute inp vc s := rfl
@[simp] theorem exec_directedMessage (p : Nat) (m : Msg) (s : State) : exec (.directedMessage p m) s = execDirectedMessage p m s := rfl
@[simp] theorem exec_busbarImbalance (s : State) : exec (.busbarImbalance) s = execBusbarImbalance s := rfl
@[simp] theorem exec_cablePresence (p : Nat) (present : Bool) (s : State) : exec (.cablePresence p present) s = execCablePresence p present s := rfl
@[simp] theorem exec_cablePower (c : Nat) (s : State) : exec (.cablePower c) s = execCablePower c s := rfl
@[simp] theorem exec_entdaa (addr : Nat) (s : State) : exec (.entdaa addr) s = execEntdaa addr s := rfl
@[simp] theorem exec_setdasa (static : Nat) (addr : Nat) (s : State) : exec (.setdasa static addr) s = execSetdasa static addr s := rfl
@[simp] theorem exec_rstdaa (s : State) : exec (.rstdaa) s = execRstdaa s := rfl
@[simp] theorem exec_enec (addr : Option Nat) (events : Nat) (s : State) : exec (.enec addr events) s = execEnec addr events s := rfl
@[simp] theorem exec_disec (addr : Option Nat) (events : Nat) (s : State) : exec (.disec addr events) s = execDisec addr events s := rfl
@[simp] theorem exec_getpid (addr : Nat) (s : State) : exec (.getpid addr) s = execGetpid addr s := rfl
@[simp] theorem exec_getbcr (addr : Nat) (s : State) : exec (.getbcr addr) s = execGetbcr addr s := rfl
@[simp] theorem exec_getdcr (addr : Nat) (s : State) : exec (.getdcr addr) s = execGetdcr addr s := rfl
@[simp] theorem exec_getstatus (addr : Nat) (s : State) : exec (.getstatus addr) s = execGetstatus addr s := rfl
@[simp] theorem exec_trstN (low : Bool) (s : State) : exec (.trstN low) s = execTrstN low s := rfl
@[simp] theorem exec_bypass (s : State) : exec (.bypass) s = execBypass s := rfl
@[simp] theorem exec_idcode (s : State) : exec (.idcode) s = execIdcode s := rfl
@[simp] theorem exec_samplePreload (sample : Nat) (shift : Nat) (s : State) : exec (.samplePreload sample shift) s = execSamplePreload sample shift s := rfl
@[simp] theorem exec_extest (sample : Nat) (shift : Nat) (s : State) : exec (.extest sample shift) s = execExtest sample shift s := rfl
@[simp] theorem exec_extestPulse (sample : Nat) (shift : Nat) (s : State) : exec (.extestPulse sample shift) s = execExtestPulse sample shift s := rfl
@[simp] theorem exec_extestTrain (sample : Nat) (shift : Nat) (s : State) : exec (.extestTrain sample shift) s = execExtestTrain sample shift s := rfl
@[simp] theorem exec_clamp (s : State) : exec (.clamp) s = execClamp s := rfl
@[simp] theorem exec_highz (s : State) : exec (.highz) s = execHighz s := rfl
@[simp] theorem exec_dbgMgmt (addr : Nat) (write : Bool) (data : Nat) (s : State) : exec (.dbgMgmt addr write data) s = execDbgMgmt addr write data s := rfl
@[simp] theorem exec_dbgLintelHalt (s : State) : exec (.dbgLintelHalt) s = execDbgLintelHalt s := rfl
@[simp] theorem exec_dbgTrace (s : State) : exec (.dbgTrace) s = execDbgTrace s := rfl

end Sys2Proof.Machine
end

