-- ==== Sys2Proof/Laws/State.lean ====
section
/-! SUPPORT. One law per update of the state, with one clause per field: what the update leaves and what it changes. Every clause holds by
computation, and is a rewriting rule, so that no proof need unfold a record update. -/

namespace Sys2Proof.Machine

variable (s : State)

@[simp] theorem State.setCell_fields (c : Nat) (x : Cell) :
    (s.setCell c x).pending = s.pending ∧ (s.setCell c x).time = s.time ∧ (s.setCell c x).freeCount = s.freeCount ∧
    (s.setCell c x).outbox = s.outbox ∧ (s.setCell c x).delivered = s.delivered ∧ (s.setCell c x).cells = mset s.cells c x ∧
    (s.setCell c x).panes = s.panes ∧ (s.setCell c x).regions = s.regions ∧ (s.setCell c x).guests = s.guests ∧
    (s.setCell c x).arb = s.arb ∧ (s.setCell c x).campion = s.campion ∧ (s.setCell c x).cache = s.cache ∧
    (s.setCell c x).weight = s.weight ∧ (s.setCell c x).hbm = s.hbm ∧ (s.setCell c x).extents = s.extents ∧
    (s.setCell c x).hbmCtl = s.hbmCtl ∧ (s.setCell c x).retired = s.retired ∧ (s.setCell c x).retiredTagOk = s.retiredTagOk ∧
    (s.setCell c x).wafer = s.wafer ∧ (s.setCell c x).keeper = s.keeper ∧ (s.setCell c x).power = s.power ∧
    (s.setCell c x).thermal = s.thermal ∧ (s.setCell c x).prof = s.prof ∧ (s.setCell c x).ports = s.ports ∧
    (s.setCell c x).fabric = s.fabric ∧ (s.setCell c x).quick = s.quick ∧ (s.setCell c x).mgmt = s.mgmt ∧ (s.setCell c x).boot = s.boot ∧
    (s.setCell c x).iface = s.iface ∧ (s.setCell c x).windowHeld = s.windowHeld ∧ (s.setCell c x).snap = s.snap ∧ (s.setCell c x).spareMem = s.spareMem ∧
    (s.setCell c x).fabricAddr = s.fabricAddr ∧
    (s.setCell c x).ownerSrc = s.ownerSrc ∧ (s.setCell c x).stepping = s.stepping ∧ (s.setCell c x).reports = s.reports ∧
    (s.setCell c x).lost = s.lost ∧ (s.setCell c x).lostClass = s.lostClass :=
  ⟨rfl, rfl, rfl, rfl, rfl, rfl, rfl, rfl, rfl, rfl, rfl, rfl, rfl, rfl, rfl, rfl, rfl, rfl, rfl, rfl, rfl, rfl, rfl, rfl, rfl, rfl, rfl, rfl, rfl, rfl, rfl, rfl, rfl, rfl, rfl, rfl, rfl, rfl⟩

@[simp] theorem State.modCell_fields (c : Nat) (f : Cell → Cell) :
    (s.modCell c f).pending = s.pending ∧ (s.modCell c f).time = s.time ∧ (s.modCell c f).freeCount = s.freeCount ∧
    (s.modCell c f).outbox = s.outbox ∧ (s.modCell c f).delivered = s.delivered ∧ (s.modCell c f).cells = mset s.cells c (f (s.cell c)) ∧
    (s.modCell c f).panes = s.panes ∧ (s.modCell c f).regions = s.regions ∧ (s.modCell c f).guests = s.guests ∧
    (s.modCell c f).arb = s.arb ∧ (s.modCell c f).campion = s.campion ∧ (s.modCell c f).cache = s.cache ∧
    (s.modCell c f).weight = s.weight ∧ (s.modCell c f).hbm = s.hbm ∧ (s.modCell c f).extents = s.extents ∧
    (s.modCell c f).hbmCtl = s.hbmCtl ∧ (s.modCell c f).retired = s.retired ∧ (s.modCell c f).retiredTagOk = s.retiredTagOk ∧
    (s.modCell c f).wafer = s.wafer ∧ (s.modCell c f).keeper = s.keeper ∧ (s.modCell c f).power = s.power ∧
    (s.modCell c f).thermal = s.thermal ∧ (s.modCell c f).prof = s.prof ∧ (s.modCell c f).ports = s.ports ∧
    (s.modCell c f).fabric = s.fabric ∧ (s.modCell c f).quick = s.quick ∧ (s.modCell c f).mgmt = s.mgmt ∧ (s.modCell c f).boot = s.boot ∧
    (s.modCell c f).iface = s.iface ∧ (s.modCell c f).windowHeld = s.windowHeld ∧ (s.modCell c f).snap = s.snap ∧ (s.modCell c f).spareMem = s.spareMem ∧
    (s.modCell c f).fabricAddr = s.fabricAddr ∧
    (s.modCell c f).ownerSrc = s.ownerSrc ∧ (s.modCell c f).stepping = s.stepping ∧ (s.modCell c f).reports = s.reports ∧
    (s.modCell c f).lost = s.lost ∧ (s.modCell c f).lostClass = s.lostClass :=
  ⟨rfl, rfl, rfl, rfl, rfl, rfl, rfl, rfl, rfl, rfl, rfl, rfl, rfl, rfl, rfl, rfl, rfl, rfl, rfl, rfl, rfl, rfl, rfl, rfl, rfl, rfl, rfl, rfl, rfl, rfl, rfl, rfl, rfl, rfl, rfl, rfl, rfl, rfl⟩

@[simp] theorem State.setPane_fields (p : Nat) (x : Pane) :
    (s.setPane p x).pending = s.pending ∧ (s.setPane p x).time = s.time ∧ (s.setPane p x).freeCount = s.freeCount ∧
    (s.setPane p x).outbox = s.outbox ∧ (s.setPane p x).delivered = s.delivered ∧ (s.setPane p x).cells = s.cells ∧
    (s.setPane p x).panes = mset s.panes p x ∧ (s.setPane p x).regions = s.regions ∧ (s.setPane p x).guests = s.guests ∧
    (s.setPane p x).arb = s.arb ∧ (s.setPane p x).campion = s.campion ∧ (s.setPane p x).cache = s.cache ∧
    (s.setPane p x).weight = s.weight ∧ (s.setPane p x).hbm = s.hbm ∧ (s.setPane p x).extents = s.extents ∧
    (s.setPane p x).hbmCtl = s.hbmCtl ∧ (s.setPane p x).retired = s.retired ∧ (s.setPane p x).retiredTagOk = s.retiredTagOk ∧
    (s.setPane p x).wafer = s.wafer ∧ (s.setPane p x).keeper = s.keeper ∧ (s.setPane p x).power = s.power ∧
    (s.setPane p x).thermal = s.thermal ∧ (s.setPane p x).prof = s.prof ∧ (s.setPane p x).ports = s.ports ∧
    (s.setPane p x).fabric = s.fabric ∧ (s.setPane p x).quick = s.quick ∧ (s.setPane p x).mgmt = s.mgmt ∧ (s.setPane p x).boot = s.boot ∧
    (s.setPane p x).iface = s.iface ∧ (s.setPane p x).windowHeld = s.windowHeld ∧ (s.setPane p x).snap = s.snap ∧ (s.setPane p x).spareMem = s.spareMem ∧
    (s.setPane p x).fabricAddr = s.fabricAddr ∧
    (s.setPane p x).ownerSrc = s.ownerSrc ∧ (s.setPane p x).stepping = s.stepping ∧ (s.setPane p x).reports = s.reports ∧
    (s.setPane p x).lost = s.lost ∧ (s.setPane p x).lostClass = s.lostClass :=
  ⟨rfl, rfl, rfl, rfl, rfl, rfl, rfl, rfl, rfl, rfl, rfl, rfl, rfl, rfl, rfl, rfl, rfl, rfl, rfl, rfl, rfl, rfl, rfl, rfl, rfl, rfl, rfl, rfl, rfl, rfl, rfl, rfl, rfl, rfl, rfl, rfl, rfl, rfl⟩

@[simp] theorem State.modPane_fields (p : Nat) (f : Pane → Pane) :
    (s.modPane p f).pending = s.pending ∧ (s.modPane p f).time = s.time ∧ (s.modPane p f).freeCount = s.freeCount ∧
    (s.modPane p f).outbox = s.outbox ∧ (s.modPane p f).delivered = s.delivered ∧ (s.modPane p f).cells = s.cells ∧
    (s.modPane p f).panes = mset s.panes p (f (s.pane p)) ∧ (s.modPane p f).regions = s.regions ∧ (s.modPane p f).guests = s.guests ∧
    (s.modPane p f).arb = s.arb ∧ (s.modPane p f).campion = s.campion ∧ (s.modPane p f).cache = s.cache ∧
    (s.modPane p f).weight = s.weight ∧ (s.modPane p f).hbm = s.hbm ∧ (s.modPane p f).extents = s.extents ∧
    (s.modPane p f).hbmCtl = s.hbmCtl ∧ (s.modPane p f).retired = s.retired ∧ (s.modPane p f).retiredTagOk = s.retiredTagOk ∧
    (s.modPane p f).wafer = s.wafer ∧ (s.modPane p f).keeper = s.keeper ∧ (s.modPane p f).power = s.power ∧
    (s.modPane p f).thermal = s.thermal ∧ (s.modPane p f).prof = s.prof ∧ (s.modPane p f).ports = s.ports ∧
    (s.modPane p f).fabric = s.fabric ∧ (s.modPane p f).quick = s.quick ∧ (s.modPane p f).mgmt = s.mgmt ∧ (s.modPane p f).boot = s.boot ∧
    (s.modPane p f).iface = s.iface ∧ (s.modPane p f).windowHeld = s.windowHeld ∧ (s.modPane p f).snap = s.snap ∧ (s.modPane p f).spareMem = s.spareMem ∧
    (s.modPane p f).fabricAddr = s.fabricAddr ∧
    (s.modPane p f).ownerSrc = s.ownerSrc ∧ (s.modPane p f).stepping = s.stepping ∧ (s.modPane p f).reports = s.reports ∧
    (s.modPane p f).lost = s.lost ∧ (s.modPane p f).lostClass = s.lostClass :=
  ⟨rfl, rfl, rfl, rfl, rfl, rfl, rfl, rfl, rfl, rfl, rfl, rfl, rfl, rfl, rfl, rfl, rfl, rfl, rfl, rfl, rfl, rfl, rfl, rfl, rfl, rfl, rfl, rfl, rfl, rfl, rfl, rfl, rfl, rfl, rfl, rfl, rfl, rfl⟩

@[simp] theorem State.setRegion_fields (r : Nat) (x : Region) :
    (s.setRegion r x).pending = s.pending ∧ (s.setRegion r x).time = s.time ∧ (s.setRegion r x).freeCount = s.freeCount ∧
    (s.setRegion r x).outbox = s.outbox ∧ (s.setRegion r x).delivered = s.delivered ∧ (s.setRegion r x).cells = s.cells ∧
    (s.setRegion r x).panes = s.panes ∧ (s.setRegion r x).regions = mset s.regions r x ∧ (s.setRegion r x).guests = s.guests ∧
    (s.setRegion r x).arb = s.arb ∧ (s.setRegion r x).campion = s.campion ∧ (s.setRegion r x).cache = s.cache ∧
    (s.setRegion r x).weight = s.weight ∧ (s.setRegion r x).hbm = s.hbm ∧ (s.setRegion r x).extents = s.extents ∧
    (s.setRegion r x).hbmCtl = s.hbmCtl ∧ (s.setRegion r x).retired = s.retired ∧ (s.setRegion r x).retiredTagOk = s.retiredTagOk ∧
    (s.setRegion r x).wafer = s.wafer ∧ (s.setRegion r x).keeper = s.keeper ∧ (s.setRegion r x).power = s.power ∧
    (s.setRegion r x).thermal = s.thermal ∧ (s.setRegion r x).prof = s.prof ∧ (s.setRegion r x).ports = s.ports ∧
    (s.setRegion r x).fabric = s.fabric ∧ (s.setRegion r x).quick = s.quick ∧ (s.setRegion r x).mgmt = s.mgmt ∧
    (s.setRegion r x).boot = s.boot ∧ (s.setRegion r x).iface = s.iface ∧ (s.setRegion r x).windowHeld = s.windowHeld ∧ (s.setRegion r x).snap = s.snap ∧ (s.setRegion r x).spareMem = s.spareMem ∧
   
    (s.setRegion r x).fabricAddr = s.fabricAddr ∧ (s.setRegion r x).ownerSrc = s.ownerSrc ∧ (s.setRegion r x).stepping = s.stepping ∧
    (s.setRegion r x).reports = s.reports ∧ (s.setRegion r x).lost = s.lost ∧ (s.setRegion r x).lostClass = s.lostClass :=
  ⟨rfl, rfl, rfl, rfl, rfl, rfl, rfl, rfl, rfl, rfl, rfl, rfl, rfl, rfl, rfl, rfl, rfl, rfl, rfl, rfl, rfl, rfl, rfl, rfl, rfl, rfl, rfl, rfl, rfl, rfl, rfl, rfl, rfl, rfl, rfl, rfl, rfl, rfl⟩

@[simp] theorem State.modRegion_fields (r : Nat) (f : Region → Region) :
    (s.modRegion r f).pending = s.pending ∧ (s.modRegion r f).time = s.time ∧ (s.modRegion r f).freeCount = s.freeCount ∧
    (s.modRegion r f).outbox = s.outbox ∧ (s.modRegion r f).delivered = s.delivered ∧ (s.modRegion r f).cells = s.cells ∧
    (s.modRegion r f).panes = s.panes ∧ (s.modRegion r f).regions = mset s.regions r (f (s.region r)) ∧
    (s.modRegion r f).guests = s.guests ∧ (s.modRegion r f).arb = s.arb ∧ (s.modRegion r f).campion = s.campion ∧
    (s.modRegion r f).cache = s.cache ∧ (s.modRegion r f).weight = s.weight ∧ (s.modRegion r f).hbm = s.hbm ∧
    (s.modRegion r f).extents = s.extents ∧ (s.modRegion r f).hbmCtl = s.hbmCtl ∧ (s.modRegion r f).retired = s.retired ∧
    (s.modRegion r f).retiredTagOk = s.retiredTagOk ∧ (s.modRegion r f).wafer = s.wafer ∧ (s.modRegion r f).keeper = s.keeper ∧
    (s.modRegion r f).power = s.power ∧ (s.modRegion r f).thermal = s.thermal ∧ (s.modRegion r f).prof = s.prof ∧
    (s.modRegion r f).ports = s.ports ∧ (s.modRegion r f).fabric = s.fabric ∧ (s.modRegion r f).quick = s.quick ∧
    (s.modRegion r f).mgmt = s.mgmt ∧ (s.modRegion r f).boot = s.boot ∧ (s.modRegion r f).iface = s.iface ∧
    (s.modRegion r f).windowHeld = s.windowHeld ∧ (s.modRegion r f).snap = s.snap ∧ (s.modRegion r f).spareMem = s.spareMem ∧
    (s.modRegion r f).fabricAddr = s.fabricAddr ∧ (s.modRegion r f).ownerSrc = s.ownerSrc ∧
    (s.modRegion r f).stepping = s.stepping ∧ (s.modRegion r f).reports = s.reports ∧ (s.modRegion r f).lost = s.lost ∧
    (s.modRegion r f).lostClass = s.lostClass :=
  ⟨rfl, rfl, rfl, rfl, rfl, rfl, rfl, rfl, rfl, rfl, rfl, rfl, rfl, rfl, rfl, rfl, rfl, rfl, rfl, rfl, rfl, rfl, rfl, rfl, rfl, rfl, rfl, rfl, rfl, rfl, rfl, rfl, rfl, rfl, rfl, rfl, rfl, rfl⟩

@[simp] theorem State.setGuest_fields (g : Nat) (x : Guest) :
    (s.setGuest g x).pending = s.pending ∧ (s.setGuest g x).time = s.time ∧ (s.setGuest g x).freeCount = s.freeCount ∧
    (s.setGuest g x).outbox = s.outbox ∧ (s.setGuest g x).delivered = s.delivered ∧ (s.setGuest g x).cells = s.cells ∧
    (s.setGuest g x).panes = s.panes ∧ (s.setGuest g x).regions = s.regions ∧ (s.setGuest g x).guests = mset s.guests g x ∧
    (s.setGuest g x).arb = s.arb ∧ (s.setGuest g x).campion = s.campion ∧ (s.setGuest g x).cache = s.cache ∧
    (s.setGuest g x).weight = s.weight ∧ (s.setGuest g x).hbm = s.hbm ∧ (s.setGuest g x).extents = s.extents ∧
    (s.setGuest g x).hbmCtl = s.hbmCtl ∧ (s.setGuest g x).retired = s.retired ∧ (s.setGuest g x).retiredTagOk = s.retiredTagOk ∧
    (s.setGuest g x).wafer = s.wafer ∧ (s.setGuest g x).keeper = s.keeper ∧ (s.setGuest g x).power = s.power ∧
    (s.setGuest g x).thermal = s.thermal ∧ (s.setGuest g x).prof = s.prof ∧ (s.setGuest g x).ports = s.ports ∧
    (s.setGuest g x).fabric = s.fabric ∧ (s.setGuest g x).quick = s.quick ∧ (s.setGuest g x).mgmt = s.mgmt ∧
    (s.setGuest g x).boot = s.boot ∧ (s.setGuest g x).iface = s.iface ∧ (s.setGuest g x).windowHeld = s.windowHeld ∧ (s.setGuest g x).snap = s.snap ∧ (s.setGuest g x).spareMem = s.spareMem ∧
   
    (s.setGuest g x).fabricAddr = s.fabricAddr ∧ (s.setGuest g x).ownerSrc = s.ownerSrc ∧ (s.setGuest g x).stepping = s.stepping ∧
    (s.setGuest g x).reports = s.reports ∧ (s.setGuest g x).lost = s.lost ∧ (s.setGuest g x).lostClass = s.lostClass :=
  ⟨rfl, rfl, rfl, rfl, rfl, rfl, rfl, rfl, rfl, rfl, rfl, rfl, rfl, rfl, rfl, rfl, rfl, rfl, rfl, rfl, rfl, rfl, rfl, rfl, rfl, rfl, rfl, rfl, rfl, rfl, rfl, rfl, rfl, rfl, rfl, rfl, rfl, rfl⟩

@[simp] theorem State.modGuest_fields (g : Nat) (f : Guest → Guest) :
    (s.modGuest g f).pending = s.pending ∧ (s.modGuest g f).time = s.time ∧ (s.modGuest g f).freeCount = s.freeCount ∧
    (s.modGuest g f).outbox = s.outbox ∧ (s.modGuest g f).delivered = s.delivered ∧ (s.modGuest g f).cells = s.cells ∧
    (s.modGuest g f).panes = s.panes ∧ (s.modGuest g f).regions = s.regions ∧ (s.modGuest g f).guests = mset s.guests g (f (s.guest g)) ∧
    (s.modGuest g f).arb = s.arb ∧ (s.modGuest g f).campion = s.campion ∧ (s.modGuest g f).cache = s.cache ∧
    (s.modGuest g f).weight = s.weight ∧ (s.modGuest g f).hbm = s.hbm ∧ (s.modGuest g f).extents = s.extents ∧
    (s.modGuest g f).hbmCtl = s.hbmCtl ∧ (s.modGuest g f).retired = s.retired ∧ (s.modGuest g f).retiredTagOk = s.retiredTagOk ∧
    (s.modGuest g f).wafer = s.wafer ∧ (s.modGuest g f).keeper = s.keeper ∧ (s.modGuest g f).power = s.power ∧
    (s.modGuest g f).thermal = s.thermal ∧ (s.modGuest g f).prof = s.prof ∧ (s.modGuest g f).ports = s.ports ∧
    (s.modGuest g f).fabric = s.fabric ∧ (s.modGuest g f).quick = s.quick ∧ (s.modGuest g f).mgmt = s.mgmt ∧
    (s.modGuest g f).boot = s.boot ∧ (s.modGuest g f).iface = s.iface ∧ (s.modGuest g f).windowHeld = s.windowHeld ∧ (s.modGuest g f).snap = s.snap ∧ (s.modGuest g f).spareMem = s.spareMem ∧
   
    (s.modGuest g f).fabricAddr = s.fabricAddr ∧ (s.modGuest g f).ownerSrc = s.ownerSrc ∧ (s.modGuest g f).stepping = s.stepping ∧
    (s.modGuest g f).reports = s.reports ∧ (s.modGuest g f).lost = s.lost ∧ (s.modGuest g f).lostClass = s.lostClass :=
  ⟨rfl, rfl, rfl, rfl, rfl, rfl, rfl, rfl, rfl, rfl, rfl, rfl, rfl, rfl, rfl, rfl, rfl, rfl, rfl, rfl, rfl, rfl, rfl, rfl, rfl, rfl, rfl, rfl, rfl, rfl, rfl, rfl, rfl, rfl, rfl, rfl, rfl, rfl⟩

@[simp] theorem State.modListed_fields (r : Nat) (f : Nat → Cell → Cell) :
    (s.modListed r f).pending = s.pending ∧ (s.modListed r f).time = s.time ∧ (s.modListed r f).freeCount = s.freeCount ∧
    (s.modListed r f).outbox = s.outbox ∧ (s.modListed r f).delivered = s.delivered ∧
    (s.modListed r f).cells = mmap (fun c x => if (s.region r).panes.contains (paneOfCell c) then f c x else x) s.cells ∧
    (s.modListed r f).panes = s.panes ∧ (s.modListed r f).regions = s.regions ∧ (s.modListed r f).guests = s.guests ∧
    (s.modListed r f).arb = s.arb ∧ (s.modListed r f).campion = s.campion ∧ (s.modListed r f).cache = s.cache ∧
    (s.modListed r f).weight = s.weight ∧ (s.modListed r f).hbm = s.hbm ∧ (s.modListed r f).extents = s.extents ∧
    (s.modListed r f).hbmCtl = s.hbmCtl ∧ (s.modListed r f).retired = s.retired ∧ (s.modListed r f).retiredTagOk = s.retiredTagOk ∧
    (s.modListed r f).wafer = s.wafer ∧ (s.modListed r f).keeper = s.keeper ∧ (s.modListed r f).power = s.power ∧
    (s.modListed r f).thermal = s.thermal ∧ (s.modListed r f).prof = s.prof ∧ (s.modListed r f).ports = s.ports ∧
    (s.modListed r f).fabric = s.fabric ∧ (s.modListed r f).quick = s.quick ∧ (s.modListed r f).mgmt = s.mgmt ∧
    (s.modListed r f).boot = s.boot ∧ (s.modListed r f).iface = s.iface ∧ (s.modListed r f).windowHeld = s.windowHeld ∧ (s.modListed r f).snap = s.snap ∧ (s.modListed r f).spareMem = s.spareMem ∧
   
    (s.modListed r f).fabricAddr = s.fabricAddr ∧ (s.modListed r f).ownerSrc = s.ownerSrc ∧ (s.modListed r f).stepping = s.stepping ∧
    (s.modListed r f).reports = s.reports ∧ (s.modListed r f).lost = s.lost ∧ (s.modListed r f).lostClass = s.lostClass :=
  ⟨rfl, rfl, rfl, rfl, rfl, rfl, rfl, rfl, rfl, rfl, rfl, rfl, rfl, rfl, rfl, rfl, rfl, rfl, rfl, rfl, rfl, rfl, rfl, rfl, rfl, rfl, rfl, rfl, rfl, rfl, rfl, rfl, rfl, rfl, rfl, rfl, rfl, rfl⟩

@[simp] theorem State.useFree_fields :
    (s.useFree).pending = s.pending ∧ (s.useFree).time = s.time ∧ (s.useFree).freeCount = s.freeCount + 1 ∧
    (s.useFree).outbox = s.outbox ∧ (s.useFree).delivered = s.delivered ∧ (s.useFree).cells = s.cells ∧ (s.useFree).panes = s.panes ∧
    (s.useFree).regions = s.regions ∧ (s.useFree).guests = s.guests ∧ (s.useFree).arb = s.arb ∧ (s.useFree).campion = s.campion ∧
    (s.useFree).cache = s.cache ∧ (s.useFree).weight = s.weight ∧ (s.useFree).hbm = s.hbm ∧ (s.useFree).extents = s.extents ∧
    (s.useFree).hbmCtl = s.hbmCtl ∧ (s.useFree).retired = s.retired ∧ (s.useFree).retiredTagOk = s.retiredTagOk ∧
    (s.useFree).wafer = s.wafer ∧ (s.useFree).keeper = s.keeper ∧ (s.useFree).power = s.power ∧ (s.useFree).thermal = s.thermal ∧
    (s.useFree).prof = s.prof ∧ (s.useFree).ports = s.ports ∧ (s.useFree).fabric = s.fabric ∧ (s.useFree).quick = s.quick ∧
    (s.useFree).mgmt = s.mgmt ∧ (s.useFree).boot = s.boot ∧ (s.useFree).iface = s.iface ∧ (s.useFree).windowHeld = s.windowHeld ∧ (s.useFree).snap = s.snap ∧ (s.useFree).spareMem = s.spareMem ∧
   
    (s.useFree).fabricAddr = s.fabricAddr ∧ (s.useFree).ownerSrc = s.ownerSrc ∧ (s.useFree).stepping = s.stepping ∧
    (s.useFree).reports = s.reports ∧ (s.useFree).lost = s.lost ∧ (s.useFree).lostClass = s.lostClass :=
  ⟨rfl, rfl, rfl, rfl, rfl, rfl, rfl, rfl, rfl, rfl, rfl, rfl, rfl, rfl, rfl, rfl, rfl, rfl, rfl, rfl, rfl, rfl, rfl, rfl, rfl, rfl, rfl, rfl, rfl, rfl, rfl, rfl, rfl, rfl, rfl, rfl, rfl, rfl⟩

@[simp] theorem State.sendMsg_fields (m : Msg) :
    (s.sendMsg m).pending = s.pending ∧ (s.sendMsg m).time = s.time ∧ (s.sendMsg m).freeCount = s.freeCount ∧
    (s.sendMsg m).outbox = s.outbox ++ [{ time := s.time, msg := m }] ∧ (s.sendMsg m).delivered = s.delivered ∧
    (s.sendMsg m).cells = s.cells ∧ (s.sendMsg m).panes = s.panes ∧ (s.sendMsg m).regions = s.regions ∧ (s.sendMsg m).guests = s.guests ∧
    (s.sendMsg m).arb = s.arb ∧ (s.sendMsg m).campion = s.campion ∧ (s.sendMsg m).cache = s.cache ∧ (s.sendMsg m).weight = s.weight ∧
    (s.sendMsg m).hbm = s.hbm ∧ (s.sendMsg m).extents = s.extents ∧ (s.sendMsg m).hbmCtl = s.hbmCtl ∧ (s.sendMsg m).retired = s.retired ∧
    (s.sendMsg m).retiredTagOk = s.retiredTagOk ∧ (s.sendMsg m).wafer = s.wafer ∧ (s.sendMsg m).keeper = s.keeper ∧
    (s.sendMsg m).power = s.power ∧ (s.sendMsg m).thermal = s.thermal ∧ (s.sendMsg m).prof = s.prof ∧ (s.sendMsg m).ports = s.ports ∧
    (s.sendMsg m).fabric = s.fabric ∧ (s.sendMsg m).quick = s.quick ∧ (s.sendMsg m).mgmt = s.mgmt ∧ (s.sendMsg m).boot = s.boot ∧
    (s.sendMsg m).iface = s.iface ∧ (s.sendMsg m).windowHeld = s.windowHeld ∧ (s.sendMsg m).snap = s.snap ∧ (s.sendMsg m).spareMem = s.spareMem ∧
    (s.sendMsg m).fabricAddr = s.fabricAddr ∧
    (s.sendMsg m).ownerSrc = s.ownerSrc ∧ (s.sendMsg m).stepping = s.stepping ∧ (s.sendMsg m).reports = s.reports ∧
    (s.sendMsg m).lost = s.lost ∧ (s.sendMsg m).lostClass = s.lostClass :=
  ⟨rfl, rfl, rfl, rfl, rfl, rfl, rfl, rfl, rfl, rfl, rfl, rfl, rfl, rfl, rfl, rfl, rfl, rfl, rfl, rfl, rfl, rfl, rfl, rfl, rfl, rfl, rfl, rfl, rfl, rfl, rfl, rfl, rfl, rfl, rfl, rfl, rfl, rfl⟩

@[simp] theorem State.traced_fields (a : Nat) (w : Bool) (v : Nat) :
    (s.traced a w v).pending = s.pending ∧ (s.traced a w v).time = s.time ∧ (s.traced a w v).freeCount = s.freeCount ∧
    (s.traced a w v).outbox = s.outbox ∧ (s.traced a w v).delivered = s.delivered ∧ (s.traced a w v).cells = s.cells ∧
    (s.traced a w v).panes = s.panes ∧ (s.traced a w v).regions = s.regions ∧ (s.traced a w v).guests = s.guests ∧
    (s.traced a w v).arb = s.arb ∧ (s.traced a w v).campion = s.campion ∧ (s.traced a w v).cache = s.cache ∧
    (s.traced a w v).weight = s.weight ∧ (s.traced a w v).hbm = s.hbm ∧ (s.traced a w v).extents = s.extents ∧
    (s.traced a w v).hbmCtl = s.hbmCtl ∧ (s.traced a w v).retired = s.retired ∧ (s.traced a w v).retiredTagOk = s.retiredTagOk ∧
    (s.traced a w v).wafer = s.wafer ∧ (s.traced a w v).keeper = s.keeper ∧ (s.traced a w v).power = s.power ∧
    (s.traced a w v).thermal = s.thermal ∧ (s.traced a w v).prof = s.prof ∧ (s.traced a w v).ports = s.ports ∧
    (s.traced a w v).fabric = s.fabric ∧ (s.traced a w v).quick = s.quick ∧ (s.traced a w v).mgmt = s.mgmt ∧
    (s.traced a w v).boot = s.boot ∧
    (s.traced a w v).iface = { s.iface with trace := ({ addr := a, write := w, val := v } :: s.iface.trace).take 64 } ∧
    (s.traced a w v).windowHeld = s.windowHeld ∧ (s.traced a w v).snap = s.snap ∧ (s.traced a w v).spareMem = s.spareMem ∧
    (s.traced a w v).fabricAddr = s.fabricAddr ∧ (s.traced a w v).ownerSrc = s.ownerSrc ∧
    (s.traced a w v).stepping = s.stepping ∧ (s.traced a w v).reports = s.reports ∧ (s.traced a w v).lost = s.lost ∧
    (s.traced a w v).lostClass = s.lostClass :=
  ⟨rfl, rfl, rfl, rfl, rfl, rfl, rfl, rfl, rfl, rfl, rfl, rfl, rfl, rfl, rfl, rfl, rfl, rfl, rfl, rfl, rfl, rfl, rfl, rfl, rfl, rfl, rfl, rfl, rfl, rfl, rfl, rfl, rfl, rfl, rfl, rfl, rfl, rfl⟩

@[simp] theorem State.modKeeper_fields (f : Keeper → Keeper) :
    (s.modKeeper f).pending = s.pending ∧ (s.modKeeper f).time = s.time ∧ (s.modKeeper f).freeCount = s.freeCount ∧
    (s.modKeeper f).outbox = s.outbox ∧ (s.modKeeper f).delivered = s.delivered ∧ (s.modKeeper f).cells = s.cells ∧
    (s.modKeeper f).panes = s.panes ∧ (s.modKeeper f).regions = s.regions ∧ (s.modKeeper f).guests = s.guests ∧
    (s.modKeeper f).arb = s.arb ∧ (s.modKeeper f).campion = s.campion ∧ (s.modKeeper f).cache = s.cache ∧
    (s.modKeeper f).weight = s.weight ∧ (s.modKeeper f).hbm = s.hbm ∧ (s.modKeeper f).extents = s.extents ∧
    (s.modKeeper f).hbmCtl = s.hbmCtl ∧ (s.modKeeper f).retired = s.retired ∧ (s.modKeeper f).retiredTagOk = s.retiredTagOk ∧
    (s.modKeeper f).wafer = s.wafer ∧ (s.modKeeper f).keeper = f s.keeper ∧ (s.modKeeper f).power = s.power ∧
    (s.modKeeper f).thermal = s.thermal ∧ (s.modKeeper f).prof = s.prof ∧ (s.modKeeper f).ports = s.ports ∧
    (s.modKeeper f).fabric = s.fabric ∧ (s.modKeeper f).quick = s.quick ∧ (s.modKeeper f).mgmt = s.mgmt ∧ (s.modKeeper f).boot = s.boot ∧
    (s.modKeeper f).iface = s.iface ∧ (s.modKeeper f).windowHeld = s.windowHeld ∧ (s.modKeeper f).snap = s.snap ∧ (s.modKeeper f).spareMem = s.spareMem ∧
    (s.modKeeper f).fabricAddr = s.fabricAddr ∧
    (s.modKeeper f).ownerSrc = s.ownerSrc ∧ (s.modKeeper f).stepping = s.stepping ∧ (s.modKeeper f).reports = s.reports ∧
    (s.modKeeper f).lost = s.lost ∧ (s.modKeeper f).lostClass = s.lostClass :=
  ⟨rfl, rfl, rfl, rfl, rfl, rfl, rfl, rfl, rfl, rfl, rfl, rfl, rfl, rfl, rfl, rfl, rfl, rfl, rfl, rfl, rfl, rfl, rfl, rfl, rfl, rfl, rfl, rfl, rfl, rfl, rfl, rfl, rfl, rfl, rfl, rfl, rfl, rfl⟩

@[simp] theorem State.modMgmt_fields (f : Mgmt → Mgmt) :
    (s.modMgmt f).pending = s.pending ∧ (s.modMgmt f).time = s.time ∧ (s.modMgmt f).freeCount = s.freeCount ∧
    (s.modMgmt f).outbox = s.outbox ∧ (s.modMgmt f).delivered = s.delivered ∧ (s.modMgmt f).cells = s.cells ∧
    (s.modMgmt f).panes = s.panes ∧ (s.modMgmt f).regions = s.regions ∧ (s.modMgmt f).guests = s.guests ∧ (s.modMgmt f).arb = s.arb ∧
    (s.modMgmt f).campion = s.campion ∧ (s.modMgmt f).cache = s.cache ∧ (s.modMgmt f).weight = s.weight ∧ (s.modMgmt f).hbm = s.hbm ∧
    (s.modMgmt f).extents = s.extents ∧ (s.modMgmt f).hbmCtl = s.hbmCtl ∧ (s.modMgmt f).retired = s.retired ∧
    (s.modMgmt f).retiredTagOk = s.retiredTagOk ∧ (s.modMgmt f).wafer = s.wafer ∧ (s.modMgmt f).keeper = s.keeper ∧
    (s.modMgmt f).power = s.power ∧ (s.modMgmt f).thermal = s.thermal ∧ (s.modMgmt f).prof = s.prof ∧ (s.modMgmt f).ports = s.ports ∧
    (s.modMgmt f).fabric = s.fabric ∧ (s.modMgmt f).quick = s.quick ∧ (s.modMgmt f).mgmt = f s.mgmt ∧ (s.modMgmt f).boot = s.boot ∧
    (s.modMgmt f).iface = s.iface ∧ (s.modMgmt f).windowHeld = s.windowHeld ∧ (s.modMgmt f).snap = s.snap ∧ (s.modMgmt f).spareMem = s.spareMem ∧
    (s.modMgmt f).fabricAddr = s.fabricAddr ∧
    (s.modMgmt f).ownerSrc = s.ownerSrc ∧ (s.modMgmt f).stepping = s.stepping ∧ (s.modMgmt f).reports = s.reports ∧
    (s.modMgmt f).lost = s.lost ∧ (s.modMgmt f).lostClass = s.lostClass :=
  ⟨rfl, rfl, rfl, rfl, rfl, rfl, rfl, rfl, rfl, rfl, rfl, rfl, rfl, rfl, rfl, rfl, rfl, rfl, rfl, rfl, rfl, rfl, rfl, rfl, rfl, rfl, rfl, rfl, rfl, rfl, rfl, rfl, rfl, rfl, rfl, rfl, rfl, rfl⟩

@[simp] theorem State.modIface_fields (f : Iface → Iface) :
    (s.modIface f).pending = s.pending ∧ (s.modIface f).time = s.time ∧ (s.modIface f).freeCount = s.freeCount ∧
    (s.modIface f).outbox = s.outbox ∧ (s.modIface f).delivered = s.delivered ∧ (s.modIface f).cells = s.cells ∧
    (s.modIface f).panes = s.panes ∧ (s.modIface f).regions = s.regions ∧ (s.modIface f).guests = s.guests ∧ (s.modIface f).arb = s.arb ∧
    (s.modIface f).campion = s.campion ∧ (s.modIface f).cache = s.cache ∧ (s.modIface f).weight = s.weight ∧ (s.modIface f).hbm = s.hbm ∧
    (s.modIface f).extents = s.extents ∧ (s.modIface f).hbmCtl = s.hbmCtl ∧ (s.modIface f).retired = s.retired ∧
    (s.modIface f).retiredTagOk = s.retiredTagOk ∧ (s.modIface f).wafer = s.wafer ∧ (s.modIface f).keeper = s.keeper ∧
    (s.modIface f).power = s.power ∧ (s.modIface f).thermal = s.thermal ∧ (s.modIface f).prof = s.prof ∧ (s.modIface f).ports = s.ports ∧
    (s.modIface f).fabric = s.fabric ∧ (s.modIface f).quick = s.quick ∧ (s.modIface f).mgmt = s.mgmt ∧ (s.modIface f).boot = s.boot ∧
    (s.modIface f).iface = f s.iface ∧ (s.modIface f).windowHeld = s.windowHeld ∧ (s.modIface f).snap = s.snap ∧ (s.modIface f).spareMem = s.spareMem ∧
    (s.modIface f).fabricAddr = s.fabricAddr ∧
    (s.modIface f).ownerSrc = s.ownerSrc ∧ (s.modIface f).stepping = s.stepping ∧ (s.modIface f).reports = s.reports ∧
    (s.modIface f).lost = s.lost ∧ (s.modIface f).lostClass = s.lostClass :=
  ⟨rfl, rfl, rfl, rfl, rfl, rfl, rfl, rfl, rfl, rfl, rfl, rfl, rfl, rfl, rfl, rfl, rfl, rfl, rfl, rfl, rfl, rfl, rfl, rfl, rfl, rfl, rfl, rfl, rfl, rfl, rfl, rfl, rfl, rfl, rfl, rfl, rfl, rfl⟩

@[simp] theorem State.modBoot_fields (f : Boot → Boot) :
    (s.modBoot f).pending = s.pending ∧ (s.modBoot f).time = s.time ∧ (s.modBoot f).freeCount = s.freeCount ∧
    (s.modBoot f).outbox = s.outbox ∧ (s.modBoot f).delivered = s.delivered ∧ (s.modBoot f).cells = s.cells ∧
    (s.modBoot f).panes = s.panes ∧ (s.modBoot f).regions = s.regions ∧ (s.modBoot f).guests = s.guests ∧ (s.modBoot f).arb = s.arb ∧
    (s.modBoot f).campion = s.campion ∧ (s.modBoot f).cache = s.cache ∧ (s.modBoot f).weight = s.weight ∧ (s.modBoot f).hbm = s.hbm ∧
    (s.modBoot f).extents = s.extents ∧ (s.modBoot f).hbmCtl = s.hbmCtl ∧ (s.modBoot f).retired = s.retired ∧
    (s.modBoot f).retiredTagOk = s.retiredTagOk ∧ (s.modBoot f).wafer = s.wafer ∧ (s.modBoot f).keeper = s.keeper ∧
    (s.modBoot f).power = s.power ∧ (s.modBoot f).thermal = s.thermal ∧ (s.modBoot f).prof = s.prof ∧ (s.modBoot f).ports = s.ports ∧
    (s.modBoot f).fabric = s.fabric ∧ (s.modBoot f).quick = s.quick ∧ (s.modBoot f).mgmt = s.mgmt ∧ (s.modBoot f).boot = f s.boot ∧
    (s.modBoot f).iface = s.iface ∧ (s.modBoot f).windowHeld = s.windowHeld ∧ (s.modBoot f).snap = s.snap ∧ (s.modBoot f).spareMem = s.spareMem ∧
    (s.modBoot f).fabricAddr = s.fabricAddr ∧
    (s.modBoot f).ownerSrc = s.ownerSrc ∧ (s.modBoot f).stepping = s.stepping ∧ (s.modBoot f).reports = s.reports ∧
    (s.modBoot f).lost = s.lost ∧ (s.modBoot f).lostClass = s.lostClass :=
  ⟨rfl, rfl, rfl, rfl, rfl, rfl, rfl, rfl, rfl, rfl, rfl, rfl, rfl, rfl, rfl, rfl, rfl, rfl, rfl, rfl, rfl, rfl, rfl, rfl, rfl, rfl, rfl, rfl, rfl, rfl, rfl, rfl, rfl, rfl, rfl, rfl, rfl, rfl⟩

@[simp] theorem State.modPower_fields (f : Power → Power) :
    (s.modPower f).pending = s.pending ∧ (s.modPower f).time = s.time ∧ (s.modPower f).freeCount = s.freeCount ∧
    (s.modPower f).outbox = s.outbox ∧ (s.modPower f).delivered = s.delivered ∧ (s.modPower f).cells = s.cells ∧
    (s.modPower f).panes = s.panes ∧ (s.modPower f).regions = s.regions ∧ (s.modPower f).guests = s.guests ∧ (s.modPower f).arb = s.arb ∧
    (s.modPower f).campion = s.campion ∧ (s.modPower f).cache = s.cache ∧ (s.modPower f).weight = s.weight ∧ (s.modPower f).hbm = s.hbm ∧
    (s.modPower f).extents = s.extents ∧ (s.modPower f).hbmCtl = s.hbmCtl ∧ (s.modPower f).retired = s.retired ∧
    (s.modPower f).retiredTagOk = s.retiredTagOk ∧ (s.modPower f).wafer = s.wafer ∧ (s.modPower f).keeper = s.keeper ∧
    (s.modPower f).power = f s.power ∧ (s.modPower f).thermal = s.thermal ∧ (s.modPower f).prof = s.prof ∧
    (s.modPower f).ports = s.ports ∧ (s.modPower f).fabric = s.fabric ∧ (s.modPower f).quick = s.quick ∧ (s.modPower f).mgmt = s.mgmt ∧
    (s.modPower f).boot = s.boot ∧ (s.modPower f).iface = s.iface ∧ (s.modPower f).windowHeld = s.windowHeld ∧ (s.modPower f).snap = s.snap ∧ (s.modPower f).spareMem = s.spareMem ∧
   
    (s.modPower f).fabricAddr = s.fabricAddr ∧ (s.modPower f).ownerSrc = s.ownerSrc ∧ (s.modPower f).stepping = s.stepping ∧
    (s.modPower f).reports = s.reports ∧ (s.modPower f).lost = s.lost ∧ (s.modPower f).lostClass = s.lostClass :=
  ⟨rfl, rfl, rfl, rfl, rfl, rfl, rfl, rfl, rfl, rfl, rfl, rfl, rfl, rfl, rfl, rfl, rfl, rfl, rfl, rfl, rfl, rfl, rfl, rfl, rfl, rfl, rfl, rfl, rfl, rfl, rfl, rfl, rfl, rfl, rfl, rfl, rfl, rfl⟩

@[simp] theorem State.modThermal_fields (f : Thermal → Thermal) :
    (s.modThermal f).pending = s.pending ∧ (s.modThermal f).time = s.time ∧ (s.modThermal f).freeCount = s.freeCount ∧
    (s.modThermal f).outbox = s.outbox ∧ (s.modThermal f).delivered = s.delivered ∧ (s.modThermal f).cells = s.cells ∧
    (s.modThermal f).panes = s.panes ∧ (s.modThermal f).regions = s.regions ∧ (s.modThermal f).guests = s.guests ∧
    (s.modThermal f).arb = s.arb ∧ (s.modThermal f).campion = s.campion ∧ (s.modThermal f).cache = s.cache ∧
    (s.modThermal f).weight = s.weight ∧ (s.modThermal f).hbm = s.hbm ∧ (s.modThermal f).extents = s.extents ∧
    (s.modThermal f).hbmCtl = s.hbmCtl ∧ (s.modThermal f).retired = s.retired ∧ (s.modThermal f).retiredTagOk = s.retiredTagOk ∧
    (s.modThermal f).wafer = s.wafer ∧ (s.modThermal f).keeper = s.keeper ∧ (s.modThermal f).power = s.power ∧
    (s.modThermal f).thermal = f s.thermal ∧ (s.modThermal f).prof = s.prof ∧ (s.modThermal f).ports = s.ports ∧
    (s.modThermal f).fabric = s.fabric ∧ (s.modThermal f).quick = s.quick ∧ (s.modThermal f).mgmt = s.mgmt ∧
    (s.modThermal f).boot = s.boot ∧ (s.modThermal f).iface = s.iface ∧ (s.modThermal f).windowHeld = s.windowHeld ∧ (s.modThermal f).snap = s.snap ∧ (s.modThermal f).spareMem = s.spareMem ∧
   
    (s.modThermal f).fabricAddr = s.fabricAddr ∧ (s.modThermal f).ownerSrc = s.ownerSrc ∧ (s.modThermal f).stepping = s.stepping ∧
    (s.modThermal f).reports = s.reports ∧ (s.modThermal f).lost = s.lost ∧ (s.modThermal f).lostClass = s.lostClass :=
  ⟨rfl, rfl, rfl, rfl, rfl, rfl, rfl, rfl, rfl, rfl, rfl, rfl, rfl, rfl, rfl, rfl, rfl, rfl, rfl, rfl, rfl, rfl, rfl, rfl, rfl, rfl, rfl, rfl, rfl, rfl, rfl, rfl, rfl, rfl, rfl, rfl, rfl, rfl⟩

@[simp] theorem State.modProf_fields (f : Prof → Prof) :
    (s.modProf f).pending = s.pending ∧ (s.modProf f).time = s.time ∧ (s.modProf f).freeCount = s.freeCount ∧
    (s.modProf f).outbox = s.outbox ∧ (s.modProf f).delivered = s.delivered ∧ (s.modProf f).cells = s.cells ∧
    (s.modProf f).panes = s.panes ∧ (s.modProf f).regions = s.regions ∧ (s.modProf f).guests = s.guests ∧ (s.modProf f).arb = s.arb ∧
    (s.modProf f).campion = s.campion ∧ (s.modProf f).cache = s.cache ∧ (s.modProf f).weight = s.weight ∧ (s.modProf f).hbm = s.hbm ∧
    (s.modProf f).extents = s.extents ∧ (s.modProf f).hbmCtl = s.hbmCtl ∧ (s.modProf f).retired = s.retired ∧
    (s.modProf f).retiredTagOk = s.retiredTagOk ∧ (s.modProf f).wafer = s.wafer ∧ (s.modProf f).keeper = s.keeper ∧
    (s.modProf f).power = s.power ∧ (s.modProf f).thermal = s.thermal ∧ (s.modProf f).prof = f s.prof ∧ (s.modProf f).ports = s.ports ∧
    (s.modProf f).fabric = s.fabric ∧ (s.modProf f).quick = s.quick ∧ (s.modProf f).mgmt = s.mgmt ∧ (s.modProf f).boot = s.boot ∧
    (s.modProf f).iface = s.iface ∧ (s.modProf f).windowHeld = s.windowHeld ∧ (s.modProf f).snap = s.snap ∧ (s.modProf f).spareMem = s.spareMem ∧
    (s.modProf f).fabricAddr = s.fabricAddr ∧
    (s.modProf f).ownerSrc = s.ownerSrc ∧ (s.modProf f).stepping = s.stepping ∧ (s.modProf f).reports = s.reports ∧
    (s.modProf f).lost = s.lost ∧ (s.modProf f).lostClass = s.lostClass :=
  ⟨rfl, rfl, rfl, rfl, rfl, rfl, rfl, rfl, rfl, rfl, rfl, rfl, rfl, rfl, rfl, rfl, rfl, rfl, rfl, rfl, rfl, rfl, rfl, rfl, rfl, rfl, rfl, rfl, rfl, rfl, rfl, rfl, rfl, rfl, rfl, rfl, rfl, rfl⟩

@[simp] theorem State.modCampion_fields (f : Campion → Campion) :
    (s.modCampion f).pending = s.pending ∧ (s.modCampion f).time = s.time ∧ (s.modCampion f).freeCount = s.freeCount ∧
    (s.modCampion f).outbox = s.outbox ∧ (s.modCampion f).delivered = s.delivered ∧ (s.modCampion f).cells = s.cells ∧
    (s.modCampion f).panes = s.panes ∧ (s.modCampion f).regions = s.regions ∧ (s.modCampion f).guests = s.guests ∧
    (s.modCampion f).arb = s.arb ∧ (s.modCampion f).campion = f s.campion ∧ (s.modCampion f).cache = s.cache ∧
    (s.modCampion f).weight = s.weight ∧ (s.modCampion f).hbm = s.hbm ∧ (s.modCampion f).extents = s.extents ∧
    (s.modCampion f).hbmCtl = s.hbmCtl ∧ (s.modCampion f).retired = s.retired ∧ (s.modCampion f).retiredTagOk = s.retiredTagOk ∧
    (s.modCampion f).wafer = s.wafer ∧ (s.modCampion f).keeper = s.keeper ∧ (s.modCampion f).power = s.power ∧
    (s.modCampion f).thermal = s.thermal ∧ (s.modCampion f).prof = s.prof ∧ (s.modCampion f).ports = s.ports ∧
    (s.modCampion f).fabric = s.fabric ∧ (s.modCampion f).quick = s.quick ∧ (s.modCampion f).mgmt = s.mgmt ∧
    (s.modCampion f).boot = s.boot ∧ (s.modCampion f).iface = s.iface ∧ (s.modCampion f).windowHeld = s.windowHeld ∧ (s.modCampion f).snap = s.snap ∧ (s.modCampion f).spareMem = s.spareMem ∧
   
    (s.modCampion f).fabricAddr = s.fabricAddr ∧ (s.modCampion f).ownerSrc = s.ownerSrc ∧ (s.modCampion f).stepping = s.stepping ∧
    (s.modCampion f).reports = s.reports ∧ (s.modCampion f).lost = s.lost ∧ (s.modCampion f).lostClass = s.lostClass :=
  ⟨rfl, rfl, rfl, rfl, rfl, rfl, rfl, rfl, rfl, rfl, rfl, rfl, rfl, rfl, rfl, rfl, rfl, rfl, rfl, rfl, rfl, rfl, rfl, rfl, rfl, rfl, rfl, rfl, rfl, rfl, rfl, rfl, rfl, rfl, rfl, rfl, rfl, rfl⟩

@[simp] theorem State.modWeight_fields (f : WeightEng → WeightEng) :
    (s.modWeight f).pending = s.pending ∧ (s.modWeight f).time = s.time ∧ (s.modWeight f).freeCount = s.freeCount ∧
    (s.modWeight f).outbox = s.outbox ∧ (s.modWeight f).delivered = s.delivered ∧ (s.modWeight f).cells = s.cells ∧
    (s.modWeight f).panes = s.panes ∧ (s.modWeight f).regions = s.regions ∧ (s.modWeight f).guests = s.guests ∧
    (s.modWeight f).arb = s.arb ∧ (s.modWeight f).campion = s.campion ∧ (s.modWeight f).cache = s.cache ∧
    (s.modWeight f).weight = f s.weight ∧ (s.modWeight f).hbm = s.hbm ∧ (s.modWeight f).extents = s.extents ∧
    (s.modWeight f).hbmCtl = s.hbmCtl ∧ (s.modWeight f).retired = s.retired ∧ (s.modWeight f).retiredTagOk = s.retiredTagOk ∧
    (s.modWeight f).wafer = s.wafer ∧ (s.modWeight f).keeper = s.keeper ∧ (s.modWeight f).power = s.power ∧
    (s.modWeight f).thermal = s.thermal ∧ (s.modWeight f).prof = s.prof ∧ (s.modWeight f).ports = s.ports ∧
    (s.modWeight f).fabric = s.fabric ∧ (s.modWeight f).quick = s.quick ∧ (s.modWeight f).mgmt = s.mgmt ∧ (s.modWeight f).boot = s.boot ∧
    (s.modWeight f).iface = s.iface ∧ (s.modWeight f).windowHeld = s.windowHeld ∧ (s.modWeight f).snap = s.snap ∧ (s.modWeight f).spareMem = s.spareMem ∧
    (s.modWeight f).fabricAddr = s.fabricAddr ∧
    (s.modWeight f).ownerSrc = s.ownerSrc ∧ (s.modWeight f).stepping = s.stepping ∧ (s.modWeight f).reports = s.reports ∧
    (s.modWeight f).lost = s.lost ∧ (s.modWeight f).lostClass = s.lostClass :=
  ⟨rfl, rfl, rfl, rfl, rfl, rfl, rfl, rfl, rfl, rfl, rfl, rfl, rfl, rfl, rfl, rfl, rfl, rfl, rfl, rfl, rfl, rfl, rfl, rfl, rfl, rfl, rfl, rfl, rfl, rfl, rfl, rfl, rfl, rfl, rfl, rfl, rfl, rfl⟩

@[simp] theorem State.modFabric_fields (f : Fabric → Fabric) :
    (s.modFabric f).pending = s.pending ∧ (s.modFabric f).time = s.time ∧ (s.modFabric f).freeCount = s.freeCount ∧
    (s.modFabric f).outbox = s.outbox ∧ (s.modFabric f).delivered = s.delivered ∧ (s.modFabric f).cells = s.cells ∧
    (s.modFabric f).panes = s.panes ∧ (s.modFabric f).regions = s.regions ∧ (s.modFabric f).guests = s.guests ∧
    (s.modFabric f).arb = s.arb ∧ (s.modFabric f).campion = s.campion ∧ (s.modFabric f).cache = s.cache ∧
    (s.modFabric f).weight = s.weight ∧ (s.modFabric f).hbm = s.hbm ∧ (s.modFabric f).extents = s.extents ∧
    (s.modFabric f).hbmCtl = s.hbmCtl ∧ (s.modFabric f).retired = s.retired ∧ (s.modFabric f).retiredTagOk = s.retiredTagOk ∧
    (s.modFabric f).wafer = s.wafer ∧ (s.modFabric f).keeper = s.keeper ∧ (s.modFabric f).power = s.power ∧
    (s.modFabric f).thermal = s.thermal ∧ (s.modFabric f).prof = s.prof ∧ (s.modFabric f).ports = s.ports ∧
    (s.modFabric f).fabric = f s.fabric ∧ (s.modFabric f).quick = s.quick ∧ (s.modFabric f).mgmt = s.mgmt ∧
    (s.modFabric f).boot = s.boot ∧ (s.modFabric f).iface = s.iface ∧ (s.modFabric f).windowHeld = s.windowHeld ∧ (s.modFabric f).snap = s.snap ∧ (s.modFabric f).spareMem = s.spareMem ∧
   
    (s.modFabric f).fabricAddr = s.fabricAddr ∧ (s.modFabric f).ownerSrc = s.ownerSrc ∧ (s.modFabric f).stepping = s.stepping ∧
    (s.modFabric f).reports = s.reports ∧ (s.modFabric f).lost = s.lost ∧ (s.modFabric f).lostClass = s.lostClass :=
  ⟨rfl, rfl, rfl, rfl, rfl, rfl, rfl, rfl, rfl, rfl, rfl, rfl, rfl, rfl, rfl, rfl, rfl, rfl, rfl, rfl, rfl, rfl, rfl, rfl, rfl, rfl, rfl, rfl, rfl, rfl, rfl, rfl, rfl, rfl, rfl, rfl, rfl, rfl⟩

@[simp] theorem State.setPort_fields (p : Nat) (x : Port) :
    (s.setPort p x).pending = s.pending ∧ (s.setPort p x).time = s.time ∧ (s.setPort p x).freeCount = s.freeCount ∧
    (s.setPort p x).outbox = s.outbox ∧ (s.setPort p x).delivered = s.delivered ∧ (s.setPort p x).cells = s.cells ∧
    (s.setPort p x).panes = s.panes ∧ (s.setPort p x).regions = s.regions ∧ (s.setPort p x).guests = s.guests ∧
    (s.setPort p x).arb = s.arb ∧ (s.setPort p x).campion = s.campion ∧ (s.setPort p x).cache = s.cache ∧
    (s.setPort p x).weight = s.weight ∧ (s.setPort p x).hbm = s.hbm ∧ (s.setPort p x).extents = s.extents ∧
    (s.setPort p x).hbmCtl = s.hbmCtl ∧ (s.setPort p x).retired = s.retired ∧ (s.setPort p x).retiredTagOk = s.retiredTagOk ∧
    (s.setPort p x).wafer = s.wafer ∧ (s.setPort p x).keeper = s.keeper ∧ (s.setPort p x).power = s.power ∧
    (s.setPort p x).thermal = s.thermal ∧ (s.setPort p x).prof = s.prof ∧ (s.setPort p x).ports = mset s.ports p x ∧
    (s.setPort p x).fabric = s.fabric ∧ (s.setPort p x).quick = s.quick ∧ (s.setPort p x).mgmt = s.mgmt ∧ (s.setPort p x).boot = s.boot ∧
    (s.setPort p x).iface = s.iface ∧ (s.setPort p x).windowHeld = s.windowHeld ∧ (s.setPort p x).snap = s.snap ∧ (s.setPort p x).spareMem = s.spareMem ∧
    (s.setPort p x).fabricAddr = s.fabricAddr ∧
    (s.setPort p x).ownerSrc = s.ownerSrc ∧ (s.setPort p x).stepping = s.stepping ∧ (s.setPort p x).reports = s.reports ∧
    (s.setPort p x).lost = s.lost ∧ (s.setPort p x).lostClass = s.lostClass :=
  ⟨rfl, rfl, rfl, rfl, rfl, rfl, rfl, rfl, rfl, rfl, rfl, rfl, rfl, rfl, rfl, rfl, rfl, rfl, rfl, rfl, rfl, rfl, rfl, rfl, rfl, rfl, rfl, rfl, rfl, rfl, rfl, rfl, rfl, rfl, rfl, rfl, rfl, rfl⟩

@[simp] theorem State.modPort_fields (p : Nat) (f : Port → Port) :
    (s.modPort p f).pending = s.pending ∧ (s.modPort p f).time = s.time ∧ (s.modPort p f).freeCount = s.freeCount ∧
    (s.modPort p f).outbox = s.outbox ∧ (s.modPort p f).delivered = s.delivered ∧ (s.modPort p f).cells = s.cells ∧
    (s.modPort p f).panes = s.panes ∧ (s.modPort p f).regions = s.regions ∧ (s.modPort p f).guests = s.guests ∧
    (s.modPort p f).arb = s.arb ∧ (s.modPort p f).campion = s.campion ∧ (s.modPort p f).cache = s.cache ∧
    (s.modPort p f).weight = s.weight ∧ (s.modPort p f).hbm = s.hbm ∧ (s.modPort p f).extents = s.extents ∧
    (s.modPort p f).hbmCtl = s.hbmCtl ∧ (s.modPort p f).retired = s.retired ∧ (s.modPort p f).retiredTagOk = s.retiredTagOk ∧
    (s.modPort p f).wafer = s.wafer ∧ (s.modPort p f).keeper = s.keeper ∧ (s.modPort p f).power = s.power ∧
    (s.modPort p f).thermal = s.thermal ∧ (s.modPort p f).prof = s.prof ∧ (s.modPort p f).ports = mset s.ports p (f (s.port p)) ∧
    (s.modPort p f).fabric = s.fabric ∧ (s.modPort p f).quick = s.quick ∧ (s.modPort p f).mgmt = s.mgmt ∧ (s.modPort p f).boot = s.boot ∧
    (s.modPort p f).iface = s.iface ∧ (s.modPort p f).windowHeld = s.windowHeld ∧ (s.modPort p f).snap = s.snap ∧ (s.modPort p f).spareMem = s.spareMem ∧
    (s.modPort p f).fabricAddr = s.fabricAddr ∧
    (s.modPort p f).ownerSrc = s.ownerSrc ∧ (s.modPort p f).stepping = s.stepping ∧ (s.modPort p f).reports = s.reports ∧
    (s.modPort p f).lost = s.lost ∧ (s.modPort p f).lostClass = s.lostClass :=
  ⟨rfl, rfl, rfl, rfl, rfl, rfl, rfl, rfl, rfl, rfl, rfl, rfl, rfl, rfl, rfl, rfl, rfl, rfl, rfl, rfl, rfl, rfl, rfl, rfl, rfl, rfl, rfl, rfl, rfl, rfl, rfl, rfl, rfl, rfl, rfl, rfl, rfl, rfl⟩

@[simp] theorem State.modHctl_fields (n : Nat) (f : HbmCtl → HbmCtl) :
    (s.modHctl n f).pending = s.pending ∧ (s.modHctl n f).time = s.time ∧ (s.modHctl n f).freeCount = s.freeCount ∧
    (s.modHctl n f).outbox = s.outbox ∧ (s.modHctl n f).delivered = s.delivered ∧ (s.modHctl n f).cells = s.cells ∧
    (s.modHctl n f).panes = s.panes ∧ (s.modHctl n f).regions = s.regions ∧ (s.modHctl n f).guests = s.guests ∧
    (s.modHctl n f).arb = s.arb ∧ (s.modHctl n f).campion = s.campion ∧ (s.modHctl n f).cache = s.cache ∧
    (s.modHctl n f).weight = s.weight ∧ (s.modHctl n f).hbm = s.hbm ∧ (s.modHctl n f).extents = s.extents ∧
    (s.modHctl n f).hbmCtl = mset s.hbmCtl n (f (s.hctl n)) ∧ (s.modHctl n f).retired = s.retired ∧
    (s.modHctl n f).retiredTagOk = s.retiredTagOk ∧ (s.modHctl n f).wafer = s.wafer ∧ (s.modHctl n f).keeper = s.keeper ∧
    (s.modHctl n f).power = s.power ∧ (s.modHctl n f).thermal = s.thermal ∧ (s.modHctl n f).prof = s.prof ∧
    (s.modHctl n f).ports = s.ports ∧ (s.modHctl n f).fabric = s.fabric ∧ (s.modHctl n f).quick = s.quick ∧
    (s.modHctl n f).mgmt = s.mgmt ∧ (s.modHctl n f).boot = s.boot ∧ (s.modHctl n f).iface = s.iface ∧
    (s.modHctl n f).windowHeld = s.windowHeld ∧ (s.modHctl n f).snap = s.snap ∧ (s.modHctl n f).spareMem = s.spareMem ∧
    (s.modHctl n f).fabricAddr = s.fabricAddr ∧ (s.modHctl n f).ownerSrc = s.ownerSrc ∧
    (s.modHctl n f).stepping = s.stepping ∧ (s.modHctl n f).reports = s.reports ∧ (s.modHctl n f).lost = s.lost ∧
    (s.modHctl n f).lostClass = s.lostClass :=
  ⟨rfl, rfl, rfl, rfl, rfl, rfl, rfl, rfl, rfl, rfl, rfl, rfl, rfl, rfl, rfl, rfl, rfl, rfl, rfl, rfl, rfl, rfl, rfl, rfl, rfl, rfl, rfl, rfl, rfl, rfl, rfl, rfl, rfl, rfl, rfl, rfl, rfl, rfl⟩

@[simp] theorem State.draw_fields (n : Nat) :
    (s.draw n).pending = s.pending ∧ (s.draw n).time = s.time ∧ (s.draw n).freeCount = s.freeCount ∧ (s.draw n).outbox = s.outbox ∧
    (s.draw n).delivered = s.delivered ∧ (s.draw n).cells = s.cells ∧ (s.draw n).panes = s.panes ∧ (s.draw n).regions = s.regions ∧
    (s.draw n).guests = s.guests ∧ (s.draw n).arb = s.arb ∧ (s.draw n).campion = s.campion ∧ (s.draw n).cache = s.cache ∧
    (s.draw n).weight = s.weight ∧ (s.draw n).hbm = s.hbm ∧ (s.draw n).extents = s.extents ∧ (s.draw n).hbmCtl = s.hbmCtl ∧
    (s.draw n).retired = s.retired ∧ (s.draw n).retiredTagOk = s.retiredTagOk ∧ (s.draw n).wafer = s.wafer ∧
    (s.draw n).keeper = { s.keeper with drbgCount := s.keeper.drbgCount + n } ∧ (s.draw n).power = s.power ∧
    (s.draw n).thermal = s.thermal ∧ (s.draw n).prof = s.prof ∧ (s.draw n).ports = s.ports ∧ (s.draw n).fabric = s.fabric ∧
    (s.draw n).quick = s.quick ∧ (s.draw n).mgmt = s.mgmt ∧ (s.draw n).boot = s.boot ∧ (s.draw n).iface = s.iface ∧
    (s.draw n).windowHeld = s.windowHeld ∧ (s.draw n).snap = s.snap ∧ (s.draw n).spareMem = s.spareMem ∧
    (s.draw n).fabricAddr = s.fabricAddr ∧ (s.draw n).ownerSrc = s.ownerSrc ∧
    (s.draw n).stepping = s.stepping ∧ (s.draw n).reports = s.reports ∧ (s.draw n).lost = s.lost ∧ (s.draw n).lostClass = s.lostClass :=
  ⟨rfl, rfl, rfl, rfl, rfl, rfl, rfl, rfl, rfl, rfl, rfl, rfl, rfl, rfl, rfl, rfl, rfl, rfl, rfl, rfl, rfl, rfl, rfl, rfl, rfl, rfl, rfl, rfl, rfl, rfl, rfl, rfl, rfl, rfl, rfl, rfl, rfl, rfl⟩

/-! ### What a part reads after a change of a part -/

theorem State.cell_modCell (k q : Nat) (f : Cell → Cell) : (s.modCell k f).cell q = if q = k then f (s.cell k) else s.cell q := by
  show mget _ (mset s.cells k _) q = _
  rw [mget_mset]; rfl

@[simp] theorem State.cell_modCell_same (k : Nat) (f : Cell → Cell) : (s.modCell k f).cell k = f (s.cell k) := by simp [State.cell_modCell]

theorem State.pane_modPane (k q : Nat) (f : Pane → Pane) : (s.modPane k f).pane q = if q = k then f (s.pane k) else s.pane q := by
  show mget _ (mset s.panes k _) q = _
  rw [mget_mset]; rfl

@[simp] theorem State.pane_modPane_same (k : Nat) (f : Pane → Pane) : (s.modPane k f).pane k = f (s.pane k) := by simp [State.pane_modPane]

theorem State.region_modRegion (k q : Nat) (f : Region → Region) : (s.modRegion k f).region q = if q = k then f (s.region k) else s.region q := by
  show mget _ (mset s.regions k _) q = _
  rw [mget_mset]; rfl

@[simp] theorem State.region_modRegion_same (k : Nat) (f : Region → Region) : (s.modRegion k f).region k = f (s.region k) := by simp [State.region_modRegion]

theorem State.guest_modGuest (k q : Nat) (f : Guest → Guest) : (s.modGuest k f).guest q = if q = k then f (s.guest k) else s.guest q := by
  show mget _ (mset s.guests k _) q = _
  rw [mget_mset]; rfl

@[simp] theorem State.guest_modGuest_same (k : Nat) (f : Guest → Guest) : (s.modGuest k f).guest k = f (s.guest k) := by simp [State.guest_modGuest]

theorem State.port_modPort (k q : Nat) (f : Port → Port) : (s.modPort k f).port q = if q = k then f (s.port k) else s.port q := by
  show mget _ (mset s.ports k _) q = _
  rw [mget_mset]; rfl

@[simp] theorem State.port_modPort_same (k : Nat) (f : Port → Port) : (s.modPort k f).port k = f (s.port k) := by simp [State.port_modPort]

theorem State.hctl_modHctl (k q : Nat) (f : HbmCtl → HbmCtl) : (s.modHctl k f).hctl q = if q = k then f (s.hctl k) else s.hctl q := by
  show mget _ (mset s.hbmCtl k _) q = _
  rw [mget_mset]; rfl

@[simp] theorem State.hctl_modHctl_same (k : Nat) (f : HbmCtl → HbmCtl) : (s.modHctl k f).hctl k = f (s.hctl k) := by simp [State.hctl_modHctl]

/-! ### What a part reads after a change of another kind -/

@[simp] theorem State.setCell_parts (c : Nat) (x : Cell) (k : Nat) :
    (s.setCell c x).pane k = s.pane k ∧ (s.setCell c x).region k = s.region k ∧ (s.setCell c x).guest k = s.guest k ∧
    (s.setCell c x).port k = s.port k ∧ (s.setCell c x).hctl k = s.hctl k :=
  ⟨rfl, rfl, rfl, rfl, rfl⟩

@[simp] theorem State.modCell_parts (c : Nat) (f : Cell → Cell) (k : Nat) :
    (s.modCell c f).pane k = s.pane k ∧ (s.modCell c f).region k = s.region k ∧ (s.modCell c f).guest k = s.guest k ∧
    (s.modCell c f).port k = s.port k ∧ (s.modCell c f).hctl k = s.hctl k :=
  ⟨rfl, rfl, rfl, rfl, rfl⟩

@[simp] theorem State.setPane_parts (p : Nat) (x : Pane) (k : Nat) :
    (s.setPane p x).cell k = s.cell k ∧ (s.setPane p x).region k = s.region k ∧ (s.setPane p x).guest k = s.guest k ∧
    (s.setPane p x).port k = s.port k ∧ (s.setPane p x).hctl k = s.hctl k :=
  ⟨rfl, rfl, rfl, rfl, rfl⟩

@[simp] theorem State.modPane_parts (p : Nat) (f : Pane → Pane) (k : Nat) :
    (s.modPane p f).cell k = s.cell k ∧ (s.modPane p f).region k = s.region k ∧ (s.modPane p f).guest k = s.guest k ∧
    (s.modPane p f).port k = s.port k ∧ (s.modPane p f).hctl k = s.hctl k :=
  ⟨rfl, rfl, rfl, rfl, rfl⟩

@[simp] theorem State.setRegion_parts (r : Nat) (x : Region) (k : Nat) :
    (s.setRegion r x).cell k = s.cell k ∧ (s.setRegion r x).pane k = s.pane k ∧ (s.setRegion r x).guest k = s.guest k ∧
    (s.setRegion r x).port k = s.port k ∧ (s.setRegion r x).hctl k = s.hctl k :=
  ⟨rfl, rfl, rfl, rfl, rfl⟩

@[simp] theorem State.modRegion_parts (r : Nat) (f : Region → Region) (k : Nat) :
    (s.modRegion r f).cell k = s.cell k ∧ (s.modRegion r f).pane k = s.pane k ∧ (s.modRegion r f).guest k = s.guest k ∧
    (s.modRegion r f).port k = s.port k ∧ (s.modRegion r f).hctl k = s.hctl k :=
  ⟨rfl, rfl, rfl, rfl, rfl⟩

@[simp] theorem State.setGuest_parts (g : Nat) (x : Guest) (k : Nat) :
    (s.setGuest g x).cell k = s.cell k ∧ (s.setGuest g x).pane k = s.pane k ∧ (s.setGuest g x).region k = s.region k ∧
    (s.setGuest g x).port k = s.port k ∧ (s.setGuest g x).hctl k = s.hctl k :=
  ⟨rfl, rfl, rfl, rfl, rfl⟩

@[simp] theorem State.modGuest_parts (g : Nat) (f : Guest → Guest) (k : Nat) :
    (s.modGuest g f).cell k = s.cell k ∧ (s.modGuest g f).pane k = s.pane k ∧ (s.modGuest g f).region k = s.region k ∧
    (s.modGuest g f).port k = s.port k ∧ (s.modGuest g f).hctl k = s.hctl k :=
  ⟨rfl, rfl, rfl, rfl, rfl⟩

@[simp] theorem State.modListed_parts (r : Nat) (f : Nat → Cell → Cell) (k : Nat) :
    (s.modListed r f).pane k = s.pane k ∧ (s.modListed r f).region k = s.region k ∧ (s.modListed r f).guest k = s.guest k ∧
    (s.modListed r f).port k = s.port k ∧ (s.modListed r f).hctl k = s.hctl k :=
  ⟨rfl, rfl, rfl, rfl, rfl⟩

@[simp] theorem State.useFree_parts (k : Nat) :
    (s.useFree).cell k = s.cell k ∧ (s.useFree).pane k = s.pane k ∧ (s.useFree).region k = s.region k ∧ (s.useFree).guest k = s.guest k ∧
    (s.useFree).port k = s.port k ∧ (s.useFree).hctl k = s.hctl k :=
  ⟨rfl, rfl, rfl, rfl, rfl, rfl⟩

@[simp] theorem State.sendMsg_parts (m : Msg) (k : Nat) :
    (s.sendMsg m).cell k = s.cell k ∧ (s.sendMsg m).pane k = s.pane k ∧ (s.sendMsg m).region k = s.region k ∧
    (s.sendMsg m).guest k = s.guest k ∧ (s.sendMsg m).port k = s.port k ∧ (s.sendMsg m).hctl k = s.hctl k :=
  ⟨rfl, rfl, rfl, rfl, rfl, rfl⟩

@[simp] theorem State.traced_parts (a : Nat) (w : Bool) (v : Nat) (k : Nat) :
    (s.traced a w v).cell k = s.cell k ∧ (s.traced a w v).pane k = s.pane k ∧ (s.traced a w v).region k = s.region k ∧
    (s.traced a w v).guest k = s.guest k ∧ (s.traced a w v).port k = s.port k ∧ (s.traced a w v).hctl k = s.hctl k :=
  ⟨rfl, rfl, rfl, rfl, rfl, rfl⟩

@[simp] theorem State.modKeeper_parts (f : Keeper → Keeper) (k : Nat) :
    (s.modKeeper f).cell k = s.cell k ∧ (s.modKeeper f).pane k = s.pane k ∧ (s.modKeeper f).region k = s.region k ∧
    (s.modKeeper f).guest k = s.guest k ∧ (s.modKeeper f).port k = s.port k ∧ (s.modKeeper f).hctl k = s.hctl k :=
  ⟨rfl, rfl, rfl, rfl, rfl, rfl⟩

@[simp] theorem State.modMgmt_parts (f : Mgmt → Mgmt) (k : Nat) :
    (s.modMgmt f).cell k = s.cell k ∧ (s.modMgmt f).pane k = s.pane k ∧ (s.modMgmt f).region k = s.region k ∧
    (s.modMgmt f).guest k = s.guest k ∧ (s.modMgmt f).port k = s.port k ∧ (s.modMgmt f).hctl k = s.hctl k :=
  ⟨rfl, rfl, rfl, rfl, rfl, rfl⟩

@[simp] theorem State.modIface_parts (f : Iface → Iface) (k : Nat) :
    (s.modIface f).cell k = s.cell k ∧ (s.modIface f).pane k = s.pane k ∧ (s.modIface f).region k = s.region k ∧
    (s.modIface f).guest k = s.guest k ∧ (s.modIface f).port k = s.port k ∧ (s.modIface f).hctl k = s.hctl k :=
  ⟨rfl, rfl, rfl, rfl, rfl, rfl⟩

@[simp] theorem State.modBoot_parts (f : Boot → Boot) (k : Nat) :
    (s.modBoot f).cell k = s.cell k ∧ (s.modBoot f).pane k = s.pane k ∧ (s.modBoot f).region k = s.region k ∧
    (s.modBoot f).guest k = s.guest k ∧ (s.modBoot f).port k = s.port k ∧ (s.modBoot f).hctl k = s.hctl k :=
  ⟨rfl, rfl, rfl, rfl, rfl, rfl⟩

@[simp] theorem State.modPower_parts (f : Power → Power) (k : Nat) :
    (s.modPower f).cell k = s.cell k ∧ (s.modPower f).pane k = s.pane k ∧ (s.modPower f).region k = s.region k ∧
    (s.modPower f).guest k = s.guest k ∧ (s.modPower f).port k = s.port k ∧ (s.modPower f).hctl k = s.hctl k :=
  ⟨rfl, rfl, rfl, rfl, rfl, rfl⟩

@[simp] theorem State.modThermal_parts (f : Thermal → Thermal) (k : Nat) :
    (s.modThermal f).cell k = s.cell k ∧ (s.modThermal f).pane k = s.pane k ∧ (s.modThermal f).region k = s.region k ∧
    (s.modThermal f).guest k = s.guest k ∧ (s.modThermal f).port k = s.port k ∧ (s.modThermal f).hctl k = s.hctl k :=
  ⟨rfl, rfl, rfl, rfl, rfl, rfl⟩

@[simp] theorem State.modProf_parts (f : Prof → Prof) (k : Nat) :
    (s.modProf f).cell k = s.cell k ∧ (s.modProf f).pane k = s.pane k ∧ (s.modProf f).region k = s.region k ∧
    (s.modProf f).guest k = s.guest k ∧ (s.modProf f).port k = s.port k ∧ (s.modProf f).hctl k = s.hctl k :=
  ⟨rfl, rfl, rfl, rfl, rfl, rfl⟩

@[simp] theorem State.modCampion_parts (f : Campion → Campion) (k : Nat) :
    (s.modCampion f).cell k = s.cell k ∧ (s.modCampion f).pane k = s.pane k ∧ (s.modCampion f).region k = s.region k ∧
    (s.modCampion f).guest k = s.guest k ∧ (s.modCampion f).port k = s.port k ∧ (s.modCampion f).hctl k = s.hctl k :=
  ⟨rfl, rfl, rfl, rfl, rfl, rfl⟩

@[simp] theorem State.modWeight_parts (f : WeightEng → WeightEng) (k : Nat) :
    (s.modWeight f).cell k = s.cell k ∧ (s.modWeight f).pane k = s.pane k ∧ (s.modWeight f).region k = s.region k ∧
    (s.modWeight f).guest k = s.guest k ∧ (s.modWeight f).port k = s.port k ∧ (s.modWeight f).hctl k = s.hctl k :=
  ⟨rfl, rfl, rfl, rfl, rfl, rfl⟩

@[simp] theorem State.modFabric_parts (f : Fabric → Fabric) (k : Nat) :
    (s.modFabric f).cell k = s.cell k ∧ (s.modFabric f).pane k = s.pane k ∧ (s.modFabric f).region k = s.region k ∧
    (s.modFabric f).guest k = s.guest k ∧ (s.modFabric f).port k = s.port k ∧ (s.modFabric f).hctl k = s.hctl k :=
  ⟨rfl, rfl, rfl, rfl, rfl, rfl⟩

@[simp] theorem State.setPort_parts (p : Nat) (x : Port) (k : Nat) :
    (s.setPort p x).cell k = s.cell k ∧ (s.setPort p x).pane k = s.pane k ∧ (s.setPort p x).region k = s.region k ∧
    (s.setPort p x).guest k = s.guest k ∧ (s.setPort p x).hctl k = s.hctl k :=
  ⟨rfl, rfl, rfl, rfl, rfl⟩

@[simp] theorem State.modPort_parts (p : Nat) (f : Port → Port) (k : Nat) :
    (s.modPort p f).cell k = s.cell k ∧ (s.modPort p f).pane k = s.pane k ∧ (s.modPort p f).region k = s.region k ∧
    (s.modPort p f).guest k = s.guest k ∧ (s.modPort p f).hctl k = s.hctl k :=
  ⟨rfl, rfl, rfl, rfl, rfl⟩

@[simp] theorem State.modHctl_parts (n : Nat) (f : HbmCtl → HbmCtl) (k : Nat) :
    (s.modHctl n f).cell k = s.cell k ∧ (s.modHctl n f).pane k = s.pane k ∧ (s.modHctl n f).region k = s.region k ∧
    (s.modHctl n f).guest k = s.guest k ∧ (s.modHctl n f).port k = s.port k :=
  ⟨rfl, rfl, rfl, rfl, rfl⟩

@[simp] theorem State.draw_parts (n : Nat) (k : Nat) :
    (s.draw n).cell k = s.cell k ∧ (s.draw n).pane k = s.pane k ∧ (s.draw n).region k = s.region k ∧ (s.draw n).guest k = s.guest k ∧
    (s.draw n).port k = s.port k ∧ (s.draw n).hctl k = s.hctl k :=
  ⟨rfl, rfl, rfl, rfl, rfl, rfl⟩

/-- Keeping a cell for its running cycle changes nothing but the kept cells. -/
@[simp] theorem State.keepSnap_fields (c : Nat) :
    (s.keepSnap c).cells = s.cells ∧ (s.keepSnap c).panes = s.panes ∧ (s.keepSnap c).regions = s.regions ∧
    (s.keepSnap c).hbm = s.hbm ∧ (s.keepSnap c).outbox = s.outbox ∧ (s.keepSnap c).time = s.time ∧ (s.keepSnap c).pending = s.pending := by
  unfold State.keepSnap; split <;> simp

end Sys2Proof.Machine
end

