-- ==== Sys2Proof/Machine/SillStore.lean ====
section
/-! DEFINITION. The sill store as the spec lays it out: areas, and the words of those whose layout it gives (01 R32, 09 R189, R190, R204,
12 R257). The contents stand in the fields of State that the engines own; no host path reads or writes them (R189, R210). -/

namespace Sys2Proof.Machine

/-- Sill field above which an address lies: 2 GiB each, 24 GiB in all (R32). -/
def sillStoreField (a : Nat) : Option Nat := if a < 24 * 2 ^ 30 then some (a / 2 ^ 31) else none

/-- The areas of the sill store whose place the spec gives. -/
inductive SillArea where
  | pageTable | pageLists | parkTable | maskCache | slotRecords | parkRecords | weightStaging | unitMap | multicast | images
  deriving DecidableEq, Repr

/-- First and last address of an area (Table 9-2, R214, R231, R238, R257, R307, R138). -/
def SillArea.range : SillArea → Nat × Nat
  | .pageTable => (0x80000000, 0x83FFFFFF)
  | .pageLists => (0x84000000, 0x93FFFFFF)
  | .parkTable => (0x94000000, 0x943FFFFF)
  | .maskCache => (0x100000000, 0x1FFFFFFFF)
  | .slotRecords => (0x200000000, 0x23FFFFFFF)
  | .parkRecords => (0x240000000, 0x243FFFFFF)
  | .weightStaging => (0x280000000, 0x29FFFFFFF)
  | .unitMap => (0x300000000, 0x3165A0BBF)
  | .multicast => (0x380000000, 0x383FFFFFF)
  | .images => (0x500000000, 0x5BFFFFFFF)

def sillAreas : List SillArea :=
  [.pageTable, .pageLists, .parkTable, .maskCache, .slotRecords, .parkRecords, .weightStaging, .unitMap, .multicast, .images]

/-- Area of an address; none between them. -/
def sillAreaAt (a : Nat) : Option SillArea := sillAreas.find? (fun x => decide (x.range.1 ≤ a ∧ a ≤ x.range.2))

/-- A page descriptor (Table 9-3). -/
def Desc.word (d : Desc) : Nat :=
  d.tier % 4 * 2 ^ 126 + bit d.valid * 2 ^ 125 + bit d.frozen * 2 ^ 124 + bit d.zpend * 2 ^ 123 + bit d.reclaim * 2 ^ 122 +
    d.guest % 64 * 2 ^ 116 + d.region % 64 * 2 ^ 110 + bit d.unbound * 2 ^ 109 + d.refcnt % 2 ^ 18 * 2 ^ 91 + d.fill % 512 * 2 ^ 82 +
    d.layer % 256 * 2 ^ 74 + d.frame % 4096 * 2 ^ 62 + d.loc % 2 ^ 30 * 2 ^ 32 + d.epoch % 2 ^ 32

/-- Sequences that hold list blocks: open slots and park records (R190). -/
def State.sequences (s : State) : List SeqSlot :=
  s.regions.flatMap (fun q => q.2.openSlots.map (·.2)) ++ (s.cache.parks.filter (fun p => p.2.state == 1 || p.2.state == 2)).map (·.2.slot)

/-- Entry `j` of list block `b` (Table 9-4): the descriptor of a page, or nothing. -/
def State.listEntry (s : State) (b j : Nat) : Nat :=
  let at_ (x : SeqSlot) (k : Nat) : Option Nat :=
    ((mget [] x.lists k).findIdx? (fun c => c == b)).bind (fun i => (mget [] x.pages k)[64 * i + j]?)
  match s.sequences.findSome? (fun x => x.lists.findSome? (fun q => at_ x q.1)) with
  | some d => 2 ^ 31 + d % 2 ^ 22
  | none => 0

/-- A park record (Table 9-8). -/
def ParkRec.word (p : ParkRec) (i : Nat) : Nat :=
  let x := p.slot
  (i % 65536 * 65536 + p.uses % 65536) * 2 ^ 480 + p.state % 4 * 2 ^ 478 + p.guest % 64 * 2 ^ 472 + p.region % 64 * 2 ^ 466 +
    p.gen % 65536 * 2 ^ 450 + x.length % 2 ^ 24 * 2 ^ 426 + x.generated % 2 ^ 24 * 2 ^ 402 + x.maxtok % 2 ^ 24 * 2 ^ 378 +
    x.draft % 16 * 2 ^ 374 + x.sample % 65536 * 2 ^ 358 + x.mask % 1024 * 2 ^ 348 + x.rngKey % 2 ^ 64 * 2 ^ 256 +
    leNat (p.meas.take 16) * 2 ^ 128 + p.expiry % 2 ^ 64 * 2 ^ 64 + (mget [] x.lists 0).headD 0 % 2 ^ 26 * 2 ^ 38

/-- A byte of the unit map: state in bits 7:6, last guest in bits 5:0 (R257). -/
def State.unitByte (s : State) (u : Nat) : Nat :=
  match s.extents.find? (fun x => decide (x.start ≤ u ∧ u < x.start + x.len)) with
  | some x => x.st % 4 * 64 + x.guest % 64
  | none => 0

/-- An octet of the sill store, of the areas whose layout the spec gives. -/
def State.sillByte (s : State) (a : Nat) : Option Byte :=
  let octet (v k : Nat) : Byte := BitVec.ofNat 8 (v / 2 ^ (8 * k))
  match sillAreaAt a with
  | some .pageTable => let o := a - 0x80000000; some (octet (s.desc (o / 16)).word (o % 16))
  | some .pageLists => let o := a - 0x84000000; some (octet (s.listEntry (o / 256) (o % 256 / 4)) (o % 4))
  | some .parkTable => let o := a - 0x94000000; some (octet ((mget ({} : ParkRec) s.cache.parks (o / 64)).word (o / 64)) (o % 64))
  | some .unitMap => some (octet (s.unitByte (a - 0x300000000)) 0)
  | _ => none

end Sys2Proof.Machine
end

