-- ==== Sys2Proof/Tests/Slice0.lean ====
section
/-! SUPPORT. Tests: for each statement with hypotheses, states and operands that meet them (`test_hyps_<statement>`, a clause a group);
values that the spec or a standard it names states; an ill-formed command for each check; single steps. -/

set_option Elab.async false

namespace Sys2Proof.Tests
open Sys2Proof.Machine

/-- A READY module whose Keeper is OPERATIONAL. -/
def on : State :=
  { State.reset with
    boot := { State.reset.boot with stage := 9, ready := true, reached := true, pwrOk := true }
    keeper := { State.reset.keeper with st := 2, entropyOk := true } }

/-- The first cell of pane 0 and the last cell of pane 737. -/
def cA : Nat := paneCell 0 0 0
def cZ : Nat := paneCell 737 15 15

/-- A step of template 0 with two beats, and that step in flight under number 8. -/
def tpl : StepTpl := { kind := 1, tpl := 0, beats := 2, waves := 0, waveSlots := 0, draft := 0 }
def flight : Flight := { number := 8, tpl := tpl, gen := 1, window := 1, entry := none, positions := [], started := true }

/-- A pane of region 5 within a beat, and region 5 of guest 3 RUNNING on panes 0 and 737 with step 8 in flight. -/
def pane5 : Pane := { power := 0, region := some 5, cond := .running, runCycles := 100, cyc := 3, beat := 1, begun := 2 }
def region5 : Region :=
  { state := 3, guest := 3, panes := [0, 737], image := some {}, flight := some flight, stepNext := 9 }

/-- A READY module with that region, pane 0 being `q` and cell `c` being `x`. -/
def liveWith (q : Pane) (g : Region := region5) (x : Cell := {}) (c : Nat := cA) : State :=
  { on with
    panes := [(0, q), (737, pane5)]
    regions := [(5, g)]
    guests := [(3, { gstate := 1, panes := 4, slots := 16, hbm := 8, src0 := 0x123 })]
    cells := [(c, x)] }
def live (x : Cell := {}) (c : Nat := cA) : State := liveWith pane5 region5 x c
/-- The same module with the owner bound to source 0x900. -/
def owned (s : State) : State := { s with ownerSrc := [(0, (true, 0x900))] }

/-- One list of sequence number 1 with these entries, alone in queue (g, e) of a module whose guest `g` is ACTIVE. -/
def listOf (es : List Entry) : ListRec := { seq := 1, tag := 5, sinkFa := 0x123, sinkAddr := 0x4000, entries := es }
def withList (s : State) (g e : Nat) (es : List Entry) : State := s.setQueue g e { lists := [listOf es], nextSeq := 2 }

/-- An entry's word: OP, and the fields below it. -/
def cmd (op body : Nat) : Nat := op * 2 ^ 248 + body

/-- The command key of 32 zero octets, from LAC 0 and P 131,072, and the tag it gives a body under counter 1. -/
def key0 : CmdKey := { key := List.replicate 32 0, persisted := 131072 }
def keyed (s : State) (g : Nat) : State := s.modKeeper (fun k => { k with keys := mset k.keys g key0 })
def tag1 (s : State) (g : Nat) (body : List Byte) : List Byte :=
  (hmac key0.key (natLE 2 s.fabricAddr ++ natLE 1 g ++ natLE 8 1 ++ body)).take 16

/-- A critical entry behind a started AUTH entry with the right pair, and the module once the Keeper has accepted it. -/
def authOf (s : State) (g w : Nat) : Entry :=
  { word := cmd 2 (2 ^ 160 + leNat (tag1 s g (natLE 32 w)) * 2 ^ 32), prog := 1 }
def signedBy (s : State) (g e w : Nat) : State := withList (keyed s g) g e [authOf s g w, { word := w }]
def acceptedBy (s : State) (g e w : Nat) : State :=
  (((signedBy s g e w).begun g e (listOf [authOf s g w, { word := w }]) 1).checkPair g 1 (tag1 s g (natLE 32 w)) (natLE 32 w)).1
abbrev signed (s : State) (g w : Nat) : State := signedBy s g 3 w
abbrev accepted (s : State) (g w : Nat) : State := acceptedBy s g 3 w
def late (s : State) (t : Nat) : State := { s with time := t }
/-- Region 5 between steps, with 16,384 sequence slots. -/
def region5s : Region := { region5 with image := some { slots := 16384 }, flight := none }
def idle5 : State := liveWith pane5 region5s
/-- Window `g` holds this request, alone in the Keeper's queue; a critical one carries counter 1 and its tag. -/
def asking (s : State) (g op : Nat) (body : List Byte) (counter : Nat := 0) (tag : List Byte := zeros 16) : State :=
  let req : Mem := ({} : Mem).write 0 (natLE 2 op ++ zeros 2 ++ natLE 4 body.length ++ natLE 8 counter ++ tag ++ body)
  let box : Mailbox := { state := 1, req := req }
  s.modKeeper (fun k => { k with queue := [g], mail := mset k.mail g box })
def mbTag (s : State) (g op : Nat) (body : List Byte) : List Byte :=
  tag1 s g (natLE 2 op ++ zeros 2 ++ natLE 4 body.length ++ body)
def askingAuth (s : State) (g op : Nat) (body : List Byte) : State := asking (keyed s g) g op body 1 (mbTag s g op body)
def askedAuth (s : State) (g op : Nat) (body : List Byte) : State :=
  ((askingAuth s g op body).checkPair g 1 (mbTag s g op body) (natLE 2 op ++ zeros 2 ++ natLE 4 body.length ++ body)).1
def im1 : Image := { slots := 4 }

/-! For `StepRunsFrontCommand`. -/
def queued : State := { on with pending := [.vadd 0 1 2 3, .nop 1 2] }

/-! For `DotIssues`. -/
def dotop : DotOp := ⟨15, 0x13, 0x11, 3, 1, 0⟩

/-! For `StagingMeshAndMoves`. -/
def cE : Nat := paneCell 0 0 15

/-! For `BeatsPausesStallsAndTheWatchdog`. -/
def regionK : Region := { region5 with kTh := 31 }
def held5 : Region := { region5 with holdSince := some 1, wdogMs := 1, panes := [0] }
def stalled (t : Nat) : State :=
  { liveWith { power := 0, region := some 5, cond := .awaitStall [(cA, 3)] } held5 { items := [0, 0, 0, 2 * 2 ^ 60] } with time := t }

/-! For `DeliveriesAndCellWindows`. -/
def deliv5 : Delivery := { cell := cA, item := 0, tag := 8, data := [1, 2] }
def regionD : Region := { region5 with deliveries := [deliv5] }
def itemCell : Cell := { items := [2 * 2 ^ 60 + 2 ^ 16], closed := [0] }
def winReq : BgReq := { mem := 3, offset := 8, data := some [1, 2, 3, 4, 5, 6, 7, 8], purpose := .window 0x900 0 0 }
def bgCell : Cell := { bg := [{ mem := 1, offset := 0, data := none, purpose := .window 0x900 0 0 }, winReq] }
def repCell : Cell := { repeats := [63 * 2 ^ 58 + 31 * 2 ^ 45 + 2 * 2 ^ 50], repState := [(63, { words := 1 })], items := List.replicate 32 0 }
def addressed : State := { owned on with cells := [(cZ, { memAddr := 4 * 2 ^ 60 + 2 ^ 20 + 16376 })] }

/-! For `DeadCellsAndRowShifts`. -/
def shift5 : ShiftRec := { cell := cA, pane := 0, prow := 0, pcol := 0, cycle := 9 }
def regionS : Region := { state := 2, panes := [0], shifts := [shift5] }

/-! For `ListsAndCommonCommands`. -/
def listMsg : Msg :=
  { kind := 0, vc := 1, dest := 0xFFFF, src := 0x123, addr := 2 ^ 32 + 3 * 2 ^ 24 + 2 * 2 ^ 22
    payload := natLE 32 (0x434C * 2 ^ 240 + 1 * 2 ^ 229 + 2 * 2 ^ 227 + 0x123 * 2 ^ 211 + 0x4000 * 2 ^ 163 + 5 * 2 ^ 131) ++ natLE 32 (cmd 0 0) }
def waitW (n : Nat) : Nat := cmd 1 (2 * 2 ^ 222 + n * 2 ^ 174 + 2 ^ 158)
def doneQ : State := (withList (live {}) 3 0 [{ word := waitW 1 }]).setQueue 3 2 { nextSeq := 2 }
def authThen : List Entry := [{ word := cmd 2 (2 ^ 160) }, { word := cmd 0x40 0 }]
def waiting1 : Entry := { word := waitW 1, prog := 1 }
def rec3 : OutMsg := { time := 0, msg := listMsg, queue := some (3, 0) }
def recorded : State := { live {} with outbox := [rec3], time := ms 2 }
/-- The smallest glazing image: one pane, one empty program for its 256 cells, one template. -/
def glazing : List Byte :=
  let hdr := 0x5A4C4747 * 2 ^ 992 + 2 ^ 976 + 0x9424 * 2 ^ 944 + 0x7F * 2 ^ 929 + 1 * 2 ^ 902 + 16 * 2 ^ 892 + 16 * 2 ^ 883 +
    5 * 2 ^ 859 + 12232 * 2 ^ 800 + 4 * 2 ^ 784
  let sect (t n off len : Nat) : List Byte := natLE 16 (t * 2 ^ 120 + n * 2 ^ 64 + off * 2 ^ 32 + len)
  natLE 128 hdr ++ (sect 1 1 208 8 ++ (sect 2 1 216 20 ++ (sect 3 256 240 4096 ++ (sect 6 1 4336 16 ++ (sect 255 1 4352 7880 ++
    (natLE 32 (2 ^ 64) ++ ((List.range 256).flatMap (fun _ => natLE 16 (2 ^ 96 - 2 ^ 80 + 2 ^ 112 - 2 ^ 96 + 0xFF * 2 ^ 72 + 0xFFFF * 2 ^ 12)) ++
    (natLE 16 (1 * 2 ^ 124 + 2 * 2 ^ 100 + 1 * 2 ^ 92 + 4 * 2 ^ 76) ++ (natLE 24 (2 ^ 128) ++ zeros 7856)))))))))
def load5 (phase : Nat) : LoadRec :=
  { entry := ⟨3, 3, 1, 1⟩, guest := 3, phase := phase, anyPlace := false, anchorX := (paneOrigin 0).1, anchorY := (paneOrigin 0).2
    srcFa := 0x123, srcAddr := 0, len := 12232, bytes := glazing }
def copying (phase : Nat) : State :=
  (({ live {} with panes := [(0, { power := 0 })], regions := [(5, { state := 1, guest := 3, load := some (load5 phase), panes := [0] })] } : State).modKeeper
    (fun k => { k with enrolled := [{ keyid := List.replicate 16 0, kind := 1, mask := 2 ^ 64 - 1, pub := [], by_ := 0 }] }))

/-! For `StepEngineEntries`. -/
def stepW : Nat := cmd 0x10 (5 * 2 ^ 218 + 15 * 2 ^ 214 + 65535 * 2 ^ 198)
def prefillW : Nat := cmd 0x11 (5 * 2 ^ 218 + 16383 * 2 ^ 200 + 257 * 2 ^ 112)
def openW : Nat := cmd 0x12 (5 * 2 ^ 218 + 16383 * 2 ^ 204 + 2 ^ 74)
def closeW : Nat := cmd 0x13 (5 * 2 ^ 218 + 16383 * 2 ^ 204)
def cancelW : Nat := cmd 0x14 (5 * 2 ^ 218 + 16383 * 2 ^ 204)
def cancelAllW : Nat := cmd 0x14 (5 * 2 ^ 218 + 2 ^ 203)
def one (w : Nat) : Entry := { word := w }
def asks (e w : Nat) : State := withList idle5 3 e [one w]

/-! For `CacheEngineEntries`. -/
def parkW : Nat := cmd 0x30 (5 * 2 ^ 218 + 16383 * 2 ^ 204 + 86400 * 2 ^ 117)
def resumeW : Nat := cmd 0x31 (5 * 2 ^ 218 + 16383 * 2 ^ 204)
def forkW : Nat := cmd 0x32 (5 * 2 ^ 218 + 0 * 2 ^ 204 + 16383 * 2 ^ 190)
def trimW : Nat := cmd 0x33 (5 * 2 ^ 218 + 16383 * 2 ^ 204)
def waitOn (op n : Nat) : State := (withList idle5 3 2 [one (cmd op (5 * 2 ^ 218 + n * 2 ^ 204))]).modSlot 5 n (fun _ => { state := 2, guest := 3, ops := [(⟨3, 2, 1, 0⟩, op)] })
def waitFork : State := ((withList idle5 3 2 [one forkW]).modSlot 5 0 (fun _ => { state := 2, guest := 3, ops := [(⟨3, 2, 1, 0⟩, 0x32)] })).modSlot 5 16383
  (fun _ => { ops := [(⟨3, 2, 1, 0⟩, 0x32)] })

/-! For `RegionsLoadAndRelease`. -/
def loadW : Nat := cmd 0x40 (63 * 2 ^ 218 + 2 ^ 29 * 2 ^ 104)
def listS (s : State) (g w : Nat) : ListRec := listOf [authOf s g w, one w]
def im5 : Image := (((copying 3).loadVerdict 5 (load5 3) true).toOption.map (·.1)).getD {}
def admReq5 : State := liveWith { power := 0 } { state := 1, guest := 3, load := some (load5 4), panes := [0], power := { req := some { kind := 1, since := 0 } } }
def relW : Nat := cmd 0x41 (5 * 2 ^ 218)
def releasing : State := liveWith { power := 0, region := some 5 } { state := 5, guest := 3, panes := [0] }

/-! For `GuestsComeAndGo`. -/
def createW : Nat := cmd 0x48 (63 * 2 ^ 218 + 738 * 2 ^ 208 + 65536 * 2 ^ 191 + 1536 * 2 ^ 180 + 0x124 * 2 ^ 164 + 0xFFFF * 2 ^ 148)
def limitsW : Nat := cmd 0x4A (3 * 2 ^ 218 + 738 * 2 ^ 208 + 65536 * 2 ^ 191 + 1536 * 2 ^ 180 + 0x124 * 2 ^ 164 + 0xFFFF * 2 ^ 148)
def deleteW : Nat := cmd 0x49 (3 * 2 ^ 218)
def deleting : State := keyed { on with guests := [(63, { gstate := 2, panes := 4 })] } 63

/-! For `StepsAreAdmitted`. -/
def tpl0 : StepTpl := { kind := 1, tpl := 15, beats := 2, waves := 1, waveSlots := 4, draft := 0 }
def run0 : RunEntry := { id := ⟨3, 0, 1, 0⟩, prefill := false, tpl := 15, left := 1 }
def regionA : Region :=
  { state := 2, guest := 3, panes := [0], image := some { tpls := [tpl0], slots := 4 }, power := { state := 0 }, runs := [run0], rcfg := 2 ^ 55
    windows := [{ state := 3, owner := 3, gen := 9 }] }
def served5 (g : Region) : State := { liveWith { power := 0, region := some 5 } g with thermal := { lastReport := some 0 } }
def nullStep : Flight := { number := 0, tpl := tpl0, gen := 9, entry := none, positions := [{ slot := none, pos := 0, token := 0 }] }

/-! For `StepsRunCommitAndVerify`. -/
def flight0 : Flight := { number := 8, tpl := tpl0, gen := 9, entry := none, positions := [{ slot := some 0, pos := 3, token := 7 }] }
def regionF (f : Flight) (state : Nat := 3) : Region :=
  { state := state, guest := 3, panes := [0], image := some { tpls := [tpl0], slots := 4, kv := [⟨0, 1, 0, 0, 0, 4, 2, 3⟩] }, power := { state := 0 }
    rcfg := 2 ^ 55 + 2047 * 2 ^ 44, flight := some f, stepNext := 9, slots := [(0, { state := 3, guest := 3, length := 3 })] }
def atStep (f : Flight) (state : Nat := 3) : State := liveWith { power := 0, region := some 5 } (regionF f state)
def begun0 : Flight := { number := 8, tpl := tpl0, gen := 9, entry := none, started := true, positions := [{ slot := some 0, pos := 3, token := 7 }] }
def shard0 : List Byte := natLE 16 (0 * 2 ^ 106 + 0 * 2 ^ 98 + 1 * 2 ^ 87) ++ natLE 8 7
def cands0 : Flight := { number := 8, tpl := tpl0, gen := 9, entry := none, started := true, positions := [{ slot := some 0, pos := 3, token := 7 }], cands := [(0, [shard0])] }
def over0 : Flight := { number := 8, tpl := tpl0, gen := 9, entry := none, started := true, beatsOver := true, positions := [{ slot := some 0, pos := 3, token := 7 }], sampled := [(0, 7)] }
def empty0 : Flight := { number := 8, tpl := tpl0, gen := 9, entry := none, started := true, positions := [] }
def scattering : State := { on with regions := [(5, { state := 3, guest := 3, scatters := [{ step := 7, stg := 1, rows := [] }] })] }
def reclaiming (t : Nat) : State :=
  { on with cache := { State.reset.cache with desc := [(4194303, { tier := t, valid := true, reclaim := true, unbound := true, region := 5, guest := 3, loc := 17, units := 4 })] } }
def parked : State := { on with time := 28, cache := { State.reset.cache with parks := [(65535, { state := 1, expiry := 7, slot := { state := 2, length := 3 } })] } }
def pairMsg (typ : Nat) (v : Nat) : Msg :=
  { kind := 0, vc := 1, dest := 0xFFFF, src := 0x321, addr := 2 * 2 ^ 46 + 4 * 2 ^ 42 + typ * 2 ^ 34 + 5 * 2 ^ 28 + 9 * 2 ^ 22, payload := natLE 16 v }
def paired (role : Nat) (ds : List Nat) : State :=
  { on with regions := [(5, { state := 3, guest := 3, panes := [0], image := some { slots := 4 }, dpair := 2 ^ 63 + role * 2 ^ 62 + 0x321 * 2 ^ 46 + 9 * 2 ^ 40
                              slots := [(3, { state := 2, guest := 3, length := 10, log := List.replicate 10 (1, 0), drafts := ds })] })] }

/-! For `SamplingSourcesAndEntries`. -/
def source0 (n : Nat) (x : MaskSource) : State := { owned (live {}) with campion := { State.reset.campion with sources := [(n, x)] } }
def maskBits : List Byte := List.replicate 32768 1
def fetched : State := source0 0x2FF { state := 1, guest := 3, len := 32768 }
def copies : Nat × Nat × State := (fetched.twoCopies 3 8).getD (0, 0, on)

/-! For `HbmAccessesTargetsAndCounters`. -/
def bytes3 : List Byte := [1, 0, 3]
def heldRead : HeldRead := { addr := 5 * 4096, use := .other }
def withCtl (n : Nat) (x : HbmCtl) : State := { owned (live {}) with hbmCtl := [(n, x)] }
def pendingZero : State := { live {} with extents := [⟨374999999, 1, 2, 3⟩] }

/-! For `MemoryWriteFrame`. -/
def mem4 : Mem := { cells := [(4, 9)] }

/-! For `WeightEntriesManifestsAndShards`. -/
def wloadW : Nat := cmd 0x20 (9 * 2 ^ 208 + 63 * 2 ^ 200 + 0x7FFF * 2 ^ 184 + 0xFFFF * 2 ^ 120)
def wloadS : Nat := cmd 0x20 (9 * 2 ^ 208 + 0x8000 * 2 ^ 184 + 0xFFFF * 2 ^ 120)
/-- The smallest manifest: generation 9, one source, one tensor, one shard of 4,096 octets. -/
def manifest9 : List Byte :=
  natLE 128 (0x574D4E46 * 2 ^ 992 + 2 ^ 976 + 0x9424 * 2 ^ 944 + 9 * 2 ^ 928 + 0x7F * 2 ^ 921 + 2 ^ 917 + 2 ^ 904 + 2 ^ 887 + 4096 * 2 ^ 768) ++
    (natLE 8 (0x8000 * 2 ^ 48) ++ (natLE 32 (2 ^ 208) ++ (sha256 [7] ++ (natLE 24 (2 ^ 128) ++ zeros 7856))))
def parsed9 : Manifest := (parseManifest manifest9).getD ⟨0, [], [], [], []⟩
def swingW : Nat := cmd 0x21 (9 * 2 ^ 208 + 5 * 2 ^ 202)
def gen9 : Generation := { guest := 3, num := 9, manifest := manifest9 }
def swinging : State :=
  { liveWith pane5 { state := 3, guest := 3, panes := [0], image := some { wlayout := zeros 16 }, windows := [{}, { state := 2, owner := 3, gen := 9 }] } with
    weight := { gens := [gen9] } }
def genA : Generation := ((acceptedBy swinging 3 1 swingW).generation 3 9).getD gen9
def parsedA : Manifest := (parseManifest genA.manifest).getD ⟨0, [], [], [], []⟩
def retireW : Nat := cmd 0x22 (9 * 2 ^ 208)
def retiring : State := withList { idle5 with weight := { gens := [gen9] } } 3 1 [one retireW]
def wload7 : WloadRec :=
  { id := 7, entry := some ⟨3, 1, 1, 0⟩, guest := 3, gen := 9, target := 0, region := 5, srcFa := 0x8000, srcAddr := 0, fwdFa := 0xFFFF }
def loading (l : WloadRec) (t : Nat := 0) : State := { live {} with weight := { loads := [l], nextId := 8 }, time := t }
def loadingK : State := (loading wload7).modKeeper
  (fun k => { k with enrolled := [{ keyid := zeros 16, kind := 2, mask := 2 ^ 64 - 1, pub := [], by_ := 0 }] })
def room : List (Nat × Nat) × State := (loadingK.settleHolds.allocCopy 3 1).getD ([], on)
def shardsOf (src st : Nat) : WloadRec :=
  { id := 7, entry := some ⟨3, 1, 1, 0⟩, guest := 3, gen := 9, target := 0, region := 5, srcFa := 0x8000, srcAddr := 0, fwdFa := 0xFFFF
    phase := 1, manifest := manifest9, measure := sha256 [1], shards := [{ state := st, source := src }], joined := some 0, runs := [(0, 1)] }

/-! For `GenerationChains`. -/
def upW (phase : Nat) : WloadRec :=
  { id := 7, entry := some ⟨3, 1, 1, 0⟩, guest := 3, gen := 9, target := 0, region := 5, srcFa := 0x8000, srcAddr := 0, fwdFa := 0x321
    phase := phase, manifest := manifest9, measure := sha256 [1], shards := [{ state := 0, source := 0 }, { state := 2, source := 0, data := [1] }] }
def downW : WloadRec :=
  { id := 7, entry := some ⟨3, 1, 1, 0⟩, guest := 3, gen := 9, target := 0, region := 5, srcFa := 0x321, srcAddr := 0, fwdFa := 0xFFFF
    phase := 1, manifest := manifest9, measure := sha256 [1], shards := [{ state := 1, source := 8 }] }
def chainMsg (typ : Nat) (data : List Byte) : Msg :=
  { kind := if typ = 5 then 1 else 0, vc := 3, dest := 0xFFFF, src := 0x321, addr := chainAddr typ 9, payload := data }
def chainHead : List Byte := sha256 [1] ++ natLE 8 0 ++ natLE 24 5
def holdMsg : Msg := chainMsg 5 (natLE 8 128)
def heldW : WloadRec :=
  { id := 7, entry := some ⟨3, 1, 1, 0⟩, guest := 3, gen := 9, target := 0, region := 5, srcFa := 0x8000, srcAddr := 0, fwdFa := 0x321
    held := [(holdMsg, 0)] }

/-! For `PortsTrainRetrainAndAreControlled`. -/
def port (p : Nat) (x : Port) (t : Nat := 0) : State := { owned (live {}) with ports := [(p, x)], time := t }

/-! For `LinksExchangeTheirKeys`. -/
def tx32 : TxSide := { runNo := 2 ^ 32 }
def tx31 : TxSide := { runNo := 2 ^ 31 }
def retryAuth : LinkAuth := { retryAt := some 5 }
def keyRx (typ : Nat) (c : List Byte) (a : LinkAuth := {}) : Port := { state := 3, auth := a, rx := { keyMsgs := [(typ, c)] } }
def taken (s : State) (p typ : Nat) : State := ((s.takeKey p typ).getD ([], s)).2
def linkKeys : LinkKeys := { txKey := zeros 32, rxKey := zeros 32, txSalt := zeros 4, rxSalt := zeros 4, confirm := zeros 32 }
def keyedAuth : LinkAuth := { keys := some linkKeys }
def peerTag : List Byte := (finishMac linkKeys keyedAuth.peer keyedAuth.transcript).take 32

/-! For `FlitsAreSentTakenAndRetried`. -/
def link (typ ref : Nat) (pay : List Byte := zeros 240) : RxFlit :=
  { bytes := ({ hdr := 5 * 2 ^ 93 + typ * 2 ^ 88 + 4095 * 2 ^ 70 + ref * 2 ^ 12, payload := pay } : Flit).bytes, corr := [1, 0, 2], uncorr := false }
def rx7 : RxSide := { seq := 4095, discard := true }
def dataFlit (kind : Nat) : RxFlit :=
  { bytes := ({ hdr := kind * 2 ^ 93 + 3 * 2 ^ 91 + 4095 * 2 ^ 70, payload := zeros 240 } : Flit).bytes, corr := [1, 0, 2], uncorr := false }
def retryRx (n : Nat) (ref : Nat) : RxSide := { seq := 9, discard := true, slots := 64, reqRef := ref, requests := n }
def stuckTx : TxMsg := { msg := { kind := 0, vc := 3, dest := 5, src := 6, addr := 0, payload := [1] } }
def txQ : TxSide := { queues := [(3, [stuckTx])] }

/-! For `NeighboursAndBridges`. -/
def discovery (typ : Nat) : Msg := { kind := 0, vc := 1, dest := 0xFFFE, src := 0x44, addr := 0x1A900, payload := natLE 12 typ ++ natLE 4 77 ++ natLE 48 5 }
def nbr (n : Nat) : Neighbour := { sends := n, state := 1 }
def bridge (role epoch : Nat) (t : Nat := 0) : State :=
  { owned (live {}) with fabric := { State.reset.fabric with role := role, partner := 0x124, epoch := epoch, bridgeFa := 0x124 }, time := t }
def beatMsg (vc epoch : Nat) : Msg := { kind := 0, vc := vc, dest := 0x123, src := 0x124, addr := 0x1A9C0, payload := natLE 2 epoch ++ natLE 2 0x124 }

/-! For `MulticastAndBarriers`. -/
def mcState (e : Nat) : State := { port 95 { state := 4 } with fabric := { State.reset.fabric with mcTab := [(255, e)] } }
def mcE : Nat := 2 ^ 255 + 2 ^ 254 + 0x7F * 2 ^ 247 + 2 * 2 ^ 245 + 0x44 * 2 ^ 229 + 2 ^ 95
def mcMsg : Msg := { kind := 0, vc := 2, dest := 0xFEFF, src := 0x44, addr := 0, payload := natLE 8 3 }
def ackMsg : Msg := { kind := 0, vc := 1, dest := 0xFFFE, src := 0x45, addr := 0x1A940, payload := natLE 1 255 ++ natLE 1 0 ++ natLE 2 0 ++ natLE 4 3 }
def mcWaiting : State := { mcState mcE with fabric := { State.reset.fabric with mcTab := [(255, mcE)], mcBuf := [⟨255, 3, mcMsg, [95], [], []⟩] } }
def barMsg (typ gen : Nat) : Msg := { kind := 0, vc := 0, dest := 0xFF3F, src := 0x45, addr := 0, payload := natLE 1 typ ++ natLE 1 0 ++ natLE 2 0 ++ natLE 4 gen }
def barE : Nat := 2 ^ 255 + 2 ^ 254 + 94 * 2 ^ 247 + 100 * 2 ^ 225 + 2 ^ 95
def barState (b : Barrier) (t : Nat := 0) : State := { port 95 { state := 4 } with fabric := { State.reset.fabric with bars := [(63, b)] }, time := t }

/-! For `MessagesArriveAndAreRouted`. -/
def arrival (loc item tag : Nat) (data : List Byte) : Msg :=
  { kind := 0, vc := 2, dest := 0x123, src := 0x45, addr := 3 * 2 ^ 46 + 5 * 2 ^ 40 + loc * 2 ^ 22 + item * 2 ^ 17 + tag, payload := data }
def takes : State := liveWith pane5 region5 itemCell
def takesZ : State := liveWith pane5 region5 itemCell cZ
def errMsg : Msg := { kind := 3, vc := 1, dest := 0xFFFF, src := 0x45, addr := 7, payload := [5] }
def rxMsg5 : RxMsg := { msg := { kind := 0, vc := 3, dest := 0x77, src := 0x45, addr := 7, payload := [5] }, eom := true }
def rxSide5 : RxSide := { msgs := [rxMsg5] }
def outMsg5 : OutMsg := { time := 0, msg := { kind := 0, vc := 3, dest := 0x77, src := 0x45, addr := 7, payload := [5] } }
def sending : State := { live {} with outbox := [outMsg5] }

/-! For `FaultReportsAndAlerts`. -/
def fault0 (n : Nat) : FaultRec := { cls := 0, code := n }
def reports (n : Nat) : State := { on with reports := (List.range n).map (fun i => ⟨3, fault0 i⟩) }
def fte (st : Nat) (ack : Bool) : FtEntry := { state := st, eseq := 1, acked := ack, fr := fault0 2 }
def faulty (e : FtEntry) (t : Nat := 0) : State := { owned on with mgmt := { State.reset.mgmt with ft := [(4095, e)], eseq := 1, sel := [(0, 4095)] }, time := t }
def ibiState : State := { on with mgmt := { State.reset.mgmt with ibi := some 5 } }
def shelfState : State := { on with mgmt := { State.reset.mgmt with shelfAt := some 0 }, time := ms 1 }

/-! For `FaultMessages`. -/
def toBridge (e : FtEntry) : State :=
  { faulty e with fabric := { State.reset.fabric with bridgeFa := 0x124, msgSeq := 2 ^ 32 - 1 } }
def sentMsg (es : List Nat) : FaultMsg := { seq := 9, data := [1], entries := es, sentAt := 0 }
def unacked (es : List Nat) (e : FtEntry) : State :=
  { faulty e with fabric := { State.reset.fabric with bridgeFa := 0x124, unacked := [sentMsg es] }, time := ms 10 }
def ackOf : Msg := { kind := 0, vc := 1, dest := 0x123, src := 0x124, addr := 0x1A980, payload := natLE 4 9 }
def faultMsg : Msg := { kind := 0, vc := 1, dest := 0x123, src := 0x125, addr := 0x1AA00, payload := natLE 2 0x125 ++ natLE 2 3 ++ natLE 4 9 ++ zeros 192 }
def sink5 : SinkRec := { rec_ := 7, src := 0x125 }
def sinking : State := { on with fabric := { State.reset.fabric with role := 1, sinkFa := 0x126, sinkQ := [sink5], sinkSec := 0, faultSeq := 2 ^ 48 - 1 }, time := secs 1 }

/-! For `PowerInputAndPaneRegulation`. -/
def pow (p : Power) (t : Nat := 0) : State := { owned (live {}) with power := p, time := t }
def railed (w : PanePower) (c : RunCond := .running) (st : Bool := false) (p : Nat := 0) (t : Nat := 0) : State :=
  { on with panes := [(p, { power := 0, pwr := w, cond := c, clk := { stretched := st }, runCycles := 100 })], time := t }
def mv800 : PanePower := { base := 800, from_ := 800 }
def mv800b : PanePower := { base := 800, from_ := 800, boostAt := some 0 }
def markedImage : Image := { marks := [⟨0, 0, 720, 20⟩] }
def markedRegion : Region := { state := 3, guest := 3, panes := [0], image := some markedImage, flight := some flight, stepNext := 9 }
def marked (cyc : Nat) (w : PanePower) : State :=
  liveWith { power := 0, region := some 5, cond := .running, runCycles := 100, cyc := cyc, beat := 0, begun := 1, pwr := w } markedRegion
def mv850 : PanePower := { base := 850, from_ := 850, raises := [100] }
def fail1 : PanePower := { base := 800, from_ := 800, failed := [3] }
def fail2 : PanePower := { base := 800, from_ := 800, failed := [3, 1], cap := 1 }

/-! For `PowerIsAdmittedAndEnforced`. -/
def powered (w : RegPower) (st : Nat := 2) (t : Nat := 0) : State :=
  late (liveWith { power := 4, region := some 5 } { state := st, guest := 3, panes := [0], image := some im1, power := w }) t
def wakeReq (t : Option Nat) : RegPower := { req := some { kind := 0, since := 0, tested := t } }
def powerFull (t : Option Nat) : State := { powered (wakeReq t) with power := { segs := [(0, { samples := [(0, 400)] })] } }
def ramping (i : Nat) : RegPower := { ramp := some i, trans := 2 }
def overSeg : State := { live {} with power := { segs := [(0, { overSince := some 0 })] }, time := ms 1 }

/-! For `RegionsWakeAndLower`. -/
def rp (w : RegPower) (st : Nat := 2) (t : Nat := 0) : State :=
  late (liveWith { power := 0, region := some 5 } { state := st, guest := 3, panes := [0], image := some im1, power := w }) t
def sealIdle : State := { rp { state := 2 } with power := { idleSeal := 7 }, time := us 7 }
def imG : Image := { bytes := glazing }
def rewriting : State :=
  late (liveWith { power := 0, region := some 5 } { state := 2, guest := 3, panes := [0], image := some imG,
                                                     power := { state := 3, trans := 2, rewritten := false, ramp := some 8 } }) (us 40)
def parsedG : Parsed := (parseImage glazing).getD ⟨0, [], [], [], [], [], [], [], [], [], [], [], []⟩

/-! For `LimitsChangeByAPair`. -/
def authing (f : Power) : State := { keyed (owned on) 0 with power := f }
def pairBody (v : Nat) : List Byte := natLE 8 0x20008 ++ natLE 8 v
def checking (v : Nat) (ok : Bool) : State :=
  authing { authResult := 3, authAddr := 0x20008, authValue := v, authCounter := 1
            authTagLo := leNat ((tag1 on 0 (pairBody v)).take 8) + (if ok then 0 else 1), authTagHi := leNat ((tag1 on 0 (pairBody v)).drop 8) }
def checkedState (v : Nat) (ok : Bool) : State :=
  ((checking v ok).checkPair 0 1 (natLE 8 (checking v ok).power.authTagLo ++ natLE 8 (checking v ok).power.authTagHi) (pairBody v)).1

/-! For `HeatSlowsAndStopsTheModule`. -/
def hot (th : Thermal) (t : Nat := 0) : State := { live {} with thermal := th, time := t }
def heating : State := liveWith { power := 0, region := some 5, therm := { hist0 := [0, 0, 0, 0, 0, 0, 0, 0, 0, 700] } }
def tray (v : Nat) : List Byte := let b := (natLE 7 (v / 256)).reverse; b ++ [BitVec.ofNat 8 (crc8 b)]

/-! For `ProfilesAndGrants`. -/
def profileW (p : Nat) : Nat := cmd 0x42 (5 * 2 ^ 218 + p * 2 ^ 102)
def boarded5 : State := liveWith { power := 4, region := some 5 } { state := 2, guest := 3, panes := [0], image := some im1 }
def profAsk (s : State) (p : Nat) : State := withList s 3 3 [one (profileW p)]
def switching (mhz target rail : Nat) : State :=
  liveWith { power := 0, region := some 5, cond := .complete, clk := { mhz := mhz }, pwr := { base := rail, from_ := rail } }
    { state := 3, guest := 3, panes := [0], image := some im1, prof := { stage := 3, target := target } }
def grantS (pr : Prof) (st : Nat) (t : Nat := 0) : State :=
  late { liveWith { power := 0, region := some 5 } { state := 3, guest := 3, panes := [0], image := some im1, prof := { stage := st, profile := 3, sprintUntil := some 7 } } with prof := pr } t

/-! For `KeeperKeysAndCredentials`. -/
def claimBlob (s : State) (target : Nat) : List Byte :=
  zeros 1088 ++ (zeros 32 ++ slice (Config.gcmTag (s.wrapKey target (zeros 1088)) (zeros 12) [] (zeros 32)) 0 16)
def instBody : List Byte := [63, 0, 0, 0] ++ claimBlob on 63
def guests63 : State := { on with guests := [(63, { gstate := 1 })] }
def enrolBody (kind : Nat) (mask : Nat) : List Byte := natLE 8 kind ++ natLE 8 mask ++ zeros 32
def enr (by_ : Nat) : Enrolled := { keyid := zeros 16, kind := 1, mask := 1, pub := [], by_ := by_ }
def enrolled (by_ : Nat) : State := guests63.modKeeper (fun k => { k with enrolled := [enr by_] })

/-! For `KeeperModesAndErasure`. -/
def unlockBody (sc secs : Nat) : List Byte := natLE 4 sc ++ natLE 4 secs
def unlocked : State := { on.modKeeper (fun k => { k with tap := 2, tapUntil := 5 }) with time := 5, iface := { State.reset.iface with inst := 0x81, halted := true } }
def fwBody (n : Nat) : List Byte := zeros 16 ++ natLE 8 n ++ zeros 32
def armedOn : State := { on with boot := { on.boot with slotB := { state := 1 }, attempts := 3 } }
def fetchJob : MbJob := { guest := 63, op := 0x60, result := 0, resp := [] }
def fetching : State := on.modKeeper (fun k => { k with job := some fetchJob })

/-! For `KeeperTestsAndTamper`. -/
def offState : State := { on with boot := { on.boot with off := true, ready := false } }
def writing1 : CmdKey := { key := zeros 32, persisted := 131072, writing := true }
def writingP : State := on.modKeeper (fun k => { k with keys := [(63, writing1)] })
def errorK : State := (keyed on 63).modKeeper (fun k => { k with st := 3 })
def aged (n t : Nat) : State := { on.modKeeper (fun k => { k with drbgCount := n }) with time := t }

/-! For `ResetsStartACauseAndCount`. -/
def resetHeld : State := { on with boot := { on.boot with resetLow := true, ready := false } }
def resetHeldOff : State := { on with boot := { State.reset.boot with resetLow := true, off := true } }
def failing : State := { State.reset with boot := { State.reset.boot with stage := 4, fails := 2 }, time := ms 100 }
def attempt : State := { State.reset with boot := { State.reset.boot with bothFailed := some 0, slotB := { state := 1 }, attempts := 1, attempting := true }, time := secs 1 }

/-! For `BootStagesFollow`. -/
def booting (st : Nat) (hold : Bool := false) (k : Keeper := {}) : State := { State.reset with boot := { State.reset.boot with stage := st, hold := hold }, keeper := k }
def cooled : State := { booting 0xA true with thermal := { lastReport := some 0 } }

/-! For `RegisterWritesAreChecked`. -/
def cold : State := { owned State.reset with boot := { State.reset.boot with stage := 4 } }
def written : State := (((owned on).traced 0x10208 true (0xFFFF * 2 ^ 48)).plainWrite 0x900 0 0x10208 (0xFFFF * 2 ^ 48)).toOption.getD on

/-! For `BusbarCablesAndTrayBus`. -/
def ifs (f : Iface) (t : Nat := 0) : State := { owned on with iface := f, time := t }

/-! For `TapInstructions`. -/
def tapped (n : Nat) : State := (owned on).modKeeper (fun k => { k with tap := n, tapUntil := secs 9 })
def bare (n : Nat) : State := { tapped n with ports := (List.range 96).map (fun p => (p, { state := 0, enable := false })) }

/-! For `LimitsChangeOnlyByTheSequence`. -/
def sprintless : State := liveWith { power := 0, region := some 5 } { state := 3, guest := 3, panes := [0], image := some im1 }

/-! For `IdcodeReads`. -/
def b0 : State := { on with stepping := 1 }

/-! For `ApprovedLeaveTakesEffectAtTheNextBoot`. -/
def leaving : State := { (keyed State.reset 0).modKeeper (fun k => { k with leave := true, approved := true }) with boot := { State.reset.boot with stage := 2 } }

/-! For `StepsKeepTheMemoryInItsForm`. -/
/-- The state a command answers. -/
def nextOf (o : Out) : State := match o with | .next t => t | _ => {}
def writeMem : State := { on with hbm := { cells := [(4096, 9)] }, pending := [.hbmWrite 4096 0 0 [1, 2, 0]] }

/-- What window `g` of `asking` reads as. -/
theorem mbReq_asking (s : State) (g op : Nat) (body : List Byte) (c : Nat) (t : List Byte) (off n : Nat) :
    (asking s g op body c t).mbReq g off n =
      slice (natLE 2 op ++ zeros 2 ++ natLE 4 body.length ++ natLE 8 c ++ t ++ body) off n := by
  simp [State.mbReq, asking, State.mailbox, State.modKeeper, read_written]

/-- A request in the window of a Keeper that is OPERATIONAL and serves nothing is one that guest asks. -/
theorem asks_asking (s : State) (g op : Nat) (body : List Byte) (c : Nat) (t : List Byte) (hg : g < 64) (hop : op < 65536)
    (hj : s.keeper.job = none) (hs : s.keeper.st = 2) (hb : body.length ≤ 32736) (ht : t.length = 16) (ho : mbOwner op = true → g = 0) :
    Asks (asking s g op body c t) g op body := by
  have h2 : slice (natLE 2 op ++ zeros 2 ++ natLE 4 body.length ++ natLE 8 c ++ t ++ body) 0 2 = natLE 2 op := by
    simp [slice, natLE]
  have h8 : slice (natLE 2 op ++ zeros 2 ++ natLE 4 body.length ++ natLE 8 c ++ t ++ body) 0 8 = natLE 2 op ++ zeros 2 ++ natLE 4 body.length := by
    simp [slice, natLE, zeros, List.replicate_succ]
  have hl : leAt (natLE 2 op ++ zeros 2 ++ natLE 4 body.length) 4 4 = body.length := by
    have : ((natLE 2 op ++ zeros 2 ++ natLE 4 body.length).drop 4).take 4 = natLE 4 body.length := by
      simp [natLE, zeros, List.replicate_succ]
    rw [leAt, this, leNat_natLE _ _ (by omega)]
  have hz : leAt (natLE 2 op ++ zeros 2 ++ natLE 4 body.length) 2 2 = 0 := by
    have : ((natLE 2 op ++ zeros 2 ++ natLE 4 body.length).drop 2).take 2 = zeros 2 := by
      simp [natLE, zeros, List.replicate_succ]
    rw [leAt, this]; rfl
  have hbody : slice (natLE 2 op ++ zeros 2 ++ natLE 4 body.length ++ natLE 8 c ++ t ++ body) 32 body.length = body := by
    have := slice_mid (natLE 2 op ++ zeros 2 ++ natLE 4 body.length ++ natLE 8 c ++ t) body []
    simpa [natLE_length, zeros, ht] using this
  refine ⟨hg, ?_, ?_, hs, ?_, ?_, ?_, ho⟩
  · simp [State.mbHead, asking, State.modKeeper, hj]
  · rw [State.mbOp, mbReq_asking, h2, leNat_natLE _ _ hop]
  · rw [mbReq_asking, h8, hz]
  · rw [mbReq_asking, h8, hl]; exact hb
  · rw [mbReq_asking, mbReq_asking, h8, hl, hbody]

theorem asks_plainly (s : State) (g op : Nat) (body : List Byte) (hg : g < 64) (hop : op < 65536)
    (hj : s.keeper.job = none) (hs : s.keeper.st = 2) (hb : body.length ≤ 32736) (ho : mbOwner op = true → g = 0) :
    AsksPlainly (asking s g op body) g op body := by
  refine ⟨asks_asking s g op body 0 (zeros 16) hg hop hj hs hb rfl ho, ?_, ?_⟩
  · have := slice_mid (natLE 2 op ++ zeros 2 ++ natLE 4 body.length) (natLE 8 0) (zeros 16 ++ body)
    rw [mbReq_asking]
    simp only [List.length_append, natLE_length, zeros, List.length_replicate, List.append_assoc] at this ⊢
    rw [this]; rfl
  · have := slice_mid (natLE 2 op ++ zeros 2 ++ natLE 4 body.length ++ natLE 8 0) (zeros 16) body
    rw [mbReq_asking]
    simp only [List.length_append, natLE_length, zeros, List.length_replicate, List.append_assoc] at this ⊢
    exact this

/-- The Keeper accepts the pair that `askingAuth` carries, and nothing but the key changes. -/
theorem askedAuth_eq (s : State) (g op : Nat) (body : List Byte) (hs : s.keeper.st = 2) (hk : (keyed s g).cmdKey g = some key0) :
    (askingAuth s g op body).checkPair g 1 (mbTag s g op body) (natLE 2 op ++ zeros 2 ++ natLE 4 body.length ++ body) =
      ((askingAuth s g op body).modKeeper (fun x => { x with keys := mset x.keys g ({ key0 with lac := 1 } : CmdKey) }), true) :=
  checkPair_accepts (askingAuth s g op body) g 1 _ key0 hs hk (by decide) (by decide)

theorem asks_authorised (s : State) (g op : Nat) (body : List Byte) (hg : g < 64) (hop : op < 65536)
    (hj : s.keeper.job = none) (hs : s.keeper.st = 2) (hb : body.length ≤ 32736) (ho : mbOwner op = true → g = 0)
    (ht : (mbTag s g op body).length = 16) (hk : (keyed s g).cmdKey g = some key0) :
    AsksAuthorised (askingAuth s g op body) g op body (askedAuth s g op body) := by
  have hq : (askingAuth s g op body).cmdKey g = some key0 := hk
  have hc : slice (natLE 2 op ++ zeros 2 ++ natLE 4 body.length ++ natLE 8 1 ++ mbTag s g op body ++ body) 8 8 = natLE 8 1 := by
    have := slice_mid (natLE 2 op ++ zeros 2 ++ natLE 4 body.length) (natLE 8 1) (mbTag s g op body ++ body)
    simpa [natLE_length, zeros] using this
  have hT : slice (natLE 2 op ++ zeros 2 ++ natLE 4 body.length ++ natLE 8 1 ++ mbTag s g op body ++ body) 16 16 = mbTag s g op body := by
    have := slice_mid (natLE 2 op ++ zeros 2 ++ natLE 4 body.length ++ natLE 8 1) (mbTag s g op body) body
    simpa [natLE_length, zeros, ht] using this
  have h8 : slice (natLE 2 op ++ zeros 2 ++ natLE 4 body.length ++ natLE 8 1 ++ mbTag s g op body ++ body) 0 8 =
      natLE 2 op ++ zeros 2 ++ natLE 4 body.length := by
    simp [slice, natLE, zeros, List.replicate_succ]
  refine ⟨asks_asking (keyed s g) g op body 1 _ hg hop hj hs hb ht ho, ?_, ?_⟩
  · rw [State.keyReady, hq]; simp [key0]
  · have e1 : (askingAuth s g op body).mbReq g 8 8 = natLE 8 1 := by rw [askingAuth, mbReq_asking]; exact hc
    have e2 : (askingAuth s g op body).mbReq g 16 16 = mbTag s g op body := by rw [askingAuth, mbReq_asking]; exact hT
    have e3 : (askingAuth s g op body).mbReq g 0 8 = natLE 2 op ++ zeros 2 ++ natLE 4 body.length := by rw [askingAuth, mbReq_asking]; exact h8
    rw [e1, e2, e3, show leNat (natLE 8 1) = 1 from rfl]
    rw [askedAuth, askedAuth_eq s g op body hs hk]

/-- The Keeper unwraps the blob made for it: its tag is the one the wrapping key gives. -/
theorem unwrap_claimBlob (s u : State) (t : Nat) (hk : u.keeper.kemNo = s.keeper.kemNo) (hb : u.wafer.boots = s.wafer.boots) :
    u.unwrap t (claimBlob s t) = some (gcmCrypt (s.wrapKey t (zeros 1088)) (zeros 12) 0 (zeros 32)) := by
  generalize hT : slice (Config.gcmTag (s.wrapKey t (zeros 1088)) (zeros 12) [] (zeros 32)) 0 16 = T
  have hc : claimBlob s t = zeros 1088 ++ (zeros 32 ++ T) := by rw [← hT]; rfl
  have hl : T.length = 16 := by rw [← hT, slice_length]
  have h1 : slice (claimBlob s t) 0 1088 = slice (zeros 1088) 0 1088 := by
    have a := slice_mid [] (zeros 1088) (zeros 32 ++ T)
    have b := slice_mid [] (zeros 1088) []
    simp only [List.nil_append, List.length_nil, List.append_nil, zeros_length] at a b
    rw [hc, a, b]
  have h2 : slice (claimBlob s t) 1088 32 = zeros 32 := by
    have a := slice_mid (zeros 1088) (zeros 32) T
    simp only [zeros_length] at a
    rw [hc, a]
  have h3 : slice (claimBlob s t) 1120 16 = T := by
    have a := slice_mid (zeros 1088 ++ zeros 32) T []
    simp only [List.append_nil, List.length_append, zeros_length, hl, List.append_assoc] at a
    rw [hc]; exact a
  have hw : u.wrapKey t (claimBlob s t) = s.wrapKey t (zeros 1088) := by simp only [State.wrapKey, hk, hb, h1]
  simp only [State.unwrap, hw, h2, h3, hT, if_true]

theorem claimBlob_length (s : State) (t : Nat) : (claimBlob s t).length = 1136 := by
  simp only [claimBlob, List.length_append, slice_length, zeros_length]

theorem ok_of {e : Except Nat (Image × List Nat)} (ps : List Nat) (h : e.toOption.map (·.2) = some ps) :
    e = .ok ((e.toOption.map (·.1)).getD {}, ps) := by
  cases e with
  | error _ => exact absurd h (by simp [Except.toOption])
  | ok x => simp [Except.toOption] at h ⊢; rw [← h]
theorem room_spec {o : Option (List (Nat × Nat) × State)} (d : List (Nat × Nat) × State) (h : o.isSome = true) : o = some ((o.getD d).1, (o.getD d).2) := by
  cases o <;> simp_all
theorem instBody_length : instBody.length = 1140 := by
  rw [instBody, List.length_append, claimBlob_length]; rfl
theorem drop_instBody : instBody.drop 4 = claimBlob on 63 := rfl
theorem mbTag_length (s : State) (g op : Nat) (body : List Byte) :
    (mbTag s g op body).length = 16 := by
  rw [mbTag, tag1, List.length_take, hmac_length]; rfl
theorem install_asked (g : Nat) (hg : g < 64) (ho : mbOwner 33 = true → g = 0) (hk : (keyed guests63 g).cmdKey g = some key0) :
    AsksAuthorised (askingAuth guests63 g 33 instBody) g 33 instBody (askedAuth guests63 g 33 instBody) :=
  asks_authorised guests63 g 33 instBody hg (by decide) rfl rfl (by rw [instBody_length]; decide) ho (mbTag_length _ _ _ _) hk
theorem install_unwraps (g : Nat) (hk : (keyed guests63 g).cmdKey g = some key0) :
    (askedAuth guests63 g 33 instBody).unwrap (leAt instBody 0 1) (instBody.drop 4) = some (gcmCrypt (on.wrapKey 63 (zeros 1088)) (zeros 12) 0 (zeros 32)) := by
  rw [drop_instBody, show leAt instBody 0 1 = 63 from rfl, askedAuth, askedAuth_eq _ _ _ _ rfl hk]
  exact unwrap_claimBlob on _ 63 rfl rfl
theorem room_holds : loadingK.settleHolds.allocCopy wload7.guest (ceilDiv parsed9.blobLen 4096) = some (room.1, room.2) := by
  have h : ceilDiv parsed9.blobLen 4096 = 1 := by decide +kernel
  rw [h]
  exact room_spec ([], on) (by decide +kernel)

theorem next_of {o : Out} (h : (match o with | .next _ => true | _ => false) = true) : o = .next (nextOf o) := by
  cases o <;> simp_all [nextOf]
theorem mbTag_ok (s : State) (g op : Nat) (body : List Byte) : (mbTag s g op body).length = 16 := mbTag_length s g op body

/-- A window's request with its pair is authorised. -/
theorem asks_auth (s : State) (g op : Nat) (body : List Byte) (hg : g < 64) (hop : op < 65536) (hj : s.keeper.job = none)
    (hs : s.keeper.st = 2) (hb : body.length ≤ 32736) (ho : mbOwner op = true → g = 0) (hk : (keyed s g).cmdKey g = some key0) :
    AsksAuthorised (askingAuth s g op body) g op body (askedAuth s g op body) :=
  asks_authorised s g op body hg hop hj hs hb ho (mbTag_length _ _ _ _) hk

/-- What the Keeper's acceptance leaves. -/
theorem asked_is (s : State) (g op : Nat) (body : List Byte) (hs : s.keeper.st = 2) (hk : (keyed s g).cmdKey g = some key0) :
    askedAuth s g op body =
      (askingAuth s g op body).modKeeper (fun x => { x with keys := mset x.keys g ({ key0 with lac := 1 } : CmdKey) }) := by
  rw [askedAuth, askedAuth_eq s g op body hs hk]

theorem accepts (s : State) (g e w : Nat) (hs : s.keeper.st = 2) (hk : (keyed s g).cmdKey g = some key0) :
    ((signedBy s g e w).begun g e (listOf [authOf s g w, { word := w }]) 1).checkPair g 1 (tag1 s g (natLE 32 w)) (natLE 32 w) =
      (((signedBy s g e w).begun g e (listOf [authOf s g w, { word := w }]) 1).modKeeper
        (fun x => { x with keys := mset x.keys g ({ key0 with lac := 1 } : CmdKey) }), true) :=
  checkPair_accepts ((signedBy s g e w).begun g e (listOf [authOf s g w, { word := w }]) 1) g 1 _ key0 hs hk (by decide) (by decide)

theorem accepted_is (s : State) (g e w : Nat) (hs : s.keeper.st = 2) (hk : (keyed s g).cmdKey g = some key0) :
    acceptedBy s g e w = ((signedBy s g e w).begun g e (listOf [authOf s g w, { word := w }]) 1).modKeeper
        (fun x => { x with keys := mset x.keys g ({ key0 with lac := 1 } : CmdKey) }) := by
  rw [acceptedBy, accepts s g e w hs hk]

/-- The AUTH entry's fields are the counter and the tag. -/
theorem authOf_fields (s : State) (g w : Nat) :
    bits (authOf s g w).word 223 160 = 1 ∧ natLE 16 (bits (authOf s g w).word 159 32) = tag1 s g (natLE 32 w) ∧ (authOf s g w).op = 2 := by
  have ht : (tag1 s g (natLE 32 w)).length = 16 := by rw [tag1, List.length_take, hmac_length]; rfl
  have hn := natLE_leNat (tag1 s g (natLE 32 w))
  have hl := leNat_lt (tag1 s g (natLE 32 w))
  rw [ht] at hn hl
  simp only [authOf, Entry.op, bits, cmd]
  generalize leNat (tag1 s g (natLE 32 w)) = T at *
  refine ⟨by omega, ?_, by omega⟩
  rw [← hn]
  congr 1
  omega

/-- An entry behind an AUTH entry with the right pair is authorised. -/
theorem authorised (s : State) (g e op w : Nat) (hs : s.keeper.st = 2) (hk : (keyed s g).cmdKey g = some key0)
    (h1 : Starts (signedBy s g e w) g e op (listS s g w) 1 (one w)) (h2 : operandsOk op w = true) (h3 : opOwner op = true → g = 0)
    (h4 : ((signedBy s g e w).begun g e (listS s g w) 1).entry ⟨g, e, 1, 0⟩ = some (authOf s g w)) :
    Authorised (signedBy s g e w) g e op (listS s g w) 1 (one w) (authOf s g w) (acceptedBy s g e w) := by
  obtain ⟨a1, a2, a3⟩ := authOf_fields s g w
  refine ⟨h1, ?_, h2, h3, Nat.one_pos, h4, a3, rfl, ?_⟩
  · have : (signedBy s g e w).cmdKey g = some key0 := hk
    rw [State.keyReady, this]; simp [key0]
  · rw [a1, a2, accepted_is s g e w hs hk]
    exact accepts s g e w hs hk

theorem test_hyps_StepRunsFrontCommand :
    queued.pending = [Instr.vadd 0 1 2 3, Instr.nop 1 2] := by decide +kernel

theorem test_hyps_IdleStepPassesTime :
    (on.pending = []) ∧
    (on.panes = [] ∧ on.cells = []) := by
  refine ⟨?_, ?_⟩ <;> decide +kernel

theorem test_hyps_ScalarOperations :
    (Issues (live { sreg := [(1, 4294967295), (31, 1)] : Cell }) cA 0 ∧ 31 < 32 ∧ 1 < 32 ∧ 31 < 32 ∧ 1048575 < 2 ^ 20) ∧
    (Issues (live { sreg := [(1, 4294967295), (31, 31)] : Cell }) cA 0 ∧
     BitVec.toNat (((live { sreg := [(1, 4294967295), (31, 31)] : Cell }).cell cA).s 31) < 32) ∧
    (Issues (live { sreg := [(1, 4294967295), (31, 32)] : Cell } cZ) cZ 0 ∧ 0 < 32 ∧ 0 < 2 ^ 20 ∧
     32 ≤ BitVec.toNat (((live { sreg := [(1, 4294967295), (31, 32)] : Cell } cZ).cell cZ).s 31)) := by
  refine ⟨?_, ?_, ?_⟩ <;> decide +kernel

theorem test_hyps_BranchesLoopsAndAwaits :
    (Issues (live { pc := 1023 : Cell }) cA 0 ∧ 31 < 32 ∧ 1023 < 1024 ∧ ((live { pc := 1023 : Cell }).ctx cA).branchChk = []) ∧
    ({ pc := 4, branchNext := some (some 9) : Cell }.stepwait = false ∧ { pc := 4, branchNext := some (some 9) : Cell }.loops = [] ∧
     { pc := 4, branchNext := some (some 9) : Cell }.inDelay = false ∧
     { pc := 4, branchNext := some (some 9) : Cell }.branchNext = some (some 9)) ∧
    (Issues (live { sreg := [(31, 65535)], loops := [{ first := 0, last := 9, left := 1 : LoopRec }, { first := 0, last := 9, left := 1 : LoopRec }, { first := 0, last := 9, left := 1 : LoopRec }] : Cell }) cA 0 ∧
     ((live { sreg := [(31, 65535)], loops := [{ first := 0, last := 9, left := 1 : LoopRec }, { first := 0, last := 9, left := 1 : LoopRec }, { first := 0, last := 9, left := 1 : LoopRec }] : Cell }).cell cA).loops.length < 4 ∧
     (true = true → 31 < 32) ∧
     (1 ≤ if true = true then BitVec.toNat (((live { sreg := [(31, 65535)], loops := [{ first := 0, last := 9, left := 1 : LoopRec }, { first := 0, last := 9, left := 1 : LoopRec }, { first := 0, last := 9, left := 1 : LoopRec }] : Cell }).cell cA).s 31) else 31) ∧
     ((if true = true then BitVec.toNat (((live { sreg := [(31, 65535)], loops := [{ first := 0, last := 9, left := 1 : LoopRec }, { first := 0, last := 9, left := 1 : LoopRec }, { first := 0, last := 9, left := 1 : LoopRec }] : Cell }).cell cA).s 31) else 31) ≤ 65535) ∧
     (((live { sreg := [(31, 65535)], loops := [{ first := 0, last := 9, left := 1 : LoopRec }, { first := 0, last := 9, left := 1 : LoopRec }, { first := 0, last := 9, left := 1 : LoopRec }] : Cell }).cell cA).inDelay = false ∨ 1023 ≠ ((live { sreg := [(31, 65535)], loops := [{ first := 0, last := 9, left := 1 : LoopRec }, { first := 0, last := 9, left := 1 : LoopRec }, { first := 0, last := 9, left := 1 : LoopRec }] : Cell }).cell cA).pc)) ∧
    (Issues (live { pc := 3, inDelay := true : Cell }) cA 0 ∧ 2 < 1024 ∧
     ((live { pc := 3, inDelay := true : Cell }).cell cA).loops.length < 4 ∧ (false = true → 1 < 32) ∧
     (1 ≤ if false = true then BitVec.toNat (((live { pc := 3, inDelay := true : Cell }).cell cA).s 1) else 1) ∧
     ((if false = true then BitVec.toNat (((live { pc := 3, inDelay := true : Cell }).cell cA).s 1) else 1) ≤ 65535) ∧
     (((live { pc := 3, inDelay := true : Cell }).cell cA).inDelay = false ∨ 2 ≠ ((live { pc := 3, inDelay := true : Cell }).cell cA).pc)) ∧
    (Issues (live { items := List.replicate 32 0, ready := [(31, 8)], taken := [30] : Cell }) cA 0 ∧
     31 < ((live { items := List.replicate 32 0, ready := [(31, 8)], taken := [30] : Cell }).cell cA).items.length ∧
     31 ∉ ((live { items := List.replicate 32 0, ready := [(31, 8)], taken := [30] : Cell }).cell cA).taken ∧
     (31, ((live { items := List.replicate 32 0, ready := [(31, 8)], taken := [30] : Cell }).ctx cA).step) ∈ ((live { items := List.replicate 32 0, ready := [(31, 8)], taken := [30] : Cell }).cell cA).ready) ∧
    (Issues live cA 0 ∧ (live.ctx cA).beat = (live.ctx cA).reg.lastBeat) ∧
    (Issues (live { items := List.replicate 32 0, ready := [(31, 7)], taken := [30] : Cell }) cA 0 ∧
     31 < ((live { items := List.replicate 32 0, ready := [(31, 7)], taken := [30] : Cell }).cell cA).items.length ∧
     31 ∉ ((live { items := List.replicate 32 0, ready := [(31, 7)], taken := [30] : Cell }).cell cA).taken ∧
     (31, ((live { items := List.replicate 32 0, ready := [(31, 7)], taken := [30] : Cell }).ctx cA).step) ∉ ((live { items := List.replicate 32 0, ready := [(31, 7)], taken := [30] : Cell }).cell cA).ready ∧
     (live { items := List.replicate 32 0, ready := [(31, 7)], taken := [30] : Cell }).regionOfCell cA = some 5) := by
  refine ⟨?_, ?_, ?_, ?_, ?_, ?_, ?_⟩ <;> decide +kernel

theorem test_hyps_DotIssues :
    (Issues live cA 1 ∧ dotOk dotop 0 = true) ∧
    (fmtOf dotop.wf = some (Fmt.int 2) ∧ (Fmt.int 2).scaled = false ∧
     (live.ctx cA).clashNow ((live.ctx cA).access 1 1 1 (((live.ctx cA).reg.windowBase + 16777215) % 2 ^ 20 / 64 * 64) 0 false) = []) ∧
    (14 < 15 ∧ 32767 < 32768) ∧
    (Issues live cZ 1) := by
  refine ⟨?_, ?_, ?_, ?_⟩ <;> decide +kernel

theorem test_hyps_VectorOperations :
    Issues (live { vreg := [(31, 7)] : Cell }) cA 2 ∧ 31 < 32 ∧ 31 < 32 ∧ 0 < 32 ∧ 31 < 32 ∧ 15 < 16 := by decide +kernel

theorem test_hyps_Conversions :
    (Issues (live { vreg := [(30, 7)] : Cell }) cA 2 ∧
     { narrow := false, fmt := 19, vd := 30, va := 30, ts := 31, site := 0, tileEnd := false, rd := 31 : CvtOp }.vd < 31 ∧
     { narrow := false, fmt := 19, vd := 30, va := 30, ts := 31, site := 0, tileEnd := false, rd := 31 : CvtOp }.va < 31 ∧
     { narrow := false, fmt := 19, vd := 30, va := 30, ts := 31, site := 0, tileEnd := false, rd := 31 : CvtOp }.ts < 32 ∧
     { narrow := false, fmt := 19, vd := 30, va := 30, ts := 31, site := 0, tileEnd := false, rd := 31 : CvtOp }.rd < 32 ∧
     fmtOf { narrow := false, fmt := 19, vd := 30, va := 30, ts := 31, site := 0, tileEnd := false, rd := 31 : CvtOp }.fmt = some (Fmt.int 2) ∧
     { narrow := false, fmt := 19, vd := 30, va := 30, ts := 31, site := 0, tileEnd := false, rd := 31 : CvtOp }.narrow = false ∧
     (Fmt.int 2).perOp = 32) ∧
    ({ narrow := false, fmt := 48, vd := 30, va := 30, ts := 31, site := 0, tileEnd := false, rd := 31 : CvtOp }.vd < 31 ∧
     { narrow := false, fmt := 48, vd := 30, va := 30, ts := 31, site := 0, tileEnd := false, rd := 31 : CvtOp }.va < 31 ∧
     { narrow := false, fmt := 48, vd := 30, va := 30, ts := 31, site := 0, tileEnd := false, rd := 31 : CvtOp }.ts < 32 ∧
     { narrow := false, fmt := 48, vd := 30, va := 30, ts := 31, site := 0, tileEnd := false, rd := 31 : CvtOp }.rd < 32 ∧
     fmtOf { narrow := false, fmt := 48, vd := 30, va := 30, ts := 31, site := 0, tileEnd := false, rd := 31 : CvtOp }.fmt = some (Fmt.tb e2m1) ∧
     { narrow := false, fmt := 48, vd := 30, va := 30, ts := 31, site := 0, tileEnd := false, rd := 31 : CvtOp }.narrow = false ∧
     (Fmt.tb e2m1).perOp ≠ 32) ∧
    (Issues (live { vreg := [(30, 7)], sites := [1114129] : Cell }) cA 2 ∧
     { narrow := true, fmt := 17, vd := 30, va := 30, ts := 31, site := 0, tileEnd := false, rd := 31 : CvtOp }.vd < 31 ∧
     { narrow := true, fmt := 17, vd := 30, va := 30, ts := 31, site := 0, tileEnd := false, rd := 31 : CvtOp }.va < 31 ∧
     { narrow := true, fmt := 17, vd := 30, va := 30, ts := 31, site := 0, tileEnd := false, rd := 31 : CvtOp }.ts < 32 ∧
     { narrow := true, fmt := 17, vd := 30, va := 30, ts := 31, site := 0, tileEnd := false, rd := 31 : CvtOp }.rd < 32 ∧
     fmtOf { narrow := true, fmt := 17, vd := 30, va := 30, ts := 31, site := 0, tileEnd := false, rd := 31 : CvtOp }.fmt = some (Fmt.int 8) ∧
     { narrow := true, fmt := 17, vd := 30, va := 30, ts := 31, site := 0, tileEnd := false, rd := 31 : CvtOp }.narrow = true ∧
     (Fmt.int 8).width ≠ 32 ∧
     { narrow := true, fmt := 17, vd := 30, va := 30, ts := 31, site := 0, tileEnd := false, rd := 31 : CvtOp }.site < ((live { vreg := [(30, 7)], sites := [1114129] : Cell }).cell cA).sites.length ∧
     ((live { vreg := [(30, 7)], sites := [1114129] : Cell }).ctx cA).siteChk { narrow := true, fmt := 17, vd := 30, va := 30, ts := 31, site := 0, tileEnd := false, rd := 31 : CvtOp } = []) := by
  refine ⟨?_, ?_, ?_⟩ <;> decide +kernel

theorem test_hyps_SpecialFunctions :
    Issues (live { sfuFree := 100 : Cell }) cA 3 ∧ 31 < 32 ∧ 31 < 32 ∧ 31 < 32 ∧ 127 < 128 ∧
    ((live { sfuFree := 100 : Cell }).cell cA).sfuFree ≤ ((live { sfuFree := 100 : Cell }).ctx cA).n := by decide +kernel

theorem test_hyps_LoadsAndStores :
    (Issues live cA 4 ∧ 31 < 32 ∧ 31 < 32 ∧ 1 < 2 ∧ 196607 < 196608 ∧
     (live.ctx cA).clashNow ((live.ctx cA).access 2 3 4 (196607 / 32 * 32) 0 false) = [] ∧
     (live.cell cA).guardHit (196607 / 32 * 32) = none) ∧
    (3 < 32 ∧ 3 < 4) ∧
    (32767 < 32768 ∧ (live.ctx cA).clashNow ((live.ctx cA).access 3 3 4 (32767 / 64 * 64) 0 false) = []) ∧
    ((live.ctx cA).clashNow ((live.ctx cA).access 1 3 4 (((live.ctx cA).reg.windowBase + 16777215) % 2 ^ 20 / 64 * 64) 0 false) = []) := by
  refine ⟨?_, ?_, ?_, ?_⟩ <;> decide +kernel

theorem test_hyps_StagingMeshAndMoves :
    (Issues (live { stg0 := { size := 4, base := 6140 : Staging } : Cell }) cA 4 ∧ 31 < 32 ∧ 31 < 32 ∧ 1 < 2 ∧ 15 < 16 ∧
     (((live { stg0 := { size := 4, base := 6140 : Staging } : Cell }).cell cA).stg (((live { stg0 := { size := 4, base := 6140 : Staging } : Cell }).ctx cA).step % 2)).state < 2 ∧
     3 < (((live { stg0 := { size := 4, base := 6140 : Staging } : Cell }).cell cA).stg (((live { stg0 := { size := 4, base := 6140 : Staging } : Cell }).ctx cA).step % 2)).size) ∧
    (Issues (live { routes := [(3, { inn := 0, out := 7 : RouteEnt })] : Cell }) cA 4 ∧
     List.find? (fun (q : ℕ × RouteEnt) => q.1 == 3) ((live { routes := [(3, { inn := 0, out := 7 : RouteEnt })] : Cell }).cell cA).routes =
         some (3, { inn := 0, out := 7 : RouteEnt }) ∧
     (3, { inn := 0, out := 7 : RouteEnt }).2.inn = 0) ∧
    (Issues live cA 4) ∧
    (Issues (live { fifo := [(2, [{ tag := 0, data := 5 : FifoEnt }, { tag := 0, data := 6 : FifoEnt }])] : Cell } cE) cE 4 ∧ 1 ≤ 2 ∧
     2 < 5 ∧ neighbour cE 2 = some 64 ∧ hasLink cE 2 = true ∧ paneOfCell 64 ≠ paneOfCell cE ∧
     mget [] ((live { fifo := [(2, [{ tag := 0, data := 5 : FifoEnt }, { tag := 0, data := 6 : FifoEnt }])] : Cell } cE).cell cE).fifo 2 =
         [{ tag := 0, data := 5 : FifoEnt }, { tag := 0, data := 6 : FifoEnt }] ∧
     { tag := 0, data := 5 : FifoEnt }.tag = (((live { fifo := [(2, [{ tag := 0, data := 5 : FifoEnt }, { tag := 0, data := 6 : FifoEnt }])] : Cell } cE).ctx cE).beat + 3) % 4) := by
  refine ⟨?_, ?_, ?_, ?_⟩ <;> decide +kernel

theorem test_hyps_NoFreeCycleFails :
    (cellExists cA = true ∧ ((live { linkRun := [(4, 16)] : Cell }).runningRegion (paneOfCell cA)).isSome = true ∧
     16 ≤ mget 0 ((live { linkRun := [(4, 16)] : Cell }).cell cA).linkRun 4) ∧
    (((live { bankRun := [(18, 64)] : Cell }).runningRegion (paneOfCell cA)).isSome = true ∧
     64 ≤ mget 0 ((live { bankRun := [(18, 64)] : Cell }).cell cA).bankRun (16 * 1 + 2)) ∧
    (((live { portRun := [(3, 64)] : Cell }).runningRegion (paneOfCell cA)).isSome = true ∧
     64 ≤ mget 0 ((live { portRun := [(3, 64)] : Cell }).cell cA).portRun 3) := by
  refine ⟨?_, ?_, ?_⟩ <;> decide +kernel

theorem test_hyps_FailedCheckStopsTheRegion :
    live.regionOfCell cA = some 5 ∧ (live.region 5).state = 3 := by decide +kernel

theorem test_hyps_BeatsPausesStallsAndTheWatchdog :
    (0 < 786 ∧ (liveWith { power := 0, region := some 5, cond := RunCond.running, cyc := 32 : Pane }).runningRegion 0 = some 5 ∧
     ((liveWith { power := 0, region := some 5, cond := RunCond.running, cyc := 32 : Pane }).pane 0).cond = RunCond.running ∧
     ((liveWith { power := 0, region := some 5, cond := RunCond.running, cyc := 32 : Pane }).pane 0).cyc =
         ((liveWith { power := 0, region := some 5, cond := RunCond.running, cyc := 32 : Pane }).region 5).beatLen ∧
     ((liveWith { power := 0, region := some 5, cond := RunCond.running, cyc := 32 : Pane }).pane 0).beat ≠ ((liveWith { power := 0, region := some 5, cond := RunCond.running, cyc := 32 : Pane }).region 5).lastBeat) ∧
    ((liveWith { power := 0, region := some 5, cond := RunCond.complete, begun := 2, slotJ := 31 : Pane }).runningRegion 0 = some 5 ∧
     ((liveWith { power := 0, region := some 5, cond := RunCond.complete, begun := 2, slotJ := 31 : Pane }).pane 0).cond = RunCond.complete ∧
     (liveWith { power := 0, region := some 5, cond := RunCond.complete, begun := 2, slotJ := 31 : Pane }).neighboursDone 0 ((liveWith { power := 0, region := some 5, cond := RunCond.complete, begun := 2, slotJ := 31 : Pane }).region 5) = true) ∧
    ((liveWith { power := 0, region := some 5, cond := RunCond.paused 0, begun := 2 : Pane }).runningRegion 0 = some 5 ∧
     ((liveWith { power := 0, region := some 5, cond := RunCond.paused 0, begun := 2 : Pane }).pane 0).cond = RunCond.paused 0) ∧
    (0 ≤ 32) ∧
    (1 ≤ 32) ∧
    (31 ≤ 32) ∧
    (32 ≤ 32) ∧
    (pauseSlot ((liveWith { power := 0, region := some 5, slotJ := 31 : Pane } regionK).pane 0).slotJ ((liveWith { power := 0, region := some 5, slotJ := 31 : Pane } regionK).region 5).k = true) ∧
    (pauseSlot ((liveWith { power := 0, region := some 5, slotJ := 30 : Pane }).pane 0).slotJ ((liveWith { power := 0, region := some 5, slotJ := 30 : Pane }).region 5).k = false) ∧
    (((liveWith { power := 0, region := some 5, cond := RunCond.awaitStall [(cA, 31)], resumeAt := some 0 : Pane }).pane 0).cond =
        RunCond.awaitStall [(cA, 31)] ∧
     ((liveWith { power := 0, region := some 5, cond := RunCond.awaitStall [(cA, 31)], resumeAt := some 0 : Pane }).pane 0).resumeAt = some 0 ∧
     0 ≤ (liveWith { power := 0, region := some 5, cond := RunCond.awaitStall [(cA, 31)], resumeAt := some 0 : Pane }).time ∧
     (liveWith { power := 0, region := some 5, cond := RunCond.awaitStall [(cA, 31)], resumeAt := some 0 : Pane }).runningRegion 0 = some 5) ∧
    (((liveWith { power := 0, region := some 5, cond := RunCond.outStall, resumeAt := some 0 : Pane }).pane 0).cond = RunCond.outStall ∧
     ((liveWith { power := 0, region := some 5, cond := RunCond.outStall, resumeAt := some 0 : Pane }).pane 0).outWait = [] ∧
     ((liveWith { power := 0, region := some 5, cond := RunCond.outStall, resumeAt := some 0 : Pane }).pane 0).resumeAt = some 0 ∧
     0 ≤ (liveWith { power := 0, region := some 5, cond := RunCond.outStall, resumeAt := some 0 : Pane }).time ∧
     (liveWith { power := 0, region := some 5, cond := RunCond.outStall, resumeAt := some 0 : Pane }).runningRegion 0 = some 5) ∧
    (((liveWith { power := 0, region := some 5, outPort := [5] : Pane }).pane 0).outPort = [5] ∧
     ((liveWith { power := 0, region := some 5, outPort := [5] : Pane }).pane 0).outWait = [] ∧
     ((liveWith { power := 0, region := some 5, outPort := [5] : Pane }).pane 0).cond ≠ RunCond.outStall) ∧
    (((liveWith { power := 0, region := some 5, cond := RunCond.outStall, outPort := [5, 6], outWait := [7] : Pane }).pane 0).outPort = [5, 6] ∧
     ((liveWith { power := 0, region := some 5, cond := RunCond.outStall, outPort := [5, 6], outWait := [7] : Pane }).pane 0).outWait = [7] ∧
     ((liveWith { power := 0, region := some 5, cond := RunCond.outStall, outPort := [5, 6], outWait := [7] : Pane }).pane 0).cond =
         RunCond.outStall ∧
     ((liveWith { power := 0, region := some 5, cond := RunCond.outStall, outPort := [5, 6], outWait := [7] : Pane }).pane 0).resumeAt = none) ∧
    (5 < 64 ∧ ((stalled 4000001).region 5).holdSince = some 1 ∧ ((stalled 4000001).region 5).state = 3 ∧
     ((stalled 4000001).region 5).shifts = [] ∧ 1 + ms ((stalled 4000001).region 5).wdogMs ≤ (stalled 4000001).time ∧
     (stalled 4000001).stalledCells ((stalled 4000001).region 5) = [(cA, 1, 3, 2)]) := by
  refine ⟨?_, ?_, ?_, ?_, ?_, ?_, ?_, ?_, ?_, ?_, ?_, ?_, ?_, ?_⟩ <;> decide +kernel

theorem test_hyps_DeliveriesAndCellWindows :
    (5 < 64 ∧ ((liveWith pane5 regionD itemCell).region 5).deliveries[0]? = some deliv5 ∧
     (liveWith pane5 regionD itemCell).deliver 5 deliv5 = (((liveWith pane5 regionD itemCell).deliver 5 deliv5).1, true)) ∧
    (cellExists cA = true ∧ 3 ≠ 5 ∧
     List.findIdx? (fun (q : BgReq) => q.mem == 3) ((liveWith { power := 0, region := some 5 : Pane } region5 bgCell).cell cA).bg = some 1 ∧
     ((liveWith { power := 0, region := some 5 : Pane } region5 bgCell).cell cA).bg[1]? = some winReq ∧
     ((liveWith { power := 0, region := some 5 : Pane } region5 bgCell).pane (paneOfCell cA)).cond ≠ RunCond.running ∧
     3 ∉ ((liveWith { power := 0, region := some 5 : Pane } region5 bgCell).cell cA).granted ∧
     (liveWith { power := 0, region := some 5 : Pane } region5 bgCell).rowShifting cA = false ∧
     ((liveWith { power := 0, region := some 5 : Pane } region5 bgCell).pane (paneOfCell cA)).power = 0 ∧
     winReq.data = some [1, 2, 3, 4, 5, 6, 7, 8]) ∧
    ((∃ (src : ℕ) (req : Requester) (rtag : ℕ), winReq.purpose = BgFor.window src req rtag)) ∧
    ((live repCell).runningRegion (paneOfCell cA) = some 5 ∧ bitAt (BitVec.ofNat 64 (63 * 2 ^ 52)).toNat 31 = false ∧
     List.find? (fun (e : ℕ) => bits e 63 58 == bits (BitVec.ofNat 64 (63 * 2 ^ 52)).toNat 57 52) ((live repCell).cell cA).repeats =
         some (63 * 2 ^ 58 + 31 * 2 ^ 45 + 2 * 2 ^ 50) ∧
     bits (63 * 2 ^ 58 + 31 * 2 ^ 45 + 2 * 2 ^ 50) 49 45 ∉ ((live repCell).cell cA).taken ∧
     (mget ({} : RepeatState) ((live repCell).cell cA).repState (bits (BitVec.ofNat 64 (63 * 2 ^ 52)).toNat 57 52)).words + 1 =
         bits (63 * 2 ^ 58 + 31 * 2 ^ 45 + 2 * 2 ^ 50) 57 50) ∧
    (cellExists cZ = true ∧ addressed.accessor 2304 = some 0 ∧ addressed.windowAllowed cZ 0 = true ∧ addressed.rowShifting cZ = false ∧
     addressed.keeper.approved = false ∧ addressed.runState cZ ≤ 1 ∧ memDataCode (addressed.cell cZ).memAddr = 0 ∧
     bits (addressed.cell cZ).memAddr 63 60 ≠ 5) ∧
    ((owned live).accessor 2304 = some 0 ∧ (owned live).windowAllowed cA 0 = true ∧ (owned live).rowShifting cA = false) := by
  refine ⟨?_, ?_, ?_, ?_, ?_, ?_⟩
  · decide +kernel
  · decide +kernel
  · exact ⟨_, _, _, rfl⟩
  · decide +kernel
  · decide +kernel
  · decide +kernel

theorem test_hyps_DeadCellsAndRowShifts :
    (cellExists cZ = true ∧ (on.cell cZ).dead = false ∧ on.loadWriting (paneOfCell cZ) = none ∧ on.regionOfCell cZ = none) ∧
    (cellExists cA = true ∧ (live.cell cA).dead = false ∧ live.loadWriting (paneOfCell cA) = none ∧ live.regionOfCell cA = some 5 ∧
     (live.region 5).state = 3) ∧
    (5 < 64 ∧ ((liveWith { power := 0, region := some 5 : Pane } regionS).region 5).shifts = [shift5] ∧
     ((liveWith { power := 0, region := some 5 : Pane } regionS).region 5).image = none ∧
     ((liveWith { power := 0, region := some 5 : Pane } regionS).region 5).flight = none) := by
  refine ⟨?_, ?_, ?_⟩ <;> decide +kernel

theorem test_hyps_ListsAndCommonCommands :
    (live.boot.ready = true ∧ listMsg.kind = 0 ∧ listMsg.vc = 1 ∧ bits listMsg.addr 47 32 = 1 ∧ bits listMsg.addr 31 30 = 0 ∧
     bits listMsg.addr 21 0 = 0 ∧ (live.guest (bits listMsg.addr 29 24)).gstate = 1 ∧
     live.sourceBound (bits listMsg.addr 29 24) listMsg.src = true ∧ bits (leNat (List.take 32 listMsg.payload)) 255 240 = 17228 ∧
     bits (leNat (List.take 32 listMsg.payload)) 228 227 = bits listMsg.addr 23 22 ∧
     bits (leNat (List.take 32 listMsg.payload)) 130 0 = 0 ∧ 1 ≤ bits (leNat (List.take 32 listMsg.payload)) 239 229 ∧
     bits (leNat (List.take 32 listMsg.payload)) 239 229 ≤ 1024 ∧
     listMsg.payload.length = 32 + 32 * bits (leNat (List.take 32 listMsg.payload)) 239 229 ∧
     (live.queue (bits listMsg.addr 29 24) (bits listMsg.addr 23 22)).lists.length < 256) ∧
    (StartsWell (withList live 3 0 [{ word := cmd 0 0 : Entry }]) 3 0 0 (listOf [{ word := cmd 0 0 : Entry }]) 0 { word := cmd 0 0 : Entry }) ∧
    (StartsWell doneQ 3 0 1 (listOf [{ word := waitW 1 : Entry }]) 0 { word := waitW 1 : Entry } ∧
     (doneQ.begun 3 0 (listOf [{ word := waitW 1 : Entry }]) 0).waitMet 3 { word := waitW 1 : Entry }.word = true) ∧
    (StartsWell (withList live 3 0 [{ word := waitW 1 : Entry }]) 3 0 1 (listOf [{ word := waitW 1 : Entry }]) 0 { word := waitW 1 : Entry } ∧
     ((withList live 3 0 [{ word := waitW 1 : Entry }]).begun 3 0 (listOf [{ word := waitW 1 : Entry }]) 0).waitMet 3 { word := waitW 1 : Entry }.word = false) ∧
    (StartsWell (withList live 3 3 authThen) 3 3 2 (listOf authThen) 0 { word := cmd 2 (2 ^ 160) : Entry } ∧
     ((withList live 3 3 authThen).begun 3 3 (listOf authThen) 0).entry { guest := 3, engine := 3, seq := (listOf authThen).seq, idx := 0 + 1 : EntryId } = some { word := cmd 64 0 : Entry } ∧
     opCritical { word := cmd 64 0 : Entry }.op = true ∧ opListed 3 { word := cmd 64 0 : Entry }.op = true) ∧
    (3 < 64 ∧ 0 < 4 ∧
     (late (withList live 3 0 [waiting1]) (ms 1)).entry { guest := 3, engine := 0, seq := (listOf [waiting1]).seq, idx := 0 : EntryId } =
         some waiting1 ∧
     waiting1.op = 1 ∧ waiting1.prog = 1 ∧
     waiting1.startAt + ms (bits waiting1.word 173 158) ≤ (late (withList live 3 0 [waiting1]) (ms 1)).time) ∧
    (recorded.outbox[0]? = some rec3 ∧ rec3.queue = some (3, 0) ∧ rec3.time + ms 2 ≤ recorded.time) := by
  refine ⟨?_, ?_, ?_, ?_, ?_, ?_, ?_⟩ <;> decide +kernel

theorem test_hyps_StepEngineEntries :
    (StartsWell (asks 0 stepW) 3 0 16 (listOf [one stepW]) 0 (one stepW) ∧
     ((asks 0 stepW).begun 3 0 (listOf [one stepW]) 0).regionOk 3 (bits (one stepW).word 223 218) [2, 3] = true ∧
     (((asks 0 stepW).begun 3 0 (listOf [one stepW]) 0).region (bits (one stepW).word 223 218)).power.force ≠ 2) ∧
    (StartsWell (asks 0 prefillW) 3 0 17 (listOf [one prefillW]) 0 (one prefillW) ∧
     ((asks 0 prefillW).begun 3 0 (listOf [one prefillW]) 0).regionOk 3 (bits (one prefillW).word 223 218) [2, 3] = true ∧
     (((asks 0 prefillW).begun 3 0 (listOf [one prefillW]) 0).region (bits (one prefillW).word 223 218)).power.force ≠ 2 ∧
     bits (one prefillW).word 213 200 < (((asks 0 prefillW).begun 3 0 (listOf [one prefillW]) 0).region (bits (one prefillW).word 223 218)).slotsMax) ∧
    (StartsWell (asks 0 openW) 3 0 18 (listOf [one openW]) 0 (one openW) ∧
     ((asks 0 openW).begun 3 0 (listOf [one openW]) 0).regionOk 3 (bits (one openW).word 223 218) [2, 3] = true ∧
     bits (one openW).word 217 204 < (((asks 0 openW).begun 3 0 (listOf [one openW]) 0).region (bits (one openW).word 223 218)).slotsMax) ∧
    (StartsWell (asks 0 closeW) 3 0 19 (listOf [one closeW]) 0 (one closeW) ∧
     ((asks 0 closeW).begun 3 0 (listOf [one closeW]) 0).regionOk 3 (bits (one closeW).word 223 218) [2, 3, 4] = true ∧
     bits (one closeW).word 217 204 < (((asks 0 closeW).begun 3 0 (listOf [one closeW]) 0).region (bits (one closeW).word 223 218)).slotsMax ∧
     (((asks 0 closeW).begun 3 0 (listOf [one closeW]) 0).pushOp (bits (one closeW).word 223 218) (bits (one closeW).word 217 204) { guest := 3, engine := 0, seq := (listOf [one closeW]).seq, idx := 0 : EntryId } 19).opReady (bits (one closeW).word 223 218) (bits (one closeW).word 217 204) { guest := 3, engine := 0, seq := (listOf [one closeW]).seq, idx := 0 : EntryId } 19 = true) ∧
    (StartsWell (asks 0 cancelW) 3 0 20 (listOf [one cancelW]) 0 (one cancelW) ∧ bitAt (one cancelW).word 203 = false ∧
     ((asks 0 cancelW).begun 3 0 (listOf [one cancelW]) 0).regionOk 3 (bits (one cancelW).word 223 218) [2, 3, 4] = true ∧
     bits (one cancelW).word 217 204 < (((asks 0 cancelW).begun 3 0 (listOf [one cancelW]) 0).region (bits (one cancelW).word 223 218)).slotsMax) ∧
    (StartsWell (asks 0 cancelAllW) 3 0 20 (listOf [one cancelAllW]) 0 (one cancelAllW) ∧ bitAt (one cancelAllW).word 203 = true ∧
     ((asks 0 cancelAllW).begun 3 0 (listOf [one cancelAllW]) 0).regionOk 3 (bits (one cancelAllW).word 223 218) [2, 3, 4] = true) := by
  refine ⟨?_, ?_, ?_, ?_, ?_, ?_⟩ <;> decide +kernel

theorem test_hyps_CacheEngineEntries :
    (((asks 2 parkW).begun 3 2 (listOf [one parkW]) 0).regionOk 3 (bits (one parkW).word 223 218) [2, 3, 4] = true ∧
     StartsWell (asks 2 parkW) 3 2 48 (listOf [one parkW]) 0 (one parkW) ∧
     bits (one parkW).word 217 204 < (((asks 2 parkW).begun 3 2 (listOf [one parkW]) 0).region (bits (one parkW).word 223 218)).slotsMax ∧
     (((asks 2 parkW).begun 3 2 (listOf [one parkW]) 0).pushOp (bits (one parkW).word 223 218) (bits (one parkW).word 217 204) { guest := 3, engine := 2, seq := (listOf [one parkW]).seq, idx := 0 : EntryId } 48).opReady (bits (one parkW).word 223 218) (bits (one parkW).word 217 204) { guest := 3, engine := 2, seq := (listOf [one parkW]).seq, idx := 0 : EntryId } 48 = true) ∧
    (((asks 2 resumeW).begun 3 2 (listOf [one resumeW]) 0).regionOk 3 (bits (one resumeW).word 223 218) [2, 3, 4] = true ∧
     StartsWell (asks 2 resumeW) 3 2 49 (listOf [one resumeW]) 0 (one resumeW)) ∧
    (((asks 2 forkW).begun 3 2 (listOf [one forkW]) 0).regionOk 3 (bits (one forkW).word 223 218) [2, 3, 4] = true ∧
     StartsWell (asks 2 forkW) 3 2 50 (listOf [one forkW]) 0 (one forkW) ∧
     bits (one forkW).word 217 204 < (((asks 2 forkW).begun 3 2 (listOf [one forkW]) 0).region (bits (one forkW).word 223 218)).slotsMax ∧
     bits (one forkW).word 203 190 < (((asks 2 forkW).begun 3 2 (listOf [one forkW]) 0).region (bits (one forkW).word 223 218)).slotsMax ∧
     bits (one forkW).word 203 190 ≠ bits (one forkW).word 217 204 ∧
     ((((asks 2 forkW).begun 3 2 (listOf [one forkW]) 0).pushOp (bits (one forkW).word 223 218) (bits (one forkW).word 203 190) { guest := 3, engine := 2, seq := (listOf [one forkW]).seq, idx := 0 : EntryId } 50).pushOp (bits (one forkW).word 223 218) (bits (one forkW).word 217 204) { guest := 3, engine := 2, seq := (listOf [one forkW]).seq, idx := 0 : EntryId } 50).opReady (bits (one forkW).word 223 218) (bits (one forkW).word 217 204) { guest := 3, engine := 2, seq := (listOf [one forkW]).seq, idx := 0 : EntryId } 50 = true) ∧
    (((asks 2 trimW).begun 3 2 (listOf [one trimW]) 0).regionOk 3 (bits (one trimW).word 223 218) [2, 3, 4] = true ∧
     StartsWell (asks 2 trimW) 3 2 51 (listOf [one trimW]) 0 (one trimW) ∧
     bits (one trimW).word 217 204 < (((asks 2 trimW).begun 3 2 (listOf [one trimW]) 0).region (bits (one trimW).word 223 218)).slotsMax ∧
     (((asks 2 trimW).begun 3 2 (listOf [one trimW]) 0).pushOp (bits (one trimW).word 223 218) (bits (one trimW).word 217 204) { guest := 3, engine := 2, seq := (listOf [one trimW]).seq, idx := 0 : EntryId } 51).opReady (bits (one trimW).word 223 218) (bits (one trimW).word 217 204) { guest := 3, engine := 2, seq := (listOf [one trimW]).seq, idx := 0 : EntryId } 51 = true) ∧
    (5 < 64 ∧ 16383 < 16384 ∧ ((waitOn 19 16383).slot 5 16383).ops = [({ guest := 3, engine := 2, seq := 1, idx := 0 : EntryId }, 19)] ∧
     (waitOn 19 16383).opReady 5 16383 { guest := 3, engine := 2, seq := 1, idx := 0 : EntryId } 19 = true ∧ 19 = 19) ∧
    (((waitOn 48 16383).slot 5 16383).ops = [({ guest := 3, engine := 2, seq := 1, idx := 0 : EntryId }, 48)] ∧
     (waitOn 48 16383).opReady 5 16383 { guest := 3, engine := 2, seq := 1, idx := 0 : EntryId } 48 = true ∧ 48 = 48) ∧
    (0 < 16384 ∧ (waitFork.slot 5 0).ops = [({ guest := 3, engine := 2, seq := 1, idx := 0 : EntryId }, 50)] ∧
     waitFork.opReady 5 0 { guest := 3, engine := 2, seq := 1, idx := 0 : EntryId } 50 = true ∧ 50 = 50 ∧
     0 = bits (waitFork.wordOf { guest := 3, engine := 2, seq := 1, idx := 0 : EntryId }) 217 204) ∧
    (((waitOn 51 16383).slot 5 16383).ops = [({ guest := 3, engine := 2, seq := 1, idx := 0 : EntryId }, 51)] ∧
     (waitOn 51 16383).opReady 5 16383 { guest := 3, engine := 2, seq := 1, idx := 0 : EntryId } 51 = true ∧ 51 = 51) := by
  refine ⟨?_, ?_, ?_, ?_, ?_, ?_, ?_, ?_⟩ <;> decide +kernel

theorem test_hyps_RegionsLoadAndRelease :
    (Authorised (signedBy live 3 3 loadW) 3 3 64 (listS live 3 loadW) 1 (one loadW) (authOf live 3 loadW) (acceptedBy live 3 3 loadW) ∧
     ((acceptedBy live 3 3 loadW).region (bits (one loadW).word 223 218)).state = 0) ∧
    (5 < 64 ∧ ((copying 2).region 5).load = some (load5 2) ∧ (load5 2).phase = 2 ∧ glazing.length = (load5 2).len ∧
     structureOk glazing (load5 2).len = true) ∧
    (((copying 3).region 5).load = some (load5 3) ∧ (load5 3).phase = 3 ∧ (copying 3).keeper.st = 2 ∧
     (copying 3).loadVerdict 5 (load5 3) true = Except.ok (im5, [0]) ∧ ([0].all fun (p : ℕ) => ((copying 3).pane p).power == 0) = true) ∧
    (((late admReq5 (ms 100)).region 5).load = some (load5 4) ∧ (load5 4).phase = 4 ∧
     ((late admReq5 (ms 100)).region 5).power.req.isSome = true ∧ (load5 4).since + ms 100 ≤ (late admReq5 (ms 100)).time) ∧
    (((copying 5).region 5).load = some (load5 5) ∧ (load5 5).phase = 5) ∧
    (Authorised (signedBy live 3 3 relW) 3 3 65 (listS live 3 relW) 1 (one relW) (authOf live 3 relW) (acceptedBy live 3 3 relW) ∧
     (acceptedBy live 3 3 relW).regionOk 3 (bits (one relW).word 223 218) [2, 3, 4] = true) ∧
    ((releasing.region 5).state = 5 ∧ (releasing.region 5).shifts = [] ∧ (releasing.region 5).loadPending = []) := by
  refine ⟨?_, ?_, ?_, ?_, ?_, ?_, ?_⟩
  · exact ⟨authorised _ _ _ _ _ rfl (by decide) ⟨by decide, by decide, rfl, by decide, by decide +kernel, rfl⟩ (by decide) (by decide) rfl, by rw [accepted_is _ _ _ _ rfl (by decide)]; decide +kernel⟩
  · exact ⟨by decide +kernel, rfl, by decide +kernel, by decide +kernel, by decide +kernel⟩
  · exact ⟨rfl, by decide +kernel, by decide +kernel, ok_of [0] (by decide +kernel), by decide +kernel⟩
  · exact ⟨rfl, by decide +kernel, by decide +kernel, by decide +kernel⟩
  · exact ⟨rfl, by decide +kernel⟩
  · exact ⟨authorised _ _ _ _ _ rfl (by decide) ⟨by decide, by decide, rfl, by decide, by decide +kernel, rfl⟩ (by decide) (by decide) rfl, by rw [accepted_is _ _ _ _ rfl (by decide)]; decide +kernel⟩
  · decide +kernel

theorem test_hyps_GuestsComeAndGo :
    (Authorised (signedBy live 0 3 createW) 0 3 72 (listS live 0 createW) 1 (one createW) (authOf live 0 createW) (acceptedBy live 0 3 createW) ∧
     (acceptedBy live 0 3 createW).keeper.tap ≠ 2 ∧ ((acceptedBy live 0 3 createW).guest (bits (one createW).word 223 218)).gstate = 0) ∧
    (Authorised (signedBy live 0 3 limitsW) 0 3 74 (listS live 0 limitsW) 1 (one limitsW) (authOf live 0 limitsW) (acceptedBy live 0 3 limitsW) ∧
     ((acceptedBy live 0 3 limitsW).guest (bits (one limitsW).word 223 218)).gstate = 1) ∧
    (Authorised (signedBy live 0 3 deleteW) 0 3 73 (listS live 0 deleteW) 1 (one deleteW) (authOf live 0 deleteW) (acceptedBy live 0 3 deleteW) ∧
     ((acceptedBy live 0 3 deleteW).guest (bits (one deleteW).word 223 218)).gstate = 1) ∧
    (63 < 64 ∧ (deleting.guest 63).gstate = 2 ∧
     (List.any deleting.regions fun (q : ℕ × Region) => q.2.guest == 63 && q.2.state != 0) = false ∧
     (deleting.guest 63).delEntry = none ∧ (deleting.guest 63).createWait = [] ∧ deleting.keeper.zeroing = none) := by
  refine ⟨?_, ?_, ?_, ?_⟩
  · exact ⟨authorised _ _ _ _ _ rfl (by decide) ⟨by decide, by decide, rfl, by decide, by decide +kernel, rfl⟩ (by decide) (by decide) rfl, by rw [accepted_is _ _ _ _ rfl (by decide)]; decide +kernel, by rw [accepted_is _ _ _ _ rfl (by decide)]; decide +kernel⟩
  · exact ⟨authorised _ _ _ _ _ rfl (by decide) ⟨by decide, by decide, rfl, by decide, by decide +kernel, rfl⟩ (by decide) (by decide) rfl, by rw [accepted_is _ _ _ _ rfl (by decide)]; decide +kernel⟩
  · exact ⟨authorised _ _ _ _ _ rfl (by decide) ⟨by decide, by decide, rfl, by decide, by decide +kernel, rfl⟩ (by decide) (by decide) rfl, by rw [accepted_is _ _ _ _ rfl (by decide)]; decide +kernel⟩
  · decide +kernel

theorem test_hyps_AcceptedPairTakesItsCounter :
    (keyed on 63).checkPair 63 1 (tag1 on 63 [7]) [7] = (((keyed on 63).checkPair 63 1 (tag1 on 63 [7]) [7]).1, true) := by decide +kernel

theorem test_hyps_StepsAreAdmitted :
    5 < 64 ∧ ((late (served5 regionA) (ms 100)).region 5).runs = [run0] ∧ (late (served5 regionA) (ms 100)).mayAdmit 5 = true ∧
    run0.prefill = false ∧ ((late (served5 regionA) (ms 100)).region 5).tplOf run0.tpl = some tpl0 ∧ tpl0.kind = 1 ∧
    ((late (served5 regionA) (ms 100)).region 5).shards ≠ 0 ∧ ((late (served5 regionA) (ms 100)).region 5).swings = [] ∧
    ((late (served5 regionA) (ms 100)).region 5).current = some (0, { state := 3, owner := 3, gen := 9 : Window }) ∧
    ((late (served5 regionA) (ms 100)).region 5).slots = [] := by decide +kernel

theorem test_hyps_StepsRunCommitAndVerify :
    (5 < 64 ∧ ((atStep flight0 2).region 5).flight = some flight0 ∧ flight0.started = false ∧ ((atStep flight0 2).region 5).state = 2 ∧
     ((atStep flight0 2).region 5).shifts = [] ∧ ((atStep flight0 2).region 5).isOpen = true) ∧
    (((atStep begun0).region 5).flight = some begun0 ∧ begun0.started = true ∧
     (begun0.positions[bits (shardHeader shard0) 127 106]?.bind fun (x : StepPos) => x.slot) = some 0 ∧
     bits (shardHeader shard0) 105 98 < ((atStep begun0).region 5).shards ∧
     bits (shardHeader shard0) 97 87 ≤ ((atStep begun0).region 5).cand ∧ shard0.length = 16 + 8 * bits (shardHeader shard0) 97 87 ∧
     mget [] begun0.cands (bits (shardHeader shard0) 127 106) = []) ∧
    (((atStep cands0).region 5).flight = some cands0 ∧ cands0.positions[0]? = some { slot := some 0, pos := 3, token := 7 : StepPos } ∧
     { slot := some 0, pos := 3, token := 7 : StepPos }.slot = some 0 ∧ 0 ∈ cands0.sampledAt ∧ mhas cands0.sampled 0 = false ∧
     (mget [] cands0.cands 0).length = ((atStep cands0).region 5).shards) ∧
    (((atStep over0).region 5).flight = some over0 ∧ over0.beatsOver = true ∧
     (over0.sampledAt.all fun (q : ℕ) => mhas over0.sampled q) = true) ∧
    (((atStep empty0).region 5).flight = some empty0 ∧
     ((atStep empty0).region 5).kv[0]? = some { layer := 0, fmt := 1, firstCell := 0, cells := 0, offset := 0, units := 4, item := 2, frames := 3 : KvLayer } ∧
     0 ∉ empty0.kvReady ∧ empty0.positions = []) ∧
    ((scattering.region 5).scatters = [{ step := 7, stg := 1, rows := [] : Scatter }] ∧ (scattering.region 5).kv = [] ∧
     scattering.cells = [] ∧ { step := 7, stg := 1, rows := [] : Scatter }.rows = []) ∧
    (4194303 < 4194304 ∧ ((reclaiming 0).desc 4194303).reclaim = true ∧ (reclaiming 0).descPassed 4194303 = true ∧
     ((reclaiming 0).desc 4194303).tier = 0) ∧
    (((reclaiming 1).desc 4194303).reclaim = true ∧ (reclaiming 1).descPassed 4194303 = true ∧ ((reclaiming 1).desc 4194303).tier ≠ 0) ∧
    (65535 < 65536 ∧ (mget ({} : ParkRec) parked.cache.parks 65535).state = 1 ∧
     (mget ({} : ParkRec) parked.cache.parks 65535).expiry ≤ parked.nowNs) ∧
    (isPair (pairMsg 1 (3 * 2 ^ 114 + 18 * 2 ^ 90 + 99 * 2 ^ 72)) 1 = true ∧
     (paired 0 [1, 2, 3, 4, 5, 6, 7]).pairAccepts (pairMsg 1 (3 * 2 ^ 114 + 18 * 2 ^ 90 + 99 * 2 ^ 72)) 0 = true ∧
     ((paired 0 [1, 2, 3, 4, 5, 6, 7]).slot (pairDest (pairMsg 1 (3 * 2 ^ 114 + 18 * 2 ^ 90 + 99 * 2 ^ 72))) (bits (leAt (pairMsg 1 (3 * 2 ^ 114 + 18 * 2 ^ 90 + 99 * 2 ^ 72)).payload 0 16) 127 114)).state ≠ 0 ∧
     ((paired 0 [1, 2, 3, 4, 5, 6, 7]).slot (pairDest (pairMsg 1 (3 * 2 ^ 114 + 18 * 2 ^ 90 + 99 * 2 ^ 72))) (bits (leAt (pairMsg 1 (3 * 2 ^ 114 + 18 * 2 ^ 90 + 99 * 2 ^ 72)).payload 0 16) 127 114)).drafts.length < 8 ∧
     bits (leAt (pairMsg 1 (3 * 2 ^ 114 + 18 * 2 ^ 90 + 99 * 2 ^ 72)).payload 0 16) 113 90 = ((paired 0 [1, 2, 3, 4, 5, 6,
         7]).slot (pairDest (pairMsg 1 (3 * 2 ^ 114 + 18 * 2 ^ 90 + 99 * 2 ^ 72))) (bits (leAt (pairMsg 1 (3 * 2 ^ 114 + 18 * 2 ^ 90 + 99 * 2 ^ 72)).payload 0 16) 127 114)).length + 1 + ((paired 0 [1, 2, 3, 4, 5, 6, 7]).slot (pairDest (pairMsg 1 (3 * 2 ^ 114 + 18 * 2 ^ 90 + 99 * 2 ^ 72))) (bits (leAt (pairMsg 1 (3 * 2 ^ 114 + 18 * 2 ^ 90 + 99 * 2 ^ 72)).payload 0 16) 127 114)).drafts.length) ∧
    (isPair (pairMsg 2 (3 * 2 ^ 114 + 9 * 2 ^ 90 + 99 * 2 ^ 72 + 8 * 2 ^ 68)) 2 = true ∧
     (paired 1 []).pairAccepts (pairMsg 2 (3 * 2 ^ 114 + 9 * 2 ^ 90 + 99 * 2 ^ 72 + 8 * 2 ^ 68)) 1 = true ∧
     ((paired 1 []).slot (pairDest (pairMsg 2 (3 * 2 ^ 114 + 9 * 2 ^ 90 + 99 * 2 ^ 72 + 8 * 2 ^ 68))) (bits (leAt (pairMsg 2 (3 * 2 ^ 114 + 9 * 2 ^ 90 + 99 * 2 ^ 72 + 8 * 2 ^ 68)).payload 0 16) 127 114)).state ≠ 0) ∧
    (isPair (pairMsg 1 0) 1 = true ∧ (paired 1 []).pairAccepts (pairMsg 1 0) 0 = false) ∧
    (isPair (pairMsg 2 0) 2 = true ∧ (paired 0 []).pairAccepts (pairMsg 2 0) 1 = false) := by
  refine ⟨?_, ?_, ?_, ?_, ?_, ?_, ?_, ?_, ?_, ?_, ?_, ?_, ?_⟩ <;> decide +kernel

theorem test_hyps_SamplingSourcesAndEntries :
    (3 < 64 ∧ (source0 0 ({} : MaskSource)).accessor 291 = some 3 ∧ (3 = 0 ∨ 3 = 3) ∧
     bits (2 ^ 62 + 767 * 2 ^ 52 + 4096 * 2 ^ 20) 63 62 = 1 ∧ bits (2 ^ 62 + 767 * 2 ^ 52 + 4096 * 2 ^ 20) 61 52 < 768 ∧
     ((source0 0 ({} : MaskSource)).source (bits (2 ^ 62 + 767 * 2 ^ 52 + 4096 * 2 ^ 20) 61 52)).state = 0) ∧
    ((source0 767 { state := 2, guest := 3, len := 9 : MaskSource }).accessor 2304 = some 0 ∧ (0 = 0 ∨ 0 = 3) ∧
     bits (2 * 2 ^ 62 + 767 * 2 ^ 52) 63 62 = 2 ∧ bits (2 * 2 ^ 62 + 767 * 2 ^ 52) 61 52 < 768 ∧
     ((source0 767 { state := 2, guest := 3, len := 9 : MaskSource }).source (bits (2 * 2 ^ 62 + 767 * 2 ^ 52) 61 52)).state = 2 ∧
     ((source0 767 { state := 2, guest := 3, len := 9 : MaskSource }).source (bits (2 * 2 ^ 62 + 767 * 2 ^ 52) 61 52)).guest = 3 ∧
     (source0 767 { state := 2, guest := 3, len := 9 : MaskSource }).maskRefs (bits (2 * 2 ^ 62 + 767 * 2 ^ 52) 61 52) = 0) ∧
    (255 < 256) ∧
    (767 < 768 ∧ ((source0 767 { state := 1, guest := 3, len := 9 : MaskSource }).source 767).state = 1) ∧
    ((fetched.source 767).state = 1 ∧ maskBits.length = (fetched.source 767).len ∧ maskImageOk 767 maskBits = true ∧
     fetched.twoCopies (fetched.source 767).guest (ceilDiv maskBits.length 4096) = some (copies.1, copies.2.1, copies.2.2)) := by
  refine ⟨?_, ?_, ?_, ?_, ?_⟩ <;> decide +kernel

theorem test_hyps_HbmAccessesTargetsAndCounters :
    (live.hbmGate 1535999999999 = HbmGate.go) ∧
    (23 < 24 ∧ ((withCtl 23 { held := [heldRead] : HbmCtl }).hctl 23).held[0]? = some heldRead) ∧
    (374999999 < 375000000 ∧
     (pendingZero.extents.any fun (x : Extent) => x.st == 2 && decide (x.start ≤ 374999999 ∧ 374999999 < x.start + x.len)) = true) ∧
    ((withCtl 23 ({} : HbmCtl)).accessor 2304 = some 0 ∧ bits (2 ^ 62 + 31 * 2 ^ 56) 63 62 = 1 ∧ pwrBank (2 ^ 62 + 31 * 2 ^ 56) = none ∧
     (((withCtl 23 ({} : HbmCtl)).hctl 23).target (pwrChannel (2 ^ 62 + 31 * 2 ^ 56)) none).state = 0 ∧
     (withCtl 23 ({} : HbmCtl)).targetHas 23 (pwrChannel (2 ^ 62 + 31 * 2 ^ 56)) none 1 = false) ∧
    ((withCtl 23 { chans := [(31, { state := 2 : HbmTarget })] : HbmCtl }).accessor 2304 = some 0 ∧
     bits (2 ^ 63 + 31 * 2 ^ 56) 63 62 = 2 ∧ pwrBank (2 ^ 63 + 31 * 2 ^ 56) = none ∧
     (((withCtl 23 { chans := [(31, { state := 2 : HbmTarget })] : HbmCtl }).hctl 23).target (pwrChannel (2 ^ 63 + 31 * 2 ^ 56)) none).state = 2) ∧
    (31 < 32 ∧ none.getD 0 < 64 ∧
     (((withCtl 23 { chans := [(31, { state := 1 : HbmTarget })] : HbmCtl }).hctl 23).target 31 none).state = 1 ∧
     (((withCtl 23 { chans := [(31, { state := 1 : HbmTarget })] : HbmCtl }).hctl 23).target 31 none).pend ≠ 1 ∧
     (withCtl 23 { chans := [(31, { state := 1 : HbmTarget })] : HbmCtl }).targetHas 23 31 none 2 = false) ∧
    ((some 63).getD 0 < 64 ∧
     (((withCtl 23 { banks := [(64 * 31 + 63, { state := 1 : HbmTarget })] : HbmCtl }).hctl 23).target 31 (some 63)).state = 1 ∧
     (((withCtl 23 { banks := [(64 * 31 + 63, { state := 1 : HbmTarget })] : HbmCtl }).hctl 23).target 31 (some 63)).pend ≠ 1 ∧
     (withCtl 23 { banks := [(64 * 31 + 63, { state := 1 : HbmTarget })] : HbmCtl }).targetHas 23 31 (some 63) 2 = false) ∧
    ((((withCtl 23 { chans := [(31, { state := 3 : HbmTarget })] : HbmCtl }).hctl 23).target 31 none).state = 3 ∧
     (((withCtl 23 { chans := [(31, { state := 3 : HbmTarget })] : HbmCtl }).hctl 23).target 31 none).pend ≠ 2) ∧
    ((95 < if true = true then 96 else 24) ∧ (owned on).accessor 2304 = some 0 ∧ 1 ≤ bits (1000000 * 2 ^ 44) 63 44 ∧
     bits (1000000 * 2 ^ 44) 63 44 ≤ 1000000) ∧
    ((23 < if false = true then 96 else 24) ∧ 1 ≤ bits (2 ^ 44) 63 44 ∧ bits (2 ^ 44) 63 44 ≤ 1000000) ∧
    (((late on (us 1000)).bwBlock true 95).startAt + us ((late on (us 1000)).bwBlock true 95).window ≤ (late on (us 1000)).time) ∧
    (cellExists cA = true ∧ (owned live).accessor 291 = some 3 ∧ (owned live).windowAllowed cA 3 = true ∧
     (owned live).rowShifting cA = false) := by
  refine ⟨?_, ?_, ?_, ?_, ?_, ?_, ?_, ?_, ?_, ?_, ?_, ?_⟩ <;> decide +kernel

theorem test_hyps_MemoryWriteFrame :
    (mem4.wf = true ∧ 2 < bytes3.length ∧ 6 = 4 + 2) ∧
    ((4 < 5 ∨ 5 + bytes3.length ≤ 4)) := by
  refine ⟨?_, ?_⟩ <;> decide +kernel

theorem test_hyps_WeightEntriesManifestsAndShards :
    (StartsWell (asks 1 wloadS) 3 1 32 (listOf [one wloadS]) 0 (one wloadS) ∧
     (asks 1 wloadS).begun 3 1 (listOf [one wloadS]) 0 = (asks 1 wloadS).begun 3 1 (listOf [one wloadS]) 0 ∧
     bits (one wloadS).word 207 206 = 0 ∧ ((asks 1 wloadS).begun 3 1 (listOf [one wloadS]) 0).weight.gens.length < 256 ∧
     { id := ((asks 1 wloadS).begun 3 1 (listOf [one wloadS]) 0).weight.nextId, entry := some { guest := 3, engine := 1, seq := (listOf [one wloadS]).seq, idx := 0 : EntryId }, guest := 3, gen := bits (one wloadS).word 223 208, target := 0, region := bits (one wloadS).word 205 200, srcFa := bits (one wloadS).word 199 184, srcAddr := bits (one wloadS).word 183 136, fwdFa := bits (one wloadS).word 135 120, startAt := ((asks 1 wloadS).begun 3 1 (listOf [one wloadS]) 0).time, holdAt := ((asks 1 wloadS).begun 3 1 (listOf [one wloadS]) 0).time : WloadRec }.downstream = false) ∧
    (StartsWell (asks 1 wloadW) 3 1 32 (listOf [one wloadW]) 0 (one wloadW) ∧
     (asks 1 wloadW).begun 3 1 (listOf [one wloadW]) 0 = (asks 1 wloadW).begun 3 1 (listOf [one wloadW]) 0 ∧
     bits (one wloadW).word 207 206 = 0 ∧ ((asks 1 wloadW).begun 3 1 (listOf [one wloadW]) 0).weight.gens.length < 256 ∧
     { id := ((asks 1 wloadW).begun 3 1 (listOf [one wloadW]) 0).weight.nextId, entry := some { guest := 3, engine := 1, seq := (listOf [one wloadW]).seq, idx := 0 : EntryId }, guest := 3, gen := bits (one wloadW).word 223 208, target := 0, region := bits (one wloadW).word 205 200, srcFa := bits (one wloadW).word 199 184, srcAddr := bits (one wloadW).word 183 136, fwdFa := bits (one wloadW).word 135 120, startAt := ((asks 1 wloadW).begun 3 1 (listOf [one wloadW]) 0).time, holdAt := ((asks 1 wloadW).begun 3 1 (listOf [one wloadW]) 0).time : WloadRec }.downstream = true) ∧
    (Authorised (signedBy swinging 3 1 swingW) 3 1 33 (listS swinging 3 swingW) 1 (one swingW) (authOf swinging 3 swingW) (acceptedBy swinging 3 1 swingW) ∧
     (acceptedBy swinging 3 1 swingW).regionOk 3 (bits (one swingW).word 207 202) [2, 3] = true ∧
     (acceptedBy swinging 3 1 swingW).generation 3 (bits (one swingW).word 223 208) = some genA ∧
     ((acceptedBy swinging 3 1 swingW).region (bits (one swingW).word 207 202)).image = some { wlayout := zeros 16 : Image } ∧
     parseManifest genA.manifest = some parsedA ∧ parsedA.layout = { wlayout := zeros 16 : Image }.wlayout ∧
     ((acceptedBy swinging 3 1 swingW).region (bits (one swingW).word 207 202)).windowOf 3 (bits (one swingW).word 223 208) = some 1 ∧
     (lget ({} : Window) ((acceptedBy swinging 3 1 swingW).region (bits (one swingW).word 207 202)).windows 1).state ≠ 3) ∧
    (StartsWell retiring 3 1 34 (listOf [one retireW]) 0 (one retireW) ∧
     retiring.begun 3 1 (listOf [one retireW]) 0 = retiring.begun 3 1 (listOf [one retireW]) 0 ∧
     (retiring.begun 3 1 (listOf [one retireW]) 0).generation 3 (bits (one retireW).word 223 208) = some gen9 ∧
     (retiring.begun 3 1 (listOf [one retireW]) 0).genInUse 3 (bits (one retireW).word 223 208) = false ∧ gen9.runs = []) ∧
    (loadingK.wload 7 = some wload7 ∧ wload7.phase = 0 ∧ loadingK.keeper.st = 2 ∧ parseManifest manifest9 = some parsed9 ∧
     loadingK.manifestVerdict wload7 manifest9 true = 0 ∧ loadingK.generation wload7.guest wload7.gen = none ∧
     loadingK.weight.gens.length < 256 ∧ wload7.target = 0 ∧
     wload7.downstream = false ∧ wload7.held = [] ∧ parsed9.blobLen ≠ 0 ∧
     loadingK.settleHolds.allocCopy wload7.guest (ceilDiv parsed9.blobLen 4096) = some (room.1, room.2)) ∧
    ((loading (shardsOf 7 1)).wload 7 = some (shardsOf 7 1) ∧ (shardsOf 7 1).man = some parsed9 ∧ (shardsOf 7 1).phase = 1 ∧
     (lget ({} : ShardRec) (shardsOf 7 1).shards 0).state = 1 ∧ (lget ({} : ShardRec) (shardsOf 7 1).shards 0).source < 8) ∧
    ((loading (shardsOf 0 1) (ms 2000)).wload 7 = some (shardsOf 0 1) ∧ (shardsOf 0 1).man = some parsed9 ∧ (shardsOf 0 1).phase = 1 ∧
     (lget ({} : ShardRec) (shardsOf 0 1).shards 0).state = 1 ∧
     (lget ({} : ShardRec) (shardsOf 0 1).shards 0).at_ + ms parsed9.timeout ≤ (loading (shardsOf 0 1) (ms 2000)).time) := by
  refine ⟨?_, ?_, ?_, ?_, ?_, ?_, ?_⟩
  · exact ⟨by decide +kernel, rfl, by decide +kernel, by decide +kernel, by decide +kernel⟩
  · exact ⟨by decide +kernel, rfl, by decide +kernel, by decide +kernel, by decide +kernel⟩
  · exact ⟨authorised _ _ _ _ _ rfl (by decide) ⟨by decide, by decide, rfl, by decide, by decide +kernel, rfl⟩ (by decide) (by decide) rfl, by rw [accepted_is _ _ _ _ rfl (by decide)]; decide +kernel, eq_some_getD (by decide +kernel), by rw [accepted_is _ _ _ _ rfl (by decide)]; decide +kernel, eq_some_getD (by decide +kernel), by decide +kernel, by rw [accepted_is _ _ _ _ rfl (by decide)]; decide +kernel, by rw [accepted_is _ _ _ _ rfl (by decide)]; decide +kernel⟩
  · exact ⟨by decide +kernel, rfl, find_one (by decide +kernel), by decide +kernel, by decide +kernel⟩
  · exact ⟨find_one (by decide +kernel), by decide +kernel, by decide +kernel, eq_some_getD (by decide +kernel), by decide +kernel, by decide +kernel, by decide +kernel, by decide +kernel, by decide +kernel, by decide +kernel, by decide +kernel, room_holds⟩
  · exact ⟨find_one (by decide +kernel), eq_some_getD (by decide +kernel), by decide +kernel, by decide +kernel, by decide +kernel⟩
  · exact ⟨find_one (by decide +kernel), eq_some_getD (by decide +kernel), by decide +kernel, by decide +kernel, by decide +kernel⟩

theorem test_hyps_GenerationChains :
    (isChain (chainMsg 1 chainHead) 1 = true ∧ (loading (upW 1)).upstreamLoad (chainMsg 1 chainHead) true = some (upW 1)) ∧
    (isChain (chainMsg 6 chainHead) 6 = true ∧ (loading (upW 1)).upstreamLoad (chainMsg 6 chainHead) true = some (upW 1)) ∧
    (isChain (chainMsg 5 (natLE 8 128)) 5 = true ∧ (loading (upW 0)).upstreamLoad (chainMsg 5 (natLE 8 128)) false = some (upW 0) ∧
     (upW 0).phase = 0) ∧
    ((loading (upW 1)).upstreamLoad (chainMsg 5 (natLE 8 128)) false = some (upW 1) ∧ (upW 1).phase ≠ 0) ∧
    (isChain (chainMsg 2 (chainHead ++ [9])) 2 = true ∧ (loading downW).downstreamLoad (chainMsg 2 (chainHead ++ [9])) = some downW) ∧
    (isChain (chainMsg 3 chainHead) 3 = true ∧ (loading downW).downstreamLoad (chainMsg 3 chainHead) = some downW) ∧
    (isChain (chainMsg 4 chainHead) 4 = true ∧ (loading downW).downstreamLoad (chainMsg 4 chainHead) = some downW) ∧
    ((loading (upW 1) (ms 100)).wload 7 = some (upW 1) ∧ (upW 1).phase = 1 ∧ (upW 1).fwdFa ≠ 65535 ∧
     (lget ({} : ShardRec) (upW 1).shards (upW 1).nextFwd).state ≠ 2 ∧ (upW 1).nextFwd < (upW 1).shards.length ∧
     (upW 1).holdAt + ms 100 ≤ (loading (upW 1) (ms 100)).time) ∧
    ((loading heldW (ms 2000)).wload 7 = some heldW ∧ heldW.held[0]? = some (holdMsg, 0) ∧ 0 + ms 2000 ≤ (loading heldW (ms 2000)).time) ∧
    ((loading heldW).wload 7 = some heldW ∧ heldW.joined = none ∧ heldW.fwdFa ≠ 65535) := by
  refine ⟨?_, ?_, ?_, ?_, ?_, ?_, ?_, ?_, ?_, ?_⟩
  · exact ⟨by decide +kernel, find_one (by decide +kernel)⟩
  · exact ⟨by decide +kernel, find_one (by decide +kernel)⟩
  · exact ⟨by decide +kernel, find_one (by decide +kernel), by decide +kernel⟩
  · exact ⟨find_one (by decide +kernel), by decide +kernel⟩
  · exact ⟨by decide +kernel, find_one (by decide +kernel)⟩
  · exact ⟨by decide +kernel, find_one (by decide +kernel)⟩
  · exact ⟨by decide +kernel, find_one (by decide +kernel)⟩
  · exact ⟨find_one (by decide +kernel), by decide +kernel, by decide +kernel, by decide +kernel, by decide +kernel, by decide +kernel⟩
  · exact ⟨find_one (by decide +kernel), by decide +kernel, by decide +kernel⟩
  · exact ⟨find_one (by decide +kernel), by decide +kernel, by decide +kernel⟩

theorem test_hyps_PortsTrainRetrainAndAreControlled :
    (95 < 96 ∧ ((port 95 ({} : Port)).port 95).state = 1 ∧ ((port 95 ({} : Port)).port 95).mayTrain = true ∧
     (port 95 ({} : Port)).portServed 95 = true) ∧
    (((port 95 { state := 2 : Port }).port 95).state = 2 ∧ widest (((port 95 { state := 2 : Port }).port 95).usable 15) 3 = some (2, 15)) ∧
    (((port 95 { state := 2 : Port } (ms 500)).port 95).state = 2 ∧
     ((port 95 { state := 2 : Port } (ms 500)).port 95).since + ms 500 ≤ (port 95 { state := 2 : Port } (ms 500)).time) ∧
    (7 < 8 ∧ ((port 95 { state := 4, lanes := 255 : Port }).port 95).state = 4 ∧
     bitAt ((port 95 { state := 4, lanes := 255 : Port }).port 95).lanes 7 = true) ∧
    (0 < 8 ∧ ((port 95 { state := 4, width := 0, lanes := 1 : Port }).port 95).state = 4 ∧
     bitAt ((port 95 { state := 4, width := 0, lanes := 1 : Port }).port 95).lanes 0 = true) ∧
    (((port 95 { state := 5, since := 3, want := 0 : Port }).port 95).state = 5 ∧
     widest (((port 95 { state := 5, since := 3, want := 0 : Port }).port 95).usable 255) ((port 95 { state := 5, since := 3, want := 0 : Port }).port 95).want = some (0, 1)) ∧
    (((port 95 { state := 5 : Port }).port 95).state = 5 ∧
     widest (((port 95 { state := 5 : Port }).port 95).usable 127) ((port 95 { state := 5 : Port }).port 95).want = some (2, 15)) ∧
    (((port 95 { state := 5 : Port } (ms 2)).port 95).state = 5 ∧
     ((port 95 { state := 5 : Port } (ms 2)).port 95).since + ms 2 ≤ (port 95 { state := 5 : Port } (ms 2)).time) ∧
    ((port 95 { state := 4, lanes := 255 : Port }).accessor 2304 = some 0 ∧ bitAt 0 63 = false ∧ bitAt 0 62 = false ∧
     bitAt 0 61 = false ∧ ((port 95 { state := 4, lanes := 255 : Port }).port 95).enable = true ∧
     ((port 95 { state := 4, lanes := 255 : Port }).port 95).state ≠ 0) ∧
    ((port 95 { state := 4, width := 2, lanes := 255 : Port }).accessor 2304 = some 0 ∧ bitAt (2 ^ 63 + 2 ^ 62) 63 = true ∧
     ((port 95 { state := 4, width := 2, lanes := 255 : Port }).port 95).state = 4 ∧ bitAt (2 ^ 63 + 2 ^ 62) 62 = true ∧
     bitAt (2 ^ 63 + 2 ^ 62) 61 = false) ∧
    (bitAt (2 ^ 63 + 2 ^ 61) 63 = true ∧ bitAt (2 ^ 63 + 2 ^ 61) 61 = true) ∧
    (bitAt (2 ^ 63 + 2 ^ 59) 63 = true ∧ bitAt (2 ^ 63 + 2 ^ 59) 62 = false ∧ bitAt (2 ^ 63 + 2 ^ 59) 61 = false ∧
     bitAt (2 ^ 63 + 2 ^ 59) 59 = true) := by
  refine ⟨?_, ?_, ?_, ?_, ?_, ?_, ?_, ?_, ?_, ?_, ?_, ?_⟩ <;> decide +kernel

theorem test_hyps_LinksExchangeTheirKeys :
    (95 < 96 ∧ ((port 95 { state := 4, tx := tx31 : Port }).port 95).state = 4 ∧
     (2 ^ 31 ≤ ((port 95 { state := 4, tx := tx31 : Port }).port 95).tx.runNo ∨ ((port 95 { state := 4, tx := tx31 : Port }).port 95).keyAt + secs 3600 ≤ (port 95 { state := 4, tx := tx31 : Port }).time)) ∧
    (((port 95 { state := 4 : Port } (secs 3600)).port 95).state = 4 ∧
     (2 ^ 31 ≤ ((port 95 { state := 4 : Port } (secs 3600)).port 95).tx.runNo ∨ ((port 95 { state := 4 : Port } (secs 3600)).port 95).keyAt + secs 3600 ≤ (port 95 { state := 4 : Port } (secs 3600)).time)) ∧
    (((port 95 { state := 4, tx := tx32 : Port }).port 95).state = 4 ∧
     ((port 95 { state := 4, tx := tx32 : Port }).port 95).cleartext = false ∧
     2 ^ 32 ≤ ((port 95 { state := 4, tx := tx32 : Port }).port 95).tx.runNo) ∧
    (((port 95 { state := 3, clear := true : Port } (ms 25)).port 95).state = 3 ∧
     ((port 95 { state := 3, clear := true : Port } (ms 25)).port 95).since + ms 25 ≤ (port 95 { state := 3, clear := true : Port } (ms 25)).time ∧
     ((port 95 { state := 3, clear := true : Port } (ms 25)).port 95).clear = true ∧
     (port 95 { state := 3, clear := true : Port } (ms 25)).keeper.approved = false) ∧
    (((port 95 { state := 3 : Port } (ms 25)).port 95).state = 3 ∧
     ((port 95 { state := 3 : Port } (ms 25)).port 95).since + ms 25 ≤ (port 95 { state := 3 : Port } (ms 25)).time ∧
     ((port 95 { state := 3 : Port } (ms 25)).port 95).clear = false ∧
     ((port 95 { state := 3 : Port } (ms 25)).port 95).auth.failed = false) ∧
    (((port 95 { state := 3, auth := retryAuth : Port } 5).port 95).auth.retryAt = some 5 ∧
     5 ≤ (port 95 { state := 3, auth := retryAuth : Port } 5).time ∧
     ((port 95 { state := 3, auth := retryAuth : Port } 5).port 95).state = 3) ∧
    ((port 95 (keyRx 1 (zeros 3000))).canExchange 95 = true ∧ ((port 95 (keyRx 1 (zeros 3000))).port 95).state = 3 ∧
     (port 95 (keyRx 1 (zeros 3000))).takeKey 95 1 = some (zeros 3000, taken (port 95 (keyRx 1 (zeros 3000))) 95 1)) ∧
    ((port 95 (keyRx 2 (zeros 1180))).canExchange 95 = true ∧ ((port 95 (keyRx 2 (zeros 1180))).port 95).state = 3 ∧
     (port 95 (keyRx 2 (zeros 1180))).takeKey 95 2 = some (zeros 1180, taken (port 95 (keyRx 2 (zeros 1180))) 95 2) ∧
     ((taken (port 95 (keyRx 2 (zeros 1180))) 95 2).port 95).state = 3) ∧
    ((port 95 (keyRx 3 (peerTag ++ zeros 204) keyedAuth)).canExchange 95 = true ∧
     ((port 95 (keyRx 3 (peerTag ++ zeros 204) keyedAuth)).port 95).auth.keys = some linkKeys ∧
     (port 95 (keyRx 3 (peerTag ++ zeros 204) keyedAuth)).takeKey 95 3 = some (peerTag ++ zeros 204,
         taken (port 95 (keyRx 3 (peerTag ++ zeros 204) keyedAuth)) 95 3) ∧
     ((taken (port 95 (keyRx 3 (peerTag ++ zeros 204) keyedAuth)) 95 3).port 95).state = 3 ∧
     List.take 32 (peerTag ++ zeros 204) = List.take 32 (finishMac linkKeys ((taken (port 95 (keyRx 3 (peerTag ++ zeros 204) keyedAuth)) 95 3).port 95).auth.peer ((taken (port 95 (keyRx 3 (peerTag ++ zeros 204) keyedAuth)) 95 3).port 95).auth.transcript)) ∧
    ((port 95 (keyRx 3 (zeros 236) keyedAuth)).canExchange 95 = true ∧
     ((port 95 (keyRx 3 (zeros 236) keyedAuth)).port 95).auth.keys = some linkKeys ∧
     (port 95 (keyRx 3 (zeros 236) keyedAuth)).takeKey 95 3 = some (zeros 236, taken (port 95 (keyRx 3 (zeros 236) keyedAuth)) 95 3) ∧
     ((taken (port 95 (keyRx 3 (zeros 236) keyedAuth)) 95 3).port 95).state = 3 ∧
     List.take 32 (zeros 236) ≠ List.take 32 (finishMac linkKeys ((taken (port 95 (keyRx 3 (zeros 236) keyedAuth)) 95 3).port 95).auth.peer ((taken (port 95 (keyRx 3 (zeros 236) keyedAuth)) 95 3).port 95).auth.transcript)) ∧
    ((port 95 (keyRx 4 [])).takeKey 95 4 = some ([], taken (port 95 (keyRx 4 [])) 95 4)) := by
  refine ⟨?_, ?_, ?_, ?_, ?_, ?_, ?_, ?_, ?_, ?_, ?_⟩ <;> decide +kernel

theorem test_hyps_FlitsAreSentTakenAndRetried :
    (95 < 96 ∧ ((port 95 { state := 2 : Port }).port 95).state = 2) ∧
    (((port 95 { state := 3 : Port }).port 95).state = 3 ∧ ((port 95 { state := 3 : Port }).port 95).tx.keyFlits = []) ∧
    (((port 95 { state := 4 : Port }).port 95).state = 4) ∧
    (GoodFlit (port 95 { state := 4 : Port }) 95 (link 0 0) ∧ isLink (link 0 0) 0 = true) ∧
    (GoodFlit (port 95 { state := 4 : Port }) 95 (link 1 0) ∧ isLink (link 1 0) 1 = true ∧
     ((port 95 { state := 4 : Port }).port 95).rx.discard = false) ∧
    (GoodFlit (port 95 { state := 4 : Port }) 95 (link 2 0) ∧ isLink (link 2 0) 2 = true) ∧
    (GoodFlit (port 95 { state := 4, rx := rx7 : Port }) 95 (link 3 4095) ∧ isLink (link 3 4095) 3 = true ∧
     bits (Flit.ofBytes (link 3 4095).bytes).hdr 23 12 = ((port 95 { state := 4, rx := rx7 : Port }).port 95).rx.seq) ∧
    (GoodFlit (port 95 { state := 4, cleartext := true : Port }) 95 (dataFlit 0) ∧ hdrKind (Flit.ofBytes (dataFlit 0).bytes).hdr < 5 ∧
     ((port 95 { state := 4, cleartext := true : Port }).port 95).rx.discard = false) ∧
    (GoodFlit (port 95 { state := 4, cleartext := true : Port }) 95 (dataFlit 4) ∧ hdrKind (Flit.ofBytes (dataFlit 4).bytes).hdr < 5) ∧
    (GoodFlit (port 95 { state := 4, cleartext := true : Port }) 95 (dataFlit 6) ∧ hdrKind (Flit.ofBytes (dataFlit 6).bytes).hdr = 6) ∧
    (((port 95 { state := 4, rx := retryRx 1 9 : Port }).port 95).state = 4 ∧
     ((port 95 { state := 4, rx := retryRx 1 9 : Port }).port 95).rx.discard = true ∧
     64 ≤ ((port 95 { state := 4, rx := retryRx 1 9 : Port }).port 95).rx.slots) ∧
    (((port 95 { state := 4, rx := retryRx 7 9 : Port }).port 95).rx.reqRef = ((port 95 { state := 4, rx := retryRx 7 9 : Port }).port 95).rx.seq ∧
     ((port 95 { state := 4, rx := retryRx 7 9 : Port }).port 95).rx.requests = 7) ∧
    (((port 95 { state := 4, rx := retryRx 7 8 : Port }).port 95).rx.reqRef ≠ ((port 95 { state := 4, rx := retryRx 7 8 : Port }).port 95).rx.seq) ∧
    (3 < 4 ∧ (mget [] ((port 95 { state := 4, tx := txQ : Port } (ms 2)).port 95).tx.queues 3)[0]? = some stuckTx ∧ stuckTx.sent = 0 ∧
     stuckTx.since + ms 2 ≤ (port 95 { state := 4, tx := txQ : Port } (ms 2)).time ∧ stuckTx.mc = none) ∧
    (((port 95 { state := 2, tx := txQ : Port }).port 95).state = 2) := by
  refine ⟨?_, ?_, ?_, ?_, ?_, ?_, ?_, ?_, ?_, ?_, ?_, ?_, ?_, ?_, ?_⟩ <;> decide +kernel

theorem test_hyps_NeighboursAndBridges :
    (95 < 96 ∧ ((port 95 { state := 4 : Port }).port 95).state = 4 ∧ isDiscovery (discovery 1) 1 = true) ∧
    (isDiscovery (discovery 2) 2 = true) ∧
    (((port 95 { state := 4, nbr := nbr 6 : Port } (ms 1)).port 95).state = 4 ∧
     1 ≤ ((port 95 { state := 4, nbr := nbr 6 : Port } (ms 1)).port 95).nbr.sends ∧
     ((port 95 { state := 4, nbr := nbr 6 : Port } (ms 1)).port 95).nbr.sends < 7 ∧
     ((port 95 { state := 4, nbr := nbr 6 : Port } (ms 1)).port 95).nbr.sentAt + ms 1 ≤ (port 95 { state := 4, nbr := nbr 6 : Port } (ms 1)).time) ∧
    (((port 95 { state := 4, nbr := nbr 7 : Port } (ms 1)).port 95).state = 4 ∧
     ((port 95 { state := 4, nbr := nbr 7 : Port } (ms 1)).port 95).nbr.sends = 7 ∧
     ((port 95 { state := 4, nbr := nbr 7 : Port } (ms 1)).port 95).nbr.sentAt + ms 1 ≤ (port 95 { state := 4, nbr := nbr 7 : Port } (ms 1)).time) ∧
    ((port 95 { state := 4 : Port }).accessor 2304 = some 0 ∧ faClass (291 % 65536) = 0 ∧ faReserved (291 % 65536) = false) ∧
    (bits (2 * 2 ^ 62 + 95 * 2 ^ 55 + 292 * 2 ^ 39) 63 62 < 3 ∧ bits (2 * 2 ^ 62 + 95 * 2 ^ 55 + 292 * 2 ^ 39) 61 55 < 96 ∧
     (port 95 { state := 4 : Port }).fabric.role ≠ 2 ∧
     bits (2 * 2 ^ 62 + 95 * 2 ^ 55 + 292 * 2 ^ 39) 63 62 ≠ (port 95 { state := 4 : Port }).fabric.role) ∧
    ((bridge 1 7 (ms 1)).fabric.role = 1 ∧ (bridge 1 7 (ms 1)).fabric.partner ≠ 65535 ∧
     (bridge 1 7 (ms 1)).fabric.beatAt + ms 1 ≤ (bridge 1 7 (ms 1)).time) ∧
    ((beatMsg 0 7).kind = 0 ∧ (beatMsg 0 7).vc = 0 ∧ (beatMsg 0 7).addr = 108992 ∧ (bridge 2 7).fabric.role = 2 ∧
     (bridge 2 7).fabric.epoch ≤ leAt (beatMsg 0 7).payload 0 2) ∧
    ((beatMsg 0 6).kind = 0 ∧ (beatMsg 0 6).vc = 0 ∧ (beatMsg 0 6).addr = 108992 ∧
     leAt (beatMsg 0 6).payload 0 2 < (bridge 2 7).fabric.epoch) ∧
    ((bridge 2 7 (ms 3)).fabric.role = 2 ∧ (bridge 2 7 (ms 3)).fabric.beatAt + ms 3 ≤ (bridge 2 7 (ms 3)).time) ∧
    ((beatMsg 1 0).kind = 0 ∧ (beatMsg 1 0).vc = 1 ∧ (beatMsg 1 0).addr = 108992 ∧ (bridge 0 65535).fabric.role ≠ 1 ∧
     (bridge 0 65535).fabric.unacked = [] ∧ (bridge 0 65535).fabric.bridgeFa = leAt (beatMsg 1 0).payload 2 2 ∧
     leAt (beatMsg 1 0).payload 0 2 = ((bridge 0 65535).fabric.epoch + 1) % 65536) := by
  refine ⟨?_, ?_, ?_, ?_, ?_, ?_, ?_, ?_, ?_, ?_, ?_⟩ <;> decide +kernel

theorem test_hyps_MulticastAndBarriers :
    (65024 ≤ mcMsg.dest ∧ mcMsg.dest ≤ 65279 ∧ bitAt ((mcState mcE).mcEntry (mcMsg.dest - 65024)) 255 = true ∧ mcMsg.kind = 0 ∧
     mcMsg.vc = mcVc ((mcState mcE).mcEntry (mcMsg.dest - 65024)) ∧ mcMsg.vc ≠ 0 ∧
     mcMsg.src = mcRoot ((mcState mcE).mcEntry (mcMsg.dest - 65024)) ∧ mcIn ((mcState mcE).mcEntry (mcMsg.dest - 65024)) = 127 ∧
     8 ≤ mcMsg.payload.length ∧ mcMsg.payload.length ≤ 1048576 ∧ (mcState mcE).mcUsed + mcMsg.payload.length ≤ 67108864 ∧
     bitAt ((mcState mcE).mcEntry (mcMsg.dest - 65024)) 254 = true) ∧
    (95 < 96 ∧ ackMsg.kind = 0 ∧ ackMsg.vc = 1 ∧ ackMsg.dest = 65534 ∧ ackMsg.addr = 108864 ∧ leAt ackMsg.payload 1 1 = 0) ∧
    (isBarrier (barMsg 1 9) 1 = true ∧
     (((barState { entry := barE, gen := 9 : Barrier }).takeRx 95 (barMsg 1 9)).bar ((barMsg 1 9).dest - 65280)).valid = true ∧
     95 ∈ (((barState { entry := barE, gen := 9 : Barrier }).takeRx 95 (barMsg 1 9)).bar ((barMsg 1 9).dest - 65280)).children ∧
     leAt (barMsg 1 9).payload 4 4 = (((barState { entry := barE, gen := 9 : Barrier }).takeRx 95 (barMsg 1 9)).bar ((barMsg 1 9).dest - 65280)).gen ∧
     (((barState { entry := barE, gen := 9 : Barrier }).takeRx 95 (barMsg 1 9)).bar ((barMsg 1 9).dest - 65280)).up = false) ∧
    (94 < 96 ∧ isBarrier (barMsg 2 9) 2 = true ∧
     (((barState { entry := barE, gen := 9, up := true : Barrier }).takeRx 94 (barMsg 2 9)).bar ((barMsg 2 9).dest - 65280)).valid = true ∧
     (((barState { entry := barE, gen := 9, up := true : Barrier }).takeRx 94 (barMsg 2 9)).bar ((barMsg 2 9).dest - 65280)).parent = 94 ∧
     leAt (barMsg 2 9).payload 4 4 = (((barState { entry := barE, gen := 9, up := true : Barrier }).takeRx 94 (barMsg 2 9)).bar ((barMsg 2 9).dest - 65280)).gen) ∧
    (0 < 96 ∧ (barState { entry := barE, gen := 9 : Barrier }).accessor 2304 = some 0 ∧ bitAt (2 ^ 63 + 63) 63 = true ∧
     ((barState { entry := barE, gen := 9 : Barrier }).bar (bits (2 ^ 63 + 63) 5 0)).valid = true ∧
     ((barState { entry := barE, gen := 9 : Barrier }).bar (bits (2 ^ 63 + 63) 5 0)).isLocal = true ∧
     ((barState { entry := barE, gen := 9 : Barrier }).bar (bits (2 ^ 63 + 63) 5 0)).here = false) ∧
    (63 < 64 ∧ ((barState { entry := barE, gen := 9, first := some 0 : Barrier } (ms 100)).bar 63).first = some 0 ∧
     ((barState { entry := barE, gen := 9, first := some 0 : Barrier } (ms 100)).bar 63).valid = true ∧
     bits ((barState { entry := barE, gen := 9, first := some 0 : Barrier } (ms 100)).bar 63).entry 240 225 ≠ 0 ∧
     ((barState { entry := barE, gen := 9, first := some 0 : Barrier } (ms 100)).bar 63).up = false ∧
     0 + ms (bits ((barState { entry := barE, gen := 9, first := some 0 : Barrier } (ms 100)).bar 63).entry 240 225) ≤ (barState { entry := barE, gen := 9, first := some 0 : Barrier } (ms 100)).time) := by
  refine ⟨?_, ?_, ?_, ?_, ?_, ?_⟩ <;> decide +kernel

theorem test_hyps_MessagesArriveAndAreRouted :
    (bits (arrival 0 0 8 [1, 2]).addr 47 46 = 3 ∧ (arrival 0 0 8 [1, 2]).kind = 0 ∧
     (takes.region (bits (arrival 0 0 8 [1, 2]).addr 45 40)).state = 3 ∧
     bits (arrival 0 0 8 [1, 2]).addr 39 22 < 256 * (takes.region (bits (arrival 0 0 8 [1, 2]).addr 45 40)).panes.length ∧
     (takes.region (bits (arrival 0 0 8 [1, 2]).addr 45 40)).localCell (bits (arrival 0 0 8 [1, 2]).addr 39 22) = some cA ∧
     stepOfTag (takes.region (bits (arrival 0 0 8 [1, 2]).addr 45 40)).stepNo (bits (arrival 0 0 8 [1, 2]).addr 16 0) = some 8 ∧
     takes.deliver (bits (arrival 0 0 8 [1, 2]).addr 45 40) { cell := cA, item := bits (arrival 0 0 8 [1, 2]).addr 21 17, tag := 8, data := (arrival 0 0 8 [1, 2]).payload, src := (arrival 0 0 8 [1, 2]).src : Delivery } = ((takes.deliver 5 { cell := cA, item := 0, tag := 8, data := [1, 2], src := 69 : Delivery }).1, true)) ∧
    (bits (arrival 511 0 9 [1, 2]).addr 47 46 = 3 ∧ (arrival 511 0 9 [1, 2]).kind = 0 ∧
     (takesZ.region (bits (arrival 511 0 9 [1, 2]).addr 45 40)).state = 3 ∧
     bits (arrival 511 0 9 [1, 2]).addr 39 22 < 256 * (takesZ.region (bits (arrival 511 0 9 [1, 2]).addr 45 40)).panes.length ∧
     (takesZ.region (bits (arrival 511 0 9 [1, 2]).addr 45 40)).localCell (bits (arrival 511 0 9 [1, 2]).addr 39 22) = some cZ ∧
     stepOfTag (takesZ.region (bits (arrival 511 0 9 [1, 2]).addr 45 40)).stepNo (bits (arrival 511 0 9 [1, 2]).addr 16 0) = some 9 ∧
     takesZ.deliver (bits (arrival 511 0 9 [1, 2]).addr 45 40) { cell := cZ, item := bits (arrival 511 0 9 [1, 2]).addr 21 17, tag := 9, data := (arrival 511 0 9 [1, 2]).payload, src := (arrival 511 0 9 [1, 2]).src : Delivery } = (takesZ, false)) ∧
    ((on.region (bits (arrival 0 0 8 [1, 2]).addr 45 40)).state = 0) ∧
    (errMsg.kind = 3 ∧ errMsg.dest = on.fabricAddr) ∧
    (95 < 96 ∧ 3 < 4 ∧
     List.findIdx? (fun (z : RxMsg) => z.out.isNone && z.msg.vc == 3) ((port 95 { state := 4, rx := rxSide5 : Port }).port 95).rx.msgs = some 0 ∧
     ((port 95 { state := 4, rx := rxSide5 : Port }).port 95).rx.msgs[0]? = some rxMsg5) ∧
    (List.findIdx? (fun (z : OutMsg) => z.msg.vc == 3) sending.outbox = some 0 ∧ sending.outbox[0]? = some outMsg5 ∧
     sending.localWaits outMsg5.msg = false) ∧
    ({ kind := 1, vc := 1, dest := 65533, src := 69, addr := 0, payload := natLE 16 0 : Msg }.dest = 65533) ∧
    (11 < 12 ∧ (mget (0, []) (late live 400).quick 11).1 + ns 100 ≤ (late live 400).time) := by
  refine ⟨?_, ?_, ?_, ?_, ?_, ?_, ?_, ?_⟩ <;> decide +kernel

theorem test_hyps_FaultReportsAndAlerts :
    (((List.filter (fun (p : Report) => p.unit == 3) (reports 8).reports).any fun (p : Report) => p.fr.key == (fault0 8).key) = false ∧
     8 ≤ (List.filter (fun (p : Report) => p.unit == 3) (reports 8).reports).length) ∧
    (((List.filter (fun (p : Report) => p.unit == 3) (reports 7).reports).any fun (p : Report) => p.fr.key == (fault0 7).key) = false ∧
     (List.filter (fun (p : Report) => p.unit == 3) (reports 7).reports).length < 8) ∧
    (((List.filter (fun (p : Report) => p.unit == 3) (reports 8).reports).any fun (p : Report) => p.fr.key == (fault0 7).key) = true) ∧
    ((reports 8).reports[7]? = some { unit := 3, fr := fault0 7 : Report } ∧ (reports 8).iface.halted = false) ∧
    ((faulty (fte 2 true) (ms 1)).ftEntry 4095 = some (fte 2 true) ∧ (faulty (fte 2 true) (ms 1)).ftOld (fte 2 true) = true ∧
     ((fte 2 true).state = 2 ∧ (fte 2 true).acked = true ∨ (fte 2 true).state = 1 ∧ (faulty (fte 2 true) (ms 1)).fabric.bridgeFa = 65535)) ∧
    ((faulty (fte 1 false) (ms 1)).ftEntry 4095 = some (fte 1 false) ∧ (faulty (fte 1 false) (ms 1)).ftOld (fte 1 false) = true ∧
     ((fte 1 false).state = 2 ∧ (fte 1 false).acked = true ∨ (fte 1 false).state = 1 ∧ (faulty (fte 1 false) (ms 1)).fabric.bridgeFa = 65535)) ∧
    ((faulty (fte 1 false)).accessor 2304 = some 0) ∧
    (ibiState.mgmt.ibi = some 5 ∧ ibiState.iface.ibiEn = true) ∧
    (shelfState.mgmt.shelfAt = some 0 ∧ 0 + ms 1 ≤ shelfState.time) ∧
    ((faulty (fte 1 false)).ftEntry ((faulty (fte 1 false)).selOf 0 0) = some (fte 1 false)) := by
  refine ⟨?_, ?_, ?_, ?_, ?_, ?_, ?_, ?_, ?_, ?_⟩ <;> decide +kernel

theorem test_hyps_FaultMessages :
    ((toBridge (fte 1 false)).fabric.bridgeFa ≠ 65535 ∧ (toBridge (fte 1 false)).openEntries 3 ≠ [] ∧
     (toBridge (fte 1 false)).fabric.window ≠ some ((toBridge (fte 1 false)).time / ms 1) ∧
     (toBridge (fte 1 false)).iface.halted = false ∧ (toBridge (fte 1 false)).fabric.role = 0) ∧
    ((unacked [] (fte 2 false)).fabric.unacked[0]? = some (sentMsg []) ∧ (sentMsg []).sentAt + ms 10 ≤ (unacked [] (fte 2 false)).time) ∧
    (ackOf.kind = 0 ∧ ackOf.addr = 108928 ∧
     List.find? (fun (y : FaultMsg) => y.seq == leAt ackOf.payload 0 4) (unacked [] (fte 2 false)).fabric.unacked = some (sentMsg []) ∧
     (sentMsg []).entries = []) ∧
    (List.find? (fun (y : FaultMsg) => y.seq == leAt ackOf.payload 0 4) (unacked [4095] (fte 2 false)).fabric.unacked = some (sentMsg [4095]) ∧
     (sentMsg [4095]).entries = [4095] ∧ (unacked [4095] (fte 2 false)).ftEntry 4095 = some (fte 2 false) ∧ (fte 2 false).state = 2 ∧
     (unacked [4095] (fte 2 false)).ftOld (fte 2 false) = true) ∧
    (faultMsg.kind = 0 ∧ faultMsg.vc = 1 ∧ faultMsg.addr = 109056 ∧ (bridge 1 7).fabric.role = 1 ∧
     List.find? (fun (q : ℕ × ℕ) => q.1 == leAt faultMsg.payload 0 2) (bridge 1 7).fabric.sources = none) ∧
    (sinking.fabric.sinkQ = [sink5] ∧ sinking.fabric.role = 1 ∧ sinking.fabric.sinkFa ≠ 65535 ∧
     sinking.fabric.sinkSec ≠ sinking.time / secs 1) := by
  refine ⟨?_, ?_, ?_, ?_, ?_, ?_⟩ <;> decide +kernel

theorem test_hyps_PowerInputAndPaneRegulation :
    ((pow ({} : Power)).boot.off = false ∧ 459 < 460 ∧ (pow ({} : Power)).power.inputLow = false) ∧
    ((pow { vin := 459, inputLow := true : Power }).boot.off = false ∧ 470 ≤ 470 ∧
     (pow { vin := 459, inputLow := true : Power }).power.inputLow = true) ∧
    ((419 < 420 ∨ 419 < 460 ∧ ∃ (t0 : ℕ), (pow ({} : Power)).power.lowSince = some t0 ∧ t0 + secs 5 ≤ (pow ({} : Power)).time)) ∧
    (600 < 601) ∧
    (8 < 9 ∧ 2 < segConverters 8 ∧ ((pow ({} : Power)).seg 8).lost.contains 2 = false) ∧
    ((pow { segs := [(1, { lost := [0] : Segment })] : Power }).boot.off = false ∧ 1 < 9 ∧ 3 < segConverters 1 ∧
     ((pow { segs := [(1, { lost := [0] : Segment })] : Power }).seg 1).lost.contains 3 = false) ∧
    (737 < 786 ∧ (railed mv800b RunCond.running false 737 (us 5)).regulated 737 = true ∧
     775 + 25 ≤ (railed mv800b RunCond.running false 737 (us 5)).setpointOf 737 ∧
     (∀ (t0 : ℕ), ((railed mv800b RunCond.running false 737 (us 5)).pane 737).pwr.boostAt =
         some t0 → t0 + us 5 ≤ (railed mv800b RunCond.running false 737 (us 5)).time)) ∧
    (785 < 786 ∧ ((railed mv800 RunCond.running false 785).pane 785).clk.stretched = false ∧
     (railed mv800 RunCond.running false 785).regulated 785 = true ∧ 670 + 50 ≤ (railed mv800 RunCond.running false 785).setpointOf 785) ∧
    (0 < 786 ∧ ((railed mv800 RunCond.running true).pane 0).clk.stretched = true ∧
     (railed mv800 RunCond.running true).setpointOf 0 < 776 + 25) ∧
    ((railed mv800).regulated 0 = true ∧ (railed mv800).setpointOf 0 + 25 ≤ 825) ∧
    (775 + 25 ≤ (railed mv800).setpointOf 0 ∧ ((railed mv800).pane 0).pwr.droopSent = false) ∧
    (0 < 738 ∧ ((marked 0 mv800).pane 0).cond = RunCond.running ∧ ((marked 0 mv800).pane 0).pwr.raiseOff = false ∧
     (0, 1200) ∈ (marked 0 mv800).marksOf 0 ∧ (0, 1200).1 = (marked 0 mv800).stepCycles 0 ∧
     ((marked 0 mv800).pane 0).pwr.raises.contains (((marked 0 mv800).pane 0).runCycles + ((0, 1200).2 - (0, 1200).1)) = false) ∧
    ((2 < if 785 < 738 then 4 else 3) ∧ ((railed mv800 RunCond.running false 785).pane 785).pwr.failed = []) ∧
    ((3 < if 737 < 738 then 4 else 3) ∧ ((railed mv800 RunCond.running false 737).pane 737).pwr.failed = []) ∧
    (737 < 738 ∧ 0 < 4 ∧ ((railed fail1 RunCond.running false 737).pane 737).pwr.failed = [3] ∧ 3 ≠ 0 ∧
     ((railed fail1 RunCond.running false 737).pane 737).region = none) ∧
    (((railed fail2 RunCond.running false 737).pane 737).pwr.failed = [3, 1] ∧ 1 ≠ 0) := by
  refine ⟨?_, ?_, ?_, ?_, ?_, ?_, ?_, ?_, ?_, ?_, ?_, ?_, ?_, ?_, ?_, ?_⟩ <;> decide +kernel

theorem test_hyps_PowerIsAdmittedAndEnforced :
    (5 < 64 ∧ (powered (wakeReq none)).boot.off = false ∧
     ((powered (wakeReq none)).region 5).power.req = some { kind := 0, since := 0 : AdmReq } ∧
     { kind := 0, since := 0 : AdmReq }.tested = none ∧ (powered (wakeReq none)).iface.halted = false ∧
     (powered (wakeReq none)).fits 5 = true ∧ (powered (wakeReq none)).heldBack 5 = false) ∧
    ((powerFull none).boot.off = false ∧ ((powerFull none).region 5).power.req = some { kind := 0, since := 0 : AdmReq } ∧
     (powerFull none).iface.halted = false ∧ ((powerFull none).fits 5 = false ∨ (powerFull none).heldBack 5 = true)) ∧
    ((powered (wakeReq (some 0)) 2 (us 500)).boot.off = false ∧
     ((powered (wakeReq (some 0)) 2 (us 500)).region 5).power.req = some { kind := 0, since := 0, tested := some 0 : AdmReq } ∧
     { kind := 0, since := 0, tested := some 0 : AdmReq }.tested = some 0 ∧ 0 + us 500 ≤ (powered (wakeReq (some 0)) 2 (us 500)).time ∧
     (powered (wakeReq (some 0)) 2 (us 500)).iface.halted = false ∧ (powered (wakeReq (some 0)) 2 (us 500)).fits 5 = true ∧
     (powered (wakeReq (some 0)) 2 (us 500)).heldBack 5 = false) ∧
    ((powered (ramping 0)).boot.off = false ∧ ((powered (ramping 0)).region 5).power.ramp = some 0 ∧
     0 < ((powered (ramping 0)).region 5).rampSteps ∧
     ((powered (ramping 0)).region 5).power.rampAt + us (5 * 0) ≤ (powered (ramping 0)).time ∧
     0 < ((powered (ramping 0)).region 5).wakePanes.length ∧ (((powered (ramping 0)).region 5).rampSteps = 1 ∨ 0 % 8 = 0)) ∧
    (live.boot.off = false ∧ [400, 400, 400, 400, 400, 400, 400, 400, 400].length = 9 ∧ (live.region 5).state = 3) ∧
    ([100, 100, 100, 100, 100, 100, 100, 100, 100].length = 9) ∧
    (overSeg.boot.off = false ∧ 0 < 9 ∧ (overSeg.seg 0).overSince = some 0 ∧ 0 + ms 1 ≤ overSeg.time ∧
     overSeg.regions = [(5, overSeg.region 5)] ∧ 0 < panesInSeg (overSeg.region 5).panes 0 ∧ (overSeg.region 5).kPower < 31) := by
  refine ⟨?_, ?_, ?_, ?_, ?_, ?_, ?_⟩ <;> decide +kernel

theorem test_hyps_RegionsWakeAndLower :
    (5 < 64 ∧ ((rp { state := 0, due := true : RegPower }).region 5).state = 2 ∧
     ((rp { state := 0, due := true : RegPower }).region 5).load = none ∧
     ((rp { state := 0, due := true : RegPower }).region 5).power.trans = 0 ∧
     ((rp { state := 0, due := true : RegPower }).region 5).power.req = none ∧
     (rp { state := 0, due := true : RegPower }).iface.halted = false ∧ (rp { state := 0, due := true : RegPower }).quiesced 5 = true ∧
     ((rp { state := 0, due := true : RegPower }).region 5).power.force = 0 ∧
     ((rp { state := 0, due := true : RegPower }).region 5).power.state = 0 ∧
     ((rp { state := 0, due := true : RegPower }).region 5).power.due = true ∧
     ((rp { state := 0, due := true : RegPower }).region 5).power.quiet = 0) ∧
    (((rp { state := 0, quiet := 30000, due := true : RegPower }).region 5).state = 2 ∧
     ((rp { state := 0, quiet := 30000, due := true : RegPower }).region 5).load = none ∧
     ((rp { state := 0, quiet := 30000, due := true : RegPower }).region 5).power.trans = 0 ∧
     ((rp { state := 0, quiet := 30000, due := true : RegPower }).region 5).power.req = none ∧
     (rp { state := 0, quiet := 30000, due := true : RegPower }).iface.halted = false ∧
     (rp { state := 0, quiet := 30000, due := true : RegPower }).quiesced 5 = true ∧
     ((rp { state := 0, quiet := 30000, due := true : RegPower }).region 5).power.force = 0 ∧
     ((rp { state := 0, quiet := 30000, due := true : RegPower }).region 5).power.state = 0 ∧
     ((rp { state := 0, quiet := 30000, due := true : RegPower }).region 5).power.due = true ∧
     ((rp { state := 0, quiet := 30000, due := true : RegPower }).region 5).deepest ((rp { state := 0, quiet := 30000, due := true : RegPower }).region 5).power.quiet ≠ 0 ∧
     ((rp { state := 0, quiet := 30000, due := true : RegPower }).region 5).power.quiet ≠ 0) ∧
    ((sealIdle.region 5).state = 2 ∧ (sealIdle.region 5).load = none ∧ (sealIdle.region 5).power.trans = 0 ∧
     (sealIdle.region 5).power.req = none ∧ sealIdle.iface.halted = false ∧ sealIdle.quiesced 5 = true ∧
     (sealIdle.region 5).power.force = 0 ∧ (sealIdle.region 5).power.quiet = 0 ∧
     ((sealIdle.region 5).power.state = 1 ∨ (sealIdle.region 5).power.state = 2) ∧ sealIdle.power.idleSeal ≠ 0 ∧
     (sealIdle.region 5).power.idleSince + us sealIdle.power.idleSeal ≤ sealIdle.time) ∧
    (((rp { state := 0, trans := 1, target := 1 : RegPower }).region 5).power.trans = 1 ∧
     ((rp { state := 0, trans := 1, target := 1 : RegPower }).region 5).power.pendRaise = 0) ∧
    (((rp { state := 0, trans := 1, target := 3 : RegPower }).region 5).power.trans = 1 ∧
     ((rp { state := 0, trans := 1, target := 3 : RegPower }).region 5).power.pendRaise = 0) ∧
    (((rp { state := 0, trans := 1, target := 4 : RegPower }).region 5).power.trans = 1 ∧
     ((rp { state := 0, trans := 1, target := 4 : RegPower }).region 5).power.pendRaise = 0) ∧
    (((rp { state := 0, trans := 1, target := 2, pendRaise := 1 : RegPower }).region 5).power.trans = 1 ∧
     ((rp { state := 0, trans := 1, target := 2, pendRaise := 1 : RegPower }).region 5).power.pendRaise = 1 ∧
     2 ≤ ((rp { state := 0, trans := 1, target := 2, pendRaise := 1 : RegPower }).region 5).power.target) ∧
    (((rp { state := 0, trans := 1, target := 4, pendRaise := 1 : RegPower }).region 5).power.trans = 1 ∧
     ((rp { state := 0, trans := 1, target := 4, pendRaise := 1 : RegPower }).region 5).power.pendRaise = 1 ∧
     2 ≤ ((rp { state := 0, trans := 1, target := 4, pendRaise := 1 : RegPower }).region 5).power.target) ∧
    (((rp { state := 2, plannedWake := some 9 : RegPower } 2 9).region 5).power.plannedWake = some 9 ∧
     9 ≤ (rp { state := 2, plannedWake := some 9 : RegPower } 2 9).time ∧
     (rp { state := 2, plannedWake := some 9 : RegPower } 2 9).iface.halted = false ∧
     ((rp { state := 2, plannedWake := some 9 : RegPower } 2 9).region 5).power.trans = 0 ∧
     2 ≤ ((rp { state := 2, plannedWake := some 9 : RegPower } 2 9).region 5).power.state) ∧
    ((rewriting.region 5).power.trans = 2 ∧ (rewriting.region 5).power.rewritten = false ∧
     (rewriting.region 5).rampOver rewriting.time = true ∧ (rewriting.region 5).image = some imG ∧ parseImage imG.bytes = some parsedG) ∧
    (((rp { state := 1, trans := 2 : RegPower }).region 5).power.trans = 2 ∧
     ((rp { state := 1, trans := 2 : RegPower }).region 5).load = none ∧
     (((rp { state := 1, trans := 2 : RegPower }).region 5).power.state =
         1 ∨ ((rp { state := 1, trans := 2 : RegPower }).region 5).rampOver (rp { state := 1, trans := 2 : RegPower }).time = true ∧
         ((rp { state := 1, trans := 2 : RegPower }).region 5).power.rewritten = true)) ∧
    (((rp { state := 2, trans := 2, ramp := some 1 : RegPower } 2 (us 5)).region 5).power.trans = 2 ∧
     ((rp { state := 2, trans := 2, ramp := some 1 : RegPower } 2 (us 5)).region 5).load = none ∧
     (((rp { state := 2, trans := 2, ramp := some 1 : RegPower } 2 (us 5)).region 5).power.state =
         1 ∨ ((rp { state := 2, trans := 2, ramp := some 1 : RegPower } 2 (us 5)).region 5).rampOver (rp { state := 2, trans := 2, ramp := some 1 : RegPower } 2 (us 5)).time = true ∧ ((rp { state := 2, trans := 2, ramp := some 1 : RegPower } 2 (us 5)).region 5).power.rewritten = true)) ∧
    ((owned (rp ({} : RegPower))).accessor 291 = some 3 ∧ ((owned (rp ({} : RegPower))).region 5).state ≠ 0 ∧
     (3 = 0 ∨ ((owned (rp ({} : RegPower))).region 5).guest = 3)) ∧
    ((owned (rp { state := 3 : RegPower })).accessor 2304 = some 0 ∧ ((owned (rp { state := 3 : RegPower })).region 5).state ≠ 0 ∧
     (0 = 0 ∨ ((owned (rp { state := 3 : RegPower })).region 5).guest = 0) ∧
     ((owned (rp { state := 3 : RegPower })).region 5).runs = [] ∧ (owned (rp { state := 3 : RegPower })).quiesced 5 = true ∧
     ((owned (rp { state := 3 : RegPower })).region 5).power.trans = 0 ∧
     ((owned (rp { state := 3 : RegPower })).region 5).power.req = none ∧
     ((owned (rp { state := 3 : RegPower })).region 5).power.state < 4) := by
  refine ⟨?_, ?_, ?_, ?_, ?_, ?_, ?_, ?_, ?_, ?_, ?_, ?_, ?_, ?_⟩
  · decide +kernel
  · decide +kernel
  · decide +kernel
  · decide +kernel
  · decide +kernel
  · decide +kernel
  · decide +kernel
  · decide +kernel
  · decide +kernel
  · exact ⟨by decide +kernel, by decide +kernel, by decide +kernel, rfl, eq_some_getD (by decide +kernel)⟩
  · decide +kernel
  · decide +kernel
  · decide +kernel
  · decide +kernel

theorem test_hyps_LimitsChangeByAPair :
    ((authing ({} : Power)).accessor 2304 = some 0 ∧ bitAt (2 ^ 63) 63 = true ∧ (authing ({} : Power)).power.authResult ≠ 3) ∧
    ((authing { authResult := 3 : Power }).accessor 2304 = some 0 ∧ (authing { authResult := 3 : Power }).power.authResult = 3) ∧
    ((checking 2000 false).power.authResult = 3 ∧ (checking 2000 false).keyReady 0 = true ∧
     (checking 2000 false).checkPair 0 (checking 2000 false).power.authCounter (natLE 8 (checking 2000 false).power.authTagLo ++ natLE 8 (checking 2000 false).power.authTagHi) (natLE 8 (checking 2000 false).power.authAddr ++ natLE 8 (checking 2000 false).power.authValue) = (checkedState 2000 false, false) ∧
     false = false) ∧
    ((checking 2000 true).power.authResult = 3 ∧ (checking 2000 true).keyReady 0 = true ∧
     (checking 2000 true).checkPair 0 (checking 2000 true).power.authCounter (natLE 8 (checking 2000 true).power.authTagLo ++ natLE 8 (checking 2000 true).power.authTagHi) (natLE 8 (checking 2000 true).power.authAddr ++ natLE 8 (checking 2000 true).power.authValue) = (checkedState 2000 true, true) ∧
     true = true ∧ (checking 2000 true).power.authAddr = 131080 ∧ 2000 ≤ (checking 2000 true).power.authValue ∧
     (checking 2000 true).power.authValue ≤ 26000) ∧
    ((checking 26000 true).power.authResult = 3 ∧ (checking 26000 true).keyReady 0 = true ∧
     (checking 26000 true).checkPair 0 (checking 26000 true).power.authCounter (natLE 8 (checking 26000 true).power.authTagLo ++ natLE 8 (checking 26000 true).power.authTagHi) (natLE 8 (checking 26000 true).power.authAddr ++ natLE 8 (checking 26000 true).power.authValue) = (checkedState 26000 true, true) ∧
     (checking 26000 true).power.authAddr = 131080 ∧ 2000 ≤ (checking 26000 true).power.authValue ∧
     (checking 26000 true).power.authValue ≤ 26000) ∧
    ((checking 1999 true).power.authResult = 3 ∧ (checking 1999 true).keyReady 0 = true ∧
     (checking 1999 true).checkPair 0 (checking 1999 true).power.authCounter (natLE 8 (checking 1999 true).power.authTagLo ++ natLE 8 (checking 1999 true).power.authTagHi) (natLE 8 (checking 1999 true).power.authAddr ++ natLE 8 (checking 1999 true).power.authValue) = (checkedState 1999 true, true) ∧
     (checking 1999 true).power.authAddr = 131080 ∧
     ((checking 1999 true).power.authValue < 2000 ∨ 26000 < (checking 1999 true).power.authValue)) ∧
    ((checking 26001 true).power.authResult = 3 ∧ (checking 26001 true).keyReady 0 = true ∧
     (checking 26001 true).checkPair 0 (checking 26001 true).power.authCounter (natLE 8 (checking 26001 true).power.authTagLo ++ natLE 8 (checking 26001 true).power.authTagHi) (natLE 8 (checking 26001 true).power.authAddr ++ natLE 8 (checking 26001 true).power.authValue) = (checkedState 26001 true, true) ∧
     (checking 26001 true).power.authAddr = 131080 ∧
     ((checking 26001 true).power.authValue < 2000 ∨ 26000 < (checking 26001 true).power.authValue)) := by
  refine ⟨?_, ?_, ?_, ?_, ?_, ?_, ?_⟩ <;> decide +kernel

theorem test_hyps_HeatSlowsAndStopsTheModule :
    ((hot { sampleNo := 3 : Thermal }).boot.off = false) ∧
    ((hot { sampleNo := 3, fast := [5] : Thermal }).boot.off = false ∧
     (hot { sampleNo := 3, fast := [5] : Thermal }).thermal.sampleNo = 3 ∧
     (hot { sampleNo := 3, fast := [5] : Thermal }).thermal.fast = [5]) ∧
    (heating.boot.off = false ∧ 0 < 738 ∧ (heating.pane 0).region = some 5 ∧ (heating.pane 0).therm.failed0 = false ∧
     (heating.pane 0).therm.hist0[9]? = some 700 ∧ 600 ≤ (712 - 700) * 50) ∧
    (([1, 2, 3].length ≠ 8 ∨ crc8 (List.take 7 [1, 2, 3]) ≠ beNat [1, 2, 3] % 256 ∨ (hot ({} : Thermal)).thermal.seq = some (bits (beNat [1, 2,
        3]) 63 56))) ∧
    (((zeros 7 ++ [1]).length ≠ 8 ∨ crc8 (List.take 7 (zeros 7 ++ [1])) ≠ beNat (zeros 7 ++ [1]) % 256 ∨ (hot ({} : Thermal)).thermal.seq =
        some (bits (beNat (zeros 7 ++ [1])) 63 56))) ∧
    ((hot ({} : Thermal)).lintelUp = true ∧ (tray (7 * 2 ^ 56 + 5 * 2 ^ 22)).length = 8 ∧
     crc8 (List.take 7 (tray (7 * 2 ^ 56 + 5 * 2 ^ 22))) = beNat (tray (7 * 2 ^ 56 + 5 * 2 ^ 22)) % 256 ∧
     (hot ({} : Thermal)).thermal.seq ≠ some (bits (beNat (tray (7 * 2 ^ 56 + 5 * 2 ^ 22))) 63 56)) ∧
    ((hot { seq := some 8 : Thermal }).lintelUp = true ∧ (tray (7 * 2 ^ 56 + 10 * 2 ^ 22 + 2 ^ 21)).length = 8 ∧
     crc8 (List.take 7 (tray (7 * 2 ^ 56 + 10 * 2 ^ 22 + 2 ^ 21))) = beNat (tray (7 * 2 ^ 56 + 10 * 2 ^ 22 + 2 ^ 21)) % 256 ∧
     (hot { seq := some 8 : Thermal }).thermal.seq ≠ some (bits (beNat (tray (7 * 2 ^ 56 + 10 * 2 ^ 22 + 2 ^ 21))) 63 56)) ∧
    ((hot { lastReport := some 0 : Thermal } (ms 100)).thermal.lastReport = some 0 ∧
     (hot { lastReport := some 0 : Thermal } (ms 100)).lintelUp = true ∧
     (hot { lastReport := some 0 : Thermal } (ms 100)).thermal.stopAt = none ∧
     0 + ms 100 ≤ (hot { lastReport := some 0 : Thermal } (ms 100)).time) ∧
    ((hot { stopAt := some 0 : Thermal } (secs 5)).thermal.stopAt = some 0 ∧
     (hot { stopAt := some 0 : Thermal } (secs 5)).boot.off = false ∧ 0 + secs 5 ≤ (hot { stopAt := some 0 : Thermal } (secs 5)).time) ∧
    ({ vin := 480, pwafer := 9000 : Readings }.sens = [] ∧ { vin := 480, pwafer := 9000 : Readings }.diodes = [] ∧
     { vin := 480, pwafer := 9000 : Readings }.hbm = []) ∧
    (880 ≤ 880 ∧ 880 ≤ 1200 ∧ 0 ≤ 760 ∧ 760 ≤ 1200 ∧ 880 ≤ 760 + 120 ∧ 760 ≤ 880 + 120 ∧
     ((hot ({} : Thermal)).pane 0).therm.failed0 = false ∧ ((hot ({} : Thermal)).pane 0).therm.failed1 = false) ∧
    (737 < 738 ∧ 1200 ≤ 1200 ∧ 0 ≤ 1080 ∧ 1080 ≤ 1200 ∧ 1200 ≤ 1080 + 120 ∧ 1080 ≤ 1200 + 120 ∧
     ((hot ({} : Thermal)).pane 737).therm.failed0 = false ∧ ((hot ({} : Thermal)).pane 737).therm.failed1 = false) := by
  refine ⟨?_, ?_, ?_, ?_, ?_, ?_, ?_, ?_, ?_, ?_, ?_, ?_⟩ <;> decide +kernel

theorem test_hyps_ProfilesAndGrants :
    (StartsWell (profAsk on 2) 3 3 66 (listOf [one (profileW 2)]) 0 (one (profileW 2)) ∧
     (profAsk on 2).regionOk 3 (bits (one (profileW 2)).word 223 218) [2, 3, 4] = false) ∧
    (StartsWell (profAsk boarded5 2) 3 3 66 (listOf [one (profileW 2)]) 0 (one (profileW 2)) ∧
     (profAsk boarded5 2).regionOk 3 (bits (one (profileW 2)).word 223 218) [2, 3, 4] = true ∧
     ((profAsk boarded5 2).region (bits (one (profileW 2)).word 223 218)).prof.queue = [] ∧
     ((profAsk boarded5 2).region (bits (one (profileW 2)).word 223 218)).prof.stage = 0 ∧
     ((profAsk boarded5 2).region (bits (one (profileW 2)).word 223 218)).prof.ending = 0 ∧
     ((profAsk boarded5 2).region (bits (one (profileW 2)).word 223 218)).prof.entry = none ∧
     (profAsk boarded5 2).capped (bits (one (profileW 2)).word 223 218) = false ∧
     ((profAsk boarded5 2).region (bits (one (profileW 2)).word 223 218)).isOpen = false ∧ bits (one (profileW 2)).word 103 102 ≤ 2) ∧
    (StartsWell (profAsk boarded5 0) 3 3 66 (listOf [one (profileW 0)]) 0 (one (profileW 0)) ∧
     (profAsk boarded5 0).regionOk 3 (bits (one (profileW 0)).word 223 218) [2, 3, 4] = true ∧
     ((profAsk boarded5 0).region (bits (one (profileW 0)).word 223 218)).prof.queue = [] ∧
     ((profAsk boarded5 0).region (bits (one (profileW 0)).word 223 218)).prof.stage = 0 ∧
     ((profAsk boarded5 0).region (bits (one (profileW 0)).word 223 218)).prof.ending = 0 ∧
     ((profAsk boarded5 0).region (bits (one (profileW 0)).word 223 218)).prof.entry = none ∧
     (profAsk boarded5 0).capped (bits (one (profileW 0)).word 223 218) = false ∧
     ((profAsk boarded5 0).region (bits (one (profileW 0)).word 223 218)).isOpen = false ∧ bits (one (profileW 0)).word 103 102 ≤ 2) ∧
    (0 < 738 ∧ ((switching 2400 0 700).pane 0).region = some 5 ∧ ((switching 2400 0 700).region 5).prof.stage = 3 ∧
     ((switching 2400 0 700).region 5).prof.queue = [] ∧
     ((switching 2400 0 700).pane 0).clk.mhz ≠ profileMhz ((switching 2400 0 700).region 5).prof.target ∧
     (switching 2400 0 700).atBoundary 0 = true ∧
     (((switching 2400 0 700).pane 0).clk.mhz < profileMhz ((switching 2400 0 700).region 5).prof.target → profileMv ((switching 2400 0 700).region 5).prof.target ≤ 0 + 5 ∧ profileMv ((switching 2400 0 700).region 5).prof.target ≤ ((switching 2400 0 700).pane 0).pwr.rail (switching 2400 0 700).time + 5)) ∧
    (((switching 1800 2 (profileMv 2 - 5)).pane 0).region = some 5 ∧ ((switching 1800 2 (profileMv 2 - 5)).region 5).prof.stage = 3 ∧
     ((switching 1800 2 (profileMv 2 - 5)).region 5).prof.queue = [] ∧
     ((switching 1800 2 (profileMv 2 - 5)).pane 0).clk.mhz ≠ profileMhz ((switching 1800 2 (profileMv 2 - 5)).region 5).prof.target ∧
     (switching 1800 2 (profileMv 2 - 5)).atBoundary 0 = true ∧
     (((switching 1800 2 (profileMv 2 - 5)).pane 0).clk.mhz < profileMhz ((switching 1800 2 (profileMv 2 - 5)).region 5).prof.target → profileMv ((switching 1800 2 (profileMv 2 - 5)).region 5).prof.target ≤ profileMv 2 - 5 + 5 ∧ profileMv ((switching 1800 2 (profileMv 2 - 5)).region 5).prof.target ≤ ((switching 1800 2 (profileMv 2 - 5)).pane 0).pwr.rail (switching 1800 2 (profileMv 2 - 5)).time + 5)) ∧
    (((switching 1800 2 700).pane 0).region = some 5 ∧
     ((switching 1800 2 700).pane 0).clk.mhz < profileMhz ((switching 1800 2 700).region 5).prof.target ∧
     profileMv 2 - 6 + 5 < profileMv ((switching 1800 2 700).region 5).prof.target) ∧
    ((grantS ({} : Prof) 2 (secs 1)).lintelUp = true ∧
     (List.any (grantS ({} : Prof) 2 (secs 1)).regions fun (q : ℕ × Region) => q.2.sprints) = true ∧
     (grantS ({} : Prof) 2 (secs 1)).prof.renewAt + secs 1 ≤ (grantS ({} : Prof) 2 (secs 1)).time ∧
     (grantS ({} : Prof) 2 (secs 1)).prof.misses = 0) ∧
    ((grantS { grantSeq := 255 : Prof } 2 (secs 1)).lintelUp = true ∧
     (List.any (grantS { grantSeq := 255 : Prof } 2 (secs 1)).regions fun (q : ℕ × Region) => q.2.sprints) = true ∧
     (grantS { grantSeq := 255 : Prof } 2 (secs 1)).prof.renewAt + secs 1 ≤ (grantS { grantSeq := 255 : Prof } 2 (secs 1)).time ∧
     (List.any (grantS { grantSeq := 255 : Prof } 2 (secs 1)).regions fun (q : ℕ × Region) => q.2.prof.stage == 1) = false ∧
     (grantS { grantSeq := 255 : Prof } 2 (secs 1)).grantW ≤ 60000) ∧
    ((grantS { grant := true : Prof } 2).lintelUp = true ∧ (grantS { grant := true : Prof } 2).prof.grant = true ∧
     (grantS { grant := true : Prof } 2).grantW ≤ (grantS { grant := true : Prof } 2).grantW) ∧
    (0 < (grantS { grant := true : Prof } 2).grantW) ∧
    ((grantS { grant := true, leaseEnd := 5 : Prof } 0 5).prof.grant = true ∧
     (grantS { grant := true, leaseEnd := 5 : Prof } 0 5).prof.leaseEnd ≤ (grantS { grant := true, leaseEnd := 5 : Prof } 0 5).time ∧
     (List.any (grantS { grant := true, leaseEnd := 5 : Prof } 0 5).regions fun (q : ℕ × Region) => q.2.prof.stage == 2) = false) ∧
    (5 < 64 ∧ ((grantS ({} : Prof) 0 7).region 5).prof.sprintUntil = some 7 ∧ 7 ≤ (grantS ({} : Prof) 0 7).time ∧
     ((grantS ({} : Prof) 0 7).region 5).prof.profile = 3 ∧ ((grantS ({} : Prof) 0 7).region 5).prof.ending = 0) := by
  refine ⟨?_, ?_, ?_, ?_, ?_, ?_, ?_, ?_, ?_, ?_, ?_, ?_⟩ <;> decide +kernel

theorem test_hyps_KeeperKeysAndCredentials :
    (AsksPlainly (asking on 63 16 []) 63 16 []) ∧
    (AsksPlainly (asking on 63 17 (zeros 32)) 63 17 (zeros 32) ∧ (zeros 32).length = 32) ∧
    (AsksPlainly (asking on 0 32 (claimBlob on 0)) 0 32 (claimBlob on 0) ∧ (claimBlob on 0).length = 1136 ∧
     (asking on 0 32 (claimBlob on 0)).cmdKey 0 = none ∧
     (asking on 0 32 (claimBlob on 0)).unwrap 0 (claimBlob on 0) = some (gcmCrypt (on.wrapKey 0 (zeros 1088)) (zeros 12) 0 (zeros 32))) ∧
    (AsksPlainly (asking (keyed on 0) 0 32 (zeros 1136)) 0 32 (zeros 1136) ∧ (zeros 1136).length = 1136 ∧
     ((asking (keyed on 0) 0 32 (zeros 1136)).cmdKey 0).isSome = true) ∧
    (AsksAuthorised (askingAuth guests63 0 33 instBody) 0 33 instBody (askedAuth guests63 0 33 instBody) ∧ instBody.length = 1140 ∧
     leAt instBody 1 3 = 0 ∧ leAt instBody 0 1 < 64 ∧ (0 = 0 ∨ leAt instBody 0 1 = 0) ∧
     ((askedAuth guests63 0 33 instBody).guest (leAt instBody 0 1)).gstate = 1 ∧
     (askedAuth guests63 0 33 instBody).unwrap (leAt instBody 0 1) (List.drop 4 instBody) =
         some (gcmCrypt (on.wrapKey 63 (zeros 1088)) (zeros 12) 0 (zeros 32))) ∧
    (AsksAuthorised (askingAuth guests63 63 33 instBody) 63 33 instBody (askedAuth guests63 63 33 instBody) ∧
     (63 = 0 ∨ leAt instBody 0 1 = 63) ∧ ((askedAuth guests63 63 33 instBody).guest (leAt instBody 0 1)).gstate = 1 ∧
     (askedAuth guests63 63 33 instBody).unwrap (leAt instBody 0 1) (List.drop 4 instBody) =
         some (gcmCrypt (on.wrapKey 63 (zeros 1088)) (zeros 12) 0 (zeros 32))) ∧
    (AsksAuthorised (askingAuth guests63 63 34 (enrolBody 3 (2 ^ 63))) 63 34 (enrolBody 3 (2 ^ 63)) (askedAuth guests63 63 34 (enrolBody 3 (2 ^ 63))) ∧
     (enrolBody 3 (2 ^ 63)).length = 48 ∧ 1 ≤ leAt (enrolBody 3 (2 ^ 63)) 0 1 ∧ leAt (enrolBody 3 (2 ^ 63)) 0 1 ≤ 3 ∧
     leAt (enrolBody 3 (2 ^ 63)) 1 7 = 0 ∧ (63 = 0 ∨ leAt (enrolBody 3 (2 ^ 63)) 8 8 = 2 ^ 63) ∧
     ((askedAuth guests63 63 34 (enrolBody 3 (2 ^ 63))).keeper.enrolled.any fun (e : Enrolled) => e.keyid == List.take 16 (sha256 (slice (enrolBody 3 (2 ^ 63)) 16 32))) = false ∧
     (askedAuth guests63 63 34 (enrolBody 3 (2 ^ 63))).keeper.enrolled.length < 64 ∧
     (63 = 0 ∨ (List.filter (fun (e : Enrolled) => e.by_ == 63) (askedAuth guests63 63 34 (enrolBody 3 (2 ^ 63))).keeper.enrolled).length < 4)) ∧
    (AsksAuthorised (askingAuth (enrolled 63) 63 35 (zeros 16)) 63 35 (zeros 16) (askedAuth (enrolled 63) 63 35 (zeros 16)) ∧
     List.find? (fun (x : Enrolled) => x.keyid == zeros 16) (askedAuth (enrolled 63) 63 35 (zeros 16)).keeper.enrolled = some (enr 63) ∧
     (63 = 0 ∨ (enr 63).by_ = 63)) ∧
    (AsksAuthorised (askingAuth (enrolled 63) 0 35 (zeros 16)) 0 35 (zeros 16) (askedAuth (enrolled 63) 0 35 (zeros 16)) ∧
     List.find? (fun (x : Enrolled) => x.keyid == zeros 16) (askedAuth (enrolled 63) 0 35 (zeros 16)).keeper.enrolled = some (enr 63) ∧
     (0 = 0 ∨ (enr 63).by_ = 0)) ∧
    (AsksAuthorised (askingAuth (enrolled 0) 63 35 (zeros 16)) 63 35 (zeros 16) (askedAuth (enrolled 0) 63 35 (zeros 16)) ∧
     List.find? (fun (x : Enrolled) => x.keyid == zeros 16) (askedAuth (enrolled 0) 63 35 (zeros 16)).keeper.enrolled = some (enr 0) ∧
     63 ≠ 0 ∧ (enr 0).by_ ≠ 63) := by
  refine ⟨?_, ?_, ?_, ?_, ?_, ?_, ?_, ?_, ?_, ?_⟩
  · decide +kernel
  · decide +kernel
  · exact ⟨asks_plainly on 0 32 _ (by decide) (by decide) rfl rfl (by rw [claimBlob_length]; decide) (fun _ => rfl), claimBlob_length on 0, by decide +kernel, unwrap_claimBlob on _ 0 rfl rfl⟩
  · decide +kernel
  · exact ⟨install_asked 0 (by decide) (fun _ => rfl) (by decide +kernel), instBody_length, rfl, show 63 < 64 by decide, .inl rfl, by rw [askedAuth, askedAuth_eq _ _ _ _ rfl (by decide +kernel)]; rfl, install_unwraps 0 (by decide +kernel)⟩
  · exact ⟨install_asked 63 (by decide) (fun h => absurd h (by decide)) (by decide +kernel), .inr rfl, by rw [askedAuth, askedAuth_eq _ _ _ _ rfl (by decide +kernel)]; rfl, install_unwraps 63 (by decide +kernel)⟩
  · exact ⟨asks_auth _ _ _ _ (by decide) (by decide) rfl rfl (by decide +kernel) (by decide) (by decide), by decide +kernel, by decide +kernel, by decide +kernel, by decide +kernel, by decide +kernel, by rw [asked_is _ _ _ _ rfl (by decide)]; decide +kernel, by rw [asked_is _ _ _ _ rfl (by decide)]; decide +kernel, by rw [asked_is _ _ _ _ rfl (by decide)]; decide +kernel⟩
  · exact ⟨asks_auth _ _ _ _ (by decide) (by decide) rfl rfl (by decide +kernel) (by decide) (by decide), by rw [asked_is _ _ _ _ rfl (by decide)]; decide +kernel, by decide +kernel⟩
  · exact ⟨asks_auth _ _ _ _ (by decide) (by decide) rfl rfl (by decide +kernel) (by decide) (by decide), by rw [asked_is _ _ _ _ rfl (by decide)]; decide +kernel, by decide +kernel⟩
  · exact ⟨asks_auth _ _ _ _ (by decide) (by decide) rfl rfl (by decide +kernel) (by decide) (by decide), by rw [asked_is _ _ _ _ rfl (by decide)]; decide +kernel, by decide +kernel, by decide +kernel⟩

theorem test_hyps_KeeperModesAndErasure :
    (AsksAuthorised (askingAuth on 0 48 (unlockBody 2 86400)) 0 48 (unlockBody 2 86400) (askedAuth on 0 48 (unlockBody 2 86400)) ∧
     (unlockBody 2 86400).length = 8 ∧ (leAt (unlockBody 2 86400) 0 1 = 1 ∨ leAt (unlockBody 2 86400) 0 1 = 2) ∧
     leAt (unlockBody 2 86400) 1 3 = 0 ∧ leAt (unlockBody 2 86400) 4 4 ≠ 0 ∧ leAt (unlockBody 2 86400) 4 4 ≤ 86400 ∧
     (askedAuth on 0 48 (unlockBody 2 86400)).keeper.approved = false ∧
     (leAt (unlockBody 2 86400) 0 1 = 2 → (List.any (askedAuth on 0 48 (unlockBody 2 86400)).guests fun (q : ℕ × Guest) => q.1 != 0 && q.2.gstate == 1) = false)) ∧
    (AsksPlainly (asking on 0 49 []) 0 49 []) ∧
    (unlocked.keeper.tap ≠ 0 ∧ unlocked.keeper.tapUntil ≤ unlocked.time) ∧
    (AsksAuthorised (askingAuth (owned on) 0 64 []) 0 64 [] (askedAuth (owned on) 0 64 []) ∧
     (List.any (askedAuth (owned on) 0 64 []).ownerSrc fun (q : ℕ × Bool × ℕ) => q.2.1) = true ∧
     (askedAuth (owned on) 0 64 []).keeper.tap = 0 ∧
     (List.any (askedAuth (owned on) 0 64 []).ports fun (q : ℕ × Port) => q.2.cleartext) = false) ∧
    (AsksAuthorised (askingAuth on 0 65 []) 0 65 [] (askedAuth on 0 65 [])) ∧
    (AsksAuthorised (askingAuth on 0 80 []) 0 80 [] (askedAuth on 0 80 []) ∧ (askingAuth on 0 80 []).guests = [] ∧
     (askingAuth on 0 80 []).regions = []) ∧
    (AsksAuthorised (askingAuth on 0 81 wordDecommission) 0 81 wordDecommission (askedAuth on 0 81 wordDecommission) ∧
     (askingAuth on 0 81 wordDecommission).guests = [] ∧ (askingAuth on 0 81 wordDecommission).regions = []) ∧
    (AsksAuthorised (askingAuth on 0 96 (fwBody 67108864)) 0 96 (fwBody 67108864) (askedAuth on 0 96 (fwBody 67108864)) ∧
     (fwBody 67108864).length = 56 ∧ leAt (fwBody 67108864) 2 6 = 0 ∧ leAt (fwBody 67108864) 20 4 = 0 ∧
     0 < leAt (fwBody 67108864) 16 4 ∧ leAt (fwBody 67108864) 16 4 ≤ 67108864) ∧
    (AsksAuthorised (askingAuth armedOn 0 96 (fwBody 0)) 0 96 (fwBody 0) (askedAuth armedOn 0 96 (fwBody 0)) ∧ (fwBody 0).length = 56 ∧
     leAt (fwBody 0) 2 6 = 0 ∧ leAt (fwBody 0) 20 4 = 0 ∧ leAt (fwBody 0) 16 4 = 0 ∧
     ((askingAuth armedOn 0 96 (fwBody 0)).boot.slotAt (1 - (askingAuth armedOn 0 96 (fwBody 0)).boot.active)).state = 1) ∧
    (fetching.keeper.job = some fetchJob ∧ fetchJob.op = 96 ∧ fetching.keeper.st = 2) := by
  refine ⟨?_, ?_, ?_, ?_, ?_, ?_, ?_, ?_, ?_, ?_⟩
  · exact ⟨asks_auth _ _ _ _ (by decide) (by decide) rfl rfl (by decide +kernel) (by decide) (by decide), by decide +kernel, by decide +kernel, by decide +kernel, by decide +kernel, by decide +kernel, by rw [asked_is _ _ _ _ rfl (by decide)]; decide +kernel, by rw [asked_is _ _ _ _ rfl (by decide)]; decide +kernel⟩
  · decide +kernel
  · decide +kernel
  · exact ⟨asks_auth _ _ _ _ (by decide) (by decide) rfl rfl (by decide +kernel) (by decide) (by decide), by rw [asked_is _ _ _ _ rfl (by decide)]; decide +kernel, by rw [asked_is _ _ _ _ rfl (by decide)]; decide +kernel, by rw [asked_is _ _ _ _ rfl (by decide)]; decide +kernel⟩
  · exact asks_auth _ _ _ _ (by decide) (by decide) rfl rfl (by decide +kernel) (by decide) (by decide)
  · exact ⟨asks_auth _ _ _ _ (by decide) (by decide) rfl rfl (by decide +kernel) (by decide) (by decide), by decide +kernel, by decide +kernel⟩
  · exact ⟨asks_auth _ _ _ _ (by decide) (by decide) rfl rfl (by decide +kernel) (by decide) (by decide), by decide +kernel, by decide +kernel⟩
  · exact ⟨asks_auth _ _ _ _ (by decide) (by decide) rfl rfl (by decide +kernel) (by decide) (by decide), by decide +kernel, by decide +kernel, by decide +kernel, by decide +kernel, by decide +kernel⟩
  · exact ⟨asks_auth _ _ _ _ (by decide) (by decide) rfl rfl (by decide +kernel) (by decide) (by decide), by decide +kernel, by decide +kernel, by decide +kernel, by decide +kernel, by decide +kernel⟩
  · decide +kernel

theorem test_hyps_KeeperTestsAndTamper :
    (3 < 4 ∧ offState.boot.off = true) ∧
    ((keyed on 63).boot.off = false ∧ (keyed on 63).guests = [] ∧ (keyed on 63).regions = []) ∧
    (63 < 64 ∧ writingP.cmdKey 63 = some writing1 ∧ writing1.writing = true) ∧
    (on.keeper.st = 2 ∧ (10 = 8 ∨ 10 = 9 ∨ 10 = 10)) ∧
    ((8 = 8 ∨ 8 = 9 ∨ 8 = 10)) ∧
    (errorK.keeper.st = 3 ∧ errorK.keeper.restarted = false) ∧
    (7 ≠ 0) ∧
    ((aged 65536 0).keeper.st = 2 ∧
     (65536 ≤ (aged 65536 0).keeper.drbgCount ∨ (aged 65536 0).keeper.drbgAt + secs 3600 ≤ (aged 65536 0).time)) ∧
    ((aged 0 (secs 3600)).keeper.st = 2 ∧
     (65536 ≤ (aged 0 (secs 3600)).keeper.drbgCount ∨ (aged 0 (secs 3600)).keeper.drbgAt + secs 3600 ≤ (aged 0 (secs 3600)).time)) := by
  refine ⟨?_, ?_, ?_, ?_, ?_, ?_, ?_, ?_, ?_⟩ <;> decide +kernel

theorem test_hyps_ResetsStartACauseAndCount :
    (offState.boot.off = true ∧ 460 ≤ 460) ∧
    (on.boot.resetLow = false) ∧
    (resetHeld.boot.resetLow = true ∧ (resetHeld.boot.stage ≠ 0 ∨ resetHeld.boot.off = true)) ∧
    (resetHeldOff.boot.resetLow = true ∧ (resetHeldOff.boot.stage ≠ 0 ∨ resetHeldOff.boot.off = true)) ∧
    ((owned on).accessor 2304 = some 0 ∧ (owned on).boot.reached = true) ∧
    (0 ≠ 1381192773) ∧
    ((late on (ms 100)).boot.off = false ∧ (late on (ms 100)).boot.resetLow = false ∧ 4 ≤ (late on (ms 100)).boot.stage ∧
     (late on (ms 100)).boot.stage ≠ 15 ∧ (late on (ms 100)).boot.servedAt + ms 100 ≤ (late on (ms 100)).time) ∧
    (failing.boot.off = false ∧ failing.boot.resetLow = false ∧ 4 ≤ failing.boot.stage ∧ failing.boot.stage ≠ 15 ∧
     failing.boot.servedAt + ms 100 ≤ failing.time) ∧
    (attempt.boot.bothFailed = some 0 ∧ 0 + secs 1 ≤ attempt.time ∧ attempt.boot.resetLow = false ∧ attempt.boot.armed = true) := by
  refine ⟨?_, ?_, ?_, ?_, ?_, ?_, ?_, ?_, ?_⟩ <;> decide +kernel

theorem test_hyps_BootStagesFollow :
    ((booting 0).boot.off = false ∧ (booting 0).boot.resetLow = false ∧ (booting 0).boot.bothFailed = none ∧
     (booting 0).boot.attempting = false ∧ (booting 0).boot.stage = 0) ∧
    ((booting 1).boot.off = false ∧ (booting 1).boot.resetLow = false ∧ (booting 1).boot.bothFailed = none ∧
     (booting 1).boot.attempting = false ∧ (booting 1).boot.stage = 1 ∧ ({} : BootFinds).fail = 0) ∧
    ((booting 2).boot.off = false ∧ (booting 2).boot.resetLow = false ∧ (booting 2).boot.bothFailed = none ∧
     (booting 2).boot.attempting = false ∧ (booting 2).boot.stage = 2 ∧ (booting 2).keeper.decommissioned = false) ∧
    ({ fail := 4 : BootFinds }.fail ≠ 0 ∧ (booting 2).keeper.standby = false) ∧
    ((booting 2 false { standby := true : Keeper }).boot.off = false ∧
     (booting 2 false { standby := true : Keeper }).boot.resetLow = false ∧
     (booting 2 false { standby := true : Keeper }).boot.bothFailed = none ∧
     (booting 2 false { standby := true : Keeper }).boot.attempting = false ∧
     (booting 2 false { standby := true : Keeper }).boot.stage = 2 ∧
     (booting 2 false { standby := true : Keeper }).keeper.standby = true) ∧
    ((booting 3).boot.off = false ∧ (booting 3).boot.resetLow = false ∧ (booting 3).boot.bothFailed = none ∧
     (booting 3).boot.attempting = false ∧ (booting 3).boot.stage = 3) ∧
    ((booting 4).boot.off = false ∧ (booting 4).boot.resetLow = false ∧ (booting 4).boot.bothFailed = none ∧
     (booting 4).boot.attempting = false ∧ (booting 4).boot.stage = 4) ∧
    ((booting 5).boot.off = false ∧ (booting 5).boot.resetLow = false ∧ (booting 5).boot.bothFailed = none ∧
     (booting 5).boot.attempting = false ∧ (booting 5).boot.stage = 5) ∧
    ((booting 5 true).boot.off = false ∧ (booting 5 true).boot.resetLow = false ∧ (booting 5 true).boot.bothFailed = none ∧
     (booting 5 true).boot.attempting = false ∧ (booting 5 true).boot.stage = 5) ∧
    (cooled.boot.off = false ∧ cooled.boot.resetLow = false ∧ cooled.boot.bothFailed = none ∧ cooled.boot.attempting = false ∧
     cooled.boot.stage = 10 ∧ cooled.holdOver = true) ∧
    ((booting 6).boot.off = false ∧ (booting 6).boot.resetLow = false ∧ (booting 6).boot.bothFailed = none ∧
     (booting 6).boot.attempting = false ∧ (booting 6).boot.stage = 6 ∧ (booting 6).retired = []) ∧
    ((booting 7).boot.off = false ∧ (booting 7).boot.resetLow = false ∧ (booting 7).boot.bothFailed = none ∧
     (booting 7).boot.attempting = false ∧ (booting 7).boot.stage = 7) ∧
    ((booting 8).boot.off = false ∧ (booting 8).boot.resetLow = false ∧ (booting 8).boot.bothFailed = none ∧
     (booting 8).boot.attempting = false ∧ (booting 8).boot.stage = 8) := by
  refine ⟨?_, ?_, ?_, ?_, ?_, ?_, ?_, ?_, ?_, ?_, ?_, ?_, ?_⟩ <;> decide +kernel

theorem test_hyps_RegisterWritesAreChecked :
    (cold.boot.off = false ∧ 2 ^ 64 - 1 < 2 ^ 64 ∧ cold.boot.ready = false ∧ earlyAddr 131096 = false) ∧
    ((owned on).boot.off = false ∧ 5 < 2 ^ 64 ∧ (owned on).boot.ready = true ∧ (4 ≠ 8 ∨ 131096 % 8 ≠ 0)) ∧
    ((8 ≠ 8 ∨ 131097 % 8 ≠ 0)) ∧
    (131096 % 8 = 0 ∧ (owned on).requester 2305 = none) ∧
    ((owned on).requester 2304 = some 0 ∧ 131096 = 131096) ∧
    ((owned live).boot.off = false ∧ (owned live).boot.ready = true ∧ (owned live).requester 291 = some 3 ∧ 3 ≠ 0) ∧
    (67600 = 67600) ∧
    (2 ^ 63 < 2 ^ 64 ∧ 3 < 64 ∧ 16777224 + 65536 * 3 = 16777224 + 65536 * 3 ∧ bitAt (2 ^ 63) 63 = true ∧
     ((owned live).mailbox 3).state ≠ 1) ∧
    (65535 * 2 ^ 48 < 2 ^ 64 ∧ 66056 % 8 = 0 ∧ (owned on).ownWrite 2304 66056 (65535 * 2 ^ 48) = none ∧
     ((owned on).traced 66056 true (65535 * 2 ^ 48)).plainWrite 2304 0 66056 (65535 * 2 ^ 48) = Except.ok written) ∧
    (131112 % 8 = 0 ∧ (owned on).ownWrite 2304 131112 5 = none ∧
     ((owned on).traced 131112 true 5).plainWrite 2304 0 131112 5 = Except.error 1) := by
  refine ⟨?_, ?_, ?_, ?_, ?_, ?_, ?_, ?_, ?_, ?_⟩ <;> decide +kernel

theorem test_hyps_BusbarCablesAndTrayBus :
    ((ifs { pairSince := some 0 : Iface } (ms 100)).iface.pairSince = some 0 ∧
     (ifs { pairSince := some 0 : Iface } (ms 100)).prof.imbalance = false ∧
     0 + ms 100 ≤ (ifs { pairSince := some 0 : Iface } (ms 100)).time) ∧
    (95 < 96) ∧
    (2 ≤ ((port 95 { state := 2 : Port }).port 95).state) ∧
    (23 < 24 ∧ on.cableSupply 23 = true) ∧
    (on.i3cUp = true ∧ on.iface.i3cAddr = none) ∧
    ((ifs { i3cAddr := some 9 : Iface }).i3cUp = true ∧ (some 9 = none ∨ some 9 = (ifs { i3cAddr := some 9 : Iface }).iface.i3cAddr) ∧
     bitAt 1 0 = true) ∧
    (((none : Option Nat) = none ∨ none = (ifs { i3cAddr := some 9 : Iface }).iface.i3cAddr)) ∧
    ((ifs { i3cAddr := some 9 : Iface }).iface.i3cAddr = some 9) ∧
    ((ifs { i3cAddr := some 9 : Iface }).iface.i3cAddr ≠ some 8) := by
  refine ⟨?_, ?_, ?_, ?_, ?_, ?_, ?_, ?_, ?_⟩ <;> decide +kernel

theorem test_hyps_TapInstructions :
    (on.tapLive = true) ∧
    ((tapped 1).tapLive = true ∧ 1 ≤ (tapped 1).keeper.tap) ∧
    (on.keeper.tap = 0) ∧
    ((bare 1).tapLive = true ∧ (bare 1).pinsFree = true) ∧
    ((tapped 1).pinsFree = false) ∧
    ((tapped 2).tapLive = true ∧ (tapped 2).keeper.tap = 2) ∧
    ((tapped 2).boot.ready = true ∧ 2 ^ 64 - 1 < 2 ^ 64 ∧ (tapped 2).requester (tapped 2).ownerSource = some 0) ∧
    ((tapped 1).keeper.tap ≠ 2) := by
  refine ⟨?_, ?_, ?_, ?_, ?_, ?_, ?_, ?_⟩ <;> decide +kernel

theorem test_hyps_LimitsChangeOnlyByTheSequence :
    (StartsWell (profAsk sprintless 3) 3 3 66 (listOf [one (profileW 3)]) 0 (one (profileW 3)) ∧
     bits (one (profileW 3)).word 103 102 = 3 ∧ bitAt (profAsk sprintless 3).prof.allow 3 = false ∧
     (profAsk sprintless 3).regionOk 3 (bits (one (profileW 3)).word 223 218) [2, 3, 4] = true ∧
     ((profAsk sprintless 3).region (bits (one (profileW 3)).word 223 218)).prof.queue = [] ∧
     ((profAsk sprintless 3).region (bits (one (profileW 3)).word 223 218)).prof.stage = 0 ∧
     ((profAsk sprintless 3).region (bits (one (profileW 3)).word 223 218)).prof.ending = 0 ∧
     ((profAsk sprintless 3).region (bits (one (profileW 3)).word 223 218)).prof.entry = none) ∧
    (exec Instr.authGoResult (checking 2000 true) = Host.Outcome.next (nextOf (exec Instr.authGoResult (checking 2000 true))) ∧
     (nextOf (exec Instr.authGoResult (checking 2000 true))).limits ≠ (checking 2000 true).limits) := by
  refine ⟨?_, ?_⟩
  · decide +kernel
  · exact ⟨next_of (by decide +kernel), by decide +kernel⟩

theorem test_hyps_CoordinatesOutsideTheFieldsNameNoCell :
    1023 < 1024 ∧ 383 < 384 ∧ 4088 < 4096 ∧ 4088 % 8 = 0 ∧ placeOf 1023 383 = none ∧ 5 < 2 ^ 64 ∧ (owned on).boot.off = false ∧
    (owned on).boot.ready = true ∧ (owned on).requester 2304 = some 0 := by decide +kernel

theorem test_hyps_PanesHoldTheirCells :
    (6 ≤ 87 ∧ 87 < 88 ∧ 2 < 3 ∧ 2 < 3 ∧ 15 < 16 ∧ 15 < 16) ∧
    (6 ≤ 6 ∧ 6 < 88 ∧ 0 < 3 ∧ 0 < 3 ∧ 0 < 16 ∧ 0 < 16) ∧
    (cellExists cZ = true) := by
  refine ⟨?_, ?_, ?_⟩ <;> decide +kernel

theorem test_hyps_IdcodeReads :
    (on.tapLive = true ∧ on.stepping < 2) ∧
    (b0.tapLive = true ∧ b0.stepping < 2) := by
  refine ⟨?_, ?_⟩ <;> decide +kernel

theorem test_hyps_ApprovedLeaveTakesEffectAtTheNextBoot :
    (AsksAuthorised (askingAuth on 0 65 []) 0 65 [] (askedAuth on 0 65 [])) ∧
    (leaving.keeper.leave = true) ∧
    (leaving.boot.off = false ∧ leaving.boot.resetLow = false ∧ leaving.boot.bothFailed = none ∧ leaving.boot.attempting = false ∧
     leaving.boot.stage = 2 ∧ ({} : BootFinds).fail = 0) := by
  refine ⟨?_, ?_, ?_⟩
  · exact asks_auth _ _ _ _ (by decide) (by decide) rfl rfl (by decide +kernel) (by decide) (by decide)
  · decide +kernel
  · decide +kernel

theorem test_hyps_StepsKeepTheMemoryInItsForm :
    writeMem.hbm.wf = true ∧ writeMem.hbm.lost = none ∧ step writeMem = .next (nextOf (step writeMem)) :=
  ⟨by decide +kernel, by decide +kernel, next_of (by decide +kernel)⟩

/-! ### Further clauses -/

/-! Further clauses of `BranchesLoopsAndAwaits`. -/
def awaitingCell : Cell := { items := List.replicate 32 0, awaiting := some 31 }
theorem test_hyps_awaits :
    (let r := ((live awaitingCell).serveAsked 0).settleAwaits 0 ((live awaitingCell).region 5).stepNo
     r.2 = [(cA, 31)] ∧ (r.1.listedCells 0).any (fun c => r.1.failed c) = false) ∧
    ((live awaitingCell).cells = [(cA, awaitingCell)] ∧ paneOfCell cA = 0 ∧ awaitingCell.awaiting = some 31) := by decide +kernel

/-! Further clauses of `DotIssues`. -/
def dotopS : DotOp := ⟨15, 0x30, 0x03, 3, 1, 0⟩
theorem test_hyps_side_reads :
    dotOk dotopS 0 = true ∧ fmtOf dotopS.wf = some (Fmt.tb e2m1) ∧ (Fmt.tb e2m1).scaled = true ∧
    (live.ctx cA).clashNow ((live.ctx cA).access 1 1 1 (((live.ctx cA).reg.windowBase + 16777215) % 2 ^ 20 / 64 * 64) 0 false) = [] ∧
    (live.ctx cA).clashNow ((live.ctx cA).access 1 2 1 (((live.ctx cA).reg.windowBase + 0) % 2 ^ 20 / 8 * 8) 0 true) = [] ∧
    bankOf 1 (((live.ctx cA).reg.windowBase + 16777215) % 2 ^ 20 / 64 * 64) ≠ bankOf 1 (((live.ctx cA).reg.windowBase + 0) % 2 ^ 20 / 8 * 8) := by
  decide +kernel

/-! Further clauses of `Conversions`. -/
def cvtop (narrow : Bool) (fmt vd va : Nat) : CvtOp := { narrow := narrow, fmt := fmt, vd := vd, va := va, ts := 31, site := 0, tileEnd := false, rd := 31 }
theorem test_hyps_conversions :
    fmtOf (cvtop true 255 31 31).fmt = none ∧
    ((cvtop false 0x30 31 31).narrow = false ∧ fmtOf 0x30 = some (Fmt.tb e2m1) ∧ (Fmt.tb e2m1).perOp ≠ 32 ∧ 31 < 32) ∧
    ((cvtop true 0x10 31 31).narrow = true ∧ fmtOf 0x10 = some (Fmt.int 32) ∧ ((Fmt.int 32).perOp = 32 → 31 < 31) ∧ (Fmt.int 32).width = 32) ∧
    ((cvtop true 0x00 31 31).narrow = true ∧ fmtOf 0x00 = some (Fmt.fp fp32) ∧ ((Fmt.fp fp32).perOp = 32 → 31 < 31) ∧ (Fmt.fp fp32).width = 32) ∧
    ((cvtop true 0x11 31 30).narrow = true ∧ fmtOf 0x11 = some (Fmt.int 8) ∧ ((Fmt.int 8).perOp = 32 → 30 < 31) ∧ (Fmt.int 8).width ≠ 32) := by
  decide +kernel

/-! Further clauses of `NoFreeCycleFails`. -/
def fullCell : Cell :=
  { linkRun := [(4, 15)], bankRun := [(18, 63)], portRun := [(3, 63)], routes := [(3, { inn := 0, out := 16 })]
    evs := [{ due := 100, act := .hop 3 0 cA 0 }]
    accs := [{ cycle := 100, mem := 1, port := 1, bank := 2, slot := 1, iaddr := 0, offset := 128, narrow := false },
             { cycle := 100, mem := 3, port := 3, bank := 0, slot := 3, iaddr := 0, offset := 0, narrow := false }] }
theorem test_hyps_no_free_cycle :
    ((live fullCell).runningRegion (paneOfCell cA)).isSome = true ∧ ((live fullCell).pane (paneOfCell cA)).runCycles = 100 ∧
    (15 ≤ mget 0 fullCell.linkRun 4 ∧ 4 ∈ (fullCell.linksNow 100).map (·.1)) ∧
    ((∀ a ∈ fullCell.accsNow 100, a.bank < 256) ∧ (∃ a ∈ fullCell.accsNow 100, a.mem = 1 ∧ a.bank = 2) ∧ 63 ≤ mget 0 fullCell.bankRun (16 * 1 + 2)) ∧
    ((∃ a ∈ fullCell.accsNow 100, a.mem = 3 ∧ a.port = 3) ∧ 63 ≤ mget 0 fullCell.portRun 3) := by
  decide +kernel

/-! Further clauses of `FailedCheckStopsTheRegion`. -/
def failingS : State := live { faultCycle := some 100 }
theorem test_hyps_failed_checks :
    (live.regionOfCell cA = some 5 ∧ (live.region 5).state = 3 ∧ (live.pane (paneOfCell cA)).cond = .running ∧
     (live.pane (paneOfCell cA)).cyc < (live.region 5).beatLen) ∧
    ((liveWith { pane5 with cond := .complete }).regionOfCell cA = some 5 ∧ ((liveWith { pane5 with cond := .complete }).region 5).state = 3 ∧
     ((liveWith { pane5 with cond := .complete }).pane (paneOfCell cA)).cond ≠ .running) ∧
    ((failingS.pane 0).region = some 5 ∧ (failingS.region 5).state = 3 ∧ (failingS.pane 0).cond = .running ∧
     (failingS.pane 0).cyc < (failingS.region 5).beatLen ∧
     (∀ c ∈ failingS.listedCells 0, (failingS.cell c).grantAsk = [] ∧ (failingS.cell c).awaiting = none) ∧
     (∃ c ∈ failingS.listedCells 0, failingS.failed c = true)) := by
  decide +kernel

/-! Further clauses of `BeatsPausesStallsAndTheWatchdog`. -/
def lastBeatPane : Pane := { power := 0, region := some 5, cond := .running, cyc := 32, beat := 1, begun := 2 }
def lastBeatS (other : RunCond) : State :=
  { liveWith lastBeatPane with panes := [(0, lastBeatPane), (737, { pane5 with cond := other })] }
def stalledTwo : State :=
  { liveWith { power := 0, region := some 5, cond := .awaitStall [(cA, 3)] } { held5 with panes := [0, 737] } { items := [0, 0, 0, 2 * 2 ^ 60] } with
    panes := [(0, { power := 0, region := some 5, cond := .awaitStall [(cA, 3)] })
              , (737, { power := 0, region := some 5, cond := .outStall, outWait := [(cZ, 7)] })]
    time := ms 1 + 1 }
def heldOnly : State := { liveWith { power := 0, region := some 5, cond := .complete } held5 with time := ms 1 + 1 }
theorem test_hyps_beats :
    (((lastBeatS .running).runningRegion 0 = some 5 ∧ ((lastBeatS .running).pane 0).cond = .running ∧
      ((lastBeatS .running).pane 0).cyc = ((lastBeatS .running).region 5).beatLen ∧
      ((lastBeatS .running).pane 0).beat = ((lastBeatS .running).region 5).lastBeat) ∧
     ∃ i ∈ ((lastBeatS .running).region 5).panes, i ≠ 0 ∧
       ¬(((lastBeatS .running).pane i).cond = .stopped ∧ ((lastBeatS .running).pane i).beat = ((lastBeatS .running).region 5).lastBeat)) ∧
    (((lastBeatS .stopped).pane 0).beat = ((lastBeatS .stopped).region 5).lastBeat ∧
     ∀ i ∈ ((lastBeatS .stopped).region 5).panes, i ≠ 0 →
       ((lastBeatS .stopped).pane i).cond = .stopped ∧ ((lastBeatS .stopped).pane i).beat = ((lastBeatS .stopped).region 5).lastBeat) ∧
    ((stalledTwo.region 5).holdSince = some 1 ∧ (stalledTwo.region 5).state = 3 ∧ (stalledTwo.region 5).shifts = [] ∧
     1 + ms (stalledTwo.region 5).wdogMs ≤ stalledTwo.time ∧ (cA, 1, 3, 2) ∈ stalledTwo.stalledCells (stalledTwo.region 5) ∧
     (∀ w ∈ stalledTwo.stalledCells (stalledTwo.region 5), w = (cA, 1, 3, 2) ∨ cA < w.1) ∧
     (stalledTwo.stalledCells (stalledTwo.region 5)).length = 2) ∧
    ((heldOnly.region 5).holdSince = some 1 ∧ (heldOnly.region 5).state = 3 ∧ (heldOnly.region 5).shifts = [] ∧
     1 + ms (heldOnly.region 5).wdogMs ≤ heldOnly.time ∧ heldOnly.stalledCells (heldOnly.region 5) = []) := by
  decide +kernel

/-! Further clauses of `DeliveriesAndCellWindows`. -/
theorem test_hyps_grants_and_verdicts :
    ((live bgCell).inCycle (paneOfCell cA) = true ∧ 3 ∉ ((live bgCell).cell cA).grantAsk) ∧
    ((live repCell).regionOfCell cA = some 5 ∧
     (let old := mget ({} : RepeatState) ((live repCell).cell cA).repState 63; old.widened ≤ old.tiles)) ∧
    (bits (63 * 2 ^ 58 + 31 * 2 ^ 45 + 2 * 2 ^ 50) 49 45 ∈ ((live { repCell with taken := [31] }).cell cA).taken) ∧
    (let x : Cell := { repCell with repState := [(63, { words := 2 })] }
     bits (63 * 2 ^ 58 + 31 * 2 ^ 45 + 2 * 2 ^ 50) 57 50 ≤ (mget ({} : RepeatState) ((live x).cell cA).repState 63).words) := by
  decide +kernel

/-! Further clauses of `DeadCellsAndRowShifts`. -/
def shifting (rest : List ShiftRec) (over_ : Bool) : State :=
  liveWith { power := 0, region := some 5 } { state := 2, panes := [0], shifts := shift5 :: rest, flight := some { flight with beatsOver := over_ } }
theorem test_hyps_copies :
    ((shifting [shift5] false).region 5).shifts = shift5 :: [shift5] ∧ [shift5] ≠ [] ∧
    ((shifting [] true).region 5).shifts = shift5 :: [] ∧ (∀ f ∈ ((shifting [] true).region 5).flight, f.beatsOver = true) := by
  decide +kernel

/-! Further clauses of `CacheEngineEntries`. -/
def resumeFrom (st : Nat) : State :=
  let s := asks 2 resumeW
  { s with cache := { s.cache with parks := [(0, { state := st, guest := 3, expiry := 7, slot := { state := 2, guest := 3, length := 3 } })] } }
theorem test_hyps_resume :
    (StartsWell (resumeFrom 1) 3 2 0x31 (listOf [one resumeW]) 0 (one resumeW) ∧
     ((resumeFrom 1).begun 3 2 (listOf [one resumeW]) 0).regionOk 3 (bits (one resumeW).word 223 218) [2, 3, 4] = true ∧
     ((resumeFrom 1).begun 3 2 (listOf [one resumeW]) 0).resumeTest 5 16383 3 (one resumeW).word = stOK) ∧
    (((resumeFrom 3).begun 3 2 (listOf [one resumeW]) 0).resumeTest 5 16383 3 (one resumeW).word ≠ stOK) := by
  refine ⟨⟨?_, ?_, ?_⟩, ?_⟩ <;> decide +kernel

/-! Further clauses of `RegionsLoadAndRelease`. -/
def ajarCopying : State := { copying 3 with panes := [(0, { power := 1 })] }
def relLoading : State := { live {} with panes := [(0, { power := 0 })], regions := [(5, { state := 1, guest := 3, load := some (load5 2), panes := [0] })] }
theorem test_hyps_loads :
    ((ajarCopying.region 5).load = some (load5 3) ∧ ajarCopying.keeper.st = 2 ∧
     (ajarCopying.loadVerdict 5 (load5 3) true).toOption.map (·.2) = some [0] ∧ ([0].all fun (p : Nat) => (ajarCopying.pane p).power == 0) = false) ∧
    ((((copying 3).loadVerdict 5 (load5 3) false).toOption).isNone = true) := by
  refine ⟨⟨rfl, ?_, ?_, ?_⟩, ?_⟩ <;> decide +kernel
theorem test_hyps_release_of_a_load :
    Authorised (signedBy relLoading 3 3 relW) 3 3 65 (listS relLoading 3 relW) 1 (one relW) (authOf relLoading 3 relW) (acceptedBy relLoading 3 3 relW) ∧
      (acceptedBy relLoading 3 3 relW).regionOk 3 (bits (one relW).word 223 218) [1] = true := by
  exact ⟨authorised _ _ _ _ _ rfl (by decide) ⟨by decide, by decide, rfl, by decide, by decide +kernel, rfl⟩ (by decide) (by decide) rfl,
    by rw [accepted_is _ _ _ _ rfl (by decide)]; decide +kernel⟩

/-! Further clauses of `StepsAreAdmitted`. -/
def stepping5 (pre : Bool) : State :=
  let t : StepTpl := if pre then { kind := 2, tpl := 15, beats := 2, waves := 1, waveSlots := 256, draft := 0 } else tpl0
  let e : RunEntry := { id := ⟨3, 0, 1, 0⟩, prefill := pre, tpl := 15, left := 1, slot := 3, tokens := 5, pos := 3, final := true }
  let s := liveWith { power := 0, region := some 5 }
    { regionA with image := some { tpls := [t], slots := 4 }, runs := [e]
                   slots := [(3, { state := 2, guest := 3, length := 3, ops := if pre then [(⟨3, 0, 1, 0⟩, 0x11)] else [], logBlocks := [(4, 9)]
                                   , log := [(1, 0), (2, 0), (3, 0)] })] }
  { s with thermal := { lastReport := some 0 } }
theorem test_hyps_decode_steps :
    ((stepping5 false).region 5).runs.map (·.prefill) = [false] ∧ (stepping5 false).mayAdmit 5 = true ∧
    ((stepping5 false).region 5).tplOf 15 = some tpl0 ∧ tpl0.kind = 1 ∧ ((stepping5 false).region 5).shards ≠ 0 ∧
    ((stepping5 false).region 5).swings = [] ∧ ((stepping5 false).region 5).current = some (0, { state := 3, owner := 3, gen := 9 }) ∧
    ((((stepping5 false).region 5).slots.map (·.1)).foldl (fun a n => a.applyVerify 5 n) (stepping5 false)).settleRedo 5 = stepping5 false ∧
    (let order := ((stepping5 false).region 5).cursorOrder tpl0 9 ((stepping5 false).candidates 5 (((stepping5 false).region 5).chooseWindow 0))
     order = [3] ∧
     (∀ n ∈ order, (stepping5 false).maskless 5 n = false ∧ (stepping5 false).absentAt 5 n = none ∧
       (stepping5 false).maskHeld ((stepping5 false).slot 5 n).mask = false) ∧
     (∀ q ∈ ((stepping5 false).region 5).slots, q.2.state ≠ 4) ∧
     (State.takeSlots 5 tpl0 1 (order.take (tpl0.width / 1)) [] [] { s := stepping5 false }).2 = ([{ slot := some 3, pos := 3, token := 0 }], [3])) := by
  decide +kernel
theorem test_hyps_prefill_steps :
    (stepping5 true).mayAdmit 5 = true ∧ ((stepping5 true).region 5).runs.map (·.prefill) = [true] ∧
    (stepping5 true).opFirst 5 3 ⟨3, 0, 1, 0⟩ = true ∧ (((stepping5 true).region 5).tplOf 15).map (fun t => (t.kind, t.width)) = some (2, 256) ∧
    ((stepping5 true).slot 5 3).state = 2 ∧ ((stepping5 true).slot 5 3).length = 3 + 0 ∧ (stepping5 true).maskless 5 3 = false ∧
    (stepping5 true).absentAt 5 3 = none ∧ (zeros 20).length = 4 * min 256 (5 - 0) ∧ (stepping5 true).maskHeld ((stepping5 true).slot 5 3).mask = false ∧
    (stepping5 true).listsFit 5 256 (List.replicate 5 3) = true ∧ ((stepping5 true).region 5).slotWindow ((stepping5 true).slot 5 3) = some 0 ∧
    ((stepping5 true).reserveSlot 5 3 3 5 [3]).ok = true ∧
    ((((stepping5 true).region 5).slots.map (·.1)).foldl (fun a n => a.applyVerify 5 n) (stepping5 true)).settleRedo 5 = stepping5 true := by
  decide +kernel

/-! Further clauses of `StepsRunCommitAndVerify`. -/
def pagedStep : State :=
  let s := atStep begun0
  { s with cache := { s.cache with desc := [(7, { tier := 2, valid := true, guest := 3, loc := 17, units := 4, frame := 9 })] } }.modSlot 5 0
    (fun x => { x with pages := [(0, [7])] })
def scatteringBefore : State := { atStep flight0 with regions := [(5, { state := 3, guest := 3, scatters := [{ step := 7, stg := 1, rows := [] }], flight := some flight0 })] }
/-- One candidate a shard of 256 tokens: token 5 with the logit 1.0. -/
def oneCand : State := (atStep begun0).modRegion 5 (fun g => { g with rcfg := 2 ^ 55 + 2 ^ 44 + 2 ^ 34 })
def shard5 : List Byte := natLE 16 (1 * 2 ^ 87 + 0x3F800000 * 2 ^ 32 + 0x3F800000) ++ natLE 8 (0x3F800000 * 2 ^ 32 + 5)
theorem test_hyps_frame_lists :
    ((oneCand.region 5).flight = some begun0 ∧ bits (shardHeader shard5) 97 87 ≤ (oneCand.region 5).cand ∧
     bits (shardHeader shard5) 105 98 < (oneCand.region 5).shards ∧ shard5.length = 16 + 8 * bits (shardHeader shard5) 97 87 ∧
     oneCand.shardOk (oneCand.region 5) (lget .every (oneCand.rowsFor 5 false begun0.positions) 0) shard5 = true) ∧
    ((pagedStep.region 5).flight = some begun0 ∧ 0 ∉ begun0.kvReady ∧ mget [] ((pagedStep.region 5).slot 0).pages 0 = [7] ∧
     (∀ p ∈ begun0.positions, ∀ n ∈ p.slot, ∀ d ∈ mget [] ((pagedStep.region 5).slot n).pages 0, (pagedStep.desc d).tier ≠ 3)) ∧
    ((scatteringBefore.region 5).flight = some flight0 ∧ flight0.started = false ∧
     (scatteringBefore.region 5).scatters = [{ step := 7, stg := 1, rows := [] }]) := by
  decide +kernel

/-! Further clauses of `SamplingSourcesAndEntries`. -/
def blank : List Byte := zeros 32768
def poor : State := { fetched with guests := [(3, { gstate := 1, src0 := 0x123, hbm := 0 })] }
theorem test_hyps_mask_sources :
    (((source0 767 { state := 3, guest := 3 }).source 767).state = 3 ∧ ((source0 767 { state := 3, guest := 3 }).source 767).guest = 3 ∧
     (source0 767 { state := 3, guest := 3 }).maskRefs 767 = 0 ∧ (source0 767 { state := 3, guest := 3 }).accessor 0x123 = some 3) ∧
    ((source0 767 { state := 2, guest := 3 }).accessor 0x900 = some 0 ∧ ((source0 767 { state := 2, guest := 3 }).source 767).state ≠ 1) ∧
    (blank.length = (fetched.source 767).len ∧ maskImageOk 767 blank = false) ∧
    ((poor.source 767).state = 1 ∧ maskBits.length = (poor.source 767).len ∧ maskImageOk 767 maskBits = true ∧
     poor.twoCopies (poor.source 767).guest (ceilDiv maskBits.length 4096) = none) := by
  refine ⟨?_, ?_, ?_, ?_⟩ <;> decide +kernel

/-! Further clauses of `HbmAccessesTargetsAndCounters`. -/
def at0 (st : Nat) : State := withCtl (unitStack 0) { chans := (List.range 32).map (fun c => (c, { state := st })) }
def busy : State := withCtl 23 { chans := [(31, { state := 0 })], banks := [(64 * 31 + 63, { state := 2 })] }
theorem test_hyps_hbm :
    (live.mayReadUnit 0 2 = true ∧ live.hbmGate 0 = .go) ∧ (at0 2).hbmGate 0 = .reject ∧ (at0 3).hbmGate 0 = .wait ∧ 
    ((live.modKeeper (fun k => { k with approved := true })).mayReadUnit 0x123 5 = false) ∧
    ((pendingZero.extents.find? (fun x => x.st == 2 && decide (x.start ≤ 374999999 ∧ 374999999 < x.start + x.len))) = some ⟨374999999, 1, 2, 3⟩) ∧
    ((busy.accessor 0x900 = some 0 ∧ (pwrBank (2 ^ 62 + 31 * 2 ^ 56)).isSome = false)) ∧
    ((withCtl 23 { chans := [(31, { state := 1 })] }).hctl 23).writes 23 31 none = 0 ∧
    ((withCtl 23 { banks := [(64 * 31 + 63, { state := 1 })] }).hctl 23).writes 23 31 (some 63) = 0 := by
  decide +kernel
theorem test_hyps_close_in_use :
    ({ withCtl 23 {} with extents := [⟨23 + 24 * 31, 1, 1, 3⟩] } : State).targetHas 23 31 none 1 = true := by decide +kernel

/-! Further clauses of `WeightEntriesManifestsAndShards`. -/
def wloadR : Nat := cmd 0x20 (9 * 2 ^ 208 + 1 * 2 ^ 206 + 5 * 2 ^ 200 + 0x8000 * 2 ^ 184 + 0xFFFF * 2 ^ 120)
def fromHbm : WloadRec := { shardsOf 0 1 with shards := [{ state := 1, source := 9 }] }
def refetching : State := { loading fromHbm with weight := { loads := [fromHbm], gens := [{ gen9 with runs := [(100, 1)] }] } }
theorem test_hyps_weights :
    (((asks 1 wloadR).begun 3 1 (listOf [one wloadR]) 0).regionOk 3 (bits wloadR 205 200) [2, 3, 4] = true ∧ bits wloadR 207 206 ≠ 0 ∧
     StartsWell (asks 1 wloadR) 3 1 0x20 (listOf [one wloadR]) 0 (one wloadR)) ∧
    (({ downW with phase := 0, manifest := [] } : WloadRec).downstream = true ∧ ({ downW with phase := 0 } : WloadRec).manLen = 0 ∧
     (manifest9.take 128).length = 128) ∧
    ((loadingK.manifestVerdict wload7 [] true ≠ 0 ∧ wload7.downstream = false) ∧
     (loading ({ downW with phase := 0, manLen := 1 })).manifestVerdict { downW with phase := 0, manLen := 1 } [0] true ≠ 0) ∧
    ((downW.man.isSome = true ∧ downW.phase = 1 ∧ (lget ({} : ShardRec) downW.shards 0).state = 1 ∧ (lget ({} : ShardRec) downW.shards 0).source = 8)) ∧
    ((fromHbm.man.isSome = true ∧ fromHbm.phase = 1 ∧ (lget ({} : ShardRec) fromHbm.shards 0).state = 1 ∧
      (lget ({} : ShardRec) fromHbm.shards 0).source = 9 ∧ (refetching.generation 3 9).isSome = true ∧
      (({ gen9 with runs := [(100, 1)] } : Generation).badIn (shardSize * 0) 4096) = false)) := by
  refine ⟨⟨?_, ?_, ?_⟩, ⟨?_, ?_, ?_⟩, ⟨⟨?_, ?_⟩, ?_⟩, ⟨?_, ?_, ?_, ?_⟩, ⟨?_, ?_, ?_, ?_, ?_, ?_⟩⟩ <;> decide +kernel

/-! Further clauses of `GenerationChains`. -/
theorem test_hyps_manifest_reads :
    (loading wload7).upstreamLoad (chainMsg 5 (natLE 8 128)) false = none ∧
    readLenOk (leNat ((chainMsg 5 (natLE 8 16777224)).payload.take 4)) = false ∧ readLenOk (leNat ((chainMsg 5 (natLE 8 128)).payload.take 4)) = true ∧
    readLenOk 16777216 = true ∧ readLenOk 0 = false ∧ readLenOk 4 = false := by
  decide +kernel
theorem test_hyps_chain_timers :
    (upW 1).joined = none ∧ (upW 1).fwdFa ≠ 0xFFFF ∧ isChain (chainMsg 5 (natLE 8 16777224)) 5 = true := by decide +kernel

/-! Further clauses of `PortsTrainRetrainAndAreControlled`. -/
theorem test_hyps_port_enabled :
    bitAt (2 ^ 63) 63 = true ∧ bitAt (2 ^ 63) 62 = false ∧ bitAt (2 ^ 63) 61 = false ∧ (port 95 { state := 0, enable := false }).accessor 0x900 = some 0 ∧
    ((port 95 { state := 0, enable := false }).port 95).enable = false ∧ ((port 95 { state := 0, enable := false }).port 95).state = 0 := by
  decide +kernel

/-! Further clauses of `LinksExchangeTheirKeys`. -/
def keyRx4 (typ : Nat) (c : List Byte) (a : LinkAuth := {}) : Port := { keyRx typ c a with state := 4 }
theorem test_hyps_rekeying :
    (((port 95 { state := 4, auth := retryAuth } 5).port 95).auth.retryAt = some 5 ∧ ((port 95 { state := 4, auth := retryAuth } 5).port 95).state ≠ 3) ∧
    ((port 95 (keyRx4 2 (zeros 1180))).canExchange 95 = true ∧
     (port 95 (keyRx4 2 (zeros 1180))).takeKey 95 2 = some (zeros 1180, taken (port 95 (keyRx4 2 (zeros 1180))) 95 2)) ∧
    ((port 95 (keyRx4 3 (peerTag ++ zeros 204) keyedAuth)).canExchange 95 = true ∧
     (port 95 (keyRx4 3 (peerTag ++ zeros 204) keyedAuth)).takeKey 95 3 = some (peerTag ++ zeros 204,
         taken (port 95 (keyRx4 3 (peerTag ++ zeros 204) keyedAuth)) 95 3) ∧
     ((taken (port 95 (keyRx4 3 (peerTag ++ zeros 204) keyedAuth)) 95 3).port 95).state = 4 ∧
     List.take 32 (peerTag ++ zeros 204) = List.take 32 (finishMac linkKeys ((taken (port 95 (keyRx4 3 (peerTag ++ zeros 204) keyedAuth)) 95 3).port 95).auth.peer ((taken (port 95 (keyRx4 3 (peerTag ++ zeros 204) keyedAuth)) 95 3).port 95).auth.transcript)) := by
  refine ⟨?_, ?_, ?_⟩ <;> decide +kernel

/-! Further clauses of `FlitsAreSentTakenAndRetried`. -/
def flit0 : Flit := { hdr := 0, payload := zeros 240 }
def txOf (t : TxSide) : State := port 95 { state := 4, cleartext := true, lanes := 255, tx := t }
theorem test_hyps_slots :
    (let x := ((port 95 { state := 3 }).modPort 95 Port.passSlot).port 95
     x.state = 3 ∧ x.tx.replay = [] ∧ x.tx.retryReq = false ∧ x.tx.replayDue = false ∧ x.tx.keyFlits = []) ∧
    (let x := ((port 95 { state := 4, rx := { freed := [(0, 1)] }, tx := { crWait := 15 } }).modPort 95 Port.passSlot).port 95
     x.state = 4 ∧ 16 ≤ x.tx.crWait) ∧
    (let x := ((txOf { replay := [flit0, flit0] }).modPort 95 Port.passSlot).port 95
     x.state = 4 ∧ x.tx.crWait < 16 ∧ x.tx.replay = [flit0, flit0]) ∧
    (let x := ((txOf { queues := [(0, [{ stuckTx with msg := { stuckTx.msg with vc := 0 } }])] }).modPort 95 Port.passSlot).port 95
     x.state = 4 ∧ x.tx.crWait < 16 ∧ x.tx.replay = [] ∧ x.ready 0 = true ∧ x.tx.run.length < 48) := by
  decide +kernel
def badFlit : RxFlit := { bytes := zeros 256, corr := [0, 0, 0], uncorr := true }
theorem test_hyps_flits_in_securing :
    (GoodFlit (port 95 { state := 4 }) 95 (link 4 0) ∧ isLink (link 4 0) 4 = true ∧ ((port 95 { state := 4 }).port 95).rx.discard = false) ∧
    (GoodFlit (port 95 { state := 3 }) 95 (link 4 0) ∧ ((port 95 { state := 3 }).port 95).rx.discard = false) ∧
    (GoodFlit (port 95 { state := 3 }) 95 (link 1 0) ∧ isLink (link 1 0) 1 = true) ∧
    (GoodFlit (port 95 { state := 3 }) 95 (dataFlit 4) ∧ hdrKind (Flit.ofBytes (dataFlit 4).bytes).hdr < 5) ∧
    (GoodFlit (port 95 { state := 3 }) 95 (dataFlit 6) ∧ hdrKind (Flit.ofBytes (dataFlit 6).bytes).hdr = 6) ∧
    (((port 95 { state := 3, rx := retryRx 7 9 }).port 95).rx.reqRef = ((port 95 { state := 3, rx := retryRx 7 9 }).port 95).rx.seq ∧
     ((port 95 { state := 3, rx := retryRx 7 9 }).port 95).rx.requests = 7 ∧ ((port 95 { state := 3, rx := retryRx 7 9 }).port 95).state = 3 ∧
     ((port 95 { state := 3, rx := retryRx 7 9 }).port 95).rx.discard = true ∧ 64 ≤ ((port 95 { state := 3, rx := retryRx 7 9 }).port 95).rx.slots) ∧
    (badFlit.uncorr = true) := by
  refine ⟨?_, ?_, ?_, ?_, ?_, ?_, rfl⟩ <;> decide +kernel

/-! Further clauses of `NeighboursAndBridges`. -/
def knocked (n t : Nat) : State := port 95 { state := 4, nbr := nbr n } t
theorem test_hyps_neighbours :
    (1 ≤ ((knocked 1 (ms 1)).port 95).nbr.sends ∧ ((knocked 7 (ms 1)).port 95).nbr.sends < 8 ∧ ((knocked 7 (ms 1)).port 95).nbr.sentAt + ms 1 ≤ ms 1) ∧
    (((knocked 8 (secs 1)).port 95).state = 4 ∧ 8 ≤ ((knocked 8 (secs 1)).port 95).nbr.sends ∧
     ((knocked 8 (secs 1)).port 95).nbr.sentAt + secs 1 ≤ (knocked 8 (secs 1)).time) ∧
    (faClass (0xFFFF % 65536) ≠ 0 ∨ faReserved (0xFFFF % 65536) = true) ∧
    ((bridge 1 0).accessor 0x900 = some 0 ∧ bits (2 ^ 62) 63 62 < 3 ∧ bits (2 ^ 62) 61 55 < 96 ∧ bits (2 ^ 62) 63 62 = (bridge 1 0).fabric.role) ∧
    ((bridge 2 0).fabric.role = 2 ∧ bits (2 ^ 62) 63 62 = 1) ∧
    (3 ≤ bits (3 * 2 ^ 62) 63 62 ∧ 96 ≤ bits (96 * 2 ^ 55) 61 55) ∧
    (let ahead (e : Nat) := (leAt (beatMsg 1 e).payload 0 2 + 65536 - (bridge 1 65535).fabric.epoch % 65536) % 65536
     ahead 0 ≠ 0 ∧ ahead 0 < 0x8000 ∧ ahead 0x7FFE < 0x8000 ∧ ¬ ahead 0x7FFF < 0x8000 ∧ ahead 65535 = 0 ∧ (bridge 1 65535).fabric.role = 1) := by
  decide +kernel

/-! Further clauses of `MulticastAndBarriers`. -/
def mcIn95 : State := mcState (2 ^ 255 + 2 ^ 254 + 95 * 2 ^ 247 + 2 * 2 ^ 245 + 0x44 * 2 ^ 229 + 2 ^ 94)
def atBar (p : Nat) (b : Barrier) (m : Msg) : Barrier := ((barState b).takeRx p m).bar (m.dest - 0xFF00)
theorem test_hyps_groups :
    (mcIn (mcIn95.mcEntry 255) = 95 ∧ bitAt (mcIn95.mcEntry 255) 255 = true ∧ mcMsg.vc = mcVc (mcIn95.mcEntry 255) ∧
     mcMsg.src = mcRoot (mcIn95.mcEntry 255)) ∧
    (bitAt ((mcState 0).mcEntry 255) 255 = false ∧ mcIn (mcIn95.mcEntry 255) ≠ 0x7F) ∧
    ((atBar 95 { entry := barE, gen := 9, up := true } (barMsg 1 9)).valid = true ∧
     95 ∈ (atBar 95 { entry := barE, gen := 9, up := true } (barMsg 1 9)).children ∧
     leAt (barMsg 1 9).payload 4 4 = (atBar 95 { entry := barE, gen := 9, up := true } (barMsg 1 9)).gen) ∧
    (leAt (barMsg 1 0).payload 4 4 = ((atBar 95 { entry := barE, gen := 2 ^ 32 - 1 } (barMsg 1 0)).gen + 1) % 2 ^ 32 ∧
     leAt (barMsg 1 0).payload 4 4 ≠ (atBar 95 { entry := barE, gen := 2 ^ 32 - 1 } (barMsg 1 0)).gen ∧
     95 ∈ (atBar 95 { entry := barE, gen := 2 ^ 32 - 1 } (barMsg 1 0)).children) ∧
    (94 ∉ (atBar 94 { entry := barE, gen := 9 } (barMsg 1 9)).children) ∧
    ((atBar 95 { entry := barE, gen := 9 } (barMsg 2 9)).parent ≠ 95 ∧ isBarrier (barMsg 2 9) 2 = true) := by
  decide +kernel

/-! Further clauses of `MessagesArriveAndAreRouted`. -/
def withPre (fmt : Nat) : List Byte := natLE 8 (fmt * 2 ^ 56) ++ natLE 8 (2 ^ 63)
def takesVerdict : State := liveWith pane5 region5 { items := [3 * 2 ^ 60 + 2 ^ 16], closed := [0] }
def stoppedRegion (contract : Bool) : State := liveWith pane5 { region5 with state := 4, flight := none, contract := contract }
theorem test_hyps_arrivals :
    (readPreamble (withPre 0) = some ⟨0, 0, 0⟩ ∧ partialSums ⟨0, 0, 0⟩ = false ∧ partialSums ⟨0, 1, 0⟩ = true ∧
     readPreamble (natLE 8 1 ++ [5]) = some ⟨1, 0, 0⟩ ∧ readPreamble (natLE 8 0xFF) = none ∧ readPreamble (natLE 7 0) = none ∧
     (readPreamble (natLE 8 0x100)).map partialSums = some true) ∧
    ((arrival 0 0 8 (natLE 8 1)).vc = 2 ∧
     takes.isVerdict { cell := cA, item := 0, tag := 8, data := natLE 8 1, src := 0x45 } = false ∧ 0 < (takes.cell cA).items.length) ∧
    (takesVerdict.isVerdict { cell := cA, item := 0, tag := 8, data := natLE 8 1, src := 0x45 } = true) ∧
    (((stoppedRegion true).region 5).state = 4 ∧ ((stoppedRegion true).region 5).contract = true ∧
     ((stoppedRegion true).region 5).localCell 0 = some cA) ∧
    (mhas (late live 0).quick 11 = false ∨ (mget (0, []) (late live 0).quick 11).1 + ns 100 ≤ (late live 0).time) := by
  decide +kernel

/-! Further clauses of `FaultMessages`. -/
def bridgeOwn : State := { toBridge (fte 1 false) with fabric := { (toBridge (fte 1 false)).fabric with role := 1 } }
def seenBridge (n : Nat) : State := { bridge 1 7 with fabric := { (bridge 1 7).fabric with sources := [(0x125, n)] } }
def latched : State := { sinking with fabric := { sinking.fabric with sinkSec := 1, sinkCount := 15999 } }
theorem test_hyps_fault_messages :
    (bridgeOwn.fabric.bridgeFa ≠ 0xFFFF ∧ bridgeOwn.openEntries 3 ≠ [] ∧ bridgeOwn.fabric.window ≠ some (bridgeOwn.time / ms 1) ∧
     bridgeOwn.iface.halted = false ∧ bridgeOwn.fabric.role = 1) ∧
    (let later (s : State) : Bool := match s.fabric.sources.find? (fun q => q.1 == leAt faultMsg.payload 0 2) with
       | some q => decide (q.2 < leAt faultMsg.payload 4 4) | none => true
     later (bridge 1 7) = true ∧ later (seenBridge 8) = true ∧ later (seenBridge 9) = false) ∧
    (latched.fabric.sinkQ = [sink5] ∧ latched.fabric.role = 1 ∧ latched.fabric.sinkFa ≠ 0xFFFF ∧ latched.fabric.sinkSec = latched.time / secs 1 ∧
     latched.fabric.sinkCount < 16000) := by
  decide +kernel

/-! Further clauses of `PowerInputAndPaneRegulation`. -/
def raising (w : PanePower) : State := marked 0 w
def newRaises (s : State) (p : Nat) : List Nat :=
  (((s.marksOf p).filter (fun m => decide (m.1 ≤ s.stepCycles p ∧ s.stepCycles p < m.2))).map (fun m => (s.pane p).runCycles + (m.2 - s.stepCycles p))).filter
    (fun e => !(s.pane p).pwr.raises.contains e)
theorem test_hyps_pane_power :
    ((pow { lowSince := some 0, vin := 459, inputLow := true } (secs 5)).boot.off = false ∧
     (459 < 420 ∨ (459 < 460 ∧ ∃ t0, (pow { lowSince := some 0 } (secs 5)).power.lowSince = some t0 ∧ t0 + secs 5 ≤ secs 5))) ∧
    (((raising { mv800 with raiseOff := true }).pane 0).pwr.raiseOff = true ∧ ((raising { mv800 with raiseOff := true }).pane 0).cond = .running) ∧
    (((raising mv800).pane 0).pwr.raiseOff = false ∧ newRaises (raising mv800) 0 ≠ [] ∧ ((raising mv800).pane 0).pwr.cap ≠ 2 ∧
     ((raising mv800).pane 0).pwr.base ≠ 0) ∧
    (((railed fail1 .running false 737).pane 737).pwr.failed ++ [0]).length = 2 ∧
    (((railed fail2 .running false 737).pane 737).pwr.failed ++ [2]).length = 3 ∧
    (((railed mv800 .running false 737).pane 737).pwr.failed ++ [3]).length = 1 ∧
    ((((railed fail1 .running false 785).pane 785).pwr.failed ++ [2]).length = 2 ∧ 738 ≤ 785 ∧ 2 < if 785 < 738 then 4 else 3) ∧
    ((railed mv800 .running false 785).pane 785).pwr.failed.contains 2 = false := by
  refine ⟨⟨rfl, Or.inr ⟨by decide, 0, rfl, by decide⟩⟩, ?_, ?_, ?_, ?_, ?_, ?_, ?_⟩ <;> decide +kernel

/-! Further clauses of `PowerIsAdmittedAndEnforced`. -/
def fullLater (k t0 t : Nat) : State := { powerFull none with
  power := { segs := [(0, { samples := [(t, 400)] })] }
  regions := [(5, { state := 2, guest := 3, panes := [0], image := some im1, power := { req := some { kind := k, since := 0, tested := some t0 } } })], time := t }
theorem test_hyps_retests :
    ((powered (wakeReq none)).testedLater 5 0 = false ∧ (powerFull none).testedLater 5 0 = false) ∧
    ((fullLater 0 0 (us 100)).time < 0 + ms 2 ∧ 0 + us 100 ≤ (fullLater 0 0 (us 100)).time ∧ (fullLater 0 0 (us 100)).boot.off = false ∧
     ((fullLater 0 0 (us 100)).region 5).power.req = some { kind := 0, since := 0, tested := some 0 }) ∧
    (0 + ms 2 ≤ (powered (wakeReq (some 0)) 2 (ms 2)).time ∧ 0 + us 500 ≤ (powered (wakeReq (some 0)) 2 (ms 2)).time ∧
     ((((powered (wakeReq (some 0)) 2 (ms 2)).testPower 5).region 5).power.req = none)) ∧
    ((((fullLater 2 0 (ms 100)).testPower 5).region 5).power.req ≠ none ∧ 0 + ms 100 ≤ (fullLater 2 0 (ms 100)).time) ∧
    ((((fullLater 0 0 (ms 100)).testPower 5).region 5).power.req ≠ none ∧ 0 ≠ 2) ∧
    (live.limitPK * 1000 < (([100000, 100000, 100000, 100000, 100000, 100000, 100000, 100000, 100000].foldl (· + ·) 0 * 500 : Nat) : Rat) ∧
     (live.regions.map (·.1)).Nodup) := by
  refine ⟨?_, ?_, ?_, ?_, ?_, ?_⟩ <;> decide +kernel

/-! Further clauses of `RegionsWakeAndLower`. -/
def loadWaking (ps : List Nat) : State :=
  liveWith { power := 1 } { state := 1, guest := 3, panes := [0], load := some { load5 4 with panes := ps }, power := { trans := 2, ramp := some 8, state := 4 } }
def freeRegion : State := owned (rp {} 0)
theorem test_hyps_wakes :
    (((loadWaking [0]).region 5).power.trans = 2 ∧ ((loadWaking [0]).region 5).load.map (·.phase) = some 4 ∧
     (((loadWaking [0]).region 5).rampOver (loadWaking [0]).time = true ∨ [0].all (fun p => decide (((loadWaking [0]).pane p).power ≤ 1)) = true)) ∧
    (freeRegion.accessor 0x900 = some 0 ∧ (freeRegion.region 5).state = 0) ∧
    ((owned (rp { state := 4 })).accessor 0x900 = some 0 ∧ ((owned (rp { state := 4 })).region 5).power.state = 4 ∧
     ((owned (rp { state := 4 })).region 5).power.trans = 0) := by
  decide +kernel

/-! Further clauses of `HeatSlowsAndStopsTheModule`. -/
theorem test_hyps_critical :
    (let c := ((hot {}).sampleChannels [(0, 1200, 1100)]).find? Channel.critical
     c.isSome = true ∧ ((hot {}).sampleChannels [(0, 500, 500)]).find? Channel.critical = none) ∧
    (([(786, 0, 0)] : List (Nat × Int × Int)).filter (fun x => decide (x.1 < 786)) = []) := by
  decide +kernel

/-! Further clauses of `ProfilesAndGrants`. -/
def queuedProf (p now : Nat) (power : Nat) (w : PanePower := {}) (allow : Nat := 0) : State :=
  { liveWith { power := power, region := some 5, pwr := w }
      { state := 2, guest := 3, panes := [0], image := some im1, prof := { profile := now, queue := [(⟨3, 3, 1, 0⟩, p, 7)] }, power := { state := power } } with
    prof := { allow := allow } }
def granting (g : Bool) (misses : Nat) : State := grantS { grant := g, misses := misses } 1 0
theorem test_hyps_profiles :
    (((queuedProf 1 1 0).region 5).prof.profile = 1 ∧ ((queuedProf 1 1 0).region 5).prof.stage = 0 ∧ ((queuedProf 1 1 0).region 5).prof.ending = 0 ∧
     ((queuedProf 1 1 0).region 5).prof.entry = none ∧ ((queuedProf 1 1 0).region 5).prof.queue = [(⟨3, 3, 1, 0⟩, 1, 7)]) ∧
    (3 ≠ ((queuedProf 3 1 0).region 5).prof.profile ∧ bitAt (queuedProf 3 1 0).prof.allow 3 = false) ∧
    ((queuedProf 2 1 0 { cap := 1 }).capped 5 = true ∧ (queuedProf 2 1 0).capped 5 = false) ∧
    (((queuedProf 2 1 4).region 5).isOpen = false ∧ ((queuedProf 2 1 0).region 5).isOpen = true ∧ ((queuedProf 0 2 0).region 5).prof.profile ≠ 3) := by
  decide +kernel
theorem test_hyps_grants :
    ((granting true 1).lintelUp = true ∧ (granting true 1).regions.any (fun q => q.2.prof.stage == 1) = true ∧
     ((granting true 1).prof.grant = true ∧ 2 ≤ (granting true 1).prof.misses + 1) ∧ 0 < (granting true 1).grantW) ∧
    ((granting false 0).prof.grant = false ∧ ¬ 2 ≤ (granting false 0).prof.misses + 1) := by
  decide +kernel

/-! Further clauses of `KeeperModesAndErasure`. -/
def errorFetch : State := fetching.modKeeper (fun k => { k with st := 3 })
def testJob : State := on.modKeeper (fun k => { k with job := some { fetchJob with op := 0x10 } })
theorem test_hyps_jobs :
    (errorFetch.keeper.job = some fetchJob ∧ fetchJob.op ≠ 0x50 ∧ fetchJob.op ≠ 0x51 ∧ errorFetch.keeper.st ≠ 2) ∧
    (testJob.keeper.job = some { fetchJob with op := 0x10 } ∧ testJob.keeper.st = 2) ∧
    ((asking on 63 0x7F []).keeper.job = none ∧ (asking on 63 0x7F []).mbHead = some 63 ∧
     mbOps.contains ((asking on 63 0x7F []).mbOp 63) = false) := by
  decide +kernel

/-! Further clauses of `ResetsStartACauseAndCount`. -/
def heldAtStart : State := { State.reset with boot := { State.reset.boot with resetLow := true, stage := 0 } }
theorem test_hyps_reset_pin :
    heldAtStart.boot.resetLow = true ∧ heldAtStart.boot.stage = 0 ∧ heldAtStart.boot.off = false := by decide +kernel

/-! Further clauses of `TapInstructions` and `BusbarCablesAndTrayBus`. -/
theorem test_hyps_tap_accesses :
    ((tapped 2).tapWaits 0x20018 = false ∧ ((((tapped 2).tapLoad 0x80 0 true).tapAccess 0x20018 false 0).2).isSome = true) ∧
    ((((tapped 2).tapLoad 0x80 0 true).tapAccess (2 ^ 40 - 1) true 0).2 = none) ∧
    ((port 95 { state := 1 }).port 95).state < 2 := by
  decide +kernel

/-! ### Values the spec states, or the standard it names (FIPS 180-4, IEEE 802.3) -/

/-- The digest FIPS 180-4 gives of "abc". -/
theorem test_sha256_abc :
    sha256 [0x61, 0x62, 0x63] =
      natBE 32 0xba7816bf8f01cfea414140de5dae2223b00361a396177a9cb410ff61f20015ad := by decide +kernel

/-- The check value of the IEEE 802.3 frame check sequence (R272). -/
theorem test_crc32_check : crc32 [0x31, 0x32, 0x33, 0x34, 0x35, 0x36, 0x37, 0x38, 0x39] = 0xCBF43926 := by decide +kernel

/-- The worked example of 01_wafer.md: cell (300, 130) lies in pane 231 at row 2, column 12; cell (30, 20) does not exist. -/
theorem test_cell_300_130 :
    cellExists (cellNo 300 130) = true ∧ paneOfCell (cellNo 300 130) = 231 ∧ prowOf (cellNo 300 130) = 2 ∧
      pcolOf (cellNo 300 130) = 12 ∧ paneOfCell (cellNo 30 130) / 9 + 6 = 25 ∧ cellExists (cellNo 30 20) = false := by decide +kernel

/-- The worked example of 03_formats.md: one TB4 block under tensor scale 0.25 (Table 3-5). -/
theorem test_tb4_block :
    cvtBlock (.tb e2m1) 0x3E800000 9 ([0x41280000, 0xC0400000, 0x3ECCCCCD, 0x3EE00000, 0x40A00000, 0xC0FCCCCD].map f32Val) =
      ⟨some 0x4E, [⟨7, false, false⟩, ⟨0xB, false, false⟩, ⟨0, false, true⟩, ⟨0, false, true⟩, ⟨5, false, false⟩, ⟨0xE, false, false⟩]⟩ := by
  decide +kernel

/-- The worked example of 12_memory_stacks.md: unit 1,000,003 lies in stack 19, channel 2, bank 22. -/
theorem test_unit_1000003 : unitStack 1000003 = 19 ∧ unitChannel 1000003 = 2 ∧ unitBank 1000003 = 22 := by decide

/-- The worked figures of 16_thermal.md: 32.5 kW at 2,000 µK/W and 30 °C, 26 kW at 2,500 µK/W, 22 kW at 40 °C. -/
theorem test_cap_figures :
    ({ rth := 2000, inlet := 240 } : Thermal).capOf = 32500 ∧ ({ rth := 2500, inlet := 240 } : Thermal).capOf = 26000 ∧
      ({ rth := 2500, inlet := 320 } : Thermal).capOf = 22000 := by decide +kernel

/-- The profiles' clocks and set points (Table 17-1): Efficiency, Balanced and the faster two. -/
theorem test_profiles :
    [0, 1, 2, 3].map profileMhz = [1800, 2400, 2600, 2800] ∧ [0, 1, 2, 3].map profileMv = [620, 720, 780, 840] := by decide

/-! ### Ill-formed commands are refused, one for each check -/

theorem test_partsExist_refuses : (Instr.stepwait (cellNo 30 20)).partsExist = false ∧ (Instr.stepwait cA).partsExist = true := by decide +kernel
theorem test_fieldsFit_refuses : (Instr.cablePresence 5 true).fieldsFit = true ∧ (Instr.movi cA 32 0).fieldsFit = false := by decide +kernel
theorem test_wellFormed_refuses :
    (Instr.nop 64 0).wellFormed = false ∧ (Instr.nop 63 4).wellFormed = false ∧ (Instr.nop 63 3).wellFormed = true := by decide +kernel
theorem test_message_refused : (Instr.join { kind := 4, vc := 3, dest := 0, src := 0, addr := 0, payload := [] }).wellFormed = false := by decide +kernel
theorem test_flit_refused : (Instr.retryReq 95 { bytes := [1], corr := [], uncorr := false }).wellFormed = false := by decide +kernel
theorem test_conversion_refused :
    (Instr.vcvt cA { narrow := true, fmt := 256, vd := 0, va := 0, ts := 0, site := 0, tileEnd := false, rd := 0 }).wellFormed = false := by decide +kernel
theorem test_dot_refused : (Instr.dotL cA { e := 16, wf := 0, af := 0, x := 0, h := 0, q := 0 } 0).wellFormed = false := by decide +kernel

/-! ### Steps -/

/-- No word spells a command; the module with a word fetched is the module. -/
theorem test_no_word_decodes : decodeTableWord 32 7 = none ∧ State.reset.withFetchWord 32 7 = State.reset := ⟨rfl, rfl⟩

/-- A step takes the command at the front, and leaves the rest. -/
theorem test_step_takes_the_front :
    ((nextOf (step { on with pending := [.cablePresence 95 true, .idcode] })).pending = [.idcode]) := by decide +kernel

/-- An empty queue lets 250 ps pass. -/
theorem test_step_idles : (nextOf (step State.reset)).time = 1 ∧ (nextOf (step State.reset)).pending = [] := by decide +kernel

/-- A command of a part that the module does not have changes nothing (log 44). -/
theorem test_no_such_part : exec (.nop 64 0) on = .next on := rfl

end Sys2Proof.Tests
end

namespace Sys2Proof.Machine

/-! ## Core fields, panes and cells (R16-R19)

The two tables of Table 1-2 are finite: what they say of a core field is checked once, field by field. Everything after it is
arithmetic on a field's own origin `(fieldX f, 48 × rowOfField f)` and a place in its 48 × 48 cells. -/

/-- Core fields lie in the core rows 0-7, and within the module's 528 columns (R16, R17). -/
theorem coreField_bounds {f : Nat} (hlo : 6 ≤ f) (hhi : f < 88) : rowOfField f < 8 ∧ fieldX f + 48 ≤ 528 := by
  have table : ∀ g : Fin 82, rowOfField (g + 6) < 8 ∧ fieldX (g + 6) + 48 ≤ 528 := by decide
  simpa [Nat.sub_add_cancel hlo] using table ⟨f - 6, by omega⟩

/-- A core field is one of its core row's fields (R16). -/
theorem coreField_inRow {f : Nat} (hlo : 6 ≤ f) (hhi : f < 88) :
    firstField (rowOfField f) ≤ f ∧ f < firstField (rowOfField f) + fieldsInRow (rowOfField f) := by
  have table : ∀ g : Fin 82, firstField (rowOfField (g + 6)) ≤ g + 6 ∧
      g + 6 < firstField (rowOfField (g + 6)) + fieldsInRow (rowOfField (g + 6)) := by decide
  simpa [Nat.sub_add_cancel hlo] using table ⟨f - 6, by omega⟩

/-- The fields of a core row are core fields, and their row is this one (R16). -/
theorem rowOfField_firstField_add {row k : Nat} (hrow : row < 8) (hk : k < fieldsInRow row) :
    6 ≤ firstField row + k ∧ firstField row + k < 88 ∧ rowOfField (firstField row + k) = row := by
  have table : ∀ r < 8, ∀ i < fieldsInRow r, 6 ≤ firstField r + i ∧ firstField r + i < 88 ∧ rowOfField (firstField r + i) = r := by
    decide
  exact table row hrow k hk

/-- A core field's first X, counted from the first X of its core row (R17). -/
theorem fieldX_eq_rowX0 {f : Nat} (hlo : 6 ≤ f) :
    fieldX f = rowX0 (rowOfField f) + 48 * (f - firstField (rowOfField f)) := by
  have hrow : rowOfField f + 1 = fieldRow f := by
    have : 2 ≤ (fieldFirsts.filter (fun k => decide (k ≤ f))).length := by
      simp [fieldFirsts, List.filter_cons, hlo]
    unfold rowOfField fieldRow
    omega
  unfold fieldX rowX0 firstField
  rw [hrow]

/-- The fields of a core row cover its columns without a gap (R17). -/
theorem exists_coreField_of_column {row x : Nat} (hrow : row < 8) (hlo : rowX0 row ≤ x) (hhi : x < rowX0 row + 48 * fieldsInRow row) :
    ∃ f, 6 ≤ f ∧ f < 88 ∧ rowOfField f = row ∧ x = fieldX f + (x - rowX0 row) % 48 := by
  obtain ⟨h6, h88, hf⟩ := rowOfField_firstField_add hrow (show (x - rowX0 row) / 48 < fieldsInRow row by omega)
  refine ⟨_, h6, h88, hf, ?_⟩
  rw [fieldX_eq_rowX0 h6, hf]
  omega

/-- R18, R19: the cell `(lx, ly)` off a core field's origin lies in the field's pane `3 × (ly / 16) + lx / 16`. -/
theorem placeOf_coreField {f lx ly : Nat} (hlo : 6 ≤ f) (hhi : f < 88) (hlx : lx < 48) (hly : ly < 48) :
    placeOf (fieldX f + lx) (48 * rowOfField f + ly) =
      some ⟨9 * (f - 6) + 3 * (ly / 16) + lx / 16, ly % 16, lx % 16⟩ := by
  obtain ⟨hrow, hwide⟩ := coreField_bounds hlo hhi
  obtain ⟨hfirst, hlast⟩ := coreField_inRow hlo hhi
  have hX := fieldX_eq_rowX0 hlo
  have hy : (48 * rowOfField f + ly) / 48 = rowOfField f ∧ (48 * rowOfField f + ly) % 48 = ly := by omega
  have hx : (fieldX f + lx - rowX0 (rowOfField f)) / 48 = f - firstField (rowOfField f) ∧
      (fieldX f + lx - rowX0 (rowOfField f)) % 48 = lx := by omega
  have hin : ¬ (fieldX f + lx ≥ 528 ∨ 48 * rowOfField f + ly ≥ 384 ∨ fieldX f + lx < rowX0 (rowOfField f) ∨
      rowX0 (rowOfField f) + 48 * fieldsInRow (rowOfField f) ≤ fieldX f + lx) := by omega
  have hf : firstField (rowOfField f) + (f - firstField (rowOfField f)) = f := by omega
  unfold fieldsInRow at hin
  unfold firstField at hx hf
  simp only [placeOf, hy, hx, hf, if_neg hin]

/-- R18: a coordinate that names a cell lies in a core field. -/
theorem exists_coreField_of_placeOf {x y : Nat} (h : (placeOf x y).isSome) :
    ∃ f lx ly, 6 ≤ f ∧ f < 88 ∧ lx < 48 ∧ ly < 48 ∧ x = fieldX f + lx ∧ y = 48 * rowOfField f + ly := by
  have hin : ¬ (x ≥ 528 ∨ y ≥ 384 ∨ x < rowX0 (y / 48) ∨ rowX0 (y / 48) + 48 * fieldsInRow (y / 48) ≤ x) := by
    intro hout
    unfold fieldsInRow at hout
    simp [placeOf, if_pos hout] at h
  obtain ⟨f, h6, h88, hrow, hx⟩ := exists_coreField_of_column (row := y / 48) (x := x) (by omega) (by omega) (by omega)
  exact ⟨f, _, y % 48, h6, h88, Nat.mod_lt _ (by decide), Nat.mod_lt _ (by decide), hx, by omega⟩

/-! ### Cell numbers -/

@[simp] theorem cellX_cellNo {x : Nat} (hx : x < 528) (y : Nat) : cellX (cellNo x y) = x := by
  unfold cellX cellNo
  omega

@[simp] theorem cellY_cellNo {x : Nat} (hx : x < 528) (y : Nat) : cellY (cellNo x y) = y := by
  unfold cellY cellNo
  omega

@[simp] theorem cellNo_cellX_cellY (c : Nat) : cellNo (cellX c) (cellY c) = c := by
  unfold cellX cellY cellNo
  omega

/-- What the model says of a cell's number, once its coordinate is found in a core field. -/
theorem cell_of_coreField {f lx ly c : Nat} (hlo : 6 ≤ f) (hhi : f < 88) (hlx : lx < 48) (hly : ly < 48)
    (hx : cellX c = fieldX f + lx) (hy : cellY c = 48 * rowOfField f + ly) :
    cellExists c = true ∧ paneOfCell c = 9 * (f - 6) + (3 * (ly / 16) + lx / 16) ∧ prowOf c = ly % 16 ∧ pcolOf c = lx % 16 := by
  have hplace := placeOf_coreField hlo hhi hlx hly
  rw [← hx, ← hy] at hplace
  refine ⟨?_, ?_, ?_, ?_⟩
  · simp [cellExists, hplace]
  · simp [paneOfCell, hplace, Nat.add_assoc]
  · unfold prowOf
    omega
  · simp [pcolOf, hplace]

/-- R19: the top left cell of pane `3 × py + px` of a core field. -/
theorem paneOrigin_coreField {f px py : Nat} (hlo : 6 ≤ f) (hpx : px < 3) (hpy : py < 3) :
    paneOrigin (9 * (f - 6) + (3 * py + px)) = (fieldX f + 16 * px, 48 * rowOfField f + 16 * py) := by
  have hfield : 6 + (9 * (f - 6) + (3 * py + px)) / 9 = f := by omega
  have hpane : (9 * (f - 6) + (3 * py + px)) % 9 % 3 = px ∧ (9 * (f - 6) + (3 * py + px)) % 9 / 3 = py := by omega
  simp only [paneOrigin, hfield, hpane, fieldX_eq_rowX0 hlo]

/-- R19: the cell at row `r` and column `j` of pane `3 × py + px` of a core field. -/
theorem paneCell_coreField {f px py : Nat} (hlo : 6 ≤ f) (hpx : px < 3) (hpy : py < 3) (r j : Nat) :
    paneCell (9 * (f - 6) + (3 * py + px)) r j = cellNo (fieldX f + (16 * px + j)) (48 * rowOfField f + (16 * py + r)) := by
  simp only [paneCell, paneOrigin_coreField hlo hpx hpy, Nat.add_assoc]

/-- Settles O57: a pane's cell and a core field's coordinate are one place; the first half reads it from the pane, the second from the
cell. -/
theorem panesHoldTheirCells : Obligations.PanesHoldTheirCells := by
  refine ⟨?_, ?_⟩
  · intro f px py r j hlo hhi hpx hpy hr hj p c
    obtain ⟨-, hwide⟩ := coreField_bounds hlo hhi
    have hc : c = cellNo (fieldX f + (16 * px + j)) (48 * rowOfField f + (16 * py + r)) := paneCell_coreField hlo hpx hpy r j
    have hx : cellX c = fieldX f + (16 * px + j) := by rw [hc, cellX_cellNo (by omega)]
    have hy : cellY c = 48 * rowOfField f + (16 * py + r) := by rw [hc, cellY_cellNo (by omega)]
    obtain ⟨hexists, hpane, hprow, hpcol⟩ := cell_of_coreField hlo hhi (by omega) (by omega) hx hy
    have horigin := fieldX_eq_rowX0 hlo
    exact ⟨by omega, hexists, by omega, by omega, by omega, by omega, by omega⟩
  · intro c hc
    obtain ⟨f, lx, ly, hlo, hhi, hlx, hly, hx, hy⟩ := exists_coreField_of_placeOf hc
    obtain ⟨-, hpane, hprow, hpcol⟩ := cell_of_coreField hlo hhi hlx hly hx hy
    refine ⟨by omega, ?_⟩
    calc paneCell (paneOfCell c) (prowOf c) (pcolOf c)
        = cellNo (fieldX f + (16 * (lx / 16) + lx % 16)) (48 * rowOfField f + (16 * (ly / 16) + ly % 16)) := by
          rw [hpane, hprow, hpcol, paneCell_coreField hlo (by omega) (by omega)]
      _ = cellNo (cellX c) (cellY c) := by rw [hx, hy, Nat.div_add_mod, Nat.div_add_mod]
      _ = c := cellNo_cellX_cellY c

/-! ## A window that names no cell (R18) -/

/-- An address in the cell windows whose coordinate lies outside every core field. -/
def NamesNoCell (a : Nat) : Prop :=
  0x1000000000 ≤ a ∧ a < 0x1060000000 ∧ placeOf (a / 2 ^ 12 % 1024) (a / 2 ^ 22 % 1024) = none

/-- The address of a coordinate's window carries the coordinate in its bits (Table 21-1). -/
theorem namesNoCell_of_coordinate {x y o : Nat} (hx : x < 1024) (hy : y < 384) (ho : o < 4096) (hnone : placeOf x y = none) :
    NamesNoCell (0x1000000000 + y * 2 ^ 22 + x * 2 ^ 12 + o) := by
  have hcol : (0x1000000000 + y * 2 ^ 22 + x * 2 ^ 12 + o) / 2 ^ 12 % 1024 = x := by omega
  have hrow : (0x1000000000 + y * 2 ^ 22 + x * 2 ^ 12 + o) / 2 ^ 22 % 1024 = y := by omega
  refine ⟨by omega, by omega, ?_⟩
  rw [hcol, hrow, hnone]

section
variable {a : Nat} (h : NamesNoCell a) (s : State) (src q v : Nat)
include h

theorem NamesNoCell.not_cellExists (hx : a / 2 ^ 12 % 1024 < 528) :
    cellExists (a / 2 ^ 22 % 1024 * 528 + a / 2 ^ 12 % 1024) = false := by
  obtain ⟨-, -, hnone⟩ := h
  change (placeOf (cellX (cellNo _ _)) (cellY (cellNo _ _))).isSome = false
  rw [cellX_cellNo hx, cellY_cellNo hx, hnone, Option.isSome_none]

theorem NamesNoCell.windowCell_eq_none : windowCell a = none :=
  if_neg fun ⟨_, _, hx, hexists⟩ => Bool.false_ne_true ((h.not_cellExists hx).symm.trans hexists)

theorem NamesNoCell.mapRead_eq_error : s.mapRead src q a = .error 1 := by
  obtain ⟨hlo, hhi, -⟩ := id h
  have hout : 528 ≤ a / 2 ^ 12 % 1024 ∨ (!cellExists (a / 2 ^ 22 % 1024 * 528 + a / 2 ^ 12 % 1024)) = true := by
    by_cases hx : a / 2 ^ 12 % 1024 < 528
    · exact .inr (by rw [h.not_cellExists hx, Bool.not_false])
    · exact .inl (by omega)
  unfold State.mapRead
  simp only [if_pos hout]
  iterate 8 rw [if_neg (by omega)]
  rw [if_pos ⟨hlo, hhi⟩]

/-- No register with a command of its own lies in the cell windows beside the cells' own. -/
theorem NamesNoCell.ownWrite_eq_none : s.ownWrite src a v = none := by
  obtain ⟨hlo, hhi, -⟩ := id h
  unfold State.ownWrite
  simp only [h.windowCell_eq_none]
  have hauth : a ≠ authGoAddr := by
    unfold authGoAddr
    omega
  iterate 5 rw [if_neg (by omega)]
  rw [if_neg hauth]
  iterate 6 rw [if_neg (by omega)]

theorem NamesNoCell.plainWrite_eq_error : s.plainWrite src q a v = .error 1 := by
  obtain ⟨hlo, hhi, -⟩ := id h
  unfold State.plainWrite State.readOnly
  iterate 6 rw [if_neg (by omega)]
  rw [h.mapRead_eq_error]

end

/-- A bound requester's write to such a window: traced, and answered by code 1 (R18, R275). -/
theorem NamesNoCell.writeReg_eq {a : Nat} (h : NamesNoCell a) {s : State} {src q : Nat} (v : Nat) (haligned : a % 8 = 0)
    (hoff : s.boot.off = false) (hready : s.boot.ready = true) (hq : s.requester src = some q) :
    s.writeReg src a v = (s.traced a true v).rejectAccess src a 0 false 1 := by
  simp [State.writeReg, hoff, hready, haligned, hq, h.ownWrite_eq_none, h.plainWrite_eq_error]

@[simp] theorem State.requester_traced (s : State) (a : Nat) (w : Bool) (v src : Nat) :
    (s.traced a w v).requester src = s.requester src := rfl

/-- A bound requester's read of such a window: traced, and answered by code 1 (R18, R275). -/
theorem NamesNoCell.answerRead_eq {a : Nat} (h : NamesNoCell a) {s : State} {src q : Nat} (rtag : Nat) (haligned : a % 8 = 0)
    (hoff : s.boot.off = false) (hready : s.boot.ready = true) (hq : s.requester src = some q) :
    s.answerRead src a rtag 8 = (s.traced a false 0).rejectAccess src a rtag true 1 := by
  obtain ⟨hlo, -, -⟩ := id h
  have hft : a ≠ 0x10818 := by omega
  have hread : (s.traced a false 0).readReg src a = .error 1 := by
    simp [State.readReg, hready, haligned, hq, h.mapRead_eq_error]
  simp [State.answerRead, hoff, hready, haligned, hft, h.windowCell_eq_none, hread]

/-- Settles O56: such an address is no register's, no cell's and no command's, so only the error completion is left. -/
theorem coordinatesOutsideTheFieldsNameNoCell : Obligations.CoordinatesOutsideTheFieldsNameNoCell := by
  intro s x y o src q v hx hy ho hoAligned hnone hv hoff hready hq
  have hwindow := namesNoCell_of_coordinate hx hy ho hnone
  have haligned : (0x1000000000 + y * 2 ^ 22 + x * 2 ^ 12 + o) % 8 = 0 := by omega
  refine ⟨?_, fun rtag => hwindow.answerRead_eq rtag haligned hoff hready hq⟩
  rw [exec_registerWrite, execRegisterWrite, if_pos rfl, Nat.mod_eq_of_lt hv,
    hwindow.writeReg_eq v haligned hoff hready hq]

end Sys2Proof.Machine

namespace Sys2Proof.Machine

/-! ## What every command keeps, but for the end of a check and the cold boot (R338, R339, R374, R400)

O55 speaks of every command at once. Each operation of the model gets one law here, which says that it keeps the queue of commands, the
limit registers and the boot count; an operation made of others has its law from theirs. Two kinds of operation have none: the end of a
check of an authenticated pair, which O55 excepts, and those that may begin a cold boot, which have the weaker law `State.Follows`. -/

/-! ### The parts that completing an entry leaves alone (R153, R161) -/

theorem foldl_proj {σ β α : Type} (π : σ → α) {f : σ → β → σ} (h : ∀ a x, π (f a x) = π a) (l : List β) (s : σ) :
    π (l.foldl f s) = π s := by
  induction l generalizing s with
  | nil => rfl
  | cons x l ih => rw [List.foldl_cons, ih, h]

section
variable {α : Type} {π : State → α}

/-- A part of the state that neither the command queues nor the messages to send are in. -/
structure ApartFromQueues (π : State → α) : Prop where
  setQueue : ∀ s g e q, π (State.setQueue s g e q) = π s
  outbox : ∀ (s : State) o, π { s with outbox := o } = π s

variable (hπ : ApartFromQueues π)
include hπ

theorem ApartFromQueues.sendEntryRecord (s : State) (l : ListRec) (id : EntryId) (status result : Nat) :
    π (s.sendEntryRecord l id status result) = π s := hπ.outbox s _

theorem ApartFromQueues.sendFirstFail (s : State) (id : EntryId) : π (s.sendFirstFail id) = π s := by
  unfold State.sendFirstFail
  dsimp only
  split
  · rfl
  · split
    · rfl
    · split
      · rfl
      · split
        · rfl
        · split
          · exact hπ.setQueue _ _ _ _
          · rw [hπ.sendEntryRecord, hπ.setQueue]

theorem ApartFromQueues.finishOne (s : State) (id : EntryId) (status result : Nat) : π (s.finishOne id status result) = π s := by
  unfold State.finishOne
  split
  · rfl
  · rw [hπ.sendFirstFail]
    split
    · rw [hπ.sendEntryRecord]
      exact hπ.setQueue _ _ _ _
    · exact hπ.setQueue _ _ _ _

theorem ApartFromQueues.retireList (s : State) (g e seq : Nat) : π (s.retireList g e seq) = π s := by
  unfold State.retireList
  dsimp only
  split
  · rfl
  · split
    · exact (hπ.outbox _ _).trans (hπ.setQueue _ _ _ _)
    · rfl

theorem ApartFromQueues.settleAuth (s : State) (id : EntryId) : π (s.settleAuth id) = π s := by
  refine foldl_proj π (fun a i => ?_) _ s
  split
  · split
    · exact hπ.finishOne _ _ _ _
    · rfl
  · rfl

theorem ApartFromQueues.settleWaits (s : State) (g n : Nat) : π (s.settleWaits g n) = π s := by
  induction n generalizing s with
  | zero => rfl
  | succ n ih =>
    unfold State.settleWaits
    split
    · rfl
    · rw [ih, hπ.retireList, hπ.finishOne]

/-- Completing an entry changes the queues and what is sent, and nothing else. -/
theorem ApartFromQueues.complete (s : State) (id : EntryId) (status result : Nat) : π (s.complete id status result) = π s := by
  unfold State.complete
  split
  · rfl
  · split
    · rfl
    · extract_lets auth done later settled
      have hauth : π auth = π s := by
        unfold auth
        split
        · split
          · exact hπ.finishOne _ _ _ _
          · rfl
        · rfl
      have hdone : π done = π s := (hπ.finishOne auth id status result).trans hauth
      have hsettled : π settled = π s := by
        unfold settled
        split
        · exact hdone
        · rw [hπ.settleAuth]
          exact (foldl_proj π (fun a i => hπ.finishOne a _ _ _) _ done).trans hdone
      rw [hπ.settleWaits, hπ.retireList, hsettled]
end

/-! ### The kept part, and the laws' forms -/

/-- What every operation keeps: the queue of commands, the limit registers, and the boot count. -/
def State.kept (s : State) : List Instr × List Nat × Nat := (s.pending, s.limits, s.wafer.boots)

@[simp] theorem State.kept_fold (s : State) :
    (s.pending, [s.power.limSustained, s.power.limPeak, s.thermal.margin, s.thermal.flowNom, s.prof.allow], s.wafer.boots) = s.kept := by
  simp only [State.kept, State.limits]

/-- The same of a state written with its fields: 0 is the queue of commands, 18 the boot count's part, and 20 to 22 hold the limit
registers. -/
@[simp] theorem State.kept_mk x0 x1 x2 x3 x4 x5 x6 x7 x8 x9 x10 x11 x12 x13 x14 x15 x16 x17 x18 x19
    x20 x21 x22 x23 x24 x25 x26 x27 x28 x29 x30 x31 x32 x33 x34 x35 x36 x37 :
    (State.mk x0 x1 x2 x3 x4 x5 x6 x7 x8 x9 x10 x11 x12 x13 x14 x15 x16 x17 x18 x19
      x20 x21 x22 x23 x24 x25 x26 x27 x28 x29 x30 x31 x32 x33 x34 x35 x36 x37).kept =
      (x0, [x20.limSustained, x20.limPeak, x21.margin, x21.flowNom, x22.allow], x18.boots) := by
  simp only [State.kept, State.limits]

@[simp] theorem State.kept_ite (c : Prop) [Decidable c] (s t : State) :
    (if c then s else t).kept = if c then s.kept else t.kept := apply_ite State.kept c s t

@[simp] theorem foldl_kept {β : Type} (f : State → β → State) (h : ∀ a x, (f a x).kept = a.kept) (l : List β) (s : State) :
    (l.foldl f s).kept = s.kept := foldl_proj State.kept h l s

theorem apartFromQueues_kept : ApartFromQueues State.kept := ⟨fun _ _ _ _ => rfl, fun _ _ => rfl⟩

/-- The outcome is a next state with the same kept part. -/
def KeepsFrom (s : State) (o : Out) : Prop := ∃ t, o = .next t ∧ t.kept = s.kept

@[simp] theorem keepsFrom_next (s t : State) : KeepsFrom s (.next t) ↔ t.kept = s.kept := by simp [KeepsFrom]

@[simp] theorem keepsFrom_ite (c : Prop) [Decidable c] (s : State) (a b : Out) :
    KeepsFrom s (if c then a else b) ↔ if c then KeepsFrom s a else KeepsFrom s b := by split <;> rfl

/-- A register write leaves the kept part, or is refused. -/
def WriteKeeps (s : State) : RegWrite → Prop
  | .ok t => t.kept = s.kept
  | .error _ => True

@[simp] theorem writeKeeps_ok (s t : State) : WriteKeeps s (.ok t) ↔ t.kept = s.kept := .rfl

@[simp] theorem writeKeeps_error (s : State) (c : Nat) : WriteKeeps s (.error c) := trivial

@[simp] theorem writeKeeps_ite (c : Prop) [Decidable c] (s : State) (v w : RegWrite) :
    WriteKeeps s (if c then v else w) ↔ if c then WriteKeeps s v else WriteKeeps s w := by split <;> rfl

/-! ### Named operations over the module's state -/

@[simp] theorem State.setCell_kept (s : State) (c : Nat) (x : Cell) : (s.setCell c x).kept = s.kept := by simp [State.setCell]

@[simp] theorem State.modCell_kept (s : State) (c : Nat) (f : Cell → Cell) : (s.modCell c f).kept = s.kept := by simp [State.modCell]

@[simp] theorem State.setPane_kept (s : State) (p : Nat) (x : Pane) : (s.setPane p x).kept = s.kept := by simp [State.setPane]

@[simp] theorem State.modPane_kept (s : State) (p : Nat) (f : Pane → Pane) : (s.modPane p f).kept = s.kept := by simp [State.modPane]

@[simp] theorem State.setRegion_kept (s : State) (r : Nat) (x : Region) : (s.setRegion r x).kept = s.kept := by simp [State.setRegion]

@[simp] theorem State.modRegion_kept (s : State) (r : Nat) (f : Region → Region) :
    (s.modRegion r f).kept = s.kept := by simp [State.modRegion]

@[simp] theorem State.setGuest_kept (s : State) (g : Nat) (x : Guest) : (s.setGuest g x).kept = s.kept := by simp [State.setGuest]

@[simp] theorem State.modGuest_kept (s : State) (g : Nat) (f : Guest → Guest) : (s.modGuest g f).kept = s.kept := by simp [State.modGuest]

@[simp] theorem State.modPaneCells_kept (s : State) (p : Nat) (f : Nat → Cell → Cell) :
    (s.modPaneCells p f).kept = s.kept := by simp [State.modPaneCells]

@[simp] theorem State.modRegionPanes_kept (s : State) (r : Nat) (f : Nat → Pane → Pane) :
    (s.modRegionPanes r f).kept = s.kept := by simp [State.modRegionPanes]

@[simp] theorem State.modListed_kept (s : State) (r : Nat) (f : Nat → Cell → Cell) :
    (s.modListed r f).kept = s.kept := by simp [State.modListed]

@[simp] theorem State.useFree_kept (s : State) : s.useFree.kept = s.kept := by simp [State.useFree]

@[simp] theorem State.sendMsg_kept (s : State) (m : Msg) : (s.sendMsg m).kept = s.kept := by simp [State.sendMsg]

@[simp] theorem State.sendRecord_kept (s : State) (q : Nat × Nat) (dest addr : Nat) (data : List Byte) :
    (s.sendRecord q dest addr data).kept = s.kept := by simp [State.sendRecord]

@[simp] theorem State.sendWrite_kept (s : State) (vc dest addr : Nat) (data : List Byte) :
    (s.sendWrite vc dest addr data).kept = s.kept := by simp [State.sendWrite]

@[simp] theorem State.sendError_kept (s : State) (m : Msg) (code : Nat) : (s.sendError m code).kept = s.kept := by simp [State.sendError]

@[simp] theorem State.rejectAccess_kept (s : State) (src addr rtag : Nat) (rd : Bool) (code : Nat) :
    (s.rejectAccess src addr rtag rd code).kept = s.kept := by simp [State.rejectAccess]

@[simp] theorem State.traced_kept (s : State) (addr : Nat) (write : Bool) (val : Nat) :
    (s.traced addr write val).kept = s.kept := by simp [State.traced]

@[simp] theorem State.sendResponse_kept (s : State) (m : Msg) (data : List Byte) :
    (s.sendResponse m data).kept = s.kept := by simp [State.sendResponse]

@[simp] theorem State.report_kept (s : State) (unit : Nat) (f : FaultRec) : (s.report unit f).kept = s.kept := by simp [State.report]

@[simp] theorem State.security_kept (s : State) (code detHi : Nat) : (s.security code detHi).kept = s.kept := by simp [State.security]

/-! ### The repair maps -/

@[simp] theorem State.addRepair_kept (s : State) (f : FaultRec) (e : Nat) : (s.addRepair f e).kept = s.kept := by simp [State.addRepair]

@[simp] theorem State.mapOut_kept (s : State) (c prow pcol : Nat) : (s.mapOut c prow pcol).kept = s.kept := by simp [State.mapOut]

@[simp] theorem State.windowError_kept (s : State) (c off src rtag : Nat) (rd : Bool) (code : Nat) :
    (s.windowError c off src rtag rd code).kept = s.kept := by simp [State.windowError]

@[simp] theorem State.dropHeld_kept (s : State) (r : Nat) : (s.dropHeld r).kept = s.kept := by simp [State.dropHeld]

/-! ### Queues of the four engines -/

@[simp] theorem State.setQueue_kept (s : State) (g e : Nat) (q : Queue) : (s.setQueue g e q).kept = s.kept := by simp [State.setQueue]

@[simp] theorem State.modKeeper_kept (s : State) (f : Keeper → Keeper) : (s.modKeeper f).kept = s.kept := by simp [State.modKeeper]

@[simp] theorem State.modEntry_kept (s : State) (id : EntryId) (f : Entry → Entry) :
    (s.modEntry id f).kept = s.kept := by simp [State.modEntry]

@[simp] theorem State.sendEntryRecord_kept (s : State) (l : ListRec) (id : EntryId) (status result : Nat) :
    (s.sendEntryRecord l id status result).kept = s.kept := by simp [State.sendEntryRecord]

@[simp] theorem State.sendListRecord_kept (s : State) (l : ListRec) (engine guest status result : Nat) :
    (s.sendListRecord l engine guest status result).kept = s.kept := by simp [State.sendListRecord]

@[simp] theorem State.finishOne_kept (s : State) (id : EntryId) (status result : Nat) : (s.finishOne id status result).kept = s.kept :=
  apartFromQueues_kept.finishOne s id status result

@[simp] theorem State.retireList_kept (s : State) (g e seq : Nat) : (s.retireList g e seq).kept = s.kept :=
  apartFromQueues_kept.retireList s g e seq

@[simp] theorem State.settleAuth_kept (s : State) (id : EntryId) : (s.settleAuth id).kept = s.kept :=
  apartFromQueues_kept.settleAuth s id

@[simp] theorem State.settleWaits_kept (s : State) (g n : Nat) : (s.settleWaits g n).kept = s.kept :=
  apartFromQueues_kept.settleWaits s g n

@[simp] theorem State.complete_kept (s : State) (id : EntryId) (status result : Nat) : (s.complete id status result).kept = s.kept :=
  apartFromQueues_kept.complete s id status result

@[simp] theorem State.sendDeferred_kept (s : State) (id : EntryId) : (s.sendDeferred id).kept = s.kept := by
  unfold State.sendDeferred
  split <;> simp

@[simp] theorem State.startEntry_kept (s : State) (id : EntryId) : (s.startEntry id).kept = s.kept := by simp [State.startEntry]

@[simp] theorem withEntry_keeps (g e : Nat) (ops : List Nat) (s : State) (f : State → EntryId → Nat → State)
    (h : ∀ t id w, (f t id w).kept = t.kept) : KeepsFrom s (withEntry g e ops s f) := by
  unfold withEntry
  split
  · simp
  · split
    · split <;> simp [h]
    · simp

/-! ### HBM units and KV pages -/

@[simp] theorem State.clearPending_kept (s : State) (a n : Nat) : (s.clearPending a n).kept = s.kept := by simp [State.clearPending]

@[simp] theorem State.zeroUnits_kept (s : State) (a n g : Nat) : (s.zeroUnits a n g).kept = s.kept := by simp [State.zeroUnits]

@[simp] theorem State.markUnits_kept (s : State) (a n g : Nat) : (s.markUnits a n g).kept = s.kept := by simp [State.markUnits]

theorem State.allocUnits_kept {s t : State} {g n lo a : Nat} (h : s.allocUnits g n lo = some (a, t)) : t.kept = s.kept := by
  simp only [State.allocUnits, Option.ite_none_right_eq_some, Option.some.injEq, Prod.mk.injEq] at h
  obtain ⟨-, -, rfl⟩ := h
  simp

theorem State.allocOther_kept {s t : State} {g n a fuel lo b : Nat} (h : s.allocOther g n a fuel lo = some (b, t)) : t.kept = s.kept := by
  induction fuel generalizing lo with
  | zero => simp [State.allocOther] at h
  | succ fuel ih => grind [State.allocOther, State.allocUnits_kept]

@[simp] theorem State.freeUnits_kept (s : State) (a n : Nat) : (s.freeUnits a n).kept = s.kept := by simp [State.freeUnits]

theorem State.allocCopy_kept {s t : State} {g n : Nat} {l : List (Nat × Nat)} (h : s.allocCopy g n = some (l, t)) : t.kept = s.kept := by
  unfold State.allocCopy at h
  split at h
  · next a u hu =>
    cases h
    exact State.allocUnits_kept hu
  · split at h
    · obtain ⟨runs, -, hl⟩ := Option.map_eq_some_iff.mp h
      cases hl
      simp
    · contradiction

@[simp] theorem State.freeRuns_kept (s : State) (l : List (Nat × Nat)) : (s.freeRuns l).kept = s.kept := by simp [State.freeRuns]

@[simp] theorem State.retireUnit_kept (s : State) (u : Nat) : (s.retireUnit u).kept = s.kept := by simp [State.retireUnit]

@[simp] theorem State.setDesc_kept (s : State) (d : Nat) (x : Desc) : (s.setDesc d x).kept = s.kept := by simp [State.setDesc]

@[simp] theorem State.modDesc_kept (s : State) (d : Nat) (f : Desc → Desc) : (s.modDesc d f).kept = s.kept := by simp [State.modDesc]

@[simp] theorem State.delDesc_kept (s : State) (d : Nat) : (s.delDesc d).kept = s.kept := by simp [State.delDesc]

@[simp] theorem State.settleHolds_kept (s : State) : s.settleHolds.kept = s.kept := by simp [State.settleHolds]

@[simp] theorem State.modSlot_kept (s : State) (r n : Nat) (f : SeqSlot → SeqSlot) :
    (s.modSlot r n f).kept = s.kept := by simp [State.modSlot]

@[simp] theorem State.demote_kept (s : State) (d : Nat) : (s.demote d).kept = s.kept := by simp [State.demote]

theorem State.demoteOne_kept {s t : State} {r : Nat} {l : KvLayer} {pinned : List Nat} (h : s.demoteOne r l pinned = some t) :
    t.kept = s.kept := by
  simp only [State.demoteOne] at h
  split at h
  · contradiction
  · obtain rfl := Option.some.inj h
    simp

theorem State.takeFrame_kept {s t : State} {r n : Nat} {l : KvLayer} {pinned : List Nat} {o : Option Nat}
    (h : s.takeFrame r l pinned n = (o, t)) : t.kept = s.kept := by
  induction n generalizing s with
  | zero => grind [State.takeFrame]
  | succ n ih => grind [State.takeFrame, State.demoteOne_kept]

@[simp] theorem State.dropDesc_kept (s : State) (d : Nat) : (s.dropDesc d).kept = s.kept := by simp [State.dropDesc]

theorem dropUntil_kept {ok : State → Bool} {l : List (List Nat)} {s t : State} {n k : Nat} (h : dropUntil ok l s n = (t, k)) :
    t.kept = s.kept := by
  induction l generalizing s n with
  | nil => grind [dropUntil]
  | cons v r ih =>
    unfold dropUntil at h
    split at h
    · grind
    · simpa using ih h

theorem State.takeUnits_kept {s t : State} {g n lo r : Nat} {pinned : List Nat} {o : Option Nat}
    (h : s.takeUnits g n lo pinned r = (o, t)) : t.kept = s.kept := by
  unfold State.takeUnits at h
  split at h
  · next a u hu =>
    cases h
    simp [State.allocUnits_kept hu]
  · split at h
    next u k hu =>
    have hu' : (if k = 0 then u else u.report (unitEngine 2)
        { cls := 8, code := 5, guest := g, detHi := g + k % 2 ^ 32 * 2 ^ 16 }).kept = s.kept := by
      simp [dropUntil_kept hu]
    simp only at h
    split at h
    · next a v hv =>
      cases h
      exact (State.allocUnits_kept hv).trans hu'
    · cases h
      exact hu'

theorem State.allocPage_eq_kept {s t : State} {r g : Nat} {l : KvLayer} {framed : Bool} {pinned : List Nat} {o : Option Nat}
    (h : s.allocPage r g l framed pinned = (o, t)) : t.kept = s.kept := by
  unfold State.allocPage at h
  split at h
  · cases h
    rfl
  · split at h
    next frame u hu =>
    have hu' : u.kept = s.kept := by grind [State.takeFrame_kept]
    simp only at h
    grind [State.takeUnits_kept, State.setDesc_kept]

@[simp] theorem State.allocPage_kept (s : State) (r g : Nat) (l : KvLayer) (framed : Bool) (pinned : List Nat) :
    (s.allocPage r g l framed pinned).2.kept = s.kept := State.allocPage_eq_kept rfl

@[simp] theorem State.decRef_kept (s : State) (d : Nat) : (s.decRef d).kept = s.kept := by simp [State.decRef]

@[simp] theorem State.freeBlock_kept (s : State) (b : Nat) : (s.freeBlock b).kept = s.kept := by
  unfold State.freeBlock
  split <;> simp

theorem State.takeBlock_kept {s t : State} {g b : Nat} (h : s.takeBlock g = some (b, t)) : t.kept = s.kept := by
  simp only [State.takeBlock, Option.ite_none_left_eq_some, Option.some.injEq, Prod.mk.injEq] at h
  obtain ⟨-, -, rfl⟩ := h
  rfl

theorem State.growList_kept {s t : State} {r n k pages fuel : Nat} {ok : Bool} (h : s.growList r n k pages fuel = (ok, t)) :
    t.kept = s.kept := by
  induction fuel generalizing s with
  | zero => grind [State.growList]
  | succ fuel ih => grind [State.growList, State.takeBlock_kept, State.modSlot_kept]

@[simp] theorem State.trimLists_kept (s : State) (r n : Nat) : (s.trimLists r n).kept = s.kept := by simp [State.trimLists]

@[simp] theorem State.freeLog_kept (s : State) (x : SeqSlot) : (s.freeLog x).kept = s.kept := by simp [State.freeLog]

@[simp] theorem State.settleWindows_kept (s : State) (r : Nat) : (s.settleWindows r).kept = s.kept := by simp [State.settleWindows]

@[simp] theorem State.freeSlot_kept (s : State) (r n : Nat) : (s.freeSlot r n).kept = s.kept := by simp [State.freeSlot]

theorem State.takeOther_kept {s t : State} {g n a lo r fuel : Nat} {pinned : List Nat} {o : Option Nat}
    (h : s.takeOther g n a lo pinned r fuel = (o, t)) : t.kept = s.kept := by
  induction fuel generalizing lo with
  | zero => grind [State.takeOther]
  | succ fuel ih => grind [State.takeOther, State.takeUnits_kept]

theorem State.ensureLog_kept {s t : State} {r slotNo n fuel : Nat} {pinned : List Nat} {ok : Bool}
    (h : s.ensureLog r slotNo n pinned fuel = (ok, t)) : t.kept = s.kept := by
  induction fuel generalizing s with
  | zero => grind [State.ensureLog]
  | succ fuel ih =>
    simp only [State.ensureLog] at h
    split at h
    · cases h
      rfl
    · split at h
      · next u hu =>
        cases h
        exact State.takeUnits_kept hu
      · next a u hu =>
        split at h
        · next v hv =>
          cases h
          simp [State.takeOther_kept hv, State.takeUnits_kept hu]
        · next b v hv => simp [ih h, State.takeOther_kept hv, State.takeUnits_kept hu]

@[simp] theorem State.appendLog_kept (s : State) (r n : Nat) (es : List (Nat × Nat)) :
    (s.appendLog r n es).kept = s.kept := by simp [State.appendLog]

theorem Taking.andThen_kept (t : Taking) (f : State → Taking) (h : ∀ s, (f s).s.kept = s.kept) : (t.andThen f).s.kept = t.s.kept := by
  unfold Taking.andThen
  split
  · exact h t.s
  · rfl

theorem foldl_taking_kept {β : Type} (f : Taking → β → Taking) (h : ∀ a x, (f a x).s.kept = a.s.kept) (l : List β) (t : Taking) :
    (l.foldl f t).s.kept = t.s.kept := foldl_proj (fun t : Taking => t.s.kept) h l t

@[simp] theorem State.reservePromo_kept (s : State) (r k d : Nat) (l : KvLayer) (pinned : List Nat) :
    (s.reservePromo r k d l pinned).s.kept = s.kept := by
  unfold State.reservePromo
  grind [State.takeFrame_kept, State.setDesc_kept]

@[simp] theorem State.reserveLayer_kept (s : State) (r slotNo k p n : Nat) (l : KvLayer) (pinned : List Nat) :
    (s.reserveLayer r slotNo k p n l pinned).s.kept = s.kept := by
  have promos (ds : List Nat) (t : Taking) :
      (ds.foldl (fun (a : Taking) d => a.andThen (fun s => s.reservePromo r k d l pinned)) t).s.kept = t.s.kept :=
    foldl_taking_kept _ (fun a d => a.andThen_kept _ (fun s => s.reservePromo_kept r k d l pinned)) ds t
  unfold State.reserveLayer
  split
  · exact promos _ _
  · rw [Taking.andThen_kept _ _ (fun s => State.growList_kept rfl)]
    refine (foldl_taking_kept _ (fun a j => a.andThen_kept _ fun u => ?_) _ _).trans (promos _ _)
    grind [State.allocPage_kept]

@[simp] theorem State.returnResv_kept (s : State) (r : Nat) (rs : List (Nat × Nat × Nat × Nat)) :
    (s.returnResv r rs).kept = s.kept := by simp [State.returnResv]

@[simp] theorem State.returnPromos_kept (s : State) (ps : List (Nat × Nat × Nat)) :
    (s.returnPromos ps).kept = s.kept := by simp [State.returnPromos]

@[simp] theorem State.reserveSlot_kept (s : State) (r slotNo p n : Nat) (pinned : List Nat) :
    (s.reserveSlot r slotNo p n pinned).s.kept = s.kept := by
  unfold State.reserveSlot
  split
  next ok u hu =>
  dsimp only
  generalize hT : List.foldl _ (Taking.andThen _ _) _ = T
  have hT' : T.s.kept = s.kept := by
    rw [← hT]
    refine (foldl_taking_kept _ (fun a k => a.andThen_kept _ fun v => ?_) _ _).trans ?_
    · split <;> simp
    · rw [Taking.andThen_kept _ _ (fun v => State.growList_kept rfl)]
      exact State.ensureLog_kept hu
  split <;> simp [hT']

@[simp] theorem State.writeRow_kept (s : State) (r d k row : Nat) (l : KvLayer) (data : List Byte) :
    (s.writeRow r d k row l data).kept = s.kept := by
  unfold State.writeRow
  dsimp only
  repeat' split
  all_goals simp

@[simp] theorem State.fillFrame_kept (s : State) (r d : Nat) (l : KvLayer) : (s.fillFrame r d l).kept = s.kept := by
  refine foldl_kept _ (fun a k => ?_) _ _
  split <;> simp

@[simp] theorem State.appendRow_kept (s : State) (r k : Nat) (l : KvLayer) (slotNo p : Nat) (resv : List (Nat × Nat × Nat × Nat))
    (rows : List (List Byte)) :
    (s.appendRow r k l slotNo p resv rows).kept = s.kept := by
  unfold State.appendRow
  dsimp only
  repeat' split
  all_goals simp

@[simp] theorem State.loseRow_kept (s : State) (r k n p : Nat) : (s.loseRow r k n p).kept = s.kept := by
  unfold State.loseRow
  split <;> simp

@[simp] theorem State.loseScatter_kept (s : State) (r : Nat) (c : Scatter) : (s.loseScatter r c).kept = s.kept := by
  rw [State.loseScatter, State.returnResv_kept]
  refine foldl_kept _ (fun a k => ?_) _ _
  split <;> simp

/-! ### Sequence slots -/

@[simp] theorem State.sendToken_kept (s : State) (r : Nat) (sinkFa sinkAddr token slot pos gen endCode spec : Nat) :
    (s.sendToken r sinkFa sinkAddr token slot pos gen endCode spec).kept = s.kept := by simp [State.sendToken]

@[simp] theorem State.sendEndTo_kept (s : State) (r slotNo endCode : Nat) (other : Nat × Nat) :
    (s.sendEndTo r slotNo endCode other).kept = s.kept := by simp [State.sendEndTo]

@[simp] theorem State.sendEnd_kept (s : State) (r slotNo endCode : Nat) :
    (s.sendEnd r slotNo endCode).kept = s.kept := by simp [State.sendEnd]

@[simp] theorem State.openSlot_kept (s : State) (r n : Nat) (id : EntryId) (w : Nat) : (s.openSlot r n id w).1.kept = s.kept := by
  simp [State.openSlot, apply_ite Prod.fst]

@[simp] theorem State.copyPages_kept (s : State) (r g : Nat) (kv : List KvLayer) (l : List (Nat × Nat)) :
    (s.copyPages r g kv l).2.1.kept = s.kept := by
  induction l generalizing s with
  | nil => rfl
  | cons q rest ih =>
    simp only [State.copyPages]
    generalize hu :
      (if (s.desc q.2).unbound ∨ (s.desc q.2).region = r ∨ (s.desc q.2).refcnt ≤ 1 then _ else _ : Option Nat × State) = u
    have hu' : u.2.kept = s.kept := by
      rw [← hu]
      split
      · rfl
      · split
        · rfl
        · split
          · split <;> simp
          · split
            · next v hv => exact State.allocPage_eq_kept hv
            · next e v hv => simpa using State.allocPage_eq_kept hv
    split <;> simp [ih, hu']

@[simp] theorem State.rebind_kept (s : State) (r d : Nat) : (s.rebind r d).kept = s.kept := by simp [State.rebind]

@[simp] theorem State.setPark_kept (s : State) (i : Nat) (p : ParkRec) : (s.setPark i p).kept = s.kept := by simp [State.setPark]

@[simp] theorem State.claimPark_kept (s : State) (w st : Nat) : (s.claimPark w st).kept = s.kept := by simp [State.claimPark]

@[simp] theorem State.resumeSlot_kept (s : State) (r n : Nat) (id : EntryId) (w : Nat) : (s.resumeSlot r n id w).1.kept = s.kept := by
  simp only [State.resumeSlot]
  split
  · rfl
  · split <;> simp [apply_ite Prod.fst]

@[simp] theorem State.growLists_kept (s : State) (r n : Nat) (pages : SMap (List Nat)) : (s.growLists r n pages).2.kept = s.kept := by
  refine List.foldlRecOn (motive := fun (a : Bool × State) => a.2.kept = s.kept) _ _ rfl fun a ha k _ => ?_
  split
  · exact (State.growList_kept rfl).trans ha
  · exact ha

@[simp] theorem State.forkSlot_kept (s : State) (r src dst : Nat) (id : EntryId) (len : Nat) :
    (s.forkSlot r src dst id len).1.kept = s.kept := by
  have log (t : State) (n : Nat) (pinned : List Nat) (fuel : Nat) : (t.ensureLog r dst n pinned fuel).2.kept = t.kept :=
    State.ensureLog_kept rfl
  simp [State.forkSlot, apply_ite Prod.fst, apply_ite Prod.snd, log]

@[simp] theorem State.trimSlot_kept (s : State) (r n len : Nat) : (s.trimSlot r n len).kept = s.kept := by simp [State.trimSlot]

@[simp] theorem State.parkSlot_kept (s : State) (r n ttl : Nat) : (s.parkSlot r n ttl).1.kept = s.kept := by
  simp only [State.parkSlot]
  split
  · rfl
  · split
    · rfl
    · split <;> simp

@[simp] theorem State.popOp_kept (s : State) (r n : Nat) (id : EntryId) : (s.popOp r n id).kept = s.kept := by simp [State.popOp]

@[simp] theorem State.opDone_kept (s : State) (r n : Nat) (id : EntryId) (status result : Nat) :
    (s.opDone r n id status result).kept = s.kept := by simp [State.opDone]

@[simp] theorem State.endCancel_kept (s : State) (r n : Nat) : (s.endCancel r n).kept = s.kept := by
  unfold State.endCancel
  split <;> simp

@[simp] theorem State.settleOps_kept (s : State) (r n k : Nat) : (s.settleOps r n k).kept = s.kept := by
  induction k generalizing s with
  | zero => rfl
  | succ k ih =>
    unfold State.settleOps
    split <;> simp [ih]

@[simp] theorem State.settleSlot_kept (s : State) (r n : Nat) : (s.settleSlot r n).kept = s.kept := by simp [State.settleSlot]

@[simp] theorem State.pushOp_kept (s : State) (r n : Nat) (id : EntryId) (op : Nat) :
    (s.pushOp r n id op).kept = s.kept := by simp [State.pushOp]

@[simp] theorem State.opEffect_kept (s : State) (r n : Nat) (id : EntryId) (op : Nat) : (s.opEffect r n id op).kept = s.kept := by
  simp [State.opEffect]

@[simp] theorem State.takeEffect_kept (s : State) (r n op : Nat) : (s.takeEffect r n op).kept = s.kept := by
  unfold State.takeEffect
  split <;> simp

@[simp] theorem State.settleIdle_kept (s : State) (r : Nat) : (s.settleIdle r).kept = s.kept := by simp [State.settleIdle]

@[simp] theorem State.endRun_kept (s : State) (r : Nat) (e : RunEntry) (status result : Nat) :
    (s.endRun r e status result).kept = s.kept := by simp [State.endRun]

@[simp] theorem State.swingNow_kept (s : State) (r k : Nat) (id : EntryId) : (s.swingNow r k id).kept = s.kept := by simp [State.swingNow]

@[simp] theorem State.applySwings_kept (s : State) (r n : Nat) : (s.applySwings r n).kept = s.kept := by
  induction n generalizing s with
  | zero => rfl
  | succ n ih =>
    simp only [State.applySwings]
    split
    · rfl
    · split
      · rfl
      · split <;> simp [ih]

@[simp] theorem State.settleSwings_kept (s : State) (r : Nat) : (s.settleSwings r).kept = s.kept := by simp [State.settleSwings]

/-! ### Steps, slots and stops shared by many commands -/

@[simp] theorem State.settleHold_kept (s : State) (r : Nat) : (s.settleHold r).kept = s.kept := by
  unfold State.settleHold
  dsimp only
  split <;> simp

@[simp] theorem State.freeQuiet_kept (s : State) (r n : Nat) : (s.freeQuiet r n).kept = s.kept := by simp [State.freeQuiet]

@[simp] theorem State.leaveStep_kept (s : State) (r n : Nat) (f : Flight) : (s.leaveStep r n f).kept = s.kept := by simp [State.leaveStep]

@[simp] theorem State.abandonFlight_kept (s : State) (r : Nat) : (s.abandonFlight r).kept = s.kept := by
  unfold State.abandonFlight
  dsimp only
  repeat' split
  all_goals simp

@[simp] theorem State.endRuns_kept (s : State) (r status : Nat) : (s.endRuns r status).kept = s.kept := by simp [State.endRuns]

@[simp] theorem State.stopRegion_kept (s : State) (r : Nat) : (s.stopRegion r).kept = s.kept := by simp [State.stopRegion]

@[simp] theorem State.stopContract_kept (s : State) (r : Nat) : (s.stopContract r).kept = s.kept := by simp [State.stopContract]

@[simp] theorem State.failCell_kept (s : State) (c : Nat) (chks : List Chk) : (s.failCell c chks).kept = s.kept := by
  unfold State.failCell
  split <;> simp

/-! ### Issue and pipelines of a cell -/

@[simp] theorem State.keepSnap_kept (s : State) (c : Nat) : (s.keepSnap c).kept = s.kept := by simp [State.keepSnap]

@[simp] theorem issue_keeps (c slot : Nat) (f : Ctx → List Chk × Cell) (s : State) (rot : Bool) :
    KeepsFrom s (issue c slot f s rot) := by simp [issue]

@[simp] theorem State.queueBg_kept (s : State) (c : Nat) (b : BgReq) : (s.queueBg c b).kept = s.kept := by simp [State.queueBg]

/-! ### Sequencer operations, CTL slot -/

@[simp] theorem scalarOp_keeps (c rd : Nat) (ok : Bool) (lat : Nat) (f : Cell → R32) (s : State) :
    KeepsFrom s (scalarOp c rd ok lat f s) := by simp [scalarOp]

@[simp] theorem execAdd_keeps (c rd ra rb : Nat) (s : State) : KeepsFrom s (execAdd c rd ra rb s) := by simp [execAdd]

@[simp] theorem execSub_keeps (c rd ra rb : Nat) (s : State) : KeepsFrom s (execSub c rd ra rb s) := by simp [execSub]

@[simp] theorem execSAnd_keeps (c rd ra rb : Nat) (s : State) : KeepsFrom s (execSAnd c rd ra rb s) := by simp [execSAnd]

@[simp] theorem execSOr_keeps (c rd ra rb : Nat) (s : State) : KeepsFrom s (execSOr c rd ra rb s) := by simp [execSOr]

@[simp] theorem execSXor_keeps (c rd ra rb : Nat) (s : State) : KeepsFrom s (execSXor c rd ra rb s) := by simp [execSXor]

@[simp] theorem execShl_keeps (c rd ra rb : Nat) (s : State) : KeepsFrom s (execShl c rd ra rb s) := by simp [execShl]

@[simp] theorem execShr_keeps (c rd ra rb : Nat) (s : State) : KeepsFrom s (execShr c rd ra rb s) := by simp [execShr]

@[simp] theorem execCmp_keeps (c rd ra rb : Nat) (s : State) : KeepsFrom s (execCmp c rd ra rb s) := by simp [execCmp]

@[simp] theorem execMovi_keeps (c rd imm : Nat) (s : State) : KeepsFrom s (execMovi c rd imm s) := by simp [execMovi]

@[simp] theorem execMul_keeps (c rd ra rb : Nat) (s : State) : KeepsFrom s (execMul c rd ra rb s) := by simp [execMul]

@[simp] theorem execJmp_keeps (c target : Nat) (s : State) : KeepsFrom s (execJmp c target s) := by simp [execJmp]

@[simp] theorem execBr_keeps (c rs target : Nat) (s : State) : KeepsFrom s (execBr c rs target s) := by simp [execBr]

@[simp] theorem execLoop_keeps (c : Nat) (fromReg : Bool) (count last : Nat) (s : State) :
    KeepsFrom s (execLoop c fromReg count last s) := by simp [execLoop]

@[simp] theorem execAwait_keeps (c item : Nat) (s : State) : KeepsFrom s (execAwait c item s) := by simp [execAwait]

@[simp] theorem execStepwait_keeps (c : Nat) (s : State) : KeepsFrom s (execStepwait c s) := by simp [execStepwait]

/-! ### Vector-unit operations, VEC slot -/

@[simp] theorem vecOp_keeps (c vd : Nat) (srcs : List Nat) (lat : Nat) (f : Cell → W512) (s : State) :
    KeepsFrom s (vecOp c vd srcs lat f s) := by simp [vecOp]

@[simp] theorem execVadd_keeps (c vd va vb : Nat) (s : State) : KeepsFrom s (execVadd c vd va vb s) := by simp [execVadd]

@[simp] theorem execVsub_keeps (c vd va vb : Nat) (s : State) : KeepsFrom s (execVsub c vd va vb s) := by simp [execVsub]

@[simp] theorem execVmul_keeps (c vd va vb : Nat) (s : State) : KeepsFrom s (execVmul c vd va vb s) := by simp [execVmul]

@[simp] theorem execVfma_keeps (c vd va vb vc : Nat) (s : State) : KeepsFrom s (execVfma c vd va vb vc s) := by simp [execVfma]

@[simp] theorem execVmax_keeps (c vd va vb : Nat) (s : State) : KeepsFrom s (execVmax c vd va vb s) := by simp [execVmax]

@[simp] theorem execVmin_keeps (c vd va vb : Nat) (s : State) : KeepsFrom s (execVmin c vd va vb s) := by simp [execVmin]

@[simp] theorem execVcmp_keeps (c vd va vb : Nat) (s : State) : KeepsFrom s (execVcmp c vd va vb s) := by simp [execVcmp]

@[simp] theorem execVsel_keeps (c vd va vb vc : Nat) (s : State) : KeepsFrom s (execVsel c vd va vb vc s) := by simp [execVsel]

@[simp] theorem execVand_keeps (c vd va vb : Nat) (s : State) : KeepsFrom s (execVand c vd va vb s) := by simp [execVand]

@[simp] theorem execVor_keeps (c vd va vb : Nat) (s : State) : KeepsFrom s (execVor c vd va vb s) := by simp [execVor]

@[simp] theorem execVperm_keeps (c vd va vb : Nat) (s : State) : KeepsFrom s (execVperm c vd va vb s) := by simp [execVperm]

@[simp] theorem execVbcast_keeps (c vd va lane : Nat) (s : State) : KeepsFrom s (execVbcast c vd va lane s) := by simp [execVbcast]

@[simp] theorem execVredSum_keeps (c vd va : Nat) (s : State) : KeepsFrom s (execVredSum c vd va s) := by simp [execVredSum]

@[simp] theorem execVredMax_keeps (c vd va : Nat) (s : State) : KeepsFrom s (execVredMax c vd va s) := by simp [execVredMax]

@[simp] theorem execVlse_keeps (c vd va vb : Nat) (s : State) : KeepsFrom s (execVlse c vd va vb s) := by simp [execVlse]

@[simp] theorem execVcvt_keeps (c : Nat) (o : CvtOp) (s : State) : KeepsFrom s (execVcvt c o s) := by
  unfold execVcvt
  split
  · simp
  · next f _ =>
    have h (g : Ctx → List Chk × Cell) : KeepsFrom s (issue c 2 g s.useFree) := by
      obtain ⟨t, ht, hk⟩ := issue_keeps c 2 g s.useFree false
      exact ⟨t, ht, by simpa using hk⟩
    dsimp only
    split
    · exact h _
    · simp

/-! ### Entry operands -/

@[simp] theorem State.pairRefused_kept (s : State) (g counter reason : Nat) : (s.pairRefused g counter reason).kept = s.kept := by
  unfold State.pairRefused
  dsimp only
  split <;> simp

@[simp] theorem State.checkPair_kept (s : State) (g counter : Nat) (tag body : List Byte) :
    (s.checkPair g counter tag body).1.kept = s.kept := by
  unfold State.checkPair
  split
  · rfl
  · split <;> simp

@[simp] theorem withCommand_keeps (g e op : Nat) (s : State) (f : State → EntryId → Nat → State)
    (h : ∀ t id w, (f t id w).kept = t.kept) : KeepsFrom s (withCommand g e op s f) :=
  withEntry_keeps g e [op] s _ fun t id w => by split <;> simp [h]

@[simp] theorem withCritical_keeps (g e op : Nat) (s : State) (f : State → EntryId → Nat → State)
    (h : ∀ t id w, (f t id w).kept = t.kept) : KeepsFrom s (withCritical g e op s f) := by
  unfold withCritical
  split
  · simp
  · split
    · simp
    · refine withEntry_keeps g e [op] s _ fun t id w => ?_
      dsimp only
      split <;> simp [h]

/-! ### Segments, admission, and the raising and lowering of a region's power state -/

@[simp] theorem State.modPower_kept (s : State) (f : Power → Power) :
    (s.modPower f).kept = (s.pending, [(f s.power).limSustained, (f s.power).limPeak, s.thermal.margin, s.thermal.flowNom, s.prof.allow],
      s.wafer.boots) := by
  simp only [State.kept, State.limits, State.modPower]

@[simp] theorem State.setSeg_kept (s : State) (k : Nat) (x : Segment) : (s.setSeg k x).kept = s.kept := by simp [State.setSeg]

@[simp] theorem State.modRegPower_kept (s : State) (r : Nat) (f : RegPower → RegPower) :
    (s.modRegPower r f).kept = s.kept := by simp [State.modRegPower]

@[simp] theorem State.askRaise_kept (s : State) (r kind : Nat) : (s.askRaise r kind).kept = s.kept := by simp [State.askRaise]

@[simp] theorem State.askLower_kept (s : State) (r target : Nat) : (s.askLower r target).kept = s.kept := by simp [State.askLower]

@[simp] theorem State.setOpen_kept (s : State) (r : Nat) : (s.setOpen r).kept = s.kept := by simp [State.setOpen]

@[simp] theorem State.touch_kept (s : State) (c : Nat) : (s.touch c).kept = s.kept := by
  unfold State.touch
  split <;> simp

/-! ### Weight generations -/

@[simp] theorem State.modWindow_kept (s : State) (r k : Nat) (f : Window → Window) :
    (s.modWindow r k f).kept = s.kept := by simp [State.modWindow]

@[simp] theorem State.modWeight_kept (s : State) (f : WeightEng → WeightEng) : (s.modWeight f).kept = s.kept := by simp [State.modWeight]

@[simp] theorem State.modGen_kept (s : State) (guest gen : Nat) (f : Generation → Generation) :
    (s.modGen guest gen f).kept = s.kept := by simp [State.modGen]

@[simp] theorem State.modWload_kept (s : State) (id : Nat) (f : WloadRec → WloadRec) :
    (s.modWload id f).kept = s.kept := by simp [State.modWload]

@[simp] theorem State.weightFault_kept (s : State) (l : WloadRec) (code detHi : Nat) :
    (s.weightFault l code detHi).kept = s.kept := by simp [State.weightFault]

@[simp] theorem State.sendChain_kept (s : State) (dest typ gen : Nat) (payload : List Byte) :
    (s.sendChain dest typ gen payload).kept = s.kept := by simp [State.sendChain]

@[simp] theorem State.undoOne_kept (s : State) (l : WloadRec) (status : Nat) : (s.undoOne l status).kept = s.kept := by
  unfold State.undoOne
  repeat' split
  all_goals simp

@[simp] theorem State.undoLoad_kept (s : State) (id status : Nat) : (s.undoLoad id status).kept = s.kept := by
  unfold State.undoLoad
  split <;> simp

@[simp] theorem State.fillPieces_kept (s : State) (l : WloadRec) (ps : List (Nat × Nat × Option (List Byte))) :
    (s.fillPieces l ps).kept = s.kept := by
  refine foldl_kept _ (fun a p => ?_) _ _
  split <;> simp

@[simp] theorem State.forwardShards_kept (s : State) (id n : Nat) : (s.forwardShards id n).kept = s.kept := by
  induction n generalizing s with
  | zero => rfl
  | succ n ih =>
    unfold State.forwardShards
    split
    · rfl
    · split <;> simp [ih]

@[simp] theorem State.requestShards_kept (s : State) (id : Nat) : (s.requestShards id).kept = s.kept := by simp [State.requestShards]

@[simp] theorem State.fillDone_kept (s : State) (l : WloadRec) : (s.fillDone l).kept = s.kept := by
  unfold State.fillDone
  dsimp only
  repeat' split
  all_goals simp

@[simp] theorem State.finishOneLoad_kept (s : State) (id : Nat) : (s.finishOneLoad id).kept = s.kept := by
  unfold State.finishOneLoad
  repeat' split
  all_goals simp

@[simp] theorem State.finishLoad_kept (s : State) (id : Nat) : (s.finishLoad id).kept = s.kept := by
  unfold State.finishLoad
  split <;> simp

@[simp] theorem State.finishLoads_kept (s : State) : s.finishLoads.kept = s.kept := by simp [State.finishLoads]

/-! ### Beats, holds, items and background accesses -/

@[simp] theorem State.failNow_kept (s : State) (c : Nat) (l : List Chk) : (s.failNow c l).kept = s.kept := by simp [State.failNow]

@[simp] theorem execLinkNoFree_keeps (c dir : Nat) (s : State) : KeepsFrom s (execLinkNoFree c dir s) := by
  unfold execLinkNoFree
  split <;> simp

@[simp] theorem execBankNoFree_keeps (c mem bank : Nat) (port : Bool) (s : State) : KeepsFrom s (execBankNoFree c mem bank port s) := by
  unfold execBankNoFree
  dsimp only
  split <;> simp

@[simp] theorem execBeatComplete_keeps (p : Nat) (s : State) : KeepsFrom s (execBeatComplete p s) := by
  unfold execBeatComplete
  split <;> simp

@[simp] theorem State.beginOrPause_kept (s : State) (p r : Nat) : (s.beginOrPause p r).kept = s.kept := by simp [State.beginOrPause]

@[simp] theorem execBeatBegin_keeps (p : Nat) (s : State) : KeepsFrom s (execBeatBegin p s) := by
  unfold execBeatBegin
  split <;> simp

@[simp] theorem execPauseBeatEnd_keeps (p : Nat) (s : State) : KeepsFrom s (execPauseBeatEnd p s) := by
  unfold execPauseBeatEnd
  split <;> simp

@[simp] theorem State.noteReady_kept (s : State) (p : Nat) : (s.noteReady p).kept = s.kept := by
  unfold State.noteReady
  dsimp only
  split <;> simp

@[simp] theorem State.makeReady_kept (s : State) (c item tag : Nat) : (s.makeReady c item tag).kept = s.kept := by simp [State.makeReady]

@[simp] theorem State.takeAwaited_kept (s : State) (c item n : Nat) : (s.takeAwaited c item n).kept = s.kept := by simp [State.takeAwaited]

@[simp] theorem execAwaitResume_keeps (p : Nat) (s : State) : KeepsFrom s (execAwaitResume p s) := by
  unfold execAwaitResume
  dsimp only
  split <;> simp

@[simp] theorem execOutboundResume_keeps (p : Nat) (s : State) : KeepsFrom s (execOutboundResume p s) := by
  unfold execOutboundResume
  dsimp only
  split <;> simp

@[simp] theorem execOutboundPortDrain_keeps (p : Nat) (last : Bool) (vc dest addr : Nat) (m : PortMsg) (s : State) :
    KeepsFrom s (execOutboundPortDrain p last vc dest addr m s) := by
  unfold execOutboundPortDrain
  dsimp only
  split <;> simp

@[simp] theorem execHoldTimeout_keeps (r : Nat) (s : State) : KeepsFrom s (execHoldTimeout r s) := by
  unfold execHoldTimeout
  dsimp only
  repeat' split
  all_goals simp

@[simp] theorem State.slotCheck_kept (s : State) (c decl : Nat) : (s.slotCheck c decl).kept = s.kept := by
  unfold State.slotCheck
  split <;> simp

@[simp] theorem State.verdict_kept (s : State) (c v : Nat) (tileIn : Bool) : (s.verdict c v tileIn).kept = s.kept := by
  unfold State.verdict
  split <;> simp

@[simp] theorem State.itemWritten_kept (s : State) (c item tag : Nat) : (s.itemWritten c item tag).kept = s.kept := by
  unfold State.itemWritten
  dsimp only
  repeat' split
  all_goals simp

@[simp] theorem State.queueDelivery_kept (s : State) (d : Delivery) : (s.queueDelivery d).kept = s.kept := by simp [State.queueDelivery]

@[simp] theorem State.countStale_kept (s : State) (c : Nat) : (s.countStale c).kept = s.kept := by simp [State.countStale]

@[simp] theorem State.deliver_kept (s : State) (r : Nat) (d : Delivery) : (s.deliver r d).1.kept = s.kept := by
  simp [State.deliver, apply_ite Prod.fst]

@[simp] theorem execItemDelivery_keeps (r k : Nat) (s : State) : KeepsFrom s (execItemDelivery r k s) := by
  unfold execItemDelivery
  split <;> simp

@[simp] theorem State.answerBg_kept (s : State) (c : Nat) (b : BgReq) (data : List Byte) : (s.answerBg c b data).kept = s.kept := by
  unfold State.answerBg
  repeat' split
  all_goals simp

@[simp] theorem State.doBg_kept (s : State) (c : Nat) (b : BgReq) : (s.doBg c b).kept = s.kept := by simp [State.doBg]

@[simp] theorem State.serveBg_kept (s : State) (c mem : Nat) : (s.serveBg c mem).kept = s.kept := by
  unfold State.serveBg
  dsimp only
  repeat' split
  all_goals simp

@[simp] theorem execBackgroundAccessGrant_keeps (c mem : Nat) (s : State) :
    KeepsFrom s (execBackgroundAccessGrant c mem s) := by simp [execBackgroundAccessGrant]

@[simp] theorem execVerdictWord_keeps (c : Nat) (w : VerdictIn) (s : State) :
    KeepsFrom s (execVerdictWord c w s) := by simp [execVerdictWord]

/-! ### Campion -/

@[simp] theorem State.modCampion_kept (s : State) (f : Campion → Campion) : (s.modCampion f).kept = s.kept := by simp [State.modCampion]

@[simp] theorem State.countCampion_kept (s : State) (unit reg n : Nat) :
    (s.countCampion unit reg n).kept = s.kept := by simp [State.countCampion]

@[simp] theorem State.useRow_kept (s : State) (row : MaskRow) : (s.useRow row).kept = s.kept := by
  unfold State.useRow
  split <;> simp

/-! ### Commands of the Step and Cache engines that name a slot or a run of steps -/

@[simp] theorem State.slotEntry_kept (s : State) (id : EntryId) (w : Nat) (states : List Nat) (f : State → Nat → Nat → State)
    (h : ∀ r n, (f s r n).kept = s.kept) : (s.slotEntry id w states f).kept = s.kept := by
  simp [State.slotEntry, h]

@[simp] theorem State.startRun_kept (s : State) (r : Nat) (e : RunEntry) : (s.startRun r e).kept = s.kept := by simp [State.startRun]

@[simp] theorem execStep_keeps (g : Nat) (s : State) : KeepsFrom s (execStep g s) := by simp [execStep]

@[simp] theorem execPrefill_keeps (g : Nat) (s : State) : KeepsFrom s (execPrefill g s) := by simp [execPrefill]

@[simp] theorem execSeqOpen_keeps (g : Nat) (s : State) : KeepsFrom s (execSeqOpen g s) := by simp [execSeqOpen]

@[simp] theorem State.joinSlot_kept (s : State) (r n : Nat) (id : EntryId) (op : Nat) :
    (s.joinSlot r n id op).kept = s.kept := by simp [State.joinSlot]

@[simp] theorem execSeqClose_keeps (g : Nat) (s : State) : KeepsFrom s (execSeqClose g s) := by simp [execSeqClose]

@[simp] theorem execSeqCloseTakesEffect_keeps (r n : Nat) (s : State) :
    KeepsFrom s (execSeqCloseTakesEffect r n s) := by simp [execSeqCloseTakesEffect]

@[simp] theorem execCancel_keeps (g : Nat) (s : State) : KeepsFrom s (execCancel g s) := by simp [execCancel]

@[simp] theorem State.cancelAll_kept (s : State) (r : Nat) (id : EntryId) : (s.cancelAll r id).kept = s.kept := by simp [State.cancelAll]

@[simp] theorem execCancelAll_keeps (g : Nat) (s : State) : KeepsFrom s (execCancelAll g s) := by simp [execCancelAll]

@[simp] theorem execPark_keeps (g : Nat) (s : State) : KeepsFrom s (execPark g s) := by simp [execPark]

@[simp] theorem execParkTakesEffect_keeps (r n : Nat) (s : State) : KeepsFrom s (execParkTakesEffect r n s) := by simp [execParkTakesEffect]

@[simp] theorem execResume_keeps (g : Nat) (s : State) : KeepsFrom s (execResume g s) := by simp [execResume]

@[simp] theorem execFork_keeps (g : Nat) (s : State) : KeepsFrom s (execFork g s) := by simp [execFork]

@[simp] theorem execForkTakesEffect_keeps (r n : Nat) (s : State) : KeepsFrom s (execForkTakesEffect r n s) := by simp [execForkTakesEffect]

@[simp] theorem execTrim_keeps (g : Nat) (s : State) : KeepsFrom s (execTrim g s) := by simp [execTrim]

@[simp] theorem execTrimTakesEffect_keeps (r n : Nat) (s : State) : KeepsFrom s (execTrimTakesEffect r n s) := by simp [execTrimTakesEffect]

/-! ### Admission of a step -/

@[simp] theorem State.applyVerify_kept (s : State) (r n : Nat) : (s.applyVerify r n).kept = s.kept := by
  unfold State.applyVerify
  dsimp only
  split <;> simp

@[simp] theorem State.loseSlot_kept (s : State) (r n : Nat) (freePages : Bool) (id : EntryId) :
    (s.loseSlot r n freePages id).kept = s.kept := by simp [State.loseSlot]

@[simp] theorem State.settleRedo_kept (s : State) (r : Nat) : (s.settleRedo r).kept = s.kept := by simp [State.settleRedo]

@[simp] theorem State.assignLanes_kept (s : State) (l : List (Nat × StepPos)) : (s.assignLanes l).1.kept = s.kept := by
  induction l generalizing s with
  | nil => rfl
  | cons q rest ih =>
    unfold State.assignLanes
    split <;> simp [ih]

@[simp] theorem State.admitStep_kept (s : State) (r : Nat) (f : Flight) (waveAt maskAt : List (Nat × Nat)) :
    (s.admitStep r f waveAt maskAt).kept = s.kept := by
  simp [State.admitStep]

@[simp] theorem State.freeFrom_kept (s : State) (r n j : Nat) : (s.freeFrom r n j).kept = s.kept := by simp [State.freeFrom]

@[simp] theorem State.recompute_kept (s : State) (r n window : Nat) (e : RunEntry) (waveAt maskAt : List (Nat × Nat)) :
    (s.recompute r n window e waveAt maskAt).kept = s.kept := by
  unfold State.recompute
  split <;> simp

@[simp] theorem State.admitChunk_kept (s : State) (r current : Nat) (e : RunEntry) (t : StepTpl) (waveAt maskAt : List (Nat × Nat))
    (prompt : List Byte) :
    (s.admitChunk r current e t waveAt maskAt prompt).kept = s.kept := by
  unfold State.admitChunk
  dsimp only
  repeat' split
  all_goals simp

@[simp] theorem State.takeSlots_kept (r : Nat) (t : StepTpl) (group : Nat) (l : List Nat) (ps : List StepPos) (taken : List Nat)
    (a : Taking) :
    (State.takeSlots r t group l ps taken a).1.s.kept = a.s.kept := by
  induction l generalizing ps taken a with
  | nil => rfl
  | cons n rest ih =>
    simp only [State.takeSlots]
    split
    · rfl
    · split <;> simp [ih]

@[simp] theorem State.admitSlots_kept (s : State) (r current : Nat) (e : RunEntry) (t : StepTpl) (waveAt maskAt : List (Nat × Nat)) :
    (s.admitSlots r current e t waveAt maskAt).kept = s.kept := by
  simp only [State.admitSlots]
  split <;> simp

@[simp] theorem State.admitNext_kept (s : State) (r : Nat) (e : RunEntry) (waveAt maskAt : List (Nat × Nat)) (prompt : List Byte) :
    (s.admitNext r e waveAt maskAt prompt).kept = s.kept := by
  unfold State.admitNext
  dsimp only
  repeat' split
  all_goals simp

@[simp] theorem execStepAdmission_keeps (r : Nat) (waveAt maskAt : List (Nat × Nat)) (prompt : List Byte) (s : State) :
    KeepsFrom s (execStepAdmission r waveAt maskAt prompt s) := by
  unfold execStepAdmission
  repeat' split
  all_goals simp

/-! ### The window of a cell -/

@[simp] theorem State.cellWrite_kept (s : State) (c off val : Nat) (guest : Bool) :
    (s.cellWrite c off val guest).kept = s.kept := by simp [State.cellWrite]

/-! ### Intakes, the common commands, records that a sink does not take, and the clears and MEM_DATA accesses of a cell's window -/

@[simp] theorem State.countRefused_kept (s : State) (g e : Nat) : (s.countRefused g e).kept = s.kept := by simp [State.countRefused]

@[simp] theorem State.intake_kept (s : State) (g e : Nat) (m : Msg) : (s.intake g e m).kept = s.kept := by simp [State.intake]

@[simp] theorem execCommandListIntake_keeps (m : Msg) (s : State) :
    KeepsFrom s (execCommandListIntake m s) := by simp [execCommandListIntake]

@[simp] theorem execNop_keeps (g e : Nat) (s : State) : KeepsFrom s (execNop g e s) := by
  simp only [execNop]
  generalize bits _ 255 248 = op
  split
  · simp
  · split <;> simp

@[simp] theorem execWait_keeps (g e : Nat) (s : State) : KeepsFrom s (execWait g e s) :=
  withEntry_keeps _ _ _ _ _ fun t id w => by simp

@[simp] theorem execWaitTimeout_keeps (g e seq idx : Nat) (s : State) : KeepsFrom s (execWaitTimeout g e seq idx s) := by
  unfold execWaitTimeout
  dsimp only
  repeat' split
  all_goals simp

@[simp] theorem execAuth_keeps (g e : Nat) (s : State) : KeepsFrom s (execAuth g e s) :=
  withEntry_keeps _ _ _ _ _ fun t id w => by
    dsimp only
    split <;> simp

@[simp] theorem execCompletionRecordTimeout_keeps (k : Nat) (s : State) : KeepsFrom s (execCompletionRecordTimeout k s) := by
  unfold execCompletionRecordTimeout
  repeat' split
  all_goals simp

@[simp] theorem State.refuseSource_kept (s : State) (src addr rtag : Nat) (rd : Bool) :
    (s.refuseSource src addr rtag rd).kept = s.kept := by simp [State.refuseSource]

@[simp] theorem State.absentWrite_kept (s : State) (src addr val : Nat) : (s.absentWrite src addr val).kept = s.kept := by
  unfold State.absentWrite
  dsimp only
  split <;> simp

@[simp] theorem State.memData_kept (s : State) (src c rtag : Nat) (req : Requester) (data : Option (List Byte)) :
    (s.memData src c rtag req data).kept = s.kept := by
  unfold State.memData
  split <;> simp

@[simp] theorem State.windowAccess_kept (s : State) (src c off rtag : Nat) (val : Option Nat) :
    (s.windowAccess src c off rtag val).kept = s.kept := by
  unfold State.windowAccess
  repeat' split
  all_goals simp

@[simp] theorem State.windowWrite_kept (s : State) (src c off val : Nat) :
    (s.windowWrite src c off val).kept = s.kept := by simp [State.windowWrite]

@[simp] theorem execMemDataRead_keeps (src c rtag : Nat) (s : State) :
    KeepsFrom s (execMemDataRead src c rtag s) := by simp [execMemDataRead]

@[simp] theorem execMemDataWrite_keeps (src c : Nat) (w : BitVec 64) (s : State) :
    KeepsFrom s (execMemDataWrite src c w s) := by simp [execMemDataWrite]

@[simp] theorem execClearBankCounters_keeps (src c : Nat) (s : State) :
    KeepsFrom s (execClearBankCounters src c s) := by simp [execClearBankCounters]

@[simp] theorem execClearFaultLatch_keeps (src c : Nat) (s : State) :
    KeepsFrom s (execClearFaultLatch src c s) := by simp [execClearFaultLatch]

/-! ### Bandwidth blocks of the Casement ports and the HBM controllers -/

@[simp] theorem State.ownerWrites_kept (s : State) (src addr val : Nat) (f : State → State) (h : ∀ t, (f t).kept = t.kept) :
    (s.ownerWrites src addr val f).kept = s.kept := by
  simp [State.ownerWrites, h]

@[simp] theorem State.hbmFault_kept (s : State) (n code detHi : Nat) : (s.hbmFault n code detHi).kept = s.kept := by simp [State.hbmFault]

@[simp] theorem State.setPort_kept (s : State) (p : Nat) (x : Port) : (s.setPort p x).kept = s.kept := by simp [State.setPort]

@[simp] theorem State.modPort_kept (s : State) (p : Nat) (f : Port → Port) : (s.modPort p f).kept = s.kept := by simp [State.modPort]

@[simp] theorem State.modHctl_kept (s : State) (n : Nat) (f : HbmCtl → HbmCtl) : (s.modHctl n f).kept = s.kept := by simp [State.modHctl]

@[simp] theorem State.modBw_kept (s : State) (port : Bool) (n : Nat) (f : BwBlock → BwBlock) :
    (s.modBw port n f).kept = s.kept := by simp [State.modBw]

@[simp] theorem execBwCtlWrite_keeps (src : Nat) (port : Bool) (n val : Nat) (s : State) :
    KeepsFrom s (execBwCtlWrite src port n val s) := by simp [execBwCtlWrite]

@[simp] theorem execBwWindowEnd_keeps (port : Bool) (n : Nat) (s : State) :
    KeepsFrom s (execBwWindowEnd port n s) := by simp [execBwWindowEnd]

/-! ### Fault records as words, alert causes, In-Band Interrupts, the shelf status and the service UART -/

@[simp] theorem State.modMgmt_kept (s : State) (f : Mgmt → Mgmt) : (s.modMgmt f).kept = s.kept := by simp [State.modMgmt]

@[simp] theorem State.modIface_kept (s : State) (f : Iface → Iface) : (s.modIface f).kept = s.kept := by simp [State.modIface]

@[simp] theorem State.modBoot_kept (s : State) (f : Boot → Boot) : (s.modBoot f).kept = s.kept := by simp [State.modBoot]

@[simp] theorem State.uart_kept (s : State) (v : Nat) : (s.uart v).kept = s.kept := by simp [State.uart]

@[simp] theorem State.setCauses_kept (s : State) (new : Nat) : (s.setCauses new).kept = s.kept := by simp [State.setCauses]

@[simp] theorem State.cause_kept (s : State) (b : Nat) : (s.cause b).kept = s.kept := by simp [State.cause]

@[simp] theorem State.shelfWrite_kept (s : State) (cmd : Nat) (data : List Byte) :
    (s.shelfWrite cmd data).kept = s.kept := by simp [State.shelfWrite]

@[simp] theorem State.shelfStatus_kept (s : State) : s.shelfStatus.kept = s.kept := by simp [State.shelfStatus]

/-! ### The life of a region -/

@[simp] theorem State.losePane_kept (s : State) (p : Nat) (weight : Bool) : (s.losePane p weight).kept = s.kept := by simp [State.losePane]

@[simp] theorem State.scrubPane_kept (s : State) (p : Nat) (weight : Bool) :
    (s.scrubPane p weight).kept = s.kept := by simp [State.scrubPane]

@[simp] theorem State.installRegion_kept (s : State) (r : Nat) (p : Parsed) : (s.installRegion r p).kept = s.kept := by
  refine foldl_kept _ (fun a k => ?_) _ _
  split <;> simp

@[simp] theorem State.givePanes_kept (s : State) (ps : List Nat) : (s.givePanes ps).kept = s.kept := by simp [State.givePanes]

@[simp] theorem State.refuseLoadOf_kept (s : State) (r status : Nat) : (s.refuseLoadOf r status).kept = s.kept := by
  unfold State.refuseLoadOf
  dsimp only
  split <;> simp

@[simp] theorem State.modRegionDescs_kept (s : State) (r : Nat) (f : Desc → Desc) :
    (s.modRegionDescs r f).kept = s.kept := by simp [State.modRegionDescs]

@[simp] theorem State.homeAll_kept (s : State) (r : Nat) : (s.homeAll r).kept = s.kept := by simp [State.homeAll]

@[simp] theorem State.dropScatters_kept (s : State) (r : Nat) : (s.dropScatters r).kept = s.kept := by simp [State.dropScatters]

@[simp] theorem State.loseScatters_kept (s : State) (r : Nat) : (s.loseScatters r).kept = s.kept := by simp [State.loseScatters]

@[simp] theorem State.freeSlots_kept (s : State) (r : Nat) : (s.freeSlots r).kept = s.kept := by simp [State.freeSlots]

@[simp] theorem State.unbind_kept (s : State) (r : Nat) : (s.unbind r).kept = s.kept := by simp [State.unbind]

@[simp] theorem State.endWaiting_kept (s : State) (r : Nat) : (s.endWaiting r).kept = s.kept := by
  unfold State.endWaiting
  dsimp only
  split <;> simp

@[simp] theorem State.dropFlight_kept (s : State) (r : Nat) : (s.dropFlight r).kept = s.kept := by
  unfold State.dropFlight
  split <;> simp

@[simp] theorem State.beginRelease_kept (s : State) (r : Nat) (entry : Option EntryId) :
    (s.beginRelease r entry).kept = s.kept := by simp [State.beginRelease]

@[simp] theorem State.endRelease_kept (s : State) (r : Nat) : (s.endRelease r).kept = s.kept := by
  unfold State.endRelease
  dsimp only
  split <;> simp

@[simp] theorem State.abortLoad_kept (s : State) (r : Nat) : (s.abortLoad r).kept = s.kept := by
  unfold State.abortLoad
  dsimp only
  split <;> simp

@[simp] theorem State.dropFills_kept (s : State) (r : Nat) : (s.dropFills r).kept = s.kept := by simp [State.dropFills]

@[simp] theorem State.finishLoadOf_kept (s : State) (r : Nat) : (s.finishLoadOf r).kept = s.kept := by
  unfold State.finishLoadOf
  dsimp only
  repeat' split
  all_goals simp

/-! ### Casement ports -/

@[simp] theorem State.countPort_kept (s : State) (p k n : Nat) : (s.countPort p k n).kept = s.kept := by simp [State.countPort]

@[simp] theorem State.linkFault_kept (s : State) (p code detHi : Nat) :
    (s.linkFault p code detHi).kept = s.kept := by simp [State.linkFault]

@[simp] theorem State.portSecurity_kept (s : State) (p code detHi : Nat) :
    (s.portSecurity p code detHi).kept = s.kept := by simp [State.portSecurity]

@[simp] theorem State.queueTx_kept (s : State) (p : Nat) (t : TxMsg) : (s.queueTx p t).kept = s.kept := by simp [State.queueTx]

@[simp] theorem State.queueOn_kept (s : State) (p : Nat) (m : Msg) : (s.queueOn p m).kept = s.kept := by simp [State.queueOn]

@[simp] theorem State.dropTx_kept (s : State) (t : TxMsg) : (s.dropTx t).kept = s.kept := by
  unfold State.dropTx
  split <;> simp

@[simp] theorem State.dropRecord_kept (s : State) (t : TxMsg) : (s.dropRecord t).kept = s.kept := by
  unfold State.dropRecord
  split <;> simp

/-! ### Fabric addresses, knocks, route tables, multicast branches and barrier trees -/

@[simp] theorem State.modFabric_kept (s : State) (f : Fabric → Fabric) : (s.modFabric f).kept = s.kept := by simp [State.modFabric]

@[simp] theorem State.draw_kept (s : State) (n : Nat) : (s.draw n).kept = s.kept := by simp [State.draw]

@[simp] theorem State.queueKnock_kept (s : State) (p : Nat) : (s.queueKnock p).kept = s.kept := by simp [State.queueKnock]

@[simp] theorem State.sendKnock_kept (s : State) (p : Nat) : (s.sendKnock p).kept = s.kept := by simp [State.sendKnock]

@[simp] theorem State.resendKnock_kept (s : State) (p : Nat) : (s.resendKnock p).kept = s.kept := by simp [State.resendKnock]

@[simp] theorem State.knockAll_kept (s : State) : s.knockAll.kept = s.kept := by simp [State.knockAll]

@[simp] theorem State.meetNeighbour_kept (s : State) (p : Nat) (data : List Byte) :
    (s.meetNeighbour p data).kept = s.kept := by simp [State.meetNeighbour]

@[simp] theorem State.mcReport_kept (s : State) (m : McMsg) : (s.mcReport m).kept = s.kept := by simp [State.mcReport]

@[simp] theorem State.mcFlush_kept (s : State) (group n : Nat) : (s.mcFlush group n).kept = s.kept := by
  induction n generalizing s with
  | zero => rfl
  | succ n ih =>
    unfold State.mcFlush
    split
    · rfl
    · split <;> simp [ih]

@[simp] theorem State.mcBranchDone_kept (s : State) (p group seq stuck failed : Nat) :
    (s.mcBranchDone p group seq stuck failed).kept = s.kept := by simp [State.mcBranchDone]

@[simp] theorem State.mcBranchFail_kept (s : State) (p group seq peer : Nat) :
    (s.mcBranchFail p group seq peer).kept = s.kept := by simp [State.mcBranchFail]

@[simp] theorem State.mcSent_kept (s : State) (p seq : Nat) (mc : Nat × Nat) : (s.mcSent p seq mc).kept = s.kept := by simp [State.mcSent]

@[simp] theorem State.setBar_kept (s : State) (t : Nat) (b : Barrier) : (s.setBar t b).kept = s.kept := by simp [State.setBar]

@[simp] theorem State.barRelease_kept (s : State) (t : Nat) (failed : Bool) (fa : Nat) :
    (s.barRelease t failed fa).kept = s.kept := by simp [State.barRelease]

@[simp] theorem State.barCheck_kept (s : State) (t n : Nat) : (s.barCheck t n).kept = s.kept := by
  induction n generalizing s with
  | zero => rfl
  | succ n ih => simp [State.barCheck, ih]

@[simp] theorem State.barFail_kept (s : State) (t cause : Nat) : (s.barFail t cause).kept = s.kept := by simp [State.barFail]

@[simp] theorem State.barPortLost_kept (s : State) (p : Nat) : (s.barPortLost p).kept = s.kept := by simp [State.barPortLost]

/-! ### What a port's changes of state do -/

@[simp] theorem State.discardAll_kept (s : State) (p : Nat) : (s.discardAll p).kept = s.kept := by
  simp only [State.discardAll, State.kept_mk, State.kept_fold]
  rw [foldl_kept, State.modPort_kept]
  intro a t
  split <;> simp

@[simp] theorem State.leaveActive_kept (s : State) (p : Nat) : (s.leaveActive p).kept = s.kept := by simp [State.leaveActive]

@[simp] theorem State.enterDown_kept (s : State) (p st : Nat) : (s.enterDown p st).kept = s.kept := by simp [State.enterDown]

@[simp] theorem State.enterRetraining_kept (s : State) (p want : Nat) :
    (s.enterRetraining p want).kept = s.kept := by simp [State.enterRetraining]

@[simp] theorem State.sendKey_kept (s : State) (p typ : Nat) (l : List Byte) : (s.sendKey p typ l).kept = s.kept := by simp [State.sendKey]

@[simp] theorem State.modAuth_kept (s : State) (p : Nat) (f : LinkAuth → LinkAuth) :
    (s.modAuth p f).kept = s.kept := by simp [State.modAuth]

@[simp] theorem State.beginExchange_kept (s : State) (p : Nat) : (s.beginExchange p).kept = s.kept := by simp [State.beginExchange]

@[simp] theorem State.enterSecuring_kept (s : State) (p : Nat) : (s.enterSecuring p).kept = s.kept := by simp [State.enterSecuring]

@[simp] theorem State.enterActive_kept (s : State) (p : Nat) (cleartext : Bool) :
    (s.enterActive p cleartext).kept = s.kept := by simp [State.enterActive]

@[simp] theorem State.linkFail_kept (s : State) (p cause : Nat) : (s.linkFail p cause).kept = s.kept := by simp [State.linkFail]

@[simp] theorem State.sendEncap_kept (s : State) (p : Nat) : (s.sendEncap p).kept = s.kept := by simp [State.sendEncap]

@[simp] theorem State.tryKeys_kept (s : State) (p : Nat) : (s.tryKeys p).kept = s.kept := by simp [State.tryKeys]

@[simp] theorem State.beginRekey_kept (s : State) (p : Nat) : (s.beginRekey p).kept = s.kept := by simp [State.beginRekey]

theorem State.takeKey_kept {s t : State} {p typ : Nat} {c : List Byte} (h : s.takeKey p typ = some (c, t)) : t.kept = s.kept := by
  simp only [State.takeKey] at h
  split at h
  · contradiction
  · cases h
    simp

/-! ### The Keeper's mailbox, the TAP's lock, and zeroisation -/

@[simp] theorem State.mbDone_kept (s : State) (g result : Nat) (resp : List Byte) :
    (s.mbDone g result resp).kept = s.kept := by simp [State.mbDone]

@[simp] theorem withRequest_keeps (g op : Nat) (s : State) (f : State → List Byte → State) (h : ∀ t b, (f t b).kept = t.kept) :
    KeepsFrom s (withRequest g op s f) := by
  simp [withRequest, h]

@[simp] theorem State.tapLock_kept (s : State) : s.tapLock.kept = s.kept := by simp [State.tapLock]

@[simp] theorem State.dropLink_kept (s : State) (p : Nat) : (s.dropLink p).kept = s.kept := by simp [State.dropLink]

@[simp] theorem State.dropLinks_kept (s : State) : s.dropLinks.kept = s.kept := by simp [State.dropLinks]

@[simp] theorem State.zeroiseKeys_kept (s : State) (kind : Nat) : (s.zeroiseKeys kind).kept = s.kept := by
  unfold State.zeroiseKeys
  dsimp only
  split <;> simp

@[simp] theorem State.settleZeroise_kept (s : State) : s.settleZeroise.kept = s.kept := by
  unfold State.settleZeroise
  split <;> simp

/-! ### Commands of the Glaze engine -/

@[simp] theorem State.startLoad_kept (s : State) (r : Nat) (l : LoadRec) : (s.startLoad r l).kept = s.kept := by simp [State.startLoad]

@[simp] theorem State.tryLoad_kept (s : State) (r : Nat) (l : LoadRec) : (s.tryLoad r l).kept = s.kept := by simp [State.tryLoad]

@[simp] theorem execLoad_keeps (g : Nat) (hdr : List Byte) (s : State) : KeepsFrom s (execLoad g hdr s) := by simp [execLoad]

@[simp] theorem execImageCopyComplete_keeps (r : Nat) (bytes : List Byte) (s : State) : KeepsFrom s (execImageCopyComplete r bytes s) := by
  unfold execImageCopyComplete
  repeat' split
  all_goals simp

@[simp] theorem execSignatureVerified_keeps (r : Nat) (ok : Bool) (s : State) : KeepsFrom s (execSignatureVerified r ok s) := by
  unfold execSignatureVerified
  repeat' split
  all_goals simp

@[simp] theorem execLoadAdmissionTimeout_keeps (r : Nat) (s : State) : KeepsFrom s (execLoadAdmissionTimeout r s) := by
  unfold execLoadAdmissionTimeout
  repeat' split
  all_goals simp

@[simp] theorem execCellWritesComplete_keeps (r : Nat) (s : State) : KeepsFrom s (execCellWritesComplete r s) := by
  unfold execCellWritesComplete
  repeat' split
  all_goals simp

@[simp] theorem execRelease_keeps (g : Nat) (s : State) : KeepsFrom s (execRelease g s) := by simp [execRelease]

@[simp] theorem execScrubComplete_keeps (r : Nat) (s : State) : KeepsFrom s (execScrubComplete r s) := by simp [execScrubComplete]

@[simp] theorem State.createGuest_kept (s : State) (id : EntryId) (w : Nat) :
    (s.createGuest id w).kept = s.kept := by simp [State.createGuest]

@[simp] theorem execGuestCreate_keeps (g : Nat) (s : State) : KeepsFrom s (execGuestCreate g s) := by simp [execGuestCreate]

@[simp] theorem execGuestLimits_keeps (g : Nat) (s : State) : KeepsFrom s (execGuestLimits g s) := by simp [execGuestLimits]

@[simp] theorem State.flushQueues_kept (s : State) (n : Nat) : (s.flushQueues n).kept = s.kept := by
  rw [State.flushQueues, foldl_kept]
  intro a e
  rw [foldl_kept]
  intro b l
  simp only [State.settleWaits_kept, State.retireList_kept, State.settleAuth_kept]
  rw [foldl_kept]
  intro c id
  split <;> simp

@[simp] theorem State.freeParks_kept (s : State) (n : Nat) : (s.freeParks n).kept = s.kept := by
  simp [State.freeParks]

@[simp] theorem State.beginDelete_kept (s : State) (n : Nat) (entry : Option EntryId) :
    (s.beginDelete n entry).kept = s.kept := by simp [State.beginDelete]

@[simp] theorem execGuestDelete_keeps (g : Nat) (s : State) : KeepsFrom s (execGuestDelete g s) := by simp [execGuestDelete]

@[simp] theorem State.freeSources_kept (s : State) (n : Nat) : (s.freeSources n).kept = s.kept := by simp [State.freeSources]

@[simp] theorem execGuestDeleteComplete_keeps (n : Nat) (s : State) : KeepsFrom s (execGuestDeleteComplete n s) := by
  unfold execGuestDeleteComplete
  dsimp only
  repeat' split
  all_goals simp

/-! ### Commands of the Keeper -/

@[simp] theorem execCredGet_keeps (g : Nat) (s : State) : KeepsFrom s (execCredGet g s) := by simp [execCredGet]

@[simp] theorem execAttest_keeps (g : Nat) (s : State) : KeepsFrom s (execAttest g s) := by simp [execAttest]

@[simp] theorem State.setKey_kept (s : State) (g : Nat) (key : List Byte) : (s.setKey g key).kept = s.kept := by simp [State.setKey]

@[simp] theorem execOwnerClaim_keeps (g : Nat) (s : State) : KeepsFrom s (execOwnerClaim g s) :=
  withRequest_keeps _ _ _ _ fun t b => by
    split
    · simp
    · split
      · simp
      · split <;> simp

@[simp] theorem execKeyInstall_keeps (g : Nat) (s : State) : KeepsFrom s (execKeyInstall g s) :=
  withRequest_keeps _ _ _ _ fun t b => by
    dsimp only
    split
    · simp
    · split
      · simp
      · split <;> simp

@[simp] theorem execKeyEnroll_keeps (g : Nat) (s : State) : KeepsFrom s (execKeyEnroll g s) := by simp [execKeyEnroll]

@[simp] theorem execKeyRevoke_keeps (g : Nat) (s : State) : KeepsFrom s (execKeyRevoke g s) :=
  withRequest_keeps _ _ _ _ fun t b => by split <;> simp

@[simp] theorem execTapUnlock_keeps (g : Nat) (s : State) : KeepsFrom s (execTapUnlock g s) := by simp [execTapUnlock]

@[simp] theorem execTapLock_keeps (g : Nat) (s : State) : KeepsFrom s (execTapLock g s) := by simp [execTapLock]

@[simp] theorem execTapRelock_keeps (s : State) : KeepsFrom s (execTapRelock s) := by simp [execTapRelock]

@[simp] theorem execApprovedEnter_keeps (g : Nat) (s : State) : KeepsFrom s (execApprovedEnter g s) := by simp [execApprovedEnter]

@[simp] theorem execApprovedLeave_keeps (g : Nat) (s : State) : KeepsFrom s (execApprovedLeave g s) := by simp [execApprovedLeave]

@[simp] theorem State.beginZeroise_kept (s : State) (kind : Nat) : (s.beginZeroise kind).kept = s.kept := by simp [State.beginZeroise]

@[simp] theorem State.zeroiseJob_kept (s : State) (g op : Nat) : (s.zeroiseJob g op).kept = s.kept := by simp [State.zeroiseJob]

@[simp] theorem execZeroise_keeps (g : Nat) (s : State) : KeepsFrom s (execZeroise g s) := by simp [execZeroise]

@[simp] theorem execDecommission_keeps (g : Nat) (s : State) : KeepsFrom s (execDecommission g s) := by simp [execDecommission]

@[simp] theorem execTamper_keeps (sw : Nat) (s : State) : KeepsFrom s (execTamper sw s) := by simp [execTamper]

@[simp] theorem execFwActivate_keeps (g : Nat) (s : State) : KeepsFrom s (execFwActivate g s) := by simp [execFwActivate]

@[simp] theorem State.endFetch_kept (s : State) (g : Nat) (bundle : Option (List Byte)) (sigOk : Bool) :
    (s.endFetch g bundle sigOk).kept = s.kept := by
  unfold State.endFetch
  split <;> simp

@[simp] theorem execMbStatusDone_keeps (bundle : Option (List Byte)) (sigOk : Bool) (s : State) :
    KeepsFrom s (execMbStatusDone bundle sigOk s) := by
  unfold execMbStatusDone
  repeat' split
  all_goals simp

@[simp] theorem execReservationWriteComplete_keeps (g : Nat) (s : State) : KeepsFrom s (execReservationWriteComplete g s) := by
  unfold execReservationWriteComplete
  repeat' split
  all_goals simp

@[simp] theorem execConditionalTestFail_keeps (n sub : Nat) (s : State) :
    KeepsFrom s (execConditionalTestFail n sub s) := by simp [execConditionalTestFail]

@[simp] theorem execKeeperRestart_keeps (fail : Nat) (s : State) : KeepsFrom s (execKeeperRestart fail s) := by simp [execKeeperRestart]

@[simp] theorem execDrbgReseed_keeps (s : State) : KeepsFrom s (execDrbgReseed s) := by simp [execDrbgReseed]

/-! ### The event log, critical shutdown, and what a cold boot keeps -/

@[simp] theorem State.modThermal_kept (s : State) (f : Thermal → Thermal) :
    (s.modThermal f).kept = (s.pending, [s.power.limSustained, s.power.limPeak, (f s.thermal).margin, (f s.thermal).flowNom, s.prof.allow],
      s.wafer.boots) := by
  simp only [State.kept, State.limits, State.modThermal]

@[simp] theorem State.modProf_kept (s : State) (f : Prof → Prof) :
    (s.modProf f).kept = (s.pending, [s.power.limSustained, s.power.limPeak, s.thermal.margin, s.thermal.flowNom, (f s.prof).allow],
      s.wafer.boots) := by
  simp only [State.kept, State.limits, State.modProf]

@[simp] theorem State.eventAt_kept (s : State) (typ running : Nat) (e : EventSub) :
    (s.eventAt typ running e).kept = s.kept := by simp [State.eventAt]

@[simp] theorem State.event_kept (s : State) (typ : Nat) (e : EventSub) : (s.event typ e).kept = s.kept := by simp [State.event]

@[simp] theorem State.applyEnv_kept (s : State) : s.applyEnv.kept = s.kept := by simp [State.applyEnv]

@[simp] theorem State.holdRunning_kept (s : State) : s.holdRunning.kept = s.kept := by simp [State.holdRunning]

@[simp] theorem State.lowerAll_kept (s : State) (st : Nat) : (s.lowerAll st).kept = s.kept := by simp [State.lowerAll]

@[simp] theorem State.portsDown_kept (s : State) : s.portsDown.kept = s.kept := by simp [State.portsDown]

@[simp] theorem State.convertersStop_kept (s : State) : s.convertersStop.kept = s.kept := by simp [State.convertersStop]

@[simp] theorem State.shutdown_kept (s : State) (types : List Nat) (e : EventSub) :
    (s.shutdown types e).kept = s.kept := by simp [State.shutdown]

@[simp] theorem State.shutdownHigh_kept (s : State) : s.shutdownHigh.kept = s.kept := by simp [State.shutdownHigh]

@[simp] theorem State.romSelect_kept (s : State) : s.romSelect.kept = s.kept := by simp [State.romSelect]

@[simp] theorem State.bootStopped_kept (s : State) : s.bootStopped.kept = s.kept := by simp [State.bootStopped]

/-! ### Pane rails, operating profiles, and the conditions of Sprint -/

@[simp] theorem State.modRegProf_kept (s : State) (r : Nat) (f : RegProfile → RegProfile) :
    (s.modRegProf r f).kept = s.kept := by simp [State.modRegProf]

@[simp] theorem Prof.commit_allow (p : Prof) : p.commit.allow = p.allow := by
  unfold Prof.commit
  split <;> rfl

@[simp] theorem State.askGrant_kept (s : State) (w : Nat) : (s.askGrant w).kept = s.kept := by simp [State.askGrant]

@[simp] theorem State.settleGrant_kept (s : State) : s.settleGrant.kept = s.kept := by simp [State.settleGrant]

@[simp] theorem State.beginSwitch_kept (s : State) (r target : Nat) : (s.beginSwitch r target).kept = s.kept := by simp [State.beginSwitch]

@[simp] theorem State.recordProfile_kept (s : State) (r p : Nat) : (s.recordProfile r p).kept = s.kept := by simp [State.recordProfile]

@[simp] theorem State.changeProfile_kept (s : State) (r p : Nat) (id : EntryId) (limit : Nat) :
    (s.changeProfile r p id limit).kept = s.kept := by simp [State.changeProfile]

@[simp] theorem State.nextProfile_kept (s : State) (r n : Nat) : (s.nextProfile r n).kept = s.kept := by
  induction n generalizing s with
  | zero => rfl
  | succ n ih =>
    simp only [State.nextProfile]
    split <;> simp [ih]

@[simp] theorem State.settleProfiles_kept (s : State) (r : Nat) : (s.settleProfiles r).kept = s.kept := by simp [State.settleProfiles]

@[simp] theorem State.refuseProfile_kept (s : State) (r status : Nat) : (s.refuseProfile r status).kept = s.kept := by
  unfold State.refuseProfile
  dsimp only
  split <;> simp

@[simp] theorem State.finishSwitch_kept (s : State) (r : Nat) : (s.finishSwitch r).kept = s.kept := by
  simp only [State.finishSwitch]
  split
  · simp
  · simp only [State.settleProfiles_kept, State.settleGrant_kept]
    split <;> simp

@[simp] theorem State.capRegion_kept (s : State) (r : Nat) : (s.capRegion r).kept = s.kept := by
  unfold State.capRegion
  dsimp only
  repeat' split
  all_goals simp

/-! ### The course of a step -/

@[simp] theorem State.freeWord32_kept (s : State) : s.freeWord32.2.kept = s.kept := rfl

@[simp] theorem State.feedSlice_kept (s : State) (r : Nat) (f : Flight) (g : Generation) (m : Manifest) (im : Image) (v i : Nat) :
    (s.feedSlice r f g m im v i).kept = s.kept := by
  unfold State.feedSlice
  dsimp only
  split <;> simp

@[simp] theorem State.feed_kept (s : State) (r : Nat) (l : Option (List (Nat × Nat))) : (s.feed r l).kept = s.kept := by
  unfold State.feed
  dsimp only
  repeat' split
  all_goals simp

@[simp] theorem State.feedAgain_kept (s : State) : s.feedAgain.kept = s.kept := by
  refine foldl_kept _ (fun a q => ?_) _ _
  split <;> simp

@[simp] theorem State.beginPanes_kept (s : State) (r : Nat) : (s.beginPanes r).kept = s.kept := by simp [State.beginPanes]

@[simp] theorem State.runFlight_kept (s : State) (r : Nat) (f : Flight) : (s.runFlight r f).kept = s.kept := by simp [State.runFlight]

@[simp] theorem execStepStart_keeps (r : Nat) (s : State) : KeepsFrom s (execStepStart r s) := by
  unfold execStepStart
  dsimp only
  repeat' split
  all_goals simp

@[simp] theorem State.replay_kept (s : State) (r : Nat) : (s.replay r).kept = s.kept := by
  unfold State.replay
  split <;> simp

@[simp] theorem execPromotionComplete_keeps (r k : Nat) (s : State) : KeepsFrom s (execPromotionComplete r k s) := by
  unfold execPromotionComplete
  dsimp only
  repeat' split
  all_goals simp

@[simp] theorem execShardCandidates_keeps (r : Nat) (bytes : List Byte) (s : State) : KeepsFrom s (execShardCandidates r bytes s) := by
  unfold execShardCandidates
  dsimp only
  repeat' split
  all_goals simp

@[simp] theorem execCampionResult_keeps (r q : Nat) (s : State) : KeepsFrom s (execCampionResult r q s) := by
  unfold execCampionResult
  dsimp only
  repeat' split
  all_goals simp

@[simp] theorem State.sendPair_kept (s : State) (r typ value : Nat) : (s.sendPair r typ value).kept = s.kept := by simp [State.sendPair]

@[simp] theorem State.commitSlot_kept (s : State) (r : Nat) (f : Flight) (n : Nat) : (s.commitSlot r f n).1.kept = s.kept := by
  simp [State.commitSlot, apply_ite Prod.fst]

@[simp] theorem State.startScatter_kept (s : State) (r : Nat) : (s.startScatter r).kept = s.kept := by
  unfold State.startScatter
  split <;> simp

@[simp] theorem State.endStep_kept (s : State) (r : Nat) (f : Flight) : (s.endStep r f).kept = s.kept := by
  unfold State.endStep
  split <;> simp

@[simp] theorem State.commit_kept (s : State) (r : Nat) (f : Flight) : (s.commit r f).kept = s.kept := by
  have slots (l : List Nat) (a : State × List (Nat × Nat × Nat)) :
      (l.foldl (fun a n => ((a.1.commitSlot r f n).1, a.2 ++ (a.1.commitSlot r f n).2)) a).1.kept = a.1.kept := by
    induction l generalizing a with
    | nil => rfl
    | cons n l ih => simp [ih]
  simp [State.commit, slots]

@[simp] theorem execStepCommit_keeps (r : Nat) (s : State) : KeepsFrom s (execStepCommit r s) := by
  unfold execStepCommit
  repeat' split
  all_goals simp

@[simp] theorem State.countStaged_kept (s : State) (r stg q : Nat) (l : KvLayer) : (s.countStaged r stg q l).kept = s.kept := by
  refine foldl_kept _ (fun a i => ?_) _ _
  split <;> simp

@[simp] theorem State.scatterRows_kept (s : State) (r : Nat) (c : Scatter) : (s.scatterRows r c).kept = s.kept := by
  refine foldl_kept _ (fun a k => ?_) _ _
  split <;> simp

@[simp] theorem execScatterComplete_keeps (r : Nat) (s : State) : KeepsFrom s (execScatterComplete r s) := by
  unfold execScatterComplete
  repeat' split
  all_goals simp

@[simp] theorem execEpochPassed_keeps (d : Nat) (s : State) : KeepsFrom s (execEpochPassed d s) := by simp [execEpochPassed]

@[simp] theorem execParkExpiry_keeps (i : Nat) (s : State) : KeepsFrom s (execParkExpiry i s) := by simp [execParkExpiry]

@[simp] theorem execDraftRecord_keeps (m : Msg) (s : State) : KeepsFrom s (execDraftRecord m s) := by simp [execDraftRecord]

@[simp] theorem execVerifyRecord_keeps (m : Msg) (s : State) : KeepsFrom s (execVerifyRecord m s) := by simp [execVerifyRecord]

/-! ### The death of a cell, and the in-place row-shift -/

@[simp] theorem State.markDead_kept (s : State) (c : Nat) : (s.markDead c).kept = s.kept := by simp [State.markDead]

@[simp] theorem State.loseSlices_kept (s : State) (r c : Nat) : (s.loseSlices r c).kept = s.kept := by simp [State.loseSlices]

@[simp] theorem State.holdForShift_kept (s : State) (r : Nat) : (s.holdForShift r).kept = s.kept := by simp [State.holdForShift]

@[simp] theorem State.dieInRegion_kept (s : State) (r c : Nat) : (s.dieInRegion r c).kept = s.kept := by
  unfold State.dieInRegion
  dsimp only
  split <;> simp

@[simp] theorem execDeadCellDetect_keeps (c : Nat) (s : State) : KeepsFrom s (execDeadCellDetect c s) := by
  unfold execDeadCellDetect
  repeat' split
  all_goals simp

@[simp] theorem State.serveHeld_kept (s : State) (hit : Nat → Bool) : (s.serveHeld hit).kept = s.kept := by simp [State.serveHeld]

@[simp] theorem State.reserveAgain_kept (s : State) (r : Nat) : (s.reserveAgain r).kept = s.kept := by
  simp only [State.reserveAgain, State.modRegion_kept]
  rw [foldl_taking_kept, State.returnPromos_kept]
  intro t n
  rw [foldl_taking_kept]
  intro u k
  split <;> simp

@[simp] theorem execRowShiftCopyComplete_keeps (r : Nat) (s : State) : KeepsFrom s (execRowShiftCopyComplete r s) := by
  unfold execRowShiftCopyComplete
  dsimp only
  repeat' split
  all_goals simp

/-! ### Commands of the power supply and of pane regulation -/

@[simp] theorem State.powerPane_kept (s : State) (p code detHi : Nat) :
    (s.powerPane p code detHi).kept = s.kept := by simp [State.powerPane]

@[simp] theorem State.powerModule_kept (s : State) (code detHi : Nat) :
    (s.powerModule code detHi).kept = s.kept := by simp [State.powerModule]

@[simp] theorem State.setVin_kept (s : State) (vin : Nat) : (s.setVin vin).kept = s.kept := by simp [State.setVin]

@[simp] theorem execInputLow_keeps (vin : Nat) (s : State) : KeepsFrom s (execInputLow vin s) := by simp [execInputLow]

@[simp] theorem execInputLowRelease_keeps (vin : Nat) (s : State) : KeepsFrom s (execInputLowRelease vin s) := by simp [execInputLowRelease]

@[simp] theorem execInputLowShutdown_keeps (vin : Nat) (s : State) :
    KeepsFrom s (execInputLowShutdown vin s) := by simp [execInputLowShutdown]

@[simp] theorem execInputHigh_keeps (vin : Nat) (s : State) : KeepsFrom s (execInputHigh vin s) := by simp [execInputHigh]

@[simp] theorem execConverterFail_keeps (k c : Nat) (s : State) : KeepsFrom s (execConverterFail k c s) := by simp [execConverterFail]

@[simp] theorem execBoost_keeps (p vmin : Nat) (s : State) : KeepsFrom s (execBoost p vmin s) := by simp [execBoost]

@[simp] theorem execClockStretch_keeps (p vmin : Nat) (s : State) : KeepsFrom s (execClockStretch p vmin s) := by simp [execClockStretch]

@[simp] theorem execShunt_keeps (p vmax : Nat) (s : State) : KeepsFrom s (execShunt p vmax s) := by simp [execShunt]

@[simp] theorem execDroop_keeps (p vmin : Nat) (s : State) : KeepsFrom s (execDroop p vmin s) := by simp [execDroop]

@[simp] theorem execLoadStepRaise_keeps (p : Nat) (s : State) : KeepsFrom s (execLoadStepRaise p s) := by simp [execLoadStepRaise]

@[simp] theorem execLoadStepRaiseEnd_keeps (p : Nat) (s : State) : KeepsFrom s (execLoadStepRaiseEnd p s) := by simp [execLoadStepRaiseEnd]

@[simp] theorem State.darkCore_kept (s : State) (p : Nat) : (s.darkCore p).kept = s.kept := by
  unfold State.darkCore
  dsimp only
  repeat' split
  all_goals simp

@[simp] theorem State.raisePwr_kept (s : State) (r n : Nat) : (s.raisePwr r n).kept = s.kept := by simp [State.raisePwr]

@[simp] theorem execPowerFastSample_keeps (amps : List Nat) (bus : Nat) (s : State) :
    KeepsFrom s (execPowerFastSample amps bus s) := by simp [execPowerFastSample]

@[simp] theorem execSegmentOver_keeps (k : Nat) (s : State) : KeepsFrom s (execSegmentOver k s) := by
  unfold execSegmentOver
  dsimp only
  repeat' split
  all_goals simp

/-! ### Temperatures -/

@[simp] theorem State.thermalPane_kept (s : State) (p code detHi : Nat) :
    (s.thermalPane p code detHi).kept = s.kept := by simp [State.thermalPane]

@[simp] theorem State.thermalModule_kept (s : State) (code detHi : Nat) :
    (s.thermalModule code detHi).kept = s.kept := by simp [State.thermalModule]

@[simp] theorem State.readSensor_kept (s : State) (x : Nat × Int × Int) : (s.readSensor x).kept = s.kept := by simp [State.readSensor]

@[simp] theorem State.channelFault_kept (s : State) (c : Channel) (code : Nat) :
    (s.channelFault c code).kept = s.kept := by simp [State.channelFault]

@[simp] theorem State.warn_kept (s : State) (c : Channel) : (s.warn c).kept = s.kept := by simp [State.warn]

@[simp] theorem State.updateCap_kept (s : State) (hot : Int) (p : Nat) : (s.updateCap hot p).kept = s.kept := by
  simp only [State.updateCap, State.modThermal_kept]
  split <;> simp

@[simp] theorem State.declareStop_kept (s : State) (code typ detail : Nat) :
    (s.declareStop code typ detail).kept = s.kept := by simp [State.declareStop]

@[simp] theorem State.recoverStop_kept (s : State) : s.recoverStop.kept = s.kept := by simp [State.recoverStop]

@[simp] theorem State.roundTh_kept (s : State) (r : Nat) : (s.roundTh r).kept = s.kept := by simp [State.roundTh]

@[simp] theorem State.roundRate_kept (s : State) (r : Nat) : (s.roundRate r).kept = s.kept := by simp [State.roundRate]

@[simp] theorem State.compensate_kept (s : State) (p : Nat) : (s.compensate p).kept = s.kept := by simp [State.compensate]

/-! ### Resets, the boot sequence, standby activation, firmware attempts and commits -/

@[simp] theorem State.toStage_kept (s : State) (n : Nat) : (s.toStage n).kept = s.kept := by simp [State.toStage]

@[simp] theorem State.copiesFailed_kept (s : State) : s.copiesFailed.kept = s.kept := by simp [State.copiesFailed]

@[simp] theorem State.toStandby_kept (s : State) : s.toStandby.kept = s.kept := by simp [State.toStandby]

@[simp] theorem State.keeperFails_kept (s : State) (n : Nat) : (s.keeperFails n).kept = s.kept := by simp [State.keeperFails]

@[simp] theorem State.rejectArmed_kept (s : State) : s.rejectArmed.kept = s.kept := by simp [State.rejectArmed]

@[simp] theorem State.raiseFuses_kept (s : State) (x : FwSlot) : (s.raiseFuses x).kept = s.kept := by simp [State.raiseFuses]

@[simp] theorem State.keeperStart_kept (s : State) : s.keeperStart.kept = s.kept := by simp [State.keeperStart]

@[simp] theorem State.loadFlash_kept (s : State) (tags : List Nat) : (s.loadFlash tags).kept = s.kept := by simp [State.loadFlash]

@[simp] theorem State.mergePhases_kept (s : State) : s.mergePhases.kept = s.kept := by simp [State.mergePhases]

@[simp] theorem State.thinEdge_kept (s : State) (field edge n : Nat) : (s.thinEdge field edge n).kept = s.kept := by
  induction n generalizing s with
  | zero => rfl
  | succ n ih => simp [State.thinEdge, ih]

@[simp] theorem State.bist_kept (s : State) (found : List Nat) : (s.bist found).kept = s.kept := by simp [State.bist]

@[simp] theorem State.trainHbm_kept (s : State) (chans : List (Nat × Nat)) : (s.trainHbm chans).kept = s.kept := by simp [State.trainHbm]

@[simp] theorem State.fwCommit_kept (s : State) : s.fwCommit.kept = s.kept := by simp [State.fwCommit]

@[simp] theorem State.becomeReady_kept (s : State) : s.becomeReady.kept = s.kept := by simp [State.becomeReady]

@[simp] theorem execBootStageComplete_keeps (f : BootFinds) (s : State) : KeepsFrom s (execBootStageComplete f s) := by
  unfold execBootStageComplete
  dsimp only
  repeat' split
  all_goals simp

/-! ### Dot-unit operations, DOT slot -/

@[simp] theorem execDotW_keeps (c : Nat) (o : DotOp) (waddr saddr : Nat) (s : State) :
    KeepsFrom s (execDotW c o waddr saddr s) := by simp [execDotW]

@[simp] theorem execDotL_keeps (c : Nat) (o : DotOp) (grp : Nat) (s : State) : KeepsFrom s (execDotL c o grp s) := by simp [execDotL]

@[simp] theorem execDotFlush_keeps (c e paddr : Nat) (s : State) : KeepsFrom s (execDotFlush c e paddr s) := by simp [execDotFlush]

@[simp] theorem execDotFlushAdd_keeps (c e paddr : Nat) (s : State) : KeepsFrom s (execDotFlushAdd c e paddr s) := by simp [execDotFlushAdd]

@[simp] theorem execDotClr_keeps (c : Nat) (s : State) : KeepsFrom s (execDotClr c s) := by simp [execDotClr]

/-! ### Commands of the Casement ports -/

@[simp] theorem execPeerSignalDetect_keeps (p : Nat) (s : State) : KeepsFrom s (execPeerSignalDetect p s) := by simp [execPeerSignalDetect]

@[simp] theorem execTrainingComplete_keeps (p lock pol : Nat) (snr : List Nat) (s : State) :
    KeepsFrom s (execTrainingComplete p lock pol snr s) := by
  unfold execTrainingComplete
  dsimp only
  repeat' split
  all_goals simp

@[simp] theorem execTrainFail_keeps (p lock : Nat) (s : State) : KeepsFrom s (execTrainFail p lock s) := by simp [execTrainFail]

@[simp] theorem execLaneLoss_keeps (p lane : Nat) (s : State) : KeepsFrom s (execLaneLoss p lane s) := by simp [execLaneLoss]

@[simp] theorem execRetrainComplete_keeps (p lock : Nat) (s : State) : KeepsFrom s (execRetrainComplete p lock s) := by
  unfold execRetrainComplete
  dsimp only
  repeat' split
  all_goals simp

@[simp] theorem execRetrainTimeout_keeps (p : Nat) (s : State) : KeepsFrom s (execRetrainTimeout p s) := by simp [execRetrainTimeout]

@[simp] theorem State.portControl_kept (s : State) (src p val : Nat) :
    (s.portControl src p val).kept = s.kept := by simp [State.portControl]

@[simp] theorem execPortEnable_keeps (src p val : Nat) (s : State) : KeepsFrom s (execPortEnable src p val s) := by simp [execPortEnable]

@[simp] theorem execRetrain_keeps (src p val : Nat) (s : State) : KeepsFrom s (execRetrain src p val s) := by simp [execRetrain]

@[simp] theorem execFullwidth_keeps (src p val : Nat) (s : State) : KeepsFrom s (execFullwidth src p val s) := by simp [execFullwidth]

@[simp] theorem execRekey_keeps (src p val : Nat) (s : State) : KeepsFrom s (execRekey src p val s) := by simp [execRekey]

@[simp] theorem execRekeyDue_keeps (p : Nat) (s : State) : KeepsFrom s (execRekeyDue p s) := by simp [execRekeyDue]

@[simp] theorem execRunLimitExhausted_keeps (p : Nat) (s : State) :
    KeepsFrom s (execRunLimitExhausted p s) := by simp [execRunLimitExhausted]

@[simp] theorem execSecuringTimeout_keeps (p : Nat) (s : State) : KeepsFrom s (execSecuringTimeout p s) := by simp [execSecuringTimeout]

@[simp] theorem execHello_keeps (p : Nat) (certOk credOk : Bool) (s : State) : KeepsFrom s (execHello p certOk credOk s) := by
  unfold execHello
  split
  · simp
  · split
    · simp
    · split
      · simp
      · next c u hu => simp [State.takeKey_kept hu]

@[simp] theorem execEncap_keeps (p : Nat) (s : State) : KeepsFrom s (execEncap p s) := by
  unfold execEncap
  split
  · simp
  · split
    · simp
    · split
      · simp
      · next c u hu => simp [State.takeKey_kept hu]

@[simp] theorem execFinish_keeps (p : Nat) (engineOk : Bool) (s : State) : KeepsFrom s (execFinish p engineOk s) := by
  unfold execFinish
  split
  · simp
  · split
    · simp
    · split
      · next c u k hu hk => simp [State.takeKey_kept hu]
      · simp

@[simp] theorem execLinkAbort_keeps (p : Nat) (s : State) : KeepsFrom s (execLinkAbort p s) := by
  unfold execLinkAbort
  split
  · simp
  · split
    · simp
    · next c u hu => simp [State.takeKey_kept hu]

@[simp] theorem execLinkAuthRetry_keeps (p : Nat) (s : State) : KeepsFrom s (execLinkAuthRetry p s) := by
  unfold execLinkAuthRetry
  dsimp only
  repeat' split
  all_goals simp

@[simp] theorem State.putFlit_kept (s : State) (p : Nat) (f : Flit) : (s.putFlit p f).kept = s.kept := by simp [State.putFlit]

@[simp] theorem State.putSeq_kept (s : State) (p : Nat) (f : Flit) : (s.putSeq p f).kept = s.kept := by simp [State.putSeq]

@[simp] theorem State.putRun_kept (s : State) (p : Nat) (f : Flit) : (s.putRun p f).kept = s.kept := by simp [State.putRun]

@[simp] theorem State.putData_kept (s : State) (p vc : Nat) : (s.putData p vc).kept = s.kept := by
  unfold State.putData
  repeat' split
  all_goals simp

@[simp] theorem State.putSeal_kept (s : State) (p : Nat) : (s.putSeal p).kept = s.kept := by simp [State.putSeal]

@[simp] theorem State.putReplay_kept (s : State) (p : Nat) (f : Flit) (r : List Flit) :
    (s.putReplay p f r).kept = s.kept := by simp [State.putReplay]

@[simp] theorem State.putIdle_kept (s : State) (p : Nat) : (s.putIdle p).kept = s.kept := by simp [State.putIdle]

theorem State.slotControl_kept {s t : State} {p : Nat} (h : s.slotControl p = some t) : t.kept = s.kept := by
  simp only [State.slotControl] at h
  split at h
  · cases h
    simp
  · split at h
    · cases h
      simp
    · split at h
      · cases h
        simp
      · contradiction

@[simp] theorem State.slotControl_getD_kept (s t : State) (p : Nat) (ht : t.kept = s.kept) :
    ((s.slotControl p).getD t).kept = s.kept := by
  cases h : s.slotControl p with
  | none => exact ht
  | some u => exact State.slotControl_kept h

@[simp] theorem State.slotSecuring_kept (s : State) (p : Nat) : (s.slotSecuring p).kept = s.kept := by
  unfold State.slotSecuring
  split <;> simp

@[simp] theorem State.slotBulk_kept (s : State) (p : Nat) : (s.slotBulk p).kept = s.kept := by
  unfold State.slotBulk
  dsimp only
  repeat' split
  all_goals simp

@[simp] theorem State.slotActive_kept (s : State) (p : Nat) : (s.slotActive p).kept = s.kept := by
  unfold State.slotActive
  dsimp only
  repeat' split
  all_goals simp

@[simp] theorem execFlitTransmit_keeps (p : Nat) (s : State) : KeepsFrom s (execFlitTransmit p s) := by simp [execFlitTransmit]

@[simp] theorem State.requestRetry_kept (s : State) (p : Nat) : (s.requestRetry p).kept = s.kept := by simp [State.requestRetry]

@[simp] theorem State.takeAck_kept (s : State) (p ack : Nat) : (s.takeAck p ack).kept = s.kept := by
  unfold State.takeAck
  dsimp only
  split <;> simp

@[simp] theorem State.takeHeader_kept (s : State) (p h : Nat) : (s.takeHeader p h).kept = s.kept := by simp [State.takeHeader]

@[simp] theorem State.takeQuick_kept (s : State) (p h : Nat) : (s.takeQuick p h).kept = s.kept := by simp [State.takeQuick]

@[simp] theorem State.acceptFlit_kept (s : State) (p : Nat) (f : Flit) : (s.acceptFlit p f).kept = s.kept := by simp [State.acceptFlit]

@[simp] theorem State.feedTx_kept (s : State) (p q vc : Nat) (data : List Byte) (eom : Bool) :
    (s.feedTx p q vc data eom).kept = s.kept := by simp [State.feedTx]

@[simp] theorem State.dropOpen_kept (s : State) (p vc : Nat) : (s.dropOpen p vc).kept = s.kept := by
  unfold State.dropOpen
  repeat' split
  all_goals simp

@[simp] theorem State.releaseData_kept (s : State) (p : Nat) (f : Flit) : (s.releaseData p f).kept = s.kept := by
  unfold State.releaseData
  dsimp only
  repeat' split
  all_goals simp

@[simp] theorem State.releaseFlit_kept (s : State) (p : Nat) (f : Flit) : (s.releaseFlit p f).kept = s.kept := by simp [State.releaseFlit]

@[simp] theorem State.takeSeal_kept (s : State) (p : Nat) (f : Flit) : (s.takeSeal p f).kept = s.kept := by simp [State.takeSeal]

@[simp] theorem State.takeRetryReq_kept (s : State) (p ref : Nat) : (s.takeRetryReq p ref).kept = s.kept := by simp [State.takeRetryReq]

@[simp] theorem State.receive_kept (s : State) (p : Nat) (f : RxFlit) : (s.receive p f).kept = s.kept := by simp [State.receive]

@[simp] theorem execDataFlitReceive_keeps (p : Nat) (f : RxFlit) (s : State) :
    KeepsFrom s (execDataFlitReceive p f s) := by simp [execDataFlitReceive]

@[simp] theorem execIdle_keeps (p : Nat) (f : RxFlit) (s : State) : KeepsFrom s (execIdle p f s) := by simp [execIdle]

@[simp] theorem execSeal_keeps (p : Nat) (f : RxFlit) (s : State) : KeepsFrom s (execSeal p f s) := by simp [execSeal]

@[simp] theorem execRetryReq_keeps (p : Nat) (f : RxFlit) (s : State) : KeepsFrom s (execRetryReq p f s) := by simp [execRetryReq]

@[simp] theorem execReplay_keeps (p : Nat) (f : RxFlit) (s : State) : KeepsFrom s (execReplay p f s) := by simp [execReplay]

@[simp] theorem execRetryReqRepeat_keeps (p : Nat) (s : State) : KeepsFrom s (execRetryReqRepeat p s) := by simp [execRetryReqRepeat]

@[simp] theorem execCreditStall_keeps (p vc k : Nat) (s : State) : KeepsFrom s (execCreditStall p vc k s) := by
  unfold execCreditStall
  repeat' split
  all_goals simp

@[simp] theorem execQuickRead_keeps (p : Nat) (f : RxFlit) (s : State) : KeepsFrom s (execQuickRead p f s) := by simp [execQuickRead]

/-! ### Commands of the Weight engine and its chains -/

@[simp] theorem execWload_keeps (g : Nat) (s : State) : KeepsFrom s (execWload g s) := by simp [execWload]

@[simp] theorem State.refuseLoad_kept (s : State) (l : WloadRec) (status : Nat) :
    (s.refuseLoad l status).kept = s.kept := by simp [State.refuseLoad]

theorem State.takeRooms_kept {s t : State} {g : Nat} {m : Manifest} {l : List Nat} {rooms : SMap (List (Nat × Nat))}
    (h : s.takeRooms g m l = some (rooms, t)) : t.kept = s.kept := by
  induction l generalizing s rooms with
  | nil =>
    cases h
    rfl
  | cons i r ih =>
    unfold State.takeRooms at h
    split at h
    · contradiction
    · next runs u hu =>
      obtain ⟨q, hq, ht⟩ := Option.map_eq_some_iff.mp h
      cases ht
      exact (ih hq).trans (State.allocCopy_kept hu)

@[simp] theorem execManifestVerified_keeps (id : Nat) (bytes : List Byte) (ok : Bool) (s : State) :
    KeepsFrom s (execManifestVerified id bytes ok s) := by
  unfold execManifestVerified
  split
  · extract_lets _ _ _ _ _ _ _ _ _ _ s₁ win
    have h₁ : s₁.kept = s.kept := s.settleHolds_kept
    split
    · simp
    · split
      · split <;> simp
      · split
        · simp
        · split
          · split
            · simp
            · split
              · simp
              · extract_lets need n wanted copy rooms
                split
                · simp [h₁]
                · next runs rooms u hu =>
                  have hu : u.kept = s.kept := by
                    obtain ⟨q, hq, hu⟩ := Option.bind_eq_some_iff.mp hu
                    obtain ⟨t, ht, hu⟩ := Option.map_eq_some_iff.mp hu
                    cases hu
                    rw [State.takeRooms_kept ht]
                    unfold copy at hq
                    split at hq
                    · cases hq
                      exact h₁
                    · exact (State.allocCopy_kept hq).trans h₁
                  split
                  · simp [h₁]
                  · extract_lets s₂ s₃ _ _ s₄ s₅ s₆ _ s₇
                    have h₂ : s₂.kept = s.kept := by cases h : win <;> simp [s₂, h, hu]
                    simp [s₇, s₆, s₅, s₄, s₃, h₂]
          · simp
  · simp

@[simp] theorem State.shardIn_kept (s : State) (l : WloadRec) (m : Manifest) (i : Nat) (bytes : List Byte) :
    (s.shardIn l m i bytes).kept = s.kept := by
  unfold State.shardIn
  extract_lets x setShard l' good sFault _ s₁ has s₂ s₃ s₄ s₅
  have hset (t : State) (f : ShardRec → ShardRec) : (setShard t f).kept = t.kept := by simp [setShard]
  have h₂ : s₂.kept = s.kept := by
    unfold s₂
    split <;> simp [s₁, hset]
  have h₃ : s₃.kept = s.kept := by
    unfold s₃
    split <;> simp [h₂]
  have h₄ : s₄.kept = s.kept := by
    unfold s₄
    split <;> simp [h₃]
  split
  · simp [hset, sFault]
  · simp [s₅, h₄]

@[simp] theorem execShardArrived_keeps (id i : Nat) (bytes : List Byte) (s : State) : KeepsFrom s (execShardArrived id i bytes s) := by
  unfold execShardArrived
  repeat' split
  all_goals simp

@[simp] theorem execShardTimeout_keeps (id i : Nat) (s : State) : KeepsFrom s (execShardTimeout id i s) := by
  unfold execShardTimeout
  repeat' split
  all_goals simp

@[simp] theorem execSwing_keeps (g : Nat) (s : State) : KeepsFrom s (execSwing g s) :=
  withCritical_keeps _ _ _ _ _ fun t id w => by
    extract_lets gen r x
    split
    · simp
    · split
      · extract_lets layout
        split
        · simp
        · split
          · split <;> simp
          · split
            · split <;> simp
            · simp
            · simp
      · simp

@[simp] theorem execRetire_keeps (g : Nat) (s : State) : KeepsFrom s (execRetire g s) :=
  withCommand_keeps _ _ _ _ _ fun t id w => by
    dsimp only
    split <;> simp

@[simp] theorem execJoin_keeps (m : Msg) (s : State) : KeepsFrom s (execJoin m s) := by
  unfold execJoin
  repeat' split
  all_goals simp

@[simp] theorem execShard_keeps (m : Msg) (s : State) : KeepsFrom s (execShard m s) := by
  unfold execShard
  repeat' split
  all_goals simp

@[simp] theorem execHold_keeps (m : Msg) (s : State) : KeepsFrom s (execHold m s) := by
  unfold execHold
  repeat' split
  all_goals simp

@[simp] theorem execChainHoldTimer_keeps (id : Nat) (s : State) : KeepsFrom s (execChainHoldTimer id s) := by
  unfold execChainHoldTimer
  split <;> simp

@[simp] theorem execChainAbort_keeps (m : Msg) (s : State) : KeepsFrom s (execChainAbort m s) := by
  unfold execChainAbort
  repeat' split
  all_goals simp

@[simp] theorem execManifest_keeps (m : Msg) (s : State) : KeepsFrom s (execManifest m s) := by
  unfold execManifest
  repeat' split
  all_goals simp

@[simp] theorem execManifestReadTimeout_keeps (id k : Nat) (s : State) : KeepsFrom s (execManifestReadTimeout id k s) := by
  unfold execManifestReadTimeout
  repeat' split
  all_goals simp

@[simp] theorem execShardAck_keeps (m : Msg) (s : State) : KeepsFrom s (execShardAck m s) := by
  unfold execShardAck
  repeat' split
  all_goals simp

@[simp] theorem execChainJoinTimeout_keeps (id : Nat) (s : State) : KeepsFrom s (execChainJoinTimeout id s) := by
  unfold execChainJoinTimeout
  split <;> simp

/-! ### Commands of discovery, the host bridge, multicast, barriers and region arrivals -/

@[simp] theorem State.takeRx_kept (s : State) (p : Nat) (m : Msg) : (s.takeRx p m).kept = s.kept := by
  unfold State.takeRx
  split <;> simp

@[simp] theorem execKnock_keeps (p : Nat) (m : Msg) (s : State) : KeepsFrom s (execKnock p m s) := by simp [execKnock]

@[simp] theorem execAnswer_keeps (p : Nat) (m : Msg) (s : State) : KeepsFrom s (execAnswer p m s) := by simp [execAnswer]

@[simp] theorem execKnockRetry_keeps (p : Nat) (s : State) : KeepsFrom s (execKnockRetry p s) := by simp [execKnockRetry]

@[simp] theorem execFabricAddrWrite_keeps (src val : Nat) (s : State) :
    KeepsFrom s (execFabricAddrWrite src val s) := by simp [execFabricAddrWrite]

@[simp] theorem State.takeRole_kept (s : State) : s.takeRole.kept = s.kept := by simp [State.takeRole]

@[simp] theorem execBridgeWrite_keeps (src val : Nat) (s : State) : KeepsFrom s (execBridgeWrite src val s) := by simp [execBridgeWrite]

@[simp] theorem execBridgeBeatTimer_keeps (s : State) : KeepsFrom s (execBridgeBeatTimer s) := by simp [execBridgeBeatTimer]

@[simp] theorem execBridgeBeat_keeps (m : Msg) (s : State) : KeepsFrom s (execBridgeBeat m s) := by simp [execBridgeBeat]

@[simp] theorem execBridgeTakeover_keeps (s : State) : KeepsFrom s (execBridgeTakeover s) := by simp [execBridgeTakeover]

@[simp] theorem execBridgeAnnounce_keeps (m : Msg) (s : State) : KeepsFrom s (execBridgeAnnounce m s) := by simp [execBridgeAnnounce]

@[simp] theorem execMulticastReceive_keeps (inp : Option Nat) (m : Msg) (s : State) : KeepsFrom s (execMulticastReceive inp m s) := by
  cases inp <;> simp [execMulticastReceive]

@[simp] theorem execMcAck_keeps (p : Nat) (m : Msg) (s : State) : KeepsFrom s (execMcAck p m s) := by simp [execMcAck]

@[simp] theorem execArrive_keeps (p : Nat) (m : Msg) (s : State) : KeepsFrom s (execArrive p m s) := by simp [execArrive]

@[simp] theorem execReleaseBarrier_keeps (p : Nat) (m : Msg) (s : State) :
    KeepsFrom s (execReleaseBarrier p m s) := by simp [execReleaseBarrier]

@[simp] theorem execBarArrive_keeps (src val : Nat) (s : State) : KeepsFrom s (execBarArrive src val s) := by
  unfold execBarArrive
  dsimp only
  split <;> simp

@[simp] theorem execBarrierTimeout_keeps (t : Nat) (s : State) : KeepsFrom s (execBarrierTimeout t s) := by
  unfold execBarrierTimeout
  dsimp only
  repeat' split
  all_goals simp

@[simp] theorem State.offer_kept (s : State) (r : Nat) (d : Delivery) : (s.offer r d).kept = s.kept := by simp [State.offer]

@[simp] theorem State.reduce_kept (s : State) (r : Nat) (d : Delivery) (k total : Nat) (vals : List FpVal) :
    (s.reduce r d k total vals).kept = s.kept := by simp [State.reduce]

@[simp] theorem execRegionArrival_keeps (q : Arrival) (s : State) : KeepsFrom s (execRegionArrival q s) := by
  unfold execRegionArrival
  dsimp only
  repeat' split
  all_goals simp

@[simp] theorem execErrorCompletion_keeps (m : Msg) (load : Option Nat) (s : State) : KeepsFrom s (execErrorCompletion m load s) := by
  unfold execErrorCompletion
  dsimp only
  repeat' split
  all_goals simp

/-! ### The fault table, its forwarding, the bridge's sink, and alerts -/

@[simp] theorem State.setFt_kept (s : State) (i : Nat) (e : FtEntry) : (s.setFt i e).kept = s.kept := by simp [State.setFt]

@[simp] theorem State.enterFault_kept (s : State) (f : FaultRec) : (s.enterFault f).kept = s.kept := by
  unfold State.enterFault
  repeat' split
  all_goals simp

@[simp] theorem execFaultReport_keeps (k : Nat) (s : State) : KeepsFrom s (execFaultReport k s) := by
  unfold execFaultReport
  split <;> simp

@[simp] theorem execFaultEntrySettle_keeps (i : Nat) (s : State) : KeepsFrom s (execFaultEntrySettle i s) := by
  unfold execFaultEntrySettle
  split <;> simp

@[simp] theorem State.sinkPush_kept (s : State) (src rec_ : Nat) : (s.sinkPush src rec_).kept = s.kept := by
  unfold State.sinkPush
  dsimp only
  split <;> simp

@[simp] theorem execFaultForward_keeps (s : State) : KeepsFrom s (execFaultForward s) := by simp [execFaultForward]

@[simp] theorem execFaultMessageRetry_keeps (k : Nat) (s : State) : KeepsFrom s (execFaultMessageRetry k s) := by
  unfold execFaultMessageRetry
  split <;> simp

@[simp] theorem execFaultAck_keeps (m : Msg) (s : State) : KeepsFrom s (execFaultAck m s) := by
  unfold execFaultAck
  split
  · simp
  · split
    · simp
    · rw [keepsFrom_next, foldl_kept, State.modFabric_kept]
      intro a i
      split <;> simp

@[simp] theorem execFaultMessage_keeps (m : Msg) (s : State) : KeepsFrom s (execFaultMessage m s) := by simp [execFaultMessage]

@[simp] theorem execFaultSinkWrite_keeps (s : State) : KeepsFrom s (execFaultSinkWrite s) := by
  unfold execFaultSinkWrite
  dsimp only
  split <;> simp

@[simp] theorem execAlertCauseClear_keeps (src val : Nat) (s : State) :
    KeepsFrom s (execAlertCauseClear src val s) := by simp [execAlertCauseClear]

@[simp] theorem execIbiAck_keeps (s : State) : KeepsFrom s (execIbiAck s) := by
  unfold execIbiAck
  split <;> simp

@[simp] theorem execShelfStatusRetry_keeps (s : State) : KeepsFrom s (execShelfStatusRetry s) := by
  unfold execShelfStatusRetry
  split <;> simp

@[simp] theorem execFtMetaRead_keeps (src rtag : Nat) (s : State) : KeepsFrom s (execFtMetaRead src rtag s) := by
  unfold execFtMetaRead
  dsimp only
  split <;> simp

/-! ### Mask sources and sampling entries -/

@[simp] theorem State.setSource_kept (s : State) (n : Nat) (x : MaskSource) : (s.setSource n x).kept = s.kept := by simp [State.setSource]

@[simp] theorem State.setAut_kept (s : State) (g code err : Nat) : (s.setAut g code err).kept = s.kept := by simp [State.setAut]

@[simp] theorem State.autAccess_kept (s : State) (src g val : Nat) (f : State → Nat → State) (h : ∀ t n, (f t n).kept = t.kept) :
    (s.autAccess src g val f).kept = s.kept := by
  simp only [State.autAccess]
  split <;> simp [h]

@[simp] theorem State.dropSourceCopies_kept (s : State) (n : Nat) : (s.dropSourceCopies n).kept = s.kept := by simp [State.dropSourceCopies]

@[simp] theorem execMaskSourceLoad_keeps (src g val : Nat) (s : State) :
    KeepsFrom s (execMaskSourceLoad src g val s) := by simp [execMaskSourceLoad]

theorem State.twoCopies_kept {s t : State} {g n a b : Nat} (h : s.twoCopies g n = some (a, b, t)) : t.kept = s.kept := by
  unfold State.twoCopies at h
  split at h
  · contradiction
  · next c u hu =>
    obtain ⟨q, hq, ht⟩ := Option.map_eq_some_iff.mp h
    cases ht
    exact (State.allocOther_kept hq).trans (State.allocUnits_kept hu)

@[simp] theorem execMaskSourceLoadComplete_keeps (n : Nat) (got : Option (List Byte)) (s : State) :
    KeepsFrom s (execMaskSourceLoadComplete n got s) := by
  simp only [execMaskSourceLoadComplete]
  split
  · simp
  · split
    · simp
    · split
      · simp
      · split
        · simp
        · split
          · simp
          · split
            · simp
            · next a c t ht => simp [State.twoCopies_kept ht]

@[simp] theorem State.freeSource_kept (s : State) (n : Nat) : (s.freeSource n).kept = s.kept := by simp [State.freeSource]

@[simp] theorem execMaskSourceFree_keeps (src g val : Nat) (s : State) :
    KeepsFrom s (execMaskSourceFree src g val s) := by simp [execMaskSourceFree]

@[simp] theorem execSamplingEntryCommit_keeps (src g i : Nat) (w : BitVec 64) (s : State) :
    KeepsFrom s (execSamplingEntryCommit src g i w s) := by
  unfold execSamplingEntryCommit
  dsimp only
  repeat' split
  all_goals simp

/-! ### HBM controllers -/

@[simp] theorem State.hbmTraffic_kept (s : State) (n dir master bytes unit : Nat) :
    (s.hbmTraffic n dir master bytes unit).kept = s.kept := by simp [State.hbmTraffic]

@[simp] theorem State.modChan_kept (s : State) (n c : Nat) (f : HbmTarget → HbmTarget) :
    (s.modChan n c f).kept = s.kept := by simp [State.modChan]

@[simp] theorem State.modBank_kept (s : State) (n c b : Nat) (f : HbmTarget → HbmTarget) :
    (s.modBank n c b f).kept = s.kept := by simp [State.modBank]

@[simp] theorem State.countCe_kept (s : State) (u : Nat) : (s.countCe u).kept = s.kept := by simp [State.countCe]

@[simp] theorem State.holdRead_kept (s : State) (a : Nat) (use : HbmUse) : (s.holdRead a use).kept = s.kept := by simp [State.holdRead]

@[simp] theorem State.hbmError_kept (s : State) (src a code : Nat) (rtag : Option Nat) :
    (s.hbmError src a code rtag).kept = s.kept := by simp [State.hbmError]

@[simp] theorem State.lateAccess_kept (s : State) (src a : Nat) (rtag : Option Nat) :
    (s.lateAccess src a rtag).kept = s.kept := by simp [State.lateAccess]

@[simp] theorem State.retire_kept (s : State) (a : Nat) : (s.retire a).kept = s.kept := by simp [State.retire]

@[simp] theorem State.nullSlots_kept (s : State) (d : Nat) : (s.nullSlots d).kept = s.kept := by simp [State.nullSlots]

@[simp] theorem State.endPromos_kept (s : State) (d : Nat) : (s.endPromos d).kept = s.kept := by simp [State.endPromos]

@[simp] theorem State.losePage_kept (s : State) (d : Nat) : (s.losePage d).kept = s.kept := by simp [State.losePage]

@[simp] theorem State.loseLog_kept (s : State) (r n u : Nat) (both : Bool) : (s.loseLog r n u both).kept = s.kept := by
  unfold State.loseLog
  generalize 49152 = fuel
  extract_lets g rec_ s₁
  have hrec (code : Nat) (t : State) : (rec_ code t).kept = t.kept := by simp [rec_]
  split
  · simp [hrec]
  · split
    · simp [s₁, hrec]
    · extract_lets b good bad
      split
      · next v hv => simp [State.takeOther_kept hv, s₁, hrec]
      · next c v hv => simp [State.takeOther_kept hv, s₁, hrec]

@[simp] theorem State.loseMask_kept (s : State) (n u : Nat) (both : Bool) : (s.loseMask n u both).kept = s.kept := by
  unfold State.loseMask
  extract_lets x mend
  have hmend {lost good : List (Nat × Nat)} {put : List (Nat × Nat) → MaskSource} {t : State} (h : mend lost good put = some t) :
      t.kept = s.kept := by
    obtain ⟨k, -, h⟩ := Option.bind_eq_some_iff.mp h
    obtain ⟨q, hq, h⟩ := Option.map_eq_some_iff.mp h
    cases h
    simp [State.allocOther_kept hq]
  clear_value mend
  split
  · rfl
  · split
    · simp
    · split
      · next ht => exact hmend ht
      · next ht => exact hmend ht
      · rfl

@[simp] theorem State.loseGen_kept (s : State) (guest num a : Nat) : (s.loseGen guest num a).kept = s.kept := by
  unfold State.loseGen
  repeat' split
  all_goals simp

@[simp] theorem State.loseRead_kept (s : State) (h : HeldRead) : (s.loseRead h).kept = s.kept := by
  unfold State.loseRead
  repeat' split
  all_goals simp

@[simp] theorem State.hbmPark_kept (s : State) (w : HbmWait) : (s.hbmPark w).kept = s.kept := by simp [State.hbmPark]

@[simp] theorem State.hbmReads_kept (s : State) (a src master outcome : Nat) (use : HbmUse) (rtag : Nat) :
    (s.hbmReads a src master outcome use rtag).kept = s.kept := by
  unfold State.hbmReads
  repeat' split
  all_goals simp

@[simp] theorem State.hbmWrites_kept (s : State) (a src master : Nat) (data : List Byte) :
    (s.hbmWrites a src master data).kept = s.kept := by
  unfold State.hbmWrites
  split <;> simp

@[simp] theorem State.hbmAgain_kept (s : State) (n : Nat) : (s.hbmAgain n).kept = s.kept := by
  rw [State.hbmAgain, foldl_kept, State.modHctl_kept]
  intro a w
  split <;> simp

@[simp] theorem execHbmRead_keeps (a src master outcome : Nat) (use : BurstUse) (s : State) :
    KeepsFrom s (execHbmRead a src master outcome use s) := by simp [execHbmRead]

@[simp] theorem execHbmWrite_keeps (a src master : Nat) (data : List Byte) (s : State) :
    KeepsFrom s (execHbmWrite a src master data s) := by simp [execHbmWrite]

@[simp] theorem execUeRetry_keeps (n k outcome : Nat) (s : State) : KeepsFrom s (execUeRetry n k outcome s) := by
  unfold execUeRetry
  repeat' split
  all_goals simp

@[simp] theorem execHbmUnitZero_keeps (u : Nat) (s : State) : KeepsFrom s (execHbmUnitZero u s) := by
  unfold execHbmUnitZero
  repeat' split
  all_goals simp

@[simp] theorem execPatrolScrub_keeps (n corrected : Nat) (bad : Option Nat) (s : State) :
    KeepsFrom s (execPatrolScrub n corrected bad s) := by
  unfold execPatrolScrub
  repeat' split
  all_goals simp

@[simp] theorem State.modTarget_kept (s : State) (n c : Nat) (b : Option Nat) (f : HbmTarget → HbmTarget) :
    (s.modTarget n c b f).kept = s.kept := by
  unfold State.modTarget
  split <;> simp

@[simp] theorem State.pwrResult_kept (s : State) (n v : Nat) : (s.pwrResult n v).kept = s.kept := by simp [State.pwrResult]

@[simp] theorem execClose_keeps (src n val : Nat) (s : State) : KeepsFrom s (execClose src n val s) := by simp [execClose]

@[simp] theorem execHbmOpen_keeps (src n val : Nat) (s : State) : KeepsFrom s (execHbmOpen src n val s) := by simp [execHbmOpen]

@[simp] theorem execClosingComplete_keeps (n c : Nat) (bank : Option Nat) (s : State) :
    KeepsFrom s (execClosingComplete n c bank s) := by simp [execClosingComplete]

@[simp] theorem execOpeningComplete_keeps (n c : Nat) (bank : Option Nat) (s : State) :
    KeepsFrom s (execOpeningComplete n c bank s) := by simp [execOpeningComplete]

/-! ### Commands of admission, of the power states of regions, and of authenticated limit changes -/

@[simp] theorem State.admitPower_kept (s : State) (r : Nat) : (s.admitPower r).kept = s.kept := by simp [State.admitPower]

@[simp] theorem State.testPower_kept (s : State) (r : Nat) : (s.testPower r).kept = s.kept := by simp [State.testPower]

@[simp] theorem execAdmissionTest_keeps (r : Nat) (s : State) : KeepsFrom s (execAdmissionTest r s) := by
  unfold execAdmissionTest
  repeat' split
  all_goals simp

@[simp] theorem State.sendDeferrals_kept (s : State) (r : Nat) : (s.sendDeferrals r).kept = s.kept := by simp [State.sendDeferrals]

@[simp] theorem execAdmissionRetest_keeps (r : Nat) (s : State) : KeepsFrom s (execAdmissionRetest r s) := by
  unfold execAdmissionRetest
  repeat' split
  all_goals simp

@[simp] theorem execRampStep_keeps (r : Nat) (s : State) : KeepsFrom s (execRampStep r s) := by
  unfold execRampStep
  dsimp only
  repeat' split
  all_goals simp

@[simp] theorem execSealedWakeRewrite_keeps (r : Nat) (s : State) : KeepsFrom s (execSealedWakeRewrite r s) := by
  unfold execSealedWakeRewrite
  dsimp only
  repeat' split
  all_goals simp

@[simp] theorem execWakeComplete_keeps (r : Nat) (s : State) : KeepsFrom s (execWakeComplete r s) := by
  unfold execWakeComplete
  dsimp only
  repeat' split
  all_goals simp

@[simp] theorem execPlannedWake_keeps (r : Nat) (s : State) : KeepsFrom s (execPlannedWake r s) := by
  unfold execPlannedWake
  repeat' split
  all_goals simp

@[simp] theorem State.board_kept (s : State) (r : Nat) : (s.board r).kept = s.kept := by simp [State.board]

@[simp] theorem execPowerStateLower_keeps (r : Nat) (s : State) : KeepsFrom s (execPowerStateLower r s) := by simp [execPowerStateLower]

@[simp] theorem execIdleEscalation_keeps (r : Nat) (s : State) : KeepsFrom s (execIdleEscalation r s) := by simp [execIdleEscalation]

@[simp] theorem State.lowerPane_kept (s : State) (p st mv : Nat) : (s.lowerPane p st mv).kept = s.kept := by simp [State.lowerPane]

@[simp] theorem execPowerStateEntryComplete_keeps (r : Nat) (s : State) :
    KeepsFrom s (execPowerStateEntryComplete r s) := by simp [execPowerStateEntryComplete]

@[simp] theorem State.writeForce_kept (s : State) (src r force : Nat) (f : State → State) (h : ∀ t, (f t).kept = t.kept) :
    (s.writeForce src r force f).kept = s.kept := by
  simp only [State.writeForce]
  split <;> simp [h]

@[simp] theorem execForceBoarded_keeps (src r : Nat) (s : State) : KeepsFrom s (execForceBoarded src r s) := by simp [execForceBoarded]

@[simp] theorem execForceAuto_keeps (src r : Nat) (s : State) : KeepsFrom s (execForceAuto src r s) := by simp [execForceAuto]

@[simp] theorem execForceOpen_keeps (src r : Nat) (s : State) : KeepsFrom s (execForceOpen src r s) := by simp [execForceOpen]

@[simp] theorem execAuthGo_keeps (src val : Nat) (s : State) : KeepsFrom s (execAuthGo src val s) := by simp [execAuthGo]

/-! ### Management writes over the whole map of Table 21-1 -/

theorem landed_kept {s : State} {o : Out} (h : KeepsFrom s o) : (landed s o).kept = s.kept := by
  obtain ⟨t, rfl, ht⟩ := h
  exact ht

@[simp] theorem ownerSets_keeps (s : State) (q : Nat) (t : State) (h : t.kept = s.kept) : WriteKeeps s (ownerSets q t) := by
  simp [ownerSets, h]

@[simp] theorem State.readOnly_keeps (s : State) (src q a : Nat) : WriteKeeps s (s.readOnly src q a) := by
  unfold State.readOnly
  split <;> simp

@[simp] theorem State.setAlertEn_kept (s : State) (v : Nat) : (s.setAlertEn v).kept = s.kept := by simp [State.setAlertEn]

@[simp] theorem State.setSel_kept (s : State) (q k v : Nat) : (s.setSel q k v).kept = s.kept := by simp [State.setSel]

@[simp] theorem State.writeMc_keeps (s : State) (m w v : Nat) : WriteKeeps s (s.writeMc m w v) := by simp [State.writeMc]

@[simp] theorem State.writeBar_keeps (s : State) (t w v : Nat) : WriteKeeps s (s.writeBar t w v) := by simp [State.writeBar]

@[simp] theorem State.setBridgeFa_kept (s : State) (v : Nat) : (s.setBridgeFa v).kept = s.kept := by simp [State.setBridgeFa]

@[simp] theorem State.writeBlock_keeps (s : State) (src q a v : Nat) : WriteKeeps s (s.writeBlock src q a v) := by simp [State.writeBlock]

@[simp] theorem State.writeLintel_keeps (s : State) (src q a v : Nat) : WriteKeeps s (s.writeLintel src q a v) := by
  cases h : routeWord v <;> simp [State.writeLintel, h]

@[simp] theorem State.writePower_keeps (s : State) (src q a v : Nat) : WriteKeeps s (s.writePower src q a v) := by simp [State.writePower]

@[simp] theorem State.mailGo_kept (s : State) (g : Nat) : (s.mailGo g).kept = s.kept := by simp [State.mailGo]

@[simp] theorem State.writeMail_keeps (s : State) (src q a v : Nat) : WriteKeeps s (s.writeMail src q a v) := by simp [State.writeMail]

@[simp] theorem State.writePort_keeps (s : State) (src q a v : Nat) : WriteKeeps s (s.writePort src q a v) := by
  unfold State.writePort
  repeat' split
  all_goals simp

@[simp] theorem State.writeHbm_keeps (s : State) (src q a v : Nat) : WriteKeeps s (s.writeHbm src q a v) := by simp [State.writeHbm]

@[simp] theorem State.writeCampion_keeps (s : State) (src q a v : Nat) :
    WriteKeeps s (s.writeCampion src q a v) := by simp [State.writeCampion]

@[simp] theorem State.plainWrite_keeps (s : State) (src q a v : Nat) : WriteKeeps s (s.plainWrite src q a v) := by simp [State.plainWrite]

/-! ### Routing of messages, directed messages, messages that end at this module, the counters' controls and the sills' quick words -/

@[simp] theorem execPmcFreeze_keeps (src c : Nat) (freeze : Bool) (s : State) :
    KeepsFrom s (execPmcFreeze src c freeze s) := by simp [execPmcFreeze]

@[simp] theorem execPmcClear_keeps (src c : Nat) (freeze : Bool) (s : State) :
    KeepsFrom s (execPmcClear src c freeze s) := by simp [execPmcClear]

@[simp] theorem execQuickWordRefresh_keeps (n : Nat) (s : State) : KeepsFrom s (execQuickWordRefresh n s) := by simp [execQuickWordRefresh]

@[simp] theorem State.answerRead_kept (s : State) (src a rtag len : Nat) : (s.answerRead src a rtag len).kept = s.kept := by
  have entry : (landed s (execFtMetaRead src rtag s)).kept = s.kept := landed_kept (execFtMetaRead_keeps src rtag s)
  unfold State.answerRead
  split
  · rfl
  · split
    · simp
    · split
      · simp
      · split
        · exact entry
        · split
          · simp
          · dsimp only
            split <;> simp

@[simp] theorem State.deliverHere_kept (s : State) (m : Msg) : (s.deliverHere m).kept = s.kept := by
  unfold State.deliverHere
  repeat' split
  all_goals simp

@[simp] theorem State.discardRx_kept (s : State) (p i : Nat) (y : RxMsg) (k : Nat) :
    (s.discardRx p i y k).kept = s.kept := by simp [State.discardRx]

@[simp] theorem State.forwardRx_kept (s : State) (p i : Nat) (y : RxMsg) (q : Nat) :
    (s.forwardRx p i y q).kept = s.kept := by simp [State.forwardRx]

/-! ### Commands of the module's connectors -/

@[simp] theorem execBusbarImbalance_keeps (s : State) : KeepsFrom s (execBusbarImbalance s) := by
  unfold execBusbarImbalance
  dsimp only
  split <;> simp

@[simp] theorem execCablePresence_keeps (p : Nat) (present : Bool) (s : State) :
    KeepsFrom s (execCablePresence p present s) := by simp [execCablePresence]

@[simp] theorem execCablePower_keeps (c : Nat) (s : State) : KeepsFrom s (execCablePower c s) := by simp [execCablePower]

@[simp] theorem State.i3cAnswer_kept (s : State) (data : List Nat) : (s.i3cAnswer data).kept = s.kept := by simp [State.i3cAnswer]

@[simp] theorem execEntdaa_keeps (addr : Nat) (s : State) : KeepsFrom s (execEntdaa addr s) := by simp [execEntdaa]

@[simp] theorem execSetdasa_keeps (static addr : Nat) (s : State) : KeepsFrom s (execSetdasa static addr s) := by simp [execSetdasa]

@[simp] theorem execRstdaa_keeps (s : State) : KeepsFrom s (execRstdaa s) := by simp [execRstdaa]

@[simp] theorem execEnec_keeps (addr : Option Nat) (events : Nat) (s : State) : KeepsFrom s (execEnec addr events s) := by simp [execEnec]

@[simp] theorem execDisec_keeps (addr : Option Nat) (events : Nat) (s : State) :
    KeepsFrom s (execDisec addr events s) := by simp [execDisec]

@[simp] theorem execGetpid_keeps (addr : Nat) (s : State) : KeepsFrom s (execGetpid addr s) := by simp [execGetpid]

@[simp] theorem execGetbcr_keeps (addr : Nat) (s : State) : KeepsFrom s (execGetbcr addr s) := by simp [execGetbcr]

@[simp] theorem execGetdcr_keeps (addr : Nat) (s : State) : KeepsFrom s (execGetdcr addr s) := by simp [execGetdcr]

@[simp] theorem execGetstatus_keeps (addr : Nat) (s : State) : KeepsFrom s (execGetstatus addr s) := by simp [execGetstatus]

@[simp] theorem execTrstN_keeps (low : Bool) (s : State) : KeepsFrom s (execTrstN low s) := by simp [execTrstN]

@[simp] theorem State.tapLoad_kept (s : State) (op pins : Nat) (ok : Bool) : (s.tapLoad op pins ok).kept = s.kept := by simp [State.tapLoad]

@[simp] theorem State.scan_kept (s : State) (sample shift : Nat) : (s.scan sample shift).kept = s.kept := by
  rw [State.scan, State.modIface_kept]

@[simp] theorem State.pinTest_kept (s : State) (op pins sample shift : Nat) :
    (s.pinTest op pins sample shift).kept = s.kept := by simp [State.pinTest]

@[simp] theorem execBypass_keeps (s : State) : KeepsFrom s (execBypass s) := by simp [execBypass]

@[simp] theorem execIdcode_keeps (s : State) : KeepsFrom s (execIdcode s) := by simp [execIdcode]

@[simp] theorem execSamplePreload_keeps (sample shift : Nat) (s : State) :
    KeepsFrom s (execSamplePreload sample shift s) := by simp [execSamplePreload]

@[simp] theorem execExtest_keeps (sample shift : Nat) (s : State) : KeepsFrom s (execExtest sample shift s) := by simp [execExtest]

@[simp] theorem execExtestPulse_keeps (sample shift : Nat) (s : State) :
    KeepsFrom s (execExtestPulse sample shift s) := by simp [execExtestPulse]

@[simp] theorem execExtestTrain_keeps (sample shift : Nat) (s : State) :
    KeepsFrom s (execExtestTrain sample shift s) := by simp [execExtestTrain]

@[simp] theorem execClamp_keeps (s : State) : KeepsFrom s (execClamp s) := by simp [execClamp]

@[simp] theorem execHighz_keeps (s : State) : KeepsFrom s (execHighz s) := by simp [execHighz]

@[simp] theorem State.tapMemRead_kept (s : State) (c : Nat) : (s.tapMemRead c).1.kept = s.kept := by
  simp [State.tapMemRead, apply_ite Prod.fst]

@[simp] theorem execDbgLintelHalt_keeps (s : State) : KeepsFrom s (execDbgLintelHalt s) := by simp [execDbgLintelHalt]

@[simp] theorem execDbgTrace_keeps (s : State) : KeepsFrom s (execDbgTrace s) := by simp [execDbgTrace]

/-! ### Memory, register-move and mesh operations, MOV slot -/

@[simp] theorem execLda_keeps (c addr : Nat) (toX : Bool) (r h : Nat) (s : State) :
    KeepsFrom s (execLda c addr toX r h s) := by simp [execLda]

@[simp] theorem execSta_keeps (c v h addr : Nat) (s : State) : KeepsFrom s (execSta c v h addr s) := by simp [execSta]

@[simp] theorem execStg_keeps (c v h idx : Nat) (s : State) : KeepsFrom s (execStg c v h idx s) := by simp [execStg]

@[simp] theorem execLdp_keeps (c vd addr : Nat) (s : State) : KeepsFrom s (execLdp c vd addr s) := by simp [execLdp]

@[simp] theorem execStp_keeps (c v addr : Nat) (s : State) : KeepsFrom s (execStp c v addr s) := by simp [execStp]

@[simp] theorem execLdw_keeps (c vd addr : Nat) (s : State) : KeepsFrom s (execLdw c vd addr s) := by simp [execLdw]

@[simp] theorem execSend_keeps (c route v h : Nat) (s : State) : KeepsFrom s (execSend c route v h s) := by simp [execSend]

@[simp] theorem execRecv_keeps (c vd h src : Nat) (s : State) : KeepsFrom s (execRecv c vd h src s) := by simp [execRecv]

@[simp] theorem execMovs_keeps (c r v lane : Nat) (toScalar : Bool) (s : State) :
    KeepsFrom s (execMovs c r v lane toScalar s) := by simp [execMovs]

/-! ### Special-function and rotor operations, SFR slot -/

@[simp] theorem sfuOp_keeps (f : SfuFn) (c vd va : Nat) (s : State) : KeepsFrom s (sfuOp f c vd va s) := by simp [sfuOp]

@[simp] theorem execExp_keeps (c vd va : Nat) (s : State) : KeepsFrom s (execExp c vd va s) := by simp [execExp]

@[simp] theorem execLog_keeps (c vd va : Nat) (s : State) : KeepsFrom s (execLog c vd va s) := by simp [execLog]

@[simp] theorem execRcp_keeps (c vd va : Nat) (s : State) : KeepsFrom s (execRcp c vd va s) := by simp [execRcp]

@[simp] theorem execRsqrt_keeps (c vd va : Nat) (s : State) : KeepsFrom s (execRsqrt c vd va s) := by simp [execRsqrt]

@[simp] theorem execSqrt_keeps (c vd va : Nat) (s : State) : KeepsFrom s (execSqrt c vd va s) := by simp [execSqrt]

@[simp] theorem execSigm_keeps (c vd va : Nat) (s : State) : KeepsFrom s (execSigm c vd va s) := by simp [execSigm]

@[simp] theorem execTanh_keeps (c vd va : Nat) (s : State) : KeepsFrom s (execTanh c vd va s) := by simp [execTanh]

@[simp] theorem execSilu_keeps (c vd va : Nat) (s : State) : KeepsFrom s (execSilu c vd va s) := by simp [execSilu]

@[simp] theorem execGelu_keeps (c vd va : Nat) (s : State) : KeepsFrom s (execGelu c vd va s) := by simp [execGelu]

@[simp] theorem execRot_keeps (c vd va rs base : Nat) (split : Bool) (s : State) :
    KeepsFrom s (execRot c vd va rs base split s) := by simp [execRot]

/-! ### Commands of thermal management and of the shelf grant -/

@[simp] theorem State.sampleRate_kept (s : State) (x : Nat × Int × Int) : (s.sampleRate x).kept = s.kept := by simp [State.sampleRate]

@[simp] theorem State.orCritical_kept (s t : State) (cs : List Channel) (h : t.kept = s.kept) : (s.orCritical t cs).kept = s.kept := by
  unfold State.orCritical
  split
  · simp
  · exact h

@[simp] theorem execRateSample_keeps (sens : List (Nat × Int × Int)) (s : State) :
    KeepsFrom s (execRateSample sens s) := by simp [execRateSample]

@[simp] theorem execTrayReport_keeps (b : List Byte) (s : State) : KeepsFrom s (execTrayReport b s) := by
  unfold execTrayReport
  extract_lets w signed flow old recent top inlet outside s₁ due s₂
  have h₁ : s₁.kept = s.kept := by simp [s₁]
  have h₂ : s₂.kept = s.kept := by
    unfold s₂
    split <;> simp [h₁]
  split
  · simp
  · split
    · simp [h₂]
    · split <;> simp [h₂]

@[simp] theorem execReportLost_keeps (s : State) : KeepsFrom s (execReportLost s) := by
  unfold execReportLost
  split <;> simp

@[simp] theorem execCoolantStopTimeout_keeps (s : State) : KeepsFrom s (execCoolantStopTimeout s) := by
  unfold execCoolantStopTimeout
  split <;> simp

@[simp] theorem execProfile_keeps (g : Nat) (s : State) : KeepsFrom s (execProfile g s) := by simp [execProfile]

@[simp] theorem execPaneClockSwitch_keeps (p vmin : Nat) (s : State) : KeepsFrom s (execPaneClockSwitch p vmin s) := by
  unfold execPaneClockSwitch
  dsimp only
  repeat' split
  all_goals simp

@[simp] theorem State.endGrant_kept (s : State) : s.endGrant.kept = s.kept := by simp [State.endGrant]

@[simp] theorem State.grantWaiting_kept (s : State) : s.grantWaiting.kept = s.kept := by
  refine foldl_kept _ (fun a r => ?_) _ _
  dsimp only
  split
  · simp
  · split <;> simp

@[simp] theorem State.readGrant_kept (s : State) (a : Nat × Nat × Nat) : (s.readGrant a).kept = s.kept := by simp [State.readGrant]

@[simp] theorem execGrantRenewal_keeps (ans : Option (Nat × Nat × Nat)) (s : State) : KeepsFrom s (execGrantRenewal ans s) := by
  unfold execGrantRenewal
  split <;> simp

@[simp] theorem execSmbalert_keeps (ans : Option (Nat × Nat × Nat)) (s : State) : KeepsFrom s (execSmbalert ans s) := by
  unfold execSmbalert
  split <;> simp

@[simp] theorem execGrantLeaseExpiry_keeps (s : State) : KeepsFrom s (execGrantLeaseExpiry s) := by simp [execGrantLeaseExpiry]

@[simp] theorem execSprintMsExpiry_keeps (r : Nat) (s : State) : KeepsFrom s (execSprintMsExpiry r s) := by
  unfold execSprintMsExpiry
  dsimp only
  repeat' split
  all_goals simp

@[simp] theorem State.roundRead_kept (s : State) (rd : Readings) : (s.roundRead rd).kept = s.kept := by simp [State.roundRead]

@[simp] theorem State.roundJoints_kept (s : State) (rd : Readings) : (s.roundJoints rd).kept = s.kept := by simp [State.roundJoints]

@[simp] theorem Prof.tickDay_allow (p : Prof) : p.tickDay.allow = p.allow := by
  unfold Prof.tickDay
  split <;> rfl

@[simp] theorem Prof.charge_allow (p : Prof) : p.charge.allow = p.allow := Prof.commit_allow p

@[simp] theorem State.roundPower_kept (s : State) (p : Nat) : (s.roundPower p).kept = s.kept := by
  have allow (c : Prop) [Decidable c] (x : Prof) : (if c then x.charge else x).allow = x.allow := by split <;> simp
  simp [State.roundPower, allow]

@[simp] theorem State.roundEnforce_kept (s : State) (p : Nat) : (s.roundEnforce p).kept = s.kept := by simp [State.roundEnforce]

@[simp] theorem State.roundSprint_kept (s : State) : s.roundSprint.kept = s.kept := by simp [State.roundSprint]

@[simp] theorem State.roundHolds_kept (s : State) : s.roundHolds.kept = s.kept := by simp [State.roundHolds]

@[simp] theorem State.roundPairs_kept (s : State) (a b : Nat) : (s.roundPairs a b).kept = s.kept := by simp [State.roundPairs]

@[simp] theorem State.roundGauges_kept (s : State) (r : Nat) : (s.roundGauges r).kept = s.kept := by simp [State.roundGauges]

@[simp] theorem execLintelRound_keeps (rd : Readings) (s : State) : KeepsFrom s (execLintelRound rd s) := by
  unfold execLintelRound
  dsimp only
  repeat' split
  all_goals simp

/-! ## Commands that may begin a cold boot (R326, R352, R399-R405, R411) -/

/-- The kept part of the state is as it was, or a cold boot began: the queue stays, the boot count is higher, and the limit registers
hold their reset values. -/
def State.Follows (s t : State) : Prop :=
  t.kept = s.kept ∨ ∃ n, s.wafer.boots < n ∧ t.kept = (s.pending, State.reset.limits, n)

@[simp] theorem State.Follows.of_kept {s t : State} (h : t.kept = s.kept) : s.Follows t := .inl h

theorem State.follows_congr {s s' t t' : State} (hs : s'.kept = s.kept) (ht : t'.kept = t.kept) : s'.Follows t' ↔ s.Follows t := by
  have boots : s'.wafer.boots = s.wafer.boots := congrArg (·.2.2) hs
  have pending : s'.pending = s.pending := congrArg (·.1) hs
  rw [State.Follows, State.Follows, hs, ht, boots, pending]

theorem State.Follows.then_kept {s t u : State} (h : s.Follows t) (hu : u.kept = t.kept) : s.Follows u := (follows_congr rfl hu).mpr h

theorem State.Follows.after_kept {s t u : State} (h : t.Follows u) (ht : t.kept = s.kept) : s.Follows u := (follows_congr ht rfl).mp h

/-- The outcome is a next state that follows. -/
def FollowsFrom (s : State) (o : Out) : Prop := ∃ t, o = .next t ∧ s.Follows t

@[simp] theorem followsFrom_next (s t : State) : FollowsFrom s (.next t) ↔ s.Follows t := by simp [FollowsFrom]

theorem KeepsFrom.follows {s : State} {o : Out} (h : KeepsFrom s o) : FollowsFrom s o := by
  obtain ⟨t, rfl, ht⟩ := h
  exact (followsFrom_next s t).mpr (.of_kept ht)

theorem landed_follows {s : State} {o : Out} (h : FollowsFrom s o) : s.Follows (landed s o) := by
  obtain ⟨t, rfl, ht⟩ := h
  exact ht

/-! ### The cold boot -/

theorem State.coldBoot_kept (s : State) (cause : Nat) :
    (s.coldBoot cause).kept = (s.pending, State.reset.limits, s.wafer.boots + 1) := by
  unfold State.coldBoot
  dsimp only
  split
  · rfl
  · rw [State.romSelect_kept]
    rfl

theorem State.coldBoot_follows (s : State) (cause : Nat) : s.Follows (s.coldBoot cause) :=
  .inr ⟨_, Nat.lt_succ_self _, s.coldBoot_kept cause⟩

theorem State.moduleReset_follows (s : State) (cause : Nat) : s.Follows (s.moduleReset cause) := by
  have lowered : (((s.holdRunning).portsDown).lowerAll 4).kept = s.kept := by simp
  unfold State.moduleReset
  dsimp only
  split
  · exact .of_kept (by simp)
  · exact (State.coldBoot_follows _ cause).after_kept lowered

theorem State.darkSill_follows (s : State) (p : Nat) : s.Follows (s.darkSill p) := by
  unfold State.darkSill
  dsimp only
  split
  · exact .of_kept (by simp)
  · split
    · exact (State.moduleReset_follows _ 4).after_kept (by simp)
    · exact .of_kept (by simp)

theorem execPhaseFail_follows (p ph why : Nat) (s : State) : FollowsFrom s (execPhaseFail p ph why s) := by
  unfold execPhaseFail
  extract_lets q failed mask s₁ s₂ s₃ n s₄ s₅
  have h₃ : s₃.kept = s.kept := by simp [s₃, s₂, s₁]
  have h₅ : s₅.kept = s.kept := by simp [s₅, h₃]
  generalize (if p < 738 then 4 else 3) = phases
  split
  · simp
  · split
    · simp
    · split
      · split <;> simp [s₄, h₃]
      · split
        · refine (followsFrom_next _ _).mpr ?_
          split
          · exact .of_kept (by simp [h₅])
          · exact (s₅.darkSill_follows p).after_kept h₅
        · simp [h₃]

theorem execPowerOn_follows (vin : Nat) (s : State) : FollowsFrom s (execPowerOn vin s) := by
  unfold execPowerOn
  split
  · exact (followsFrom_next _ _).mpr ((s.coldBoot_follows 0).then_kept (by simp))
  · simp

theorem execResetN_follows (low : Bool) (s : State) : FollowsFrom s (execResetN low s) := by
  unfold execResetN
  split
  · split
    · simp
    · exact (followsFrom_next _ _).mpr (.of_kept (by simp))
  · split
    · simp
    · split
      · exact (followsFrom_next _ _).mpr (.of_kept (by simp))
      · exact (followsFrom_next _ _).mpr (s.coldBoot_follows 1)

theorem State.ownerWrites_follows (s : State) (src addr val : Nat) (f : State → State) (h : ∀ t : State, t.Follows (f t)) :
    s.Follows (s.ownerWrites src addr val f) := by
  unfold State.ownerWrites
  dsimp only
  split
  · exact (h _).after_kept (s.traced_kept addr true val)
  · exact .of_kept (by simp)

theorem execModuleReset_follows (src val : Nat) (s : State) : FollowsFrom s (execModuleReset src val s) := by
  refine (followsFrom_next _ _).mpr (s.ownerWrites_follows _ _ _ _ fun t => ?_)
  split
  · exact t.moduleReset_follows 2
  · exact .of_kept (by simp)

theorem execLintelWatchdog_follows (s : State) : FollowsFrom s (execLintelWatchdog s) := by
  unfold execLintelWatchdog
  dsimp only
  split
  · simp
  · exact (followsFrom_next _ _).mpr (s.moduleReset_follows 3)

theorem execFwAttempt_follows (s : State) : FollowsFrom s (execFwAttempt s) := by
  unfold execFwAttempt
  split
  · split
    · exact (followsFrom_next _ _).mpr (s.moduleReset_follows 5)
    · simp
  · simp

/-! ### Writes that may reset the module -/

/-- The state, where there is one, follows. -/
def FollowsIfSome (s : State) : Option State → Prop
  | some t => s.Follows t
  | none => True

@[simp] theorem followsIfSome_some (s t : State) : FollowsIfSome s (some t) ↔ s.Follows t := .rfl

@[simp] theorem followsIfSome_none (s : State) : FollowsIfSome s none := trivial

theorem State.ownWrite_follows (s : State) (src a v : Nat) : FollowsIfSome s (s.ownWrite src a v) := by
  have kept (o : Out) (ho : KeepsFrom s o) : (landed s o).kept = s.kept := landed_kept ho
  have intake (m : Msg) : (landed s (execCommandListIntake m (s.traced a true v))).kept = s.kept := by
    obtain ⟨t, ht, htk⟩ := execCommandListIntake_keeps m (s.traced a true v)
    rw [ht]
    exact htk.trans (s.traced_kept a true v)
  unfold State.ownWrite
  extract_lets p n o
  refine iteInduction (fun _ => ?_) (fun _ => ?_)
  · simp [kept]
  · refine iteInduction (fun _ => ?_) (fun _ => ?_)
    · exact landed_follows (execModuleReset_follows src v s)
    · repeat' refine iteInduction (fun _ => ?_) (fun _ => ?_)
      all_goals try split
      all_goals simp [kept, intake]

theorem State.writeReg_follows (s : State) (src a v : Nat) : s.Follows (s.writeReg src a v) := by
  unfold State.writeReg
  split
  · simp
  · split
    · simp
    · split
      · simp
      · split
        · simp
        · next q _ =>
          split
          · next t ht => simpa [ht] using s.ownWrite_follows src a v
          · have plain := (s.traced a true v).plainWrite_keeps src q a v
            split
            · next t ht => exact .of_kept (by simpa [ht] using plain)
            · simp

theorem execRegisterWrite_follows (src addr len val : Nat) (s : State) : FollowsFrom s (execRegisterWrite src addr len val s) := by
  unfold execRegisterWrite
  split
  · exact (followsFrom_next _ _).mpr (s.writeReg_follows _ _ _)
  · exact KeepsFrom.follows (by simp)

theorem State.applyWrite_follows (s : State) (m : Msg) : s.Follows (s.applyWrite m) := by
  unfold State.applyWrite
  split
  · exact .of_kept rfl
  · split
    · exact .of_kept (landed_kept (by simp))
    · exact landed_follows (execRegisterWrite_follows _ _ _ _ s)

theorem State.directedHere_follows (s : State) (p : Nat) (m : Msg) : s.Follows (s.directedHere p m) := by
  have served (m' : Msg) : s.Follows ((s.deliverHere m').applyWrite m') :=
    (State.applyWrite_follows _ m').after_kept (s.deliverHere_kept m')
  unfold State.directedHere
  dsimp only
  split
  · exact (served _).then_kept (State.modFabric_kept ..)
  · exact served _

theorem State.directed_follows (s : State) (p : Nat) (m : Msg) : s.Follows (s.directed p m) := by
  unfold State.directed
  dsimp only
  split
  · exact .of_kept (by simp)
  · split
    · exact s.directedHere_follows p m
    · exact .of_kept (by split <;> simp)

theorem execDirectedMessage_follows (p : Nat) (m : Msg) (s : State) : FollowsFrom s (execDirectedMessage p m s) := by
  unfold execDirectedMessage
  split
  · simp
  · split
    · simp
    · exact (followsFrom_next _ _).mpr ((State.directed_follows _ p m).after_kept (by simp))

theorem State.routeRx_follows (s : State) (p i : Nat) (y : RxMsg) : s.Follows (s.routeRx p i y) := by
  have entry (o : Out) (h : KeepsFrom s o) : (landed s o).kept = s.kept := landed_kept h
  unfold State.routeRx
  dsimp only
  split
  · simp
  · split
    · exact .of_kept (by split <;> simp)
    · split
      · split
        · exact (State.directed_follows _ p y.msg).after_kept (s.takeRx_kept p y.msg)
        · simp
      · refine .of_kept ?_
        split
        · simp
        · split
          · split <;> simp [entry]
          · split
            · split <;> simp [entry]
            · split
              · simp
              · split <;> simp

@[simp] theorem State.routeLocal_kept (s : State) (o : OutMsg) : (s.routeLocal o).kept = s.kept := by
  have entry (o : Out) (h : KeepsFrom s o) : (landed s o).kept = s.kept := landed_kept h
  unfold State.routeLocal
  dsimp only
  split
  · simp
  · split
    · simp
    · split
      · simp
      · split
        · simp [entry]
        · split
          · simp
          · split <;> simp

theorem execMessageRoute_follows (inp : Option Nat) (vc : Nat) (s : State) : FollowsFrom s (execMessageRoute inp vc s) := by
  unfold execMessageRoute
  split
  · simp
  · split
    · dsimp only
      split
      · simp
      · split
        · exact (followsFrom_next _ _).mpr (s.routeRx_follows _ _ _)
        · simp
    · exact KeepsFrom.follows (by (repeat' split) <;> simp)

theorem State.tapAccess_follows (s : State) (addr : Nat) (write : Bool) (data : Nat) : s.Follows (s.tapAccess addr write data).1 := by
  unfold State.tapAccess
  split
  · simp
  · dsimp only
    have acted : s.Follows (if write then s.writeReg s.ownerSource addr (data % 2 ^ 64) else s.answerRead s.ownerSource addr 0 8) := by
      split
      · exact s.writeReg_follows _ _ _
      · simp
    exact acted.then_kept (by simp)

theorem execDbgMgmt_follows (addr : Nat) (write : Bool) (data : Nat) (s : State) : FollowsFrom s (execDbgMgmt addr write data s) := by
  unfold execDbgMgmt
  split
  · simp
  · split
    · simp
    · split
      · simp
      · have accessed : s.Follows ((s.tapLoad 0x80 0 true).tapAccess (addr % 2 ^ 40) write data).1 :=
          (State.tapAccess_follows _ _ write data).after_kept (s.tapLoad_kept 0x80 0 true)
        dsimp only
        split
        · exact (followsFrom_next _ _).mpr (accessed.then_kept (by simp))
        · exact (followsFrom_next _ _).mpr (accessed.then_kept (by simp))

/-- Every command but the end of a check keeps the queue, the limit registers and the boot count, or begins a cold boot. -/
theorem exec_follows (c : Instr) (s : State) (hc : c ≠ .authGoResult) : FollowsFrom s (exec c s) := by
  cases c with
  | authGoResult => exact absurd rfl hc
  | phaseFail p ph why => exact execPhaseFail_follows p ph why s
  | powerOn vin => exact execPowerOn_follows vin s
  | resetN low => exact execResetN_follows low s
  | moduleReset src val => exact execModuleReset_follows src val s
  | lintelWatchdog => exact execLintelWatchdog_follows s
  | fwAttempt => exact execFwAttempt_follows s
  | registerWrite src addr len val => exact execRegisterWrite_follows src addr len val s
  | directedMessage p m => exact execDirectedMessage_follows p m s
  | messageRoute inp vc => exact execMessageRoute_follows inp vc s
  | dbgMgmt addr write data => exact execDbgMgmt_follows addr write data s
  | _ => exact KeepsFrom.follows (by simp)

theorem State.Follows.limits {s t : State} (h : s.Follows t) (hne : t.limits ≠ s.limits) :
    s.wafer.boots < t.wafer.boots ∧ t.limits = State.reset.limits := by
  obtain hkept | ⟨n, hn, hkept⟩ := h
  · exact absurd (congrArg (·.2.1) hkept) hne
  · have limits : t.limits = State.reset.limits := congrArg (·.2.1) hkept
    have boots : t.wafer.boots = n := congrArg (·.2.2) hkept
    exact ⟨boots ▸ hn, limits⟩

theorem limits_change_by_check_or_cold_boot {c : Instr} {s t : State} (h : exec c s = .next t) (hne : t.limits ≠ s.limits) :
    c = .authGoResult ∨ (s.wafer.boots < t.wafer.boots ∧ t.limits = State.reset.limits) := by
  by_cases hc : c = .authGoResult
  · exact .inl hc
  · have follows := exec_follows c s hc
    rw [h, followsFrom_next] at follows
    exact .inr (follows.limits hne)

/-! ## Sprint of a guest whose bit of SPRINT_ALLOW is 0 (R374, Table 17-2) -/

theorem apartFromQueues_regions : ApartFromQueues State.regions := ⟨fun _ _ _ _ => rfl, fun _ _ => rfl⟩

theorem apartFromQueues_prof : ApartFromQueues State.prof := ⟨fun _ _ _ _ => rfl, fun _ _ => rfl⟩

@[simp] theorem State.region_complete (s : State) (id : EntryId) (status result r : Nat) :
    (s.complete id status result).region r = s.region r :=
  congrArg (fun m => mget ({} : Region) m r) (apartFromQueues_regions.complete s id status result)

@[simp] theorem State.prof_complete (s : State) (id : EntryId) (status result : Nat) : (s.complete id status result).prof = s.prof :=
  apartFromQueues_prof.complete s id status result

@[simp] theorem State.region_begun (s : State) (g e : Nat) (l : ListRec) (i r : Nat) : (s.begun g e l i).region r = s.region r := rfl

@[simp] theorem State.prof_begun (s : State) (g e : Nat) (l : ListRec) (i : Nat) : (s.begun g e l i).prof = s.prof := rfl

theorem withCommand_of_startsWell {s : State} {g e op i : Nat} {l : ListRec} {x : Entry} (h : StartsWell s g e op l i x)
    (f : State → EntryId → Nat → State) : withCommand g e op s f = .next (f (s.begun g e l i) ⟨g, e, l.seq, i⟩ x.word) := by
  obtain ⟨⟨hg, he, hnext, hop, hturn, hready⟩, hoperands⟩ := h
  have hbound : ¬(64 ≤ g ∨ 4 ≤ e) := by omega
  simp [withCommand, withEntry, hbound, hnext, hop, hturn, hready, hoperands, State.begun]

theorem execProfile_of_startsWell {s : State} {g i : Nat} {l : ListRec} {x : Entry} (h : StartsWell s g 3 0x42 l i x)
    (hregion : s.regionOk g (bits x.word 223 218) [2, 3, 4] = true) :
    execProfile g s = .next (((s.begun g 3 l i).modRegProf (bits x.word 223 218) (fun p =>
      { p with queue := p.queue ++ [(⟨g, 3, l.seq, i⟩, bits x.word 103 102, bits x.word 101 86)] })).settleProfiles
        (bits x.word 223 218)) := by
  have hregion' : (s.begun g 3 l i).regionOk g (bits x.word 223 218) [2, 3, 4] = true := hregion
  rw [execProfile, withCommand_of_startsWell h]
  simp [hregion']

/-- A region at rest whose one waiting entry asks for Sprint for a guest that may not have it: the entry completes, and no more. -/
theorem State.settleProfiles_sprint_barred {s : State} {r limit : Nat} {id : EntryId}
    (hqueue : (s.region r).prof.queue = [(id, 3, limit)]) (hstage : (s.region r).prof.stage = 0) (hending : (s.region r).prof.ending = 0)
    (hentry : (s.region r).prof.entry = none) (hallow : bitAt s.prof.allow id.guest = false) :
    ∃ st, s.settleProfiles r = (s.modRegProf r (fun y => { y with queue := [] })).complete id st 0 := by
  by_cases hnow : 3 = (s.region r).prof.profile
  · exact ⟨stOK, by simp [State.settleProfiles, State.nextProfile, hqueue, hstage, hending, hentry, ← hnow]⟩
  · exact ⟨stNotPermitted, by simp [State.settleProfiles, State.nextProfile, hqueue, hstage, hending, hentry, hallow, hnow]⟩

@[simp] theorem State.region_modRegProf_same (s : State) (r : Nat) (f : RegProfile → RegProfile) :
    (s.modRegProf r f).region r = { s.region r with prof := f (s.region r).prof } := by
  simp [State.modRegProf]

@[simp] theorem State.prof_modRegProf (s : State) (r : Nat) (f : RegProfile → RegProfile) : (s.modRegProf r f).prof = s.prof := rfl

/-- A guest whose bit of SPRINT_ALLOW is 0 is refused Sprint (R374): its region stays at its profile with no change begun, and no grant
is asked for. -/
theorem sprint_refused_without_allow {s : State} {g i : Nat} {l : ListRec} {x : Entry} (hstarts : StartsWell s g 3 0x42 l i x)
    (hsprint : bits x.word 103 102 = 3) (hallow : bitAt s.prof.allow g = false)
    (hregion : s.regionOk g (bits x.word 223 218) [2, 3, 4] = true) (hqueue : (s.region (bits x.word 223 218)).prof.queue = [])
    (hstage : (s.region (bits x.word 223 218)).prof.stage = 0) (hending : (s.region (bits x.word 223 218)).prof.ending = 0)
    (hentry : (s.region (bits x.word 223 218)).prof.entry = none) :
    ∃ t, exec (.profile g) s = .next t ∧
      (t.region (bits x.word 223 218)).prof.profile = (s.region (bits x.word 223 218)).prof.profile ∧
      (t.region (bits x.word 223 218)).prof.stage = 0 ∧ t.prof.grantSeq = s.prof.grantSeq := by
  rw [exec_profile, execProfile_of_startsWell hstarts hregion]
  generalize bits x.word 223 218 = r at *
  obtain ⟨st, hst⟩ := State.settleProfiles_sprint_barred (r := r) (limit := bits x.word 101 86) (id := ⟨g, 3, l.seq, i⟩)
    (s := (s.begun g 3 l i).modRegProf r (fun p =>
      { p with queue := p.queue ++ [(⟨g, 3, l.seq, i⟩, bits x.word 103 102, bits x.word 101 86)] }))
    (by simp [hqueue, hsprint]) (by simpa using hstage) (by simpa using hending) (by simpa using hentry) hallow
  exact ⟨_, congrArg _ hst, by simp, by simpa using hstage, by simp⟩

/-- Settles O55: every command but the end of a check keeps the limit registers or begins a cold boot; and an entry that asks for Sprint
without its guest's bit completes with its region as it was. -/
theorem limitsChangeOnlyByTheSequence : Obligations.LimitsChangeOnlyByTheSequence := by
  refine ⟨fun c s t h hne => limits_change_by_check_or_cold_boot h hne, rfl, ?_⟩
  intro s g i l x hstarts hsprint hallow hregion hqueue hstage hending hentry
  exact sprint_refused_without_allow hstarts hsprint hallow hregion hqueue hstage hending hentry

end Sys2Proof.Machine

namespace Sys2Proof.Machine

/-! ## What leaves the Keeper's part of the module alone

Alerts, the event log, a port's change of state and the boot stages write other parts of the state. The deepest of these operations is
the securing anew of every port, which a zeroisation asks for (R395): it fails multicast branches and barriers on its way. -/

theorem State.keeper_ite (c : Prop) [Decidable c] (s t : State) :
    (if c then s else t).keeper = if c then s.keeper else t.keeper := apply_ite State.keeper c s t

theorem foldl_keeper {β : Type} (f : State → β → State) (h : ∀ a x, (f a x).keeper = a.keeper) (l : List β) (s : State) :
    (l.foldl f s).keeper = s.keeper := foldl_proj State.keeper h l s

/-! ### Reports, causes and events -/

@[simp] theorem State.report_keeper (s : State) (unit : Nat) (f : FaultRec) : (s.report unit f).keeper = s.keeper := by
  simp [State.report, State.keeper_ite]

@[simp] theorem State.security_keeper (s : State) (code detHi : Nat) : (s.security code detHi).keeper = s.keeper :=
  s.report_keeper _ _

@[simp] theorem State.linkFault_keeper (s : State) (p code detHi : Nat) : (s.linkFault p code detHi).keeper = s.keeper :=
  s.report_keeper _ _

@[simp] theorem State.cause_keeper (s : State) (b : Nat) : (s.cause b).keeper = s.keeper := by
  simp [State.cause, State.setCauses, State.keeper_ite]

@[simp] theorem State.uart_keeper (s : State) (v : Nat) : (s.uart v).keeper = s.keeper := rfl

@[simp] theorem State.event_keeper (s : State) (typ : Nat) (e : EventSub) : (s.event typ e).keeper = s.keeper := by
  simp [State.event, State.eventAt]

/-! ### Multicast branches and barrier trees -/

@[simp] theorem State.queueOn_keeper (s : State) (p : Nat) (m : Msg) : (s.queueOn p m).keeper = s.keeper := rfl

@[simp] theorem State.setBar_keeper (s : State) (t : Nat) (b : Barrier) : (s.setBar t b).keeper = s.keeper := rfl

@[simp] theorem State.mcReport_keeper (s : State) (m : McMsg) : (s.mcReport m).keeper = s.keeper := by
  simp [State.mcReport, State.sendWrite, State.keeper_ite]

@[simp] theorem State.mcFlush_keeper (s : State) (group n : Nat) : (s.mcFlush group n).keeper = s.keeper := by
  induction n generalizing s with
  | zero => rfl
  | succ n ih =>
    unfold State.mcFlush
    split
    · rfl
    · split
      · rfl
      · simp [ih]

@[simp] theorem State.mcBranchFail_keeper (s : State) (p group seq peer : Nat) :
    (s.mcBranchFail p group seq peer).keeper = s.keeper := by
  simp [State.mcBranchFail, State.mcBranchDone]

@[simp] theorem State.barRelease_keeper (s : State) (t : Nat) (failed : Bool) (fa : Nat) :
    (s.barRelease t failed fa).keeper = s.keeper := by
  have told (l : List Nat) (m : Msg) : (l.foldl (fun a p => a.queueOn p m) s).keeper = s.keeper := by
    rw [foldl_keeper]
    simp
  simp [State.barRelease, State.sendWrite, State.keeper_ite, told]

@[simp] theorem State.barCheck_keeper (s : State) (t n : Nat) : (s.barCheck t n).keeper = s.keeper := by
  induction n generalizing s with
  | zero => rfl
  | succ n ih => simp [State.barCheck, State.keeper_ite, ih]

@[simp] theorem State.barFail_keeper (s : State) (t cause : Nat) : (s.barFail t cause).keeper = s.keeper := by
  unfold State.barFail
  dsimp only
  rw [State.barCheck_keeper, State.setBar_keeper, State.linkFault_keeper]

@[simp] theorem State.barPortLost_keeper (s : State) (p : Nat) : (s.barPortLost p).keeper = s.keeper := by
  rw [State.barPortLost]
  apply foldl_keeper
  intro a q
  rw [State.barFail_keeper]

/-! ### Ports that are secured anew -/

@[simp] theorem State.dropTx_keeper (s : State) (t : TxMsg) : (s.dropTx t).keeper = s.keeper := by
  unfold State.dropTx
  split <;> simp

@[simp] theorem State.dropRecord_keeper (s : State) (t : TxMsg) : (s.dropRecord t).keeper = s.keeper := by
  unfold State.dropRecord
  split <;> simp [State.setQueue]

@[simp] theorem State.discardAll_keeper (s : State) (p : Nat) : (s.discardAll p).keeper = s.keeper := by
  unfold State.discardAll
  dsimp only
  rw [foldl_keeper]
  · simp
  · intro a t
    split <;> simp

@[simp] theorem State.leaveActive_keeper (s : State) (p : Nat) : (s.leaveActive p).keeper = s.keeper := by
  simp [State.leaveActive, State.keeper_ite]

@[simp] theorem State.beginExchange_keeper (s : State) (p : Nat) : (s.beginExchange p).keeper = s.keeper := by
  simp [State.beginExchange, State.sendKey, State.keeper_ite]

@[simp] theorem State.enterSecuring_keeper (s : State) (p : Nat) : (s.enterSecuring p).keeper = s.keeper := by
  simp [State.enterSecuring]

@[simp] theorem State.dropLinks_keeper (s : State) : s.dropLinks.keeper = s.keeper :=
  foldl_keeper _ (fun a p => by simp [State.dropLink, State.keeper_ite]) _ s

/-! ### Boot stages -/

@[simp] theorem State.toStage_keeper (s : State) (n : Nat) : (s.toStage n).keeper = s.keeper := by
  simp [State.toStage, State.keeper_ite]

@[simp] theorem State.raiseFuses_keeper (s : State) (x : FwSlot) : (s.raiseFuses x).keeper = s.keeper := rfl

/-- The ROM tells the Keeper which copy boots, and no more (R406). -/
theorem State.romSelect_keeper (s : State) : ∃ dark, s.romSelect.keeper = { s.keeper with standby := dark } := by
  refine ⟨decide (2 ≤ (s.power.phaseMap.filter (fun e => e / 4 == 741)).length), ?_⟩
  simp only [State.romSelect, State.keeper_ite, State.event_keeper, State.modBoot_fields, State.modKeeper_fields, ite_self]

/-! ## APPROVED_LEAVE, from the request to the Keeper's stage of the next cold boot (R386) -/

/-! ### The request -/

@[simp] theorem State.mbDone_keys_and_mode (s : State) (g result : Nat) (resp : List Byte) :
    (s.mbDone g result resp).keeper.keys = s.keeper.keys ∧ (s.mbDone g result resp).keeper.approved = s.keeper.approved ∧
    (s.mbDone g result resp).keeper.leave = s.keeper.leave := ⟨rfl, rfl, rfl⟩

/-- A critical request whose pair the Keeper accepts has its own effect, on the module as the check leaves it (R388). -/
theorem withRequest_of_asksAuthorised {s u : State} {g op : Nat} {body : List Byte} (h : AsksAuthorised s g op body u)
    (hcritical : mbCritical op = true) (f : State → List Byte → State) : withRequest g op s f = .next (f u body) := by
  obtain ⟨⟨hg, hhead, hop, hst, hreserved, hlen, hbody, howner⟩, hready, hpair⟩ := h
  have hg' : ¬ 64 ≤ g := by omega
  have hlen' : ¬ 32736 < leAt (s.mbReq g 0 8) 4 4 := by omega
  have howner' : ¬(mbOwner op = true ∧ g ≠ 0) := fun ⟨ho, hne⟩ => hne (howner ho)
  simp only [withRequest, if_neg hg', if_neg howner']
  simp [hhead, hop, hst, hreserved, hlen', hbody, hcritical, hready, hpair]

/-- An accepted APPROVED_LEAVE is noted and reported, and its request is done. -/
theorem exec_approvedLeave_of_asksAuthorised {s u : State} (h : AsksAuthorised s 0 0x41 [] u) :
    exec (.approvedLeave 0) s = .next (((u.modKeeper (fun k => { k with leave := true })).security 0xC 2).mbDone 0 mbOK []) := by
  rw [exec_approvedLeave, execApprovedLeave, withRequest_of_asksAuthorised h rfl, if_neg (fun hne => hne rfl)]

/-! ### The cold boot -/

theorem State.coldState_keeper_leave (s : State) : s.coldState.keeper.leave = s.keeper.leave := rfl

theorem State.coldState_keeper_approved (s : State) : s.coldState.keeper.approved = s.keeper.approved := rfl

/-- What of the Keeper is after a cold boot is what survives a reset, but for the copy that boots (Table 19-2). -/
theorem State.coldBoot_keeper (s : State) (cause : Nat) :
    ∃ standby, (s.coldBoot cause).keeper = { s.coldState.keeper with standby := standby } := by
  unfold State.coldBoot
  dsimp only
  split
  · exact ⟨_, rfl⟩
  · exact State.romSelect_keeper _

/-! ### The Keeper's stage -/

/-- The module is UNCLAIMED, out of approved mode, and no APPROVED_LEAVE is pending. -/
structure Keeper.OwnerGone (k : Keeper) : Prop where
  noKey : ∀ q ∈ k.keys, q.1 ≠ 0
  approved : k.approved = false
  leave : k.leave = false

theorem Keeper.OwnerGone.cmdKey_eq_none {s : State} (h : s.keeper.OwnerGone) : s.cmdKey 0 = none := by
  have : s.keeper.keys.find? (fun p => p.1 == 0) = none := List.find?_eq_none.mpr fun q hq => by simpa using h.noKey q hq
  rw [State.cmdKey, this, Option.map_none]

theorem State.mbDone_ownerGone {s : State} (h : s.keeper.OwnerGone) (g result : Nat) (resp : List Byte) :
    (s.mbDone g result resp).keeper.OwnerGone := by
  obtain ⟨hkeys, happroved, hleave⟩ := s.mbDone_keys_and_mode g result resp
  exact ⟨hkeys ▸ h.noKey, happroved ▸ h.approved, hleave ▸ h.leave⟩

/-- A zeroisation leaves the module UNCLAIMED (R395). -/
theorem State.zeroiseKeys_ownerGone (s : State) (kind : Nat) : (s.zeroiseKeys kind).keeper.OwnerGone := by
  unfold State.zeroiseKeys
  extract_lets erased t u
  have gone : u.keeper.OwnerGone := by
    simp only [u, t, State.keeper_ite, State.cause_keeper, ite_self, State.security_keeper, State.dropLinks_keeper]
    exact ⟨by simp [erased], rfl, rfl⟩
  split
  · split
    · exact State.mbDone_ownerGone gone _ _ _
    · exact gone
  · exact gone

/-- A Keeper that starts with APPROVED_LEAVE pending carries it out (R386), whether or not it then finds the tamper latch set (R396). -/
theorem State.keeperStart_ownerGone {s : State} (h : s.keeper.leave = true) : s.keeperStart.keeper.OwnerGone := by
  unfold State.keeperStart
  extract_lets left t
  have gone : t.keeper.OwnerGone := by
    simp only [t]
    split
    · exact State.zeroiseKeys_ownerGone _ _
    · refine ⟨?_, by simp [left, h], rfl⟩
      simp only [left, State.modKeeper_fields, if_pos h, List.forall_mem_map, List.mem_filter, bne_iff_ne]
      exact fun _ kept => kept.2
  split
  · rwa [State.cause_keeper]
  · exact ⟨gone.noKey, gone.approved, gone.leave⟩

/-- The Keeper's stage ends with the Keeper started, when its tests passed and no slot is attempted (Table 19-3, R413). -/
theorem exec_bootStageComplete_of_keeper_stage {s : State} {f : BootFinds} (hoff : s.boot.off = false) (hreset : s.boot.resetLow = false)
    (hboth : s.boot.bothFailed = none) (hattempting : s.boot.attempting = false) (hstage : s.boot.stage = 2) (hfail : f.fail = 0) :
    exec (.bootStageComplete f) s = .next ((s.raiseFuses (s.boot.slotAt s.boot.active)).keeperStart.toStage 3) := by
  simp [execBootStageComplete, hoff, hreset, hboth, hattempting, hstage, hfail]

/-- Settles O59: each stage of APPROVED_LEAVE is the law of one operation, the request's, the cold boot's and the Keeper's start. -/
theorem approvedLeaveTakesEffectAtTheNextBoot : Obligations.ApprovedLeaveTakesEffectAtTheNextBoot := by
  refine ⟨?_, ?_, ?_⟩
  · intro s u h
    exact ⟨_, exec_approvedLeave_of_asksAuthorised h, by simp, by simp, by simp⟩
  · intro s cause h
    obtain ⟨standby, hkeeper⟩ := s.coldBoot_keeper cause
    rw [hkeeper]
    exact ⟨s.coldState_keeper_leave.trans h, s.coldState_keeper_approved⟩
  · intro s f hoff hreset hboth hattempting hstage hfail hleave
    have gone : ((s.raiseFuses (s.boot.slotAt s.boot.active)).keeperStart.toStage 3).keeper.OwnerGone := by
      rw [State.toStage_keeper]
      exact State.keeperStart_ownerGone hleave
    exact ⟨_, exec_bootStageComplete_of_keeper_stage hoff hreset hboth hattempting hstage hfail, gone.cmdKey_eq_none, gone.approved,
      gone.leave⟩

end Sys2Proof.Machine

namespace Sys2Proof.Machine

/-! ## What IDCODE reads (R453) -/

/-- An IDCODE the TAP takes leaves the stepping's identification in the data register. -/
theorem exec_idcode_of_tapLive {s : State} (hlive : s.tapLive = true) :
    ∃ t, exec .idcode s = .next t ∧ t.iface.dr = if s.stepping = 0 then 0x194249AB else 0x294249AB :=
  ⟨_, by rw [exec_idcode, execIdcode, if_pos hlive], rfl⟩

/-- Settles O58: there are two steppings, and the word each of them reads splits into R453's fields, the version being the stepping's. -/
theorem idcodeReads : Obligations.IdcodeReads := by
  intro s hlive hstepping
  obtain ⟨t, hexec, hdr⟩ := exec_idcode_of_tapLive hlive
  refine ⟨t, hexec, fun hA1 => by rw [hdr, if_pos hA1], fun hB0 => by rw [hdr, if_neg (by omega)], ?_⟩
  obtain hA1 | hB0 : s.stepping = 0 ∨ s.stepping = 1 := by omega
  · rw [hdr, hA1]
    decide
  · rw [hdr, hB0]
    decide

end Sys2Proof.Machine

namespace Sys2Proof.Machine

/-! ## One step: the front command, or 250 ps of module time (log 1) -/

theorem step_of_cons {s : State} {c : Instr} {rest : List Instr} (h : s.pending = c :: rest) :
    step s = exec c { s with pending := rest } := by
  rw [step, h]

theorem step_of_nil {s : State} (h : s.pending = []) : step s = .next s.tick := by
  rw [step, h]

/-- Settles O1: it is the step's equation at a queue that is not empty. -/
theorem stepRunsFrontCommand : Obligations.StepRunsFrontCommand := fun _ _ _ h => step_of_cons h

theorem State.livePanes_eq_nil {s : State} (hpanes : s.panes = []) (hcells : s.cells = []) : s.livePanes = [] := by
  simp [State.livePanes, hpanes, hcells]

/-- Settles O2: an idle step is the tick, and with no pane and no cell listed no pane's clock advances. -/
theorem idleStepPassesTime : Obligations.IdleStepPassesTime := by
  intro s hidle
  refine ⟨step_of_nil hidle, fun hpanes hcells => ?_⟩
  have hlive : State.livePanes { s with time := s.time + 1 } = [] := State.livePanes_eq_nil hpanes hcells
  rw [State.tick]
  simp only [State.livePanes] at hlive ⊢
  simp [hlive]

/-! ### What passing time keeps -/

theorem foldl_keeps {σ β : Type} {P : σ → Prop} {f : σ → β → σ} (h : ∀ a x, P a → P (f a x)) (l : List β) {s : σ} (hs : P s) :
    P (l.foldl f s) := by
  induction l generalizing s with
  | nil => exact hs
  | cons x l ih => exact ih (h s x hs)

/-- A property of the state that a clock period of a pane keeps: the parts of a period keep it, which are changes of cells and panes, a
shutter hold, a failed check, a stop for a contract fault, and the service of a background access. -/
structure KeptByPanes (P : State → Prop) : Prop where
  time : ∀ (s : State) n, P s → P { s with time := n }
  snap : ∀ (s : State) m, P s → P { s with snap := m }
  cells : ∀ (s : State) m, P s → P { s with cells := m }
  setPane : ∀ s p q, P s → P (State.setPane s p q)
  failCell : ∀ s c l, P s → P (State.failCell s c l)
  settleHold : ∀ s r, P s → P (State.settleHold s r)
  stopContract : ∀ s r, P s → P (State.stopContract s r)
  serveBg : ∀ s c mem, P s → P (State.serveBg s c mem)

section
variable {P : State → Prop} (hP : KeptByPanes P) {s : State}
include hP

theorem KeptByPanes.setCell (c : Nat) (x : Cell) (h : P s) : P (s.setCell c x) := hP.cells s _ h

theorem KeptByPanes.modCell (c : Nat) (f : Cell → Cell) (h : P s) : P (s.modCell c f) := hP.cells s _ h

theorem KeptByPanes.modPane (p : Nat) (f : Pane → Pane) (h : P s) : P (s.modPane p f) := hP.setPane s p _ h

theorem KeptByPanes.modPaneListed (p : Nat) (f : Cell → Cell) (h : P s) : P (s.modPaneListed p f) := hP.cells s _ h

theorem KeptByPanes.meshHop (c route i src : Nat) (d : W256) (n : Nat) (h : P s) : P (s.meshHop c route i src d n) := by
  unfold State.meshHop
  split
  · exact h
  · next e _ =>
    split
    · exact h
    · extract_lets p beat side latched sent counted q
      have hside (t : State) (dir : Nat) (ht : P t) : P (side t dir) := by
        simp only [side]
        have used (u : State) (hu : P u) (m : Nat) : P (u.modCell c (fun x => { x with linkUse := x.linkUse ++ [m] })) := hP.modCell c _ hu
        split
        · split
          · split
            · exact hP.modCell _ _ (used t ht dir)
            · exact used t ht dir
          · split
            · exact used t ht dir
            · split
              · exact hP.modCell _ _ (used t ht dir)
              · exact hP.modCell _ _ (hP.modCell _ _ (used t ht dir))
        · exact ht
      have hlatched : P latched := by
        unfold latched
        split
        · exact hP.modCell _ _ h
        · exact h
      have hsent : P sent := foldl_keeps hside _ hlatched
      split
      · split
        · exact hP.setPane _ _ _ (hP.modCell _ _ hsent)
        · exact hP.setPane _ _ _ (hP.modCell _ _ hsent)
      · exact hsent

theorem KeptByPanes.serveAsked (p : Nat) (h : P s) : P (s.serveAsked p) :=
  foldl_keeps (fun _ _ ha => foldl_keeps (fun b mem hb => hP.serveBg b _ mem hb) _ ha) _ h

theorem KeptByPanes.settleAwaits (p n : Nat) (h : P s) : P (s.settleAwaits p n).1 := by
  refine foldl_keeps (P := fun a : State × List (Nat × Nat) => P a.1) (fun a c ha => ?_) (s.listedCells p) h
  dsimp only
  split
  · exact ha
  · split
    · exact hP.setCell c _ ha
    · exact ha

theorem KeptByPanes.endCycle (c : Nat) (h : P s) : P (s.endCycle c) := by
  unfold State.endCycle
  extract_lets n x live due now b op links chks failed y z snapped landed counted closed hopped
  have hfailed : P failed := by
    unfold failed
    split
    · exact h
    · exact hP.failCell s c chks h
  have hsnapped : P snapped := hP.setCell _ _ (hP.snap _ _ hfailed)
  have hhopped : P hopped := by
    refine foldl_keeps (fun a e ha => ?_) due (hP.setCell c closed hsnapped)
    split
    · exact hP.meshHop _ _ _ _ _ _ ha
    · exact ha
  split
  · exact hP.setCell _ _ hsnapped
  · exact hP.setCell _ _ hhopped

theorem KeptByPanes.runCycle (p r : Nat) (h : P s) : P (s.runCycle p r) := by
  unfold State.runCycle
  generalize hsettled : (s.serveAsked p).settleAwaits p (s.region r).stepNo = settled
  have hwaited : P settled.1 := hsettled ▸ hP.settleAwaits _ _ (hP.serveAsked p h)
  obtain ⟨u, waits⟩ := settled
  dsimp -zeta only at hwaited ⊢
  extract_lets n bad ended stop counted stalled
  have hcounted : P counted := hP.modPane _ _ (foldl_keeps (fun _ c ha => hP.endCycle c ha) _ hwaited)
  have hstalled : P stalled := by
    unfold stalled
    split
    · exact hcounted
    · exact hP.settleHold _ r (hP.modPane _ _ hcounted)
  split
  · exact hP.settleHold _ r (hP.modPaneListed _ _ (hP.modPane _ _ hwaited))
  · split
    · exact hP.stopContract _ r hstalled
    · exact hstalled

theorem KeptByPanes.clockPeriod (p : Nat) (h : P s) : P (s.clockPeriod p) := by
  unfold State.clockPeriod
  extract_lets q t
  have ht : P t := by
    unfold t
    split
    · exact h
    · dsimp only
      split
      · exact h
      · split
        · exact hP.runCycle p _ h
        · split
          · exact hP.setPane _ _ _ (hP.modPaneListed _ _ h)
          · exact hP.modPaneListed _ _ h
  exact hP.modPaneListed _ _ (hP.serveAsked p ht)

theorem KeptByPanes.tickPane (p : Nat) (h : P s) : P (s.tickPane p) := by
  unfold State.tickPane
  dsimp only
  split
  · exact hP.setPane _ _ _ h
  · exact hP.clockPeriod p (hP.setPane _ _ _ h)

theorem KeptByPanes.tick (h : P s) : P s.tick := foldl_keeps (fun _ p ha => hP.tickPane p ha) _ (hP.time s _ h)
end

theorem keptByPanes_pending (l : List Instr) : KeptByPanes (fun s => s.pending = l) where
  time _ _ h := h
  snap _ _ h := h
  cells _ _ h := h
  setPane _ _ _ h := h
  failCell s c l h := (congrArg (·.1) (s.failCell_kept c l)).trans h
  settleHold s r h := (congrArg (·.1) (s.settleHold_kept r)).trans h
  stopContract s r h := (congrArg (·.1) (s.stopContract_kept r)).trans h
  serveBg s c mem h := (congrArg (·.1) (s.serveBg_kept c mem)).trans h

/-! ### Every command leaves the rest of the queue -/

theorem State.Follows.pending {s t : State} (h : s.Follows t) : t.pending = s.pending := by
  obtain hkept | ⟨_, _, hkept⟩ := h
  · exact congrArg (·.1) hkept
  · exact congrArg (·.1) hkept

theorem State.setLimit_pending {s t : State} {a v : Nat} (h : s.setLimit a v = some t) : t.pending = s.pending := by
  unfold State.setLimit at h
  grind [State.modPower, State.modThermal, State.modProf]

/-- The end of a check changes the limit it sets and the Keeper, and not the queue (R339). -/
theorem execAuthGoResult_pending (s : State) : ∃ t, execAuthGoResult s = .next t ∧ t.pending = s.pending := by
  unfold execAuthGoResult
  dsimp only
  split
  · exact ⟨_, rfl, rfl⟩
  · have hchecked (c tag body) : (s.checkPair 0 c tag body).1.pending = s.pending :=
      congrArg (·.1) (s.checkPair_kept 0 c tag body)
    split
    · exact ⟨_, rfl, hchecked _ _ _⟩
    · split
      · next t ht => exact ⟨_, rfl, (State.setLimit_pending ht).trans (hchecked _ _ _)⟩
      · exact ⟨_, rfl, hchecked _ _ _⟩

theorem exec_pending (c : Instr) (s : State) : ∃ t, exec c s = .next t ∧ t.pending = s.pending := by
  by_cases hc : c = .authGoResult
  · subst hc
    exact execAuthGoResult_pending s
  · obtain ⟨t, ht, hfollows⟩ := exec_follows c s hc
    exact ⟨t, ht, hfollows.pending⟩

/-- Settles O53: a step is the front command over the rest of the queue, which every command leaves, or the tick, which leaves the
empty queue. -/
theorem aStepTakesTheFrontCommandAndNeverStops : Obligations.AStepTakesTheFrontCommandAndNeverStops := by
  intro s
  cases hqueue : s.pending with
  | nil => exact ⟨_, step_of_nil hqueue, (keptByPanes_pending []).tick hqueue⟩
  | cons c rest =>
    obtain ⟨t, ht, hpending⟩ := exec_pending c { s with pending := rest }
    exact ⟨t, (step_of_cons hqueue).trans ht, hpending⟩

/-! ## What a memory holds after a write (R256) -/

/-- Settles O26: what an address reads after a write, at an address in the range written and at one outside it. -/
theorem memoryWriteFrame : Obligations.MemoryWriteFrame := by
  intro m a b data hwf
  refine ⟨fun i hi hb => ?_, fun hout => ?_, m.wf_write a data hwf⟩
  · rw [m.get_write a data b hwf, if_pos (by omega), hb, Nat.add_sub_cancel_left, List.getD_eq_getElem?_getD]
  · rw [m.get_write a data b hwf, if_neg (by omega)]

/-! ## What the Keeper accepts (R157, R378, R389) -/

/-- An accepted pair has the key's tag, and a counter above LAC that P covers. -/
theorem State.pairVerdict_eq_zero {s : State} {g counter : Nat} {tag body : List Byte} (h : s.pairVerdict g counter tag body = 0) :
    ∃ k, s.cmdKey g = some k ∧ k.lac < counter ∧ counter ≤ k.persisted ∧
      (hmac k.key (natLE 2 s.fabricAddr ++ natLE 1 g ++ natLE 8 counter ++ body)).take 16 = tag := by
  unfold State.pairVerdict at h
  split at h
  · contradiction
  · next k hk =>
    dsimp only at h
    split at h
    · contradiction
    · next htag =>
      split at h
      · contradiction
      · next hlac =>
        split at h
        · contradiction
        · next hpersisted => exact ⟨k, hk, Nat.not_le.mp hlac, Nat.not_lt.mp hpersisted, not_not.mp htag⟩

theorem State.pairVerdict_of_accepted {s u : State} {g counter : Nat} {tag body : List Byte}
    (h : s.checkPair g counter tag body = (u, true)) : s.keeper.st = 2 ∧ s.pairVerdict g counter tag body = 0 := by
  unfold State.checkPair at h
  split at h
  · simp at h
  · next hst =>
    refine ⟨not_not.mp hst, ?_⟩
    split at h
    · next hverdict _ => exact hverdict
    · simp at h

/-- Settles O21: an accepted pair is one that `checkPair_accepts` speaks of. -/
theorem acceptedPairTakesItsCounter : Obligations.AcceptedPairTakesItsCounter := by
  intro s u g counter tag body h
  obtain ⟨hst, hverdict⟩ := State.pairVerdict_of_accepted h
  obtain ⟨k, hk, hlac, hpersisted, rfl⟩ := State.pairVerdict_eq_zero hverdict
  obtain ⟨rfl, -⟩ := Prod.mk.inj ((checkPair_accepts s g counter body k hst hk hlac hpersisted).symm.trans h)
  refine ⟨k, { k with lac := counter, fails := 0, writing := k.writing || k.advances counter }, hk, ?_, hlac, hpersisted, rfl, rfl,
    rfl, rfl, rfl⟩
  exact (find_mset s.keeper.keys g g _).trans (if_pos rfl)

end Sys2Proof.Machine

namespace Sys2Proof.Machine

/-! ## The octets of the HBM (R256, log 2)

O54 speaks of every step at once. An operation that leaves the octets of the HBM alone gets a law that says so; one that writes them, or
is made of one that does, gets a law below that it keeps their form. -/

/-! ### The laws' forms -/

@[simp] theorem State.hbm_ite (c : Prop) [Decidable c] (s t : State) :
    (if c then s else t).hbm = if c then s.hbm else t.hbm := apply_ite State.hbm c s t

@[simp] theorem foldl_hbm {β : Type} (f : State → β → State) (h : ∀ a x, (f a x).hbm = a.hbm) (l : List β) (s : State) :
    (l.foldl f s).hbm = s.hbm := foldl_proj State.hbm h l s

theorem apartFromQueues_hbm : ApartFromQueues State.hbm := ⟨fun _ _ _ _ => rfl, fun _ _ => rfl⟩

/-- The outcome is a next state with the same octets in the HBM. -/
def HbmFrom (s : State) (o : Out) : Prop := ∃ t, o = .next t ∧ t.hbm = s.hbm

@[simp] theorem hbmFrom_next (s t : State) : HbmFrom s (.next t) ↔ t.hbm = s.hbm := by simp [HbmFrom]

@[simp] theorem hbmFrom_ite (c : Prop) [Decidable c] (s : State) (a b : Out) :
    HbmFrom s (if c then a else b) ↔ if c then HbmFrom s a else HbmFrom s b := by split <;> rfl

/-- A register write leaves the octets of the HBM, or is refused. -/
def WriteHbm (s : State) : RegWrite → Prop
  | .ok t => t.hbm = s.hbm
  | .error _ => True

@[simp] theorem writeHbm_ok (s t : State) : WriteHbm s (.ok t) ↔ t.hbm = s.hbm := .rfl

@[simp] theorem writeHbm_error (s : State) (c : Nat) : WriteHbm s (.error c) := trivial

@[simp] theorem writeHbm_ite (c : Prop) [Decidable c] (s : State) (v w : RegWrite) :
    WriteHbm s (if c then v else w) ↔ if c then WriteHbm s v else WriteHbm s w := by split <;> rfl

/-! ### Named operations over the module's state -/

@[simp] theorem State.modRegion_hbm (s : State) (r : Nat) (f : Region → Region) :
    (s.modRegion r f).hbm = s.hbm := by simp [State.modRegion]

@[simp] theorem State.modPaneCells_hbm (s : State) (p : Nat) (f : Nat → Cell → Cell) :
    (s.modPaneCells p f).hbm = s.hbm := by simp [State.modPaneCells]

@[simp] theorem State.modRegionPanes_hbm (s : State) (r : Nat) (f : Nat → Pane → Pane) :
    (s.modRegionPanes r f).hbm = s.hbm := by simp [State.modRegionPanes]

@[simp] theorem State.sendRecord_hbm (s : State) (q : Nat × Nat) (dest addr : Nat) (data : List Byte) :
    (s.sendRecord q dest addr data).hbm = s.hbm := by simp [State.sendRecord]

@[simp] theorem State.sendWrite_hbm (s : State) (vc dest addr : Nat) (data : List Byte) :
    (s.sendWrite vc dest addr data).hbm = s.hbm := by simp [State.sendWrite]

@[simp] theorem State.sendError_hbm (s : State) (m : Msg) (code : Nat) : (s.sendError m code).hbm = s.hbm := by simp [State.sendError]

@[simp] theorem State.rejectAccess_hbm (s : State) (src addr rtag : Nat) (rd : Bool) (code : Nat) :
    (s.rejectAccess src addr rtag rd code).hbm = s.hbm := by simp [State.rejectAccess]

@[simp] theorem State.sendResponse_hbm (s : State) (m : Msg) (data : List Byte) :
    (s.sendResponse m data).hbm = s.hbm := by simp [State.sendResponse]

@[simp] theorem State.report_hbm (s : State) (unit : Nat) (f : FaultRec) : (s.report unit f).hbm = s.hbm := by simp [State.report]

@[simp] theorem State.security_hbm (s : State) (code detHi : Nat) : (s.security code detHi).hbm = s.hbm := by simp [State.security]

/-! ### The repair maps -/

@[simp] theorem State.addRepair_hbm (s : State) (f : FaultRec) (e : Nat) : (s.addRepair f e).hbm = s.hbm := by simp [State.addRepair]

@[simp] theorem State.mapOut_hbm (s : State) (c prow pcol : Nat) : (s.mapOut c prow pcol).hbm = s.hbm := by simp [State.mapOut]

@[simp] theorem State.windowError_hbm (s : State) (c off src rtag : Nat) (rd : Bool) (code : Nat) :
    (s.windowError c off src rtag rd code).hbm = s.hbm := by simp [State.windowError]

@[simp] theorem State.dropHeld_hbm (s : State) (r : Nat) : (s.dropHeld r).hbm = s.hbm := by simp [State.dropHeld]

/-! ### Queues of the four engines -/

@[simp] theorem State.setQueue_hbm (s : State) (g e : Nat) (q : Queue) : (s.setQueue g e q).hbm = s.hbm := by simp [State.setQueue]

@[simp] theorem State.modEntry_hbm (s : State) (id : EntryId) (f : Entry → Entry) :
    (s.modEntry id f).hbm = s.hbm := by simp [State.modEntry]

@[simp] theorem State.sendEntryRecord_hbm (s : State) (l : ListRec) (id : EntryId) (status result : Nat) :
    (s.sendEntryRecord l id status result).hbm = s.hbm := by simp [State.sendEntryRecord]

@[simp] theorem State.sendListRecord_hbm (s : State) (l : ListRec) (engine guest status result : Nat) :
    (s.sendListRecord l engine guest status result).hbm = s.hbm := by simp [State.sendListRecord]

@[simp] theorem State.finishOne_hbm (s : State) (id : EntryId) (status result : Nat) : (s.finishOne id status result).hbm = s.hbm :=
  apartFromQueues_hbm.finishOne s id status result

@[simp] theorem State.retireList_hbm (s : State) (g e seq : Nat) : (s.retireList g e seq).hbm = s.hbm :=
  apartFromQueues_hbm.retireList s g e seq

@[simp] theorem State.settleAuth_hbm (s : State) (id : EntryId) : (s.settleAuth id).hbm = s.hbm :=
  apartFromQueues_hbm.settleAuth s id

@[simp] theorem State.settleWaits_hbm (s : State) (g n : Nat) : (s.settleWaits g n).hbm = s.hbm :=
  apartFromQueues_hbm.settleWaits s g n

@[simp] theorem State.complete_hbm (s : State) (id : EntryId) (status result : Nat) : (s.complete id status result).hbm = s.hbm :=
  apartFromQueues_hbm.complete s id status result

@[simp] theorem State.sendDeferred_hbm (s : State) (id : EntryId) : (s.sendDeferred id).hbm = s.hbm := by
  unfold State.sendDeferred
  split <;> simp

@[simp] theorem State.startEntry_hbm (s : State) (id : EntryId) : (s.startEntry id).hbm = s.hbm := by simp [State.startEntry]

@[simp] theorem withEntry_keepsHbm (g e : Nat) (ops : List Nat) (s : State) (f : State → EntryId → Nat → State)
    (h : ∀ t id w, (f t id w).hbm = t.hbm) : HbmFrom s (withEntry g e ops s f) := by
  unfold withEntry
  split
  · simp
  · split
    · split <;> simp [h]
    · simp

/-! ### HBM units and KV pages -/

@[simp] theorem State.clearPending_hbm (s : State) (a n : Nat) : (s.clearPending a n).hbm = s.hbm := by simp [State.clearPending]

@[simp] theorem State.freeUnits_hbm (s : State) (a n : Nat) : (s.freeUnits a n).hbm = s.hbm := by simp [State.freeUnits]

@[simp] theorem State.freeRuns_hbm (s : State) (l : List (Nat × Nat)) : (s.freeRuns l).hbm = s.hbm := by simp [State.freeRuns]

@[simp] theorem State.retireUnit_hbm (s : State) (u : Nat) : (s.retireUnit u).hbm = s.hbm := by simp [State.retireUnit]

@[simp] theorem State.setDesc_hbm (s : State) (d : Nat) (x : Desc) : (s.setDesc d x).hbm = s.hbm := by simp [State.setDesc]

@[simp] theorem State.modDesc_hbm (s : State) (d : Nat) (f : Desc → Desc) : (s.modDesc d f).hbm = s.hbm := by simp [State.modDesc]

@[simp] theorem State.delDesc_hbm (s : State) (d : Nat) : (s.delDesc d).hbm = s.hbm := by simp [State.delDesc]

@[simp] theorem State.settleHolds_hbm (s : State) : s.settleHolds.hbm = s.hbm := by simp [State.settleHolds]

@[simp] theorem State.modSlot_hbm (s : State) (r n : Nat) (f : SeqSlot → SeqSlot) :
    (s.modSlot r n f).hbm = s.hbm := by simp [State.modSlot]

@[simp] theorem State.demote_hbm (s : State) (d : Nat) : (s.demote d).hbm = s.hbm := by simp [State.demote]

theorem State.demoteOne_hbm {s t : State} {r : Nat} {l : KvLayer} {pinned : List Nat} (h : s.demoteOne r l pinned = some t) :
    t.hbm = s.hbm := by
  simp only [State.demoteOne] at h
  split at h
  · contradiction
  · obtain rfl := Option.some.inj h
    simp

theorem State.takeFrame_hbm {s t : State} {r n : Nat} {l : KvLayer} {pinned : List Nat} {o : Option Nat}
    (h : s.takeFrame r l pinned n = (o, t)) : t.hbm = s.hbm := by
  induction n generalizing s with
  | zero => grind [State.takeFrame]
  | succ n ih => grind [State.takeFrame, State.demoteOne_hbm]

@[simp] theorem State.dropDesc_hbm (s : State) (d : Nat) : (s.dropDesc d).hbm = s.hbm := by simp [State.dropDesc]

theorem dropUntil_hbm {ok : State → Bool} {l : List (List Nat)} {s t : State} {n k : Nat} (h : dropUntil ok l s n = (t, k)) :
    t.hbm = s.hbm := by
  induction l generalizing s n with
  | nil => grind [dropUntil]
  | cons v r ih =>
    unfold dropUntil at h
    split at h
    · grind
    · simpa using ih h

@[simp] theorem State.decRef_hbm (s : State) (d : Nat) : (s.decRef d).hbm = s.hbm := by simp [State.decRef]

@[simp] theorem State.freeBlock_hbm (s : State) (b : Nat) : (s.freeBlock b).hbm = s.hbm := by
  unfold State.freeBlock
  split <;> simp

theorem State.takeBlock_hbm {s t : State} {g b : Nat} (h : s.takeBlock g = some (b, t)) : t.hbm = s.hbm := by
  simp only [State.takeBlock, Option.ite_none_left_eq_some, Option.some.injEq, Prod.mk.injEq] at h
  obtain ⟨-, -, rfl⟩ := h
  rfl

theorem State.growList_hbm {s t : State} {r n k pages fuel : Nat} {ok : Bool} (h : s.growList r n k pages fuel = (ok, t)) :
    t.hbm = s.hbm := by
  induction fuel generalizing s with
  | zero => grind [State.growList]
  | succ fuel ih => grind [State.growList, State.takeBlock_hbm, State.modSlot_hbm]

@[simp] theorem State.trimLists_hbm (s : State) (r n : Nat) : (s.trimLists r n).hbm = s.hbm := by simp [State.trimLists]

@[simp] theorem State.freeLog_hbm (s : State) (x : SeqSlot) : (s.freeLog x).hbm = s.hbm := by simp [State.freeLog]

@[simp] theorem State.settleWindows_hbm (s : State) (r : Nat) : (s.settleWindows r).hbm = s.hbm := by simp [State.settleWindows]

@[simp] theorem State.freeSlot_hbm (s : State) (r n : Nat) : (s.freeSlot r n).hbm = s.hbm := by simp [State.freeSlot]

@[simp] theorem State.reservePromo_hbm (s : State) (r k d : Nat) (l : KvLayer) (pinned : List Nat) :
    (s.reservePromo r k d l pinned).s.hbm = s.hbm := by
  unfold State.reservePromo
  grind [State.takeFrame_hbm, State.setDesc_hbm]

@[simp] theorem State.returnResv_hbm (s : State) (r : Nat) (rs : List (Nat × Nat × Nat × Nat)) :
    (s.returnResv r rs).hbm = s.hbm := by simp [State.returnResv]

@[simp] theorem State.returnPromos_hbm (s : State) (ps : List (Nat × Nat × Nat)) :
    (s.returnPromos ps).hbm = s.hbm := by simp [State.returnPromos]

@[simp] theorem State.fillFrame_hbm (s : State) (r d : Nat) (l : KvLayer) : (s.fillFrame r d l).hbm = s.hbm := by
  refine foldl_hbm _ (fun a k => ?_) _ _
  split <;> simp

@[simp] theorem State.loseRow_hbm (s : State) (r k n p : Nat) : (s.loseRow r k n p).hbm = s.hbm := by
  unfold State.loseRow
  split <;> simp

/-! ### Sequence slots -/

@[simp] theorem State.sendToken_hbm (s : State) (r : Nat) (sinkFa sinkAddr token slot pos gen endCode spec : Nat) :
    (s.sendToken r sinkFa sinkAddr token slot pos gen endCode spec).hbm = s.hbm := by simp [State.sendToken]

@[simp] theorem State.sendEndTo_hbm (s : State) (r slotNo endCode : Nat) (other : Nat × Nat) :
    (s.sendEndTo r slotNo endCode other).hbm = s.hbm := by simp [State.sendEndTo]

@[simp] theorem State.sendEnd_hbm (s : State) (r slotNo endCode : Nat) :
    (s.sendEnd r slotNo endCode).hbm = s.hbm := by simp [State.sendEnd]

@[simp] theorem State.openSlot_hbm (s : State) (r n : Nat) (id : EntryId) (w : Nat) : (s.openSlot r n id w).1.hbm = s.hbm := by
  simp [State.openSlot, apply_ite Prod.fst]

@[simp] theorem State.rebind_hbm (s : State) (r d : Nat) : (s.rebind r d).hbm = s.hbm := by simp [State.rebind]

@[simp] theorem State.setPark_hbm (s : State) (i : Nat) (p : ParkRec) : (s.setPark i p).hbm = s.hbm := by simp [State.setPark]

@[simp] theorem State.claimPark_hbm (s : State) (w st : Nat) : (s.claimPark w st).hbm = s.hbm := by simp [State.claimPark]

@[simp] theorem State.growLists_hbm (s : State) (r n : Nat) (pages : SMap (List Nat)) : (s.growLists r n pages).2.hbm = s.hbm := by
  refine List.foldlRecOn (motive := fun (a : Bool × State) => a.2.hbm = s.hbm) _ _ rfl fun a ha k _ => ?_
  split
  · exact (State.growList_hbm rfl).trans ha
  · exact ha

@[simp] theorem State.trimSlot_hbm (s : State) (r n len : Nat) : (s.trimSlot r n len).hbm = s.hbm := by simp [State.trimSlot]

@[simp] theorem State.parkSlot_hbm (s : State) (r n ttl : Nat) : (s.parkSlot r n ttl).1.hbm = s.hbm := by
  simp only [State.parkSlot]
  split
  · rfl
  · split
    · rfl
    · split <;> simp

@[simp] theorem State.popOp_hbm (s : State) (r n : Nat) (id : EntryId) : (s.popOp r n id).hbm = s.hbm := by simp [State.popOp]

@[simp] theorem State.opDone_hbm (s : State) (r n : Nat) (id : EntryId) (status result : Nat) :
    (s.opDone r n id status result).hbm = s.hbm := by simp [State.opDone]

@[simp] theorem State.endCancel_hbm (s : State) (r n : Nat) : (s.endCancel r n).hbm = s.hbm := by
  unfold State.endCancel
  split <;> simp

@[simp] theorem State.pushOp_hbm (s : State) (r n : Nat) (id : EntryId) (op : Nat) :
    (s.pushOp r n id op).hbm = s.hbm := by simp [State.pushOp]

@[simp] theorem State.settleIdle_hbm (s : State) (r : Nat) : (s.settleIdle r).hbm = s.hbm := by simp [State.settleIdle]

@[simp] theorem State.swingNow_hbm (s : State) (r k : Nat) (id : EntryId) : (s.swingNow r k id).hbm = s.hbm := by simp [State.swingNow]

@[simp] theorem State.applySwings_hbm (s : State) (r n : Nat) : (s.applySwings r n).hbm = s.hbm := by
  induction n generalizing s with
  | zero => rfl
  | succ n ih =>
    simp only [State.applySwings]
    split
    · rfl
    · split
      · rfl
      · split <;> simp [ih]

@[simp] theorem State.settleSwings_hbm (s : State) (r : Nat) : (s.settleSwings r).hbm = s.hbm := by simp [State.settleSwings]

/-! ### Steps, slots and stops shared by many commands -/

@[simp] theorem State.settleHold_hbm (s : State) (r : Nat) : (s.settleHold r).hbm = s.hbm := by
  unfold State.settleHold
  dsimp only
  split <;> simp

@[simp] theorem State.freeQuiet_hbm (s : State) (r n : Nat) : (s.freeQuiet r n).hbm = s.hbm := by simp [State.freeQuiet]

/-! ### Issue and pipelines of a cell -/

@[simp] theorem State.queueBg_hbm (s : State) (c : Nat) (b : BgReq) : (s.queueBg c b).hbm = s.hbm := by simp [State.queueBg]

/-! ### Entry operands -/

@[simp] theorem State.pairRefused_hbm (s : State) (g counter reason : Nat) : (s.pairRefused g counter reason).hbm = s.hbm := by
  unfold State.pairRefused
  dsimp only
  split <;> simp

@[simp] theorem State.checkPair_hbm (s : State) (g counter : Nat) (tag body : List Byte) :
    (s.checkPair g counter tag body).1.hbm = s.hbm := by
  unfold State.checkPair
  split
  · rfl
  · split <;> simp

@[simp] theorem withCommand_keepsHbm (g e op : Nat) (s : State) (f : State → EntryId → Nat → State)
    (h : ∀ t id w, (f t id w).hbm = t.hbm) : HbmFrom s (withCommand g e op s f) :=
  withEntry_keepsHbm g e [op] s _ fun t id w => by split <;> simp [h]

@[simp] theorem withCritical_keepsHbm (g e op : Nat) (s : State) (f : State → EntryId → Nat → State)
    (h : ∀ t id w, (f t id w).hbm = t.hbm) : HbmFrom s (withCritical g e op s f) := by
  unfold withCritical
  split
  · simp
  · split
    · simp
    · refine withEntry_keepsHbm g e [op] s _ fun t id w => ?_
      dsimp only
      split <;> simp [h]

/-! ### Segments, admission, and the raising and lowering of a region's power state -/

@[simp] theorem State.setSeg_hbm (s : State) (k : Nat) (x : Segment) : (s.setSeg k x).hbm = s.hbm := by simp [State.setSeg]

@[simp] theorem State.modRegPower_hbm (s : State) (r : Nat) (f : RegPower → RegPower) :
    (s.modRegPower r f).hbm = s.hbm := by simp [State.modRegPower]

@[simp] theorem State.askRaise_hbm (s : State) (r kind : Nat) : (s.askRaise r kind).hbm = s.hbm := by simp [State.askRaise]

@[simp] theorem State.askLower_hbm (s : State) (r target : Nat) : (s.askLower r target).hbm = s.hbm := by simp [State.askLower]

@[simp] theorem State.setOpen_hbm (s : State) (r : Nat) : (s.setOpen r).hbm = s.hbm := by simp [State.setOpen]

@[simp] theorem State.touch_hbm (s : State) (c : Nat) : (s.touch c).hbm = s.hbm := by
  unfold State.touch
  split <;> simp

/-! ### Weight generations -/

@[simp] theorem State.modWindow_hbm (s : State) (r k : Nat) (f : Window → Window) :
    (s.modWindow r k f).hbm = s.hbm := by simp [State.modWindow]

@[simp] theorem State.modGen_hbm (s : State) (guest gen : Nat) (f : Generation → Generation) :
    (s.modGen guest gen f).hbm = s.hbm := by simp [State.modGen]

@[simp] theorem State.modWload_hbm (s : State) (id : Nat) (f : WloadRec → WloadRec) :
    (s.modWload id f).hbm = s.hbm := by simp [State.modWload]

@[simp] theorem State.weightFault_hbm (s : State) (l : WloadRec) (code detHi : Nat) :
    (s.weightFault l code detHi).hbm = s.hbm := by simp [State.weightFault]

@[simp] theorem State.sendChain_hbm (s : State) (dest typ gen : Nat) (payload : List Byte) :
    (s.sendChain dest typ gen payload).hbm = s.hbm := by simp [State.sendChain]

@[simp] theorem State.undoOne_hbm (s : State) (l : WloadRec) (status : Nat) : (s.undoOne l status).hbm = s.hbm := by
  unfold State.undoOne
  repeat' split
  all_goals simp

@[simp] theorem State.undoLoad_hbm (s : State) (id status : Nat) : (s.undoLoad id status).hbm = s.hbm := by
  unfold State.undoLoad
  split <;> simp

@[simp] theorem State.fillPieces_hbm (s : State) (l : WloadRec) (ps : List (Nat × Nat × Option (List Byte))) :
    (s.fillPieces l ps).hbm = s.hbm := by
  refine foldl_hbm _ (fun a p => ?_) _ _
  split <;> simp

@[simp] theorem State.forwardShards_hbm (s : State) (id n : Nat) : (s.forwardShards id n).hbm = s.hbm := by
  induction n generalizing s with
  | zero => rfl
  | succ n ih =>
    unfold State.forwardShards
    split
    · rfl
    · split <;> simp [ih]

@[simp] theorem State.requestShards_hbm (s : State) (id : Nat) : (s.requestShards id).hbm = s.hbm := by simp [State.requestShards]

@[simp] theorem State.fillDone_hbm (s : State) (l : WloadRec) : (s.fillDone l).hbm = s.hbm := by
  unfold State.fillDone
  dsimp only
  repeat' split
  all_goals simp

@[simp] theorem State.finishOneLoad_hbm (s : State) (id : Nat) : (s.finishOneLoad id).hbm = s.hbm := by
  unfold State.finishOneLoad
  repeat' split
  all_goals simp

@[simp] theorem State.finishLoad_hbm (s : State) (id : Nat) : (s.finishLoad id).hbm = s.hbm := by
  unfold State.finishLoad
  split <;> simp

@[simp] theorem State.finishLoads_hbm (s : State) : s.finishLoads.hbm = s.hbm := by simp [State.finishLoads]

/-! ### Beats, holds, items and background accesses -/

@[simp] theorem execBeatComplete_keepsHbm (p : Nat) (s : State) : HbmFrom s (execBeatComplete p s) := by
  unfold execBeatComplete
  split <;> simp

@[simp] theorem State.beginOrPause_hbm (s : State) (p r : Nat) : (s.beginOrPause p r).hbm = s.hbm := by simp [State.beginOrPause]

@[simp] theorem execBeatBegin_keepsHbm (p : Nat) (s : State) : HbmFrom s (execBeatBegin p s) := by
  unfold execBeatBegin
  split <;> simp

@[simp] theorem execPauseBeatEnd_keepsHbm (p : Nat) (s : State) : HbmFrom s (execPauseBeatEnd p s) := by
  unfold execPauseBeatEnd
  split <;> simp

@[simp] theorem State.noteReady_hbm (s : State) (p : Nat) : (s.noteReady p).hbm = s.hbm := by
  unfold State.noteReady
  dsimp only
  split <;> simp

@[simp] theorem State.makeReady_hbm (s : State) (c item tag : Nat) : (s.makeReady c item tag).hbm = s.hbm := by simp [State.makeReady]

@[simp] theorem State.takeAwaited_hbm (s : State) (c item n : Nat) : (s.takeAwaited c item n).hbm = s.hbm := by simp [State.takeAwaited]

@[simp] theorem execAwaitResume_keepsHbm (p : Nat) (s : State) : HbmFrom s (execAwaitResume p s) := by
  unfold execAwaitResume
  dsimp only
  split <;> simp

@[simp] theorem execOutboundResume_keepsHbm (p : Nat) (s : State) : HbmFrom s (execOutboundResume p s) := by
  unfold execOutboundResume
  dsimp only
  split <;> simp

@[simp] theorem execOutboundPortDrain_keepsHbm (p : Nat) (last : Bool) (vc dest addr : Nat) (m : PortMsg) (s : State) :
    HbmFrom s (execOutboundPortDrain p last vc dest addr m s) := by
  unfold execOutboundPortDrain
  dsimp only
  split <;> simp

@[simp] theorem State.slotCheck_hbm (s : State) (c decl : Nat) : (s.slotCheck c decl).hbm = s.hbm := by
  unfold State.slotCheck
  split <;> simp

@[simp] theorem State.itemWritten_hbm (s : State) (c item tag : Nat) : (s.itemWritten c item tag).hbm = s.hbm := by
  unfold State.itemWritten
  dsimp only
  repeat' split
  all_goals simp

@[simp] theorem State.queueDelivery_hbm (s : State) (d : Delivery) : (s.queueDelivery d).hbm = s.hbm := by simp [State.queueDelivery]

@[simp] theorem State.countStale_hbm (s : State) (c : Nat) : (s.countStale c).hbm = s.hbm := by simp [State.countStale]

@[simp] theorem State.answerBg_hbm (s : State) (c : Nat) (b : BgReq) (data : List Byte) : (s.answerBg c b data).hbm = s.hbm := by
  unfold State.answerBg
  repeat' split
  all_goals simp

@[simp] theorem State.doBg_hbm (s : State) (c : Nat) (b : BgReq) : (s.doBg c b).hbm = s.hbm := by simp [State.doBg]

@[simp] theorem State.serveBg_hbm (s : State) (c mem : Nat) : (s.serveBg c mem).hbm = s.hbm := by
  unfold State.serveBg
  dsimp only
  repeat' split
  all_goals simp

@[simp] theorem execBackgroundAccessGrant_keepsHbm (c mem : Nat) (s : State) :
    HbmFrom s (execBackgroundAccessGrant c mem s) := by simp [execBackgroundAccessGrant]

/-! ### Campion -/

@[simp] theorem State.countCampion_hbm (s : State) (unit reg n : Nat) :
    (s.countCampion unit reg n).hbm = s.hbm := by simp [State.countCampion]

@[simp] theorem State.useRow_hbm (s : State) (row : MaskRow) : (s.useRow row).hbm = s.hbm := by
  unfold State.useRow
  split <;> simp

/-! ### Commands of the Step and Cache engines that name a slot or a run of steps -/

@[simp] theorem State.startRun_hbm (s : State) (r : Nat) (e : RunEntry) : (s.startRun r e).hbm = s.hbm := by simp [State.startRun]

@[simp] theorem execStep_keepsHbm (g : Nat) (s : State) : HbmFrom s (execStep g s) := by simp [execStep]

@[simp] theorem execPrefill_keepsHbm (g : Nat) (s : State) : HbmFrom s (execPrefill g s) := by simp [execPrefill]

/-! ### Admission of a step -/

@[simp] theorem State.settleRedo_hbm (s : State) (r : Nat) : (s.settleRedo r).hbm = s.hbm := by simp [State.settleRedo]

@[simp] theorem State.assignLanes_hbm (s : State) (l : List (Nat × StepPos)) : (s.assignLanes l).1.hbm = s.hbm := by
  induction l generalizing s with
  | nil => rfl
  | cons q rest ih =>
    unfold State.assignLanes
    split <;> simp [ih]

@[simp] theorem State.admitStep_hbm (s : State) (r : Nat) (f : Flight) (waveAt maskAt : List (Nat × Nat)) :
    (s.admitStep r f waveAt maskAt).hbm = s.hbm := by
  simp [State.admitStep]

@[simp] theorem State.freeFrom_hbm (s : State) (r n j : Nat) : (s.freeFrom r n j).hbm = s.hbm := by simp [State.freeFrom]

/-! ### The window of a cell -/

@[simp] theorem State.cellWrite_hbm (s : State) (c off val : Nat) (guest : Bool) :
    (s.cellWrite c off val guest).hbm = s.hbm := by simp [State.cellWrite]

/-! ### Intakes, the common commands, records that a sink does not take, and the clears and MEM_DATA accesses of a cell's window -/

@[simp] theorem State.countRefused_hbm (s : State) (g e : Nat) : (s.countRefused g e).hbm = s.hbm := by simp [State.countRefused]

@[simp] theorem State.intake_hbm (s : State) (g e : Nat) (m : Msg) : (s.intake g e m).hbm = s.hbm := by simp [State.intake]

@[simp] theorem execCommandListIntake_keepsHbm (m : Msg) (s : State) :
    HbmFrom s (execCommandListIntake m s) := by simp [execCommandListIntake]

@[simp] theorem execNop_keepsHbm (g e : Nat) (s : State) : HbmFrom s (execNop g e s) := by
  simp only [execNop]
  generalize bits _ 255 248 = op
  split
  · simp
  · split <;> simp

@[simp] theorem execWait_keepsHbm (g e : Nat) (s : State) : HbmFrom s (execWait g e s) :=
  withEntry_keepsHbm _ _ _ _ _ fun t id w => by simp

@[simp] theorem execWaitTimeout_keepsHbm (g e seq idx : Nat) (s : State) : HbmFrom s (execWaitTimeout g e seq idx s) := by
  unfold execWaitTimeout
  dsimp only
  repeat' split
  all_goals simp

@[simp] theorem execAuth_keepsHbm (g e : Nat) (s : State) : HbmFrom s (execAuth g e s) :=
  withEntry_keepsHbm _ _ _ _ _ fun t id w => by
    dsimp only
    split <;> simp

@[simp] theorem execCompletionRecordTimeout_keepsHbm (k : Nat) (s : State) : HbmFrom s (execCompletionRecordTimeout k s) := by
  unfold execCompletionRecordTimeout
  repeat' split
  all_goals simp

@[simp] theorem State.refuseSource_hbm (s : State) (src addr rtag : Nat) (rd : Bool) :
    (s.refuseSource src addr rtag rd).hbm = s.hbm := by simp [State.refuseSource]

@[simp] theorem State.absentWrite_hbm (s : State) (src addr val : Nat) : (s.absentWrite src addr val).hbm = s.hbm := by
  unfold State.absentWrite
  dsimp only
  split <;> simp

@[simp] theorem State.memData_hbm (s : State) (src c rtag : Nat) (req : Requester) (data : Option (List Byte)) :
    (s.memData src c rtag req data).hbm = s.hbm := by
  unfold State.memData
  split <;> simp

@[simp] theorem State.windowAccess_hbm (s : State) (src c off rtag : Nat) (val : Option Nat) :
    (s.windowAccess src c off rtag val).hbm = s.hbm := by
  unfold State.windowAccess
  repeat' split
  all_goals simp

@[simp] theorem State.windowWrite_hbm (s : State) (src c off val : Nat) :
    (s.windowWrite src c off val).hbm = s.hbm := by simp [State.windowWrite]

@[simp] theorem execMemDataRead_keepsHbm (src c rtag : Nat) (s : State) :
    HbmFrom s (execMemDataRead src c rtag s) := by simp [execMemDataRead]

@[simp] theorem execMemDataWrite_keepsHbm (src c : Nat) (w : BitVec 64) (s : State) :
    HbmFrom s (execMemDataWrite src c w s) := by simp [execMemDataWrite]

@[simp] theorem execClearBankCounters_keepsHbm (src c : Nat) (s : State) :
    HbmFrom s (execClearBankCounters src c s) := by simp [execClearBankCounters]

@[simp] theorem execClearFaultLatch_keepsHbm (src c : Nat) (s : State) :
    HbmFrom s (execClearFaultLatch src c s) := by simp [execClearFaultLatch]

/-! ### Bandwidth blocks of the Casement ports and the HBM controllers -/

@[simp] theorem State.ownerWrites_hbm (s : State) (src addr val : Nat) (f : State → State) (h : ∀ t, (f t).hbm = t.hbm) :
    (s.ownerWrites src addr val f).hbm = s.hbm := by
  simp [State.ownerWrites, h]

@[simp] theorem State.hbmFault_hbm (s : State) (n code detHi : Nat) : (s.hbmFault n code detHi).hbm = s.hbm := by simp [State.hbmFault]

@[simp] theorem State.modPort_hbm (s : State) (p : Nat) (f : Port → Port) : (s.modPort p f).hbm = s.hbm := by simp [State.modPort]

@[simp] theorem State.modBw_hbm (s : State) (port : Bool) (n : Nat) (f : BwBlock → BwBlock) :
    (s.modBw port n f).hbm = s.hbm := by simp [State.modBw]

@[simp] theorem execBwCtlWrite_keepsHbm (src : Nat) (port : Bool) (n val : Nat) (s : State) :
    HbmFrom s (execBwCtlWrite src port n val s) := by simp [execBwCtlWrite]

@[simp] theorem execBwWindowEnd_keepsHbm (port : Bool) (n : Nat) (s : State) :
    HbmFrom s (execBwWindowEnd port n s) := by simp [execBwWindowEnd]

/-! ### Fault records as words, alert causes, In-Band Interrupts, the shelf status and the service UART -/

@[simp] theorem State.modIface_hbm (s : State) (f : Iface → Iface) : (s.modIface f).hbm = s.hbm := by simp [State.modIface]

@[simp] theorem State.uart_hbm (s : State) (v : Nat) : (s.uart v).hbm = s.hbm := by simp [State.uart]

@[simp] theorem State.setCauses_hbm (s : State) (new : Nat) : (s.setCauses new).hbm = s.hbm := by simp [State.setCauses]

@[simp] theorem State.cause_hbm (s : State) (b : Nat) : (s.cause b).hbm = s.hbm := by simp [State.cause]

@[simp] theorem State.shelfWrite_hbm (s : State) (cmd : Nat) (data : List Byte) :
    (s.shelfWrite cmd data).hbm = s.hbm := by simp [State.shelfWrite]

@[simp] theorem State.shelfStatus_hbm (s : State) : s.shelfStatus.hbm = s.hbm := by simp [State.shelfStatus]

/-! ### The life of a region -/

@[simp] theorem State.losePane_hbm (s : State) (p : Nat) (weight : Bool) : (s.losePane p weight).hbm = s.hbm := by simp [State.losePane]

@[simp] theorem State.scrubPane_hbm (s : State) (p : Nat) (weight : Bool) :
    (s.scrubPane p weight).hbm = s.hbm := by simp [State.scrubPane]

@[simp] theorem State.installRegion_hbm (s : State) (r : Nat) (p : Parsed) : (s.installRegion r p).hbm = s.hbm := by
  refine foldl_hbm _ (fun a k => ?_) _ _
  split <;> simp

@[simp] theorem State.givePanes_hbm (s : State) (ps : List Nat) : (s.givePanes ps).hbm = s.hbm := by simp [State.givePanes]

@[simp] theorem State.refuseLoadOf_hbm (s : State) (r status : Nat) : (s.refuseLoadOf r status).hbm = s.hbm := by
  unfold State.refuseLoadOf
  dsimp only
  split <;> simp

@[simp] theorem State.modRegionDescs_hbm (s : State) (r : Nat) (f : Desc → Desc) :
    (s.modRegionDescs r f).hbm = s.hbm := by simp [State.modRegionDescs]

@[simp] theorem State.homeAll_hbm (s : State) (r : Nat) : (s.homeAll r).hbm = s.hbm := by simp [State.homeAll]

@[simp] theorem State.dropScatters_hbm (s : State) (r : Nat) : (s.dropScatters r).hbm = s.hbm := by simp [State.dropScatters]

@[simp] theorem State.freeSlots_hbm (s : State) (r : Nat) : (s.freeSlots r).hbm = s.hbm := by simp [State.freeSlots]

@[simp] theorem State.unbind_hbm (s : State) (r : Nat) : (s.unbind r).hbm = s.hbm := by simp [State.unbind]

@[simp] theorem State.endWaiting_hbm (s : State) (r : Nat) : (s.endWaiting r).hbm = s.hbm := by
  unfold State.endWaiting
  dsimp only
  split <;> simp

@[simp] theorem State.dropFlight_hbm (s : State) (r : Nat) : (s.dropFlight r).hbm = s.hbm := by
  unfold State.dropFlight
  split <;> simp

@[simp] theorem State.endRelease_hbm (s : State) (r : Nat) : (s.endRelease r).hbm = s.hbm := by
  unfold State.endRelease
  dsimp only
  split <;> simp

@[simp] theorem State.abortLoad_hbm (s : State) (r : Nat) : (s.abortLoad r).hbm = s.hbm := by
  unfold State.abortLoad
  dsimp only
  split <;> simp

@[simp] theorem State.dropFills_hbm (s : State) (r : Nat) : (s.dropFills r).hbm = s.hbm := by simp [State.dropFills]

/-! ### Casement ports -/

@[simp] theorem State.countPort_hbm (s : State) (p k n : Nat) : (s.countPort p k n).hbm = s.hbm := by simp [State.countPort]

@[simp] theorem State.linkFault_hbm (s : State) (p code detHi : Nat) :
    (s.linkFault p code detHi).hbm = s.hbm := by simp [State.linkFault]

@[simp] theorem State.portSecurity_hbm (s : State) (p code detHi : Nat) :
    (s.portSecurity p code detHi).hbm = s.hbm := by simp [State.portSecurity]

@[simp] theorem State.queueTx_hbm (s : State) (p : Nat) (t : TxMsg) : (s.queueTx p t).hbm = s.hbm := by simp [State.queueTx]

@[simp] theorem State.queueOn_hbm (s : State) (p : Nat) (m : Msg) : (s.queueOn p m).hbm = s.hbm := by simp [State.queueOn]

@[simp] theorem State.dropTx_hbm (s : State) (t : TxMsg) : (s.dropTx t).hbm = s.hbm := by
  unfold State.dropTx
  split <;> simp

@[simp] theorem State.dropRecord_hbm (s : State) (t : TxMsg) : (s.dropRecord t).hbm = s.hbm := by
  unfold State.dropRecord
  split <;> simp

/-! ### Fabric addresses, knocks, route tables, multicast branches and barrier trees -/

@[simp] theorem State.modFabric_hbm (s : State) (f : Fabric → Fabric) : (s.modFabric f).hbm = s.hbm := by simp [State.modFabric]

@[simp] theorem State.queueKnock_hbm (s : State) (p : Nat) : (s.queueKnock p).hbm = s.hbm := by simp [State.queueKnock]

@[simp] theorem State.sendKnock_hbm (s : State) (p : Nat) : (s.sendKnock p).hbm = s.hbm := by simp [State.sendKnock]

@[simp] theorem State.resendKnock_hbm (s : State) (p : Nat) : (s.resendKnock p).hbm = s.hbm := by simp [State.resendKnock]

@[simp] theorem State.knockAll_hbm (s : State) : s.knockAll.hbm = s.hbm := by simp [State.knockAll]

@[simp] theorem State.meetNeighbour_hbm (s : State) (p : Nat) (data : List Byte) :
    (s.meetNeighbour p data).hbm = s.hbm := by simp [State.meetNeighbour]

@[simp] theorem State.mcReport_hbm (s : State) (m : McMsg) : (s.mcReport m).hbm = s.hbm := by simp [State.mcReport]

@[simp] theorem State.mcFlush_hbm (s : State) (group n : Nat) : (s.mcFlush group n).hbm = s.hbm := by
  induction n generalizing s with
  | zero => rfl
  | succ n ih =>
    unfold State.mcFlush
    split
    · rfl
    · split <;> simp [ih]

@[simp] theorem State.mcBranchDone_hbm (s : State) (p group seq stuck failed : Nat) :
    (s.mcBranchDone p group seq stuck failed).hbm = s.hbm := by simp [State.mcBranchDone]

@[simp] theorem State.mcBranchFail_hbm (s : State) (p group seq peer : Nat) :
    (s.mcBranchFail p group seq peer).hbm = s.hbm := by simp [State.mcBranchFail]

@[simp] theorem State.mcSent_hbm (s : State) (p seq : Nat) (mc : Nat × Nat) : (s.mcSent p seq mc).hbm = s.hbm := by simp [State.mcSent]

@[simp] theorem State.setBar_hbm (s : State) (t : Nat) (b : Barrier) : (s.setBar t b).hbm = s.hbm := by simp [State.setBar]

@[simp] theorem State.barRelease_hbm (s : State) (t : Nat) (failed : Bool) (fa : Nat) :
    (s.barRelease t failed fa).hbm = s.hbm := by simp [State.barRelease]

@[simp] theorem State.barCheck_hbm (s : State) (t n : Nat) : (s.barCheck t n).hbm = s.hbm := by
  induction n generalizing s with
  | zero => rfl
  | succ n ih => simp [State.barCheck, ih]

@[simp] theorem State.barFail_hbm (s : State) (t cause : Nat) : (s.barFail t cause).hbm = s.hbm := by simp [State.barFail]

@[simp] theorem State.barPortLost_hbm (s : State) (p : Nat) : (s.barPortLost p).hbm = s.hbm := by simp [State.barPortLost]

/-! ### What a port's changes of state do -/

@[simp] theorem State.discardAll_hbm (s : State) (p : Nat) : (s.discardAll p).hbm = s.hbm := by
  simp only [State.discardAll]
  rw [foldl_hbm, State.modPort_hbm]
  intro a t
  split <;> simp

@[simp] theorem State.leaveActive_hbm (s : State) (p : Nat) : (s.leaveActive p).hbm = s.hbm := by simp [State.leaveActive]

@[simp] theorem State.enterDown_hbm (s : State) (p st : Nat) : (s.enterDown p st).hbm = s.hbm := by simp [State.enterDown]

@[simp] theorem State.enterRetraining_hbm (s : State) (p want : Nat) :
    (s.enterRetraining p want).hbm = s.hbm := by simp [State.enterRetraining]

@[simp] theorem State.sendKey_hbm (s : State) (p typ : Nat) (l : List Byte) : (s.sendKey p typ l).hbm = s.hbm := by simp [State.sendKey]

@[simp] theorem State.modAuth_hbm (s : State) (p : Nat) (f : LinkAuth → LinkAuth) :
    (s.modAuth p f).hbm = s.hbm := by simp [State.modAuth]

@[simp] theorem State.beginExchange_hbm (s : State) (p : Nat) : (s.beginExchange p).hbm = s.hbm := by simp [State.beginExchange]

@[simp] theorem State.enterSecuring_hbm (s : State) (p : Nat) : (s.enterSecuring p).hbm = s.hbm := by simp [State.enterSecuring]

@[simp] theorem State.enterActive_hbm (s : State) (p : Nat) (cleartext : Bool) :
    (s.enterActive p cleartext).hbm = s.hbm := by simp [State.enterActive]

@[simp] theorem State.linkFail_hbm (s : State) (p cause : Nat) : (s.linkFail p cause).hbm = s.hbm := by simp [State.linkFail]

@[simp] theorem State.sendEncap_hbm (s : State) (p : Nat) : (s.sendEncap p).hbm = s.hbm := by simp [State.sendEncap]

@[simp] theorem State.tryKeys_hbm (s : State) (p : Nat) : (s.tryKeys p).hbm = s.hbm := by simp [State.tryKeys]

@[simp] theorem State.beginRekey_hbm (s : State) (p : Nat) : (s.beginRekey p).hbm = s.hbm := by simp [State.beginRekey]

theorem State.takeKey_hbm {s t : State} {p typ : Nat} {c : List Byte} (h : s.takeKey p typ = some (c, t)) : t.hbm = s.hbm := by
  simp only [State.takeKey] at h
  split at h
  · contradiction
  · cases h
    simp

/-! ### The Keeper's mailbox, the TAP's lock, and zeroisation -/

@[simp] theorem State.mbDone_hbm (s : State) (g result : Nat) (resp : List Byte) :
    (s.mbDone g result resp).hbm = s.hbm := by simp [State.mbDone]

@[simp] theorem withRequest_keepsHbm (g op : Nat) (s : State) (f : State → List Byte → State) (h : ∀ t b, (f t b).hbm = t.hbm) :
    HbmFrom s (withRequest g op s f) := by
  simp [withRequest, h]

@[simp] theorem State.tapLock_hbm (s : State) : s.tapLock.hbm = s.hbm := by simp [State.tapLock]

@[simp] theorem State.dropLink_hbm (s : State) (p : Nat) : (s.dropLink p).hbm = s.hbm := by simp [State.dropLink]

@[simp] theorem State.dropLinks_hbm (s : State) : s.dropLinks.hbm = s.hbm := by simp [State.dropLinks]

@[simp] theorem State.zeroiseKeys_hbm (s : State) (kind : Nat) : (s.zeroiseKeys kind).hbm = s.hbm := by
  unfold State.zeroiseKeys
  dsimp only
  split <;> simp

@[simp] theorem State.settleZeroise_hbm (s : State) : s.settleZeroise.hbm = s.hbm := by
  unfold State.settleZeroise
  split <;> simp

/-! ### Commands of the Glaze engine -/

@[simp] theorem State.startLoad_hbm (s : State) (r : Nat) (l : LoadRec) : (s.startLoad r l).hbm = s.hbm := by simp [State.startLoad]

@[simp] theorem State.tryLoad_hbm (s : State) (r : Nat) (l : LoadRec) : (s.tryLoad r l).hbm = s.hbm := by simp [State.tryLoad]

@[simp] theorem execLoad_keepsHbm (g : Nat) (hdr : List Byte) (s : State) : HbmFrom s (execLoad g hdr s) := by simp [execLoad]

@[simp] theorem execImageCopyComplete_keepsHbm (r : Nat) (bytes : List Byte) (s : State) : HbmFrom s (execImageCopyComplete r bytes s) := by
  unfold execImageCopyComplete
  repeat' split
  all_goals simp

@[simp] theorem execSignatureVerified_keepsHbm (r : Nat) (ok : Bool) (s : State) : HbmFrom s (execSignatureVerified r ok s) := by
  unfold execSignatureVerified
  repeat' split
  all_goals simp

@[simp] theorem execLoadAdmissionTimeout_keepsHbm (r : Nat) (s : State) : HbmFrom s (execLoadAdmissionTimeout r s) := by
  unfold execLoadAdmissionTimeout
  repeat' split
  all_goals simp

@[simp] theorem execScrubComplete_keepsHbm (r : Nat) (s : State) : HbmFrom s (execScrubComplete r s) := by simp [execScrubComplete]

@[simp] theorem State.createGuest_hbm (s : State) (id : EntryId) (w : Nat) :
    (s.createGuest id w).hbm = s.hbm := by simp [State.createGuest]

@[simp] theorem execGuestCreate_keepsHbm (g : Nat) (s : State) : HbmFrom s (execGuestCreate g s) := by simp [execGuestCreate]

@[simp] theorem execGuestLimits_keepsHbm (g : Nat) (s : State) : HbmFrom s (execGuestLimits g s) := by simp [execGuestLimits]

@[simp] theorem State.flushQueues_hbm (s : State) (n : Nat) : (s.flushQueues n).hbm = s.hbm := by
  rw [State.flushQueues, foldl_hbm]
  intro a e
  rw [foldl_hbm]
  intro b l
  simp only [State.settleWaits_hbm, State.retireList_hbm, State.settleAuth_hbm]
  rw [foldl_hbm]
  intro c id
  split <;> simp

@[simp] theorem State.freeParks_hbm (s : State) (n : Nat) : (s.freeParks n).hbm = s.hbm := by
  simp [State.freeParks]

@[simp] theorem State.freeSources_hbm (s : State) (n : Nat) : (s.freeSources n).hbm = s.hbm := by simp [State.freeSources]

/-! ### Commands of the Keeper -/

@[simp] theorem execCredGet_keepsHbm (g : Nat) (s : State) : HbmFrom s (execCredGet g s) := by simp [execCredGet]

@[simp] theorem execAttest_keepsHbm (g : Nat) (s : State) : HbmFrom s (execAttest g s) := by simp [execAttest]

@[simp] theorem State.setKey_hbm (s : State) (g : Nat) (key : List Byte) : (s.setKey g key).hbm = s.hbm := by simp [State.setKey]

@[simp] theorem execOwnerClaim_keepsHbm (g : Nat) (s : State) : HbmFrom s (execOwnerClaim g s) :=
  withRequest_keepsHbm _ _ _ _ fun t b => by
    split
    · simp
    · split
      · simp
      · split <;> simp

@[simp] theorem execKeyInstall_keepsHbm (g : Nat) (s : State) : HbmFrom s (execKeyInstall g s) :=
  withRequest_keepsHbm _ _ _ _ fun t b => by
    dsimp only
    split
    · simp
    · split
      · simp
      · split <;> simp

@[simp] theorem execKeyEnroll_keepsHbm (g : Nat) (s : State) : HbmFrom s (execKeyEnroll g s) := by simp [execKeyEnroll]

@[simp] theorem execKeyRevoke_keepsHbm (g : Nat) (s : State) : HbmFrom s (execKeyRevoke g s) :=
  withRequest_keepsHbm _ _ _ _ fun t b => by split <;> simp

@[simp] theorem execTapUnlock_keepsHbm (g : Nat) (s : State) : HbmFrom s (execTapUnlock g s) := by simp [execTapUnlock]

@[simp] theorem execTapLock_keepsHbm (g : Nat) (s : State) : HbmFrom s (execTapLock g s) := by simp [execTapLock]

@[simp] theorem execTapRelock_keepsHbm (s : State) : HbmFrom s (execTapRelock s) := by simp [execTapRelock]

@[simp] theorem execApprovedEnter_keepsHbm (g : Nat) (s : State) : HbmFrom s (execApprovedEnter g s) := by simp [execApprovedEnter]

@[simp] theorem execApprovedLeave_keepsHbm (g : Nat) (s : State) : HbmFrom s (execApprovedLeave g s) := by simp [execApprovedLeave]

@[simp] theorem State.zeroiseJob_hbm (s : State) (g op : Nat) : (s.zeroiseJob g op).hbm = s.hbm := by simp [State.zeroiseJob]

@[simp] theorem execFwActivate_keepsHbm (g : Nat) (s : State) : HbmFrom s (execFwActivate g s) := by simp [execFwActivate]

@[simp] theorem State.endFetch_hbm (s : State) (g : Nat) (bundle : Option (List Byte)) (sigOk : Bool) :
    (s.endFetch g bundle sigOk).hbm = s.hbm := by
  unfold State.endFetch
  split <;> simp

@[simp] theorem execMbStatusDone_keepsHbm (bundle : Option (List Byte)) (sigOk : Bool) (s : State) :
    HbmFrom s (execMbStatusDone bundle sigOk s) := by
  unfold execMbStatusDone
  repeat' split
  all_goals simp

@[simp] theorem execReservationWriteComplete_keepsHbm (g : Nat) (s : State) : HbmFrom s (execReservationWriteComplete g s) := by
  unfold execReservationWriteComplete
  repeat' split
  all_goals simp

@[simp] theorem execConditionalTestFail_keepsHbm (n sub : Nat) (s : State) :
    HbmFrom s (execConditionalTestFail n sub s) := by simp [execConditionalTestFail]

@[simp] theorem execKeeperRestart_keepsHbm (fail : Nat) (s : State) : HbmFrom s (execKeeperRestart fail s) := by simp [execKeeperRestart]

@[simp] theorem execDrbgReseed_keepsHbm (s : State) : HbmFrom s (execDrbgReseed s) := by simp [execDrbgReseed]

/-! ### The event log, critical shutdown, and what a cold boot keeps -/

@[simp] theorem State.eventAt_hbm (s : State) (typ running : Nat) (e : EventSub) :
    (s.eventAt typ running e).hbm = s.hbm := by simp [State.eventAt]

@[simp] theorem State.event_hbm (s : State) (typ : Nat) (e : EventSub) : (s.event typ e).hbm = s.hbm := by simp [State.event]

@[simp] theorem State.applyEnv_hbm (s : State) : s.applyEnv.hbm = s.hbm := by simp [State.applyEnv]

@[simp] theorem State.lowerAll_hbm (s : State) (st : Nat) : (s.lowerAll st).hbm = s.hbm := by simp [State.lowerAll]

@[simp] theorem State.portsDown_hbm (s : State) : s.portsDown.hbm = s.hbm := by simp [State.portsDown]

@[simp] theorem State.convertersStop_hbm (s : State) : s.convertersStop.hbm = s.hbm := by simp [State.convertersStop]

@[simp] theorem State.shutdownHigh_hbm (s : State) : s.shutdownHigh.hbm = s.hbm := by simp [State.shutdownHigh]

@[simp] theorem State.romSelect_hbm (s : State) : s.romSelect.hbm = s.hbm := by simp [State.romSelect]

@[simp] theorem State.bootStopped_hbm (s : State) : s.bootStopped.hbm = s.hbm := by simp [State.bootStopped]

/-! ### Pane rails, operating profiles, and the conditions of Sprint -/

@[simp] theorem State.modRegProf_hbm (s : State) (r : Nat) (f : RegProfile → RegProfile) :
    (s.modRegProf r f).hbm = s.hbm := by simp [State.modRegProf]

@[simp] theorem State.askGrant_hbm (s : State) (w : Nat) : (s.askGrant w).hbm = s.hbm := by simp [State.askGrant]

@[simp] theorem State.settleGrant_hbm (s : State) : s.settleGrant.hbm = s.hbm := by simp [State.settleGrant]

@[simp] theorem State.beginSwitch_hbm (s : State) (r target : Nat) : (s.beginSwitch r target).hbm = s.hbm := by simp [State.beginSwitch]

@[simp] theorem State.recordProfile_hbm (s : State) (r p : Nat) : (s.recordProfile r p).hbm = s.hbm := by simp [State.recordProfile]

@[simp] theorem State.changeProfile_hbm (s : State) (r p : Nat) (id : EntryId) (limit : Nat) :
    (s.changeProfile r p id limit).hbm = s.hbm := by simp [State.changeProfile]

@[simp] theorem State.nextProfile_hbm (s : State) (r n : Nat) : (s.nextProfile r n).hbm = s.hbm := by
  induction n generalizing s with
  | zero => rfl
  | succ n ih =>
    simp only [State.nextProfile]
    split <;> simp [ih]

@[simp] theorem State.settleProfiles_hbm (s : State) (r : Nat) : (s.settleProfiles r).hbm = s.hbm := by simp [State.settleProfiles]

@[simp] theorem State.refuseProfile_hbm (s : State) (r status : Nat) : (s.refuseProfile r status).hbm = s.hbm := by
  unfold State.refuseProfile
  dsimp only
  split <;> simp

@[simp] theorem State.finishSwitch_hbm (s : State) (r : Nat) : (s.finishSwitch r).hbm = s.hbm := by
  simp only [State.finishSwitch]
  split
  · simp
  · simp only [State.settleProfiles_hbm, State.settleGrant_hbm]
    split <;> simp

@[simp] theorem State.capRegion_hbm (s : State) (r : Nat) : (s.capRegion r).hbm = s.hbm := by
  unfold State.capRegion
  dsimp only
  repeat' split
  all_goals simp

/-! ### The course of a step -/

@[simp] theorem State.freeWord32_hbm (s : State) : s.freeWord32.2.hbm = s.hbm := rfl

@[simp] theorem State.feedSlice_hbm (s : State) (r : Nat) (f : Flight) (g : Generation) (m : Manifest) (im : Image) (v i : Nat) :
    (s.feedSlice r f g m im v i).hbm = s.hbm := by
  unfold State.feedSlice
  dsimp only
  split <;> simp

@[simp] theorem State.feed_hbm (s : State) (r : Nat) (l : Option (List (Nat × Nat))) : (s.feed r l).hbm = s.hbm := by
  unfold State.feed
  dsimp only
  repeat' split
  all_goals simp

@[simp] theorem State.feedAgain_hbm (s : State) : s.feedAgain.hbm = s.hbm := by
  refine foldl_hbm _ (fun a q => ?_) _ _
  split <;> simp

@[simp] theorem State.beginPanes_hbm (s : State) (r : Nat) : (s.beginPanes r).hbm = s.hbm := by simp [State.beginPanes]

@[simp] theorem State.runFlight_hbm (s : State) (r : Nat) (f : Flight) : (s.runFlight r f).hbm = s.hbm := by simp [State.runFlight]

@[simp] theorem execStepStart_keepsHbm (r : Nat) (s : State) : HbmFrom s (execStepStart r s) := by
  unfold execStepStart
  dsimp only
  repeat' split
  all_goals simp

@[simp] theorem State.replay_hbm (s : State) (r : Nat) : (s.replay r).hbm = s.hbm := by
  unfold State.replay
  split <;> simp

@[simp] theorem execPromotionComplete_keepsHbm (r k : Nat) (s : State) : HbmFrom s (execPromotionComplete r k s) := by
  unfold execPromotionComplete
  dsimp only
  repeat' split
  all_goals simp

@[simp] theorem execShardCandidates_keepsHbm (r : Nat) (bytes : List Byte) (s : State) : HbmFrom s (execShardCandidates r bytes s) := by
  unfold execShardCandidates
  dsimp only
  repeat' split
  all_goals simp

@[simp] theorem execCampionResult_keepsHbm (r q : Nat) (s : State) : HbmFrom s (execCampionResult r q s) := by
  unfold execCampionResult
  dsimp only
  repeat' split
  all_goals simp

@[simp] theorem State.sendPair_hbm (s : State) (r typ value : Nat) : (s.sendPair r typ value).hbm = s.hbm := by simp [State.sendPair]

@[simp] theorem State.startScatter_hbm (s : State) (r : Nat) : (s.startScatter r).hbm = s.hbm := by
  unfold State.startScatter
  split <;> simp

@[simp] theorem State.countStaged_hbm (s : State) (r stg q : Nat) (l : KvLayer) : (s.countStaged r stg q l).hbm = s.hbm := by
  refine foldl_hbm _ (fun a i => ?_) _ _
  split <;> simp

@[simp] theorem execEpochPassed_keepsHbm (d : Nat) (s : State) : HbmFrom s (execEpochPassed d s) := by simp [execEpochPassed]

@[simp] theorem execParkExpiry_keepsHbm (i : Nat) (s : State) : HbmFrom s (execParkExpiry i s) := by simp [execParkExpiry]

@[simp] theorem execDraftRecord_keepsHbm (m : Msg) (s : State) : HbmFrom s (execDraftRecord m s) := by simp [execDraftRecord]

/-! ### The death of a cell, and the in-place row-shift -/

@[simp] theorem State.markDead_hbm (s : State) (c : Nat) : (s.markDead c).hbm = s.hbm := by simp [State.markDead]

@[simp] theorem State.loseSlices_hbm (s : State) (r c : Nat) : (s.loseSlices r c).hbm = s.hbm := by simp [State.loseSlices]

@[simp] theorem State.holdForShift_hbm (s : State) (r : Nat) : (s.holdForShift r).hbm = s.hbm := by simp [State.holdForShift]

@[simp] theorem State.serveHeld_hbm (s : State) (hit : Nat → Bool) : (s.serveHeld hit).hbm = s.hbm := by simp [State.serveHeld]

/-! ### Commands of the power supply and of pane regulation -/

@[simp] theorem State.powerPane_hbm (s : State) (p code detHi : Nat) :
    (s.powerPane p code detHi).hbm = s.hbm := by simp [State.powerPane]

@[simp] theorem State.powerModule_hbm (s : State) (code detHi : Nat) :
    (s.powerModule code detHi).hbm = s.hbm := by simp [State.powerModule]

@[simp] theorem State.setVin_hbm (s : State) (vin : Nat) : (s.setVin vin).hbm = s.hbm := by simp [State.setVin]

@[simp] theorem execInputLow_keepsHbm (vin : Nat) (s : State) : HbmFrom s (execInputLow vin s) := by simp [execInputLow]

@[simp] theorem execInputLowRelease_keepsHbm (vin : Nat) (s : State) : HbmFrom s (execInputLowRelease vin s) := by simp [execInputLowRelease]

@[simp] theorem execInputHigh_keepsHbm (vin : Nat) (s : State) : HbmFrom s (execInputHigh vin s) := by simp [execInputHigh]

@[simp] theorem execConverterFail_keepsHbm (k c : Nat) (s : State) : HbmFrom s (execConverterFail k c s) := by simp [execConverterFail]

@[simp] theorem execBoost_keepsHbm (p vmin : Nat) (s : State) : HbmFrom s (execBoost p vmin s) := by simp [execBoost]

@[simp] theorem execClockStretch_keepsHbm (p vmin : Nat) (s : State) : HbmFrom s (execClockStretch p vmin s) := by simp [execClockStretch]

@[simp] theorem execShunt_keepsHbm (p vmax : Nat) (s : State) : HbmFrom s (execShunt p vmax s) := by simp [execShunt]

@[simp] theorem execDroop_keepsHbm (p vmin : Nat) (s : State) : HbmFrom s (execDroop p vmin s) := by simp [execDroop]

@[simp] theorem execLoadStepRaise_keepsHbm (p : Nat) (s : State) : HbmFrom s (execLoadStepRaise p s) := by simp [execLoadStepRaise]

@[simp] theorem execLoadStepRaiseEnd_keepsHbm (p : Nat) (s : State) : HbmFrom s (execLoadStepRaiseEnd p s) := by simp [execLoadStepRaiseEnd]

@[simp] theorem State.raisePwr_hbm (s : State) (r n : Nat) : (s.raisePwr r n).hbm = s.hbm := by simp [State.raisePwr]

@[simp] theorem execPowerFastSample_keepsHbm (amps : List Nat) (bus : Nat) (s : State) :
    HbmFrom s (execPowerFastSample amps bus s) := by simp [execPowerFastSample]

@[simp] theorem execSegmentOver_keepsHbm (k : Nat) (s : State) : HbmFrom s (execSegmentOver k s) := by
  unfold execSegmentOver
  dsimp only
  repeat' split
  all_goals simp

/-! ### Temperatures -/

@[simp] theorem State.thermalPane_hbm (s : State) (p code detHi : Nat) :
    (s.thermalPane p code detHi).hbm = s.hbm := by simp [State.thermalPane]

@[simp] theorem State.thermalModule_hbm (s : State) (code detHi : Nat) :
    (s.thermalModule code detHi).hbm = s.hbm := by simp [State.thermalModule]

@[simp] theorem State.readSensor_hbm (s : State) (x : Nat × Int × Int) : (s.readSensor x).hbm = s.hbm := by simp [State.readSensor]

@[simp] theorem State.channelFault_hbm (s : State) (c : Channel) (code : Nat) :
    (s.channelFault c code).hbm = s.hbm := by simp [State.channelFault]

@[simp] theorem State.warn_hbm (s : State) (c : Channel) : (s.warn c).hbm = s.hbm := by simp [State.warn]

@[simp] theorem State.declareStop_hbm (s : State) (code typ detail : Nat) :
    (s.declareStop code typ detail).hbm = s.hbm := by simp [State.declareStop]

@[simp] theorem State.recoverStop_hbm (s : State) : s.recoverStop.hbm = s.hbm := by simp [State.recoverStop]

@[simp] theorem State.roundTh_hbm (s : State) (r : Nat) : (s.roundTh r).hbm = s.hbm := by simp [State.roundTh]

@[simp] theorem State.roundRate_hbm (s : State) (r : Nat) : (s.roundRate r).hbm = s.hbm := by simp [State.roundRate]

@[simp] theorem State.compensate_hbm (s : State) (p : Nat) : (s.compensate p).hbm = s.hbm := by simp [State.compensate]

/-! ### Resets, the boot sequence, standby activation, firmware attempts and commits -/

@[simp] theorem State.toStage_hbm (s : State) (n : Nat) : (s.toStage n).hbm = s.hbm := by simp [State.toStage]

@[simp] theorem State.copiesFailed_hbm (s : State) : s.copiesFailed.hbm = s.hbm := by simp [State.copiesFailed]

@[simp] theorem State.toStandby_hbm (s : State) : s.toStandby.hbm = s.hbm := by simp [State.toStandby]

@[simp] theorem State.keeperFails_hbm (s : State) (n : Nat) : (s.keeperFails n).hbm = s.hbm := by simp [State.keeperFails]

@[simp] theorem State.rejectArmed_hbm (s : State) : s.rejectArmed.hbm = s.hbm := by simp [State.rejectArmed]

@[simp] theorem State.raiseFuses_hbm (s : State) (x : FwSlot) : (s.raiseFuses x).hbm = s.hbm := by simp [State.raiseFuses]

@[simp] theorem State.keeperStart_hbm (s : State) : s.keeperStart.hbm = s.hbm := by simp [State.keeperStart]

@[simp] theorem State.loadFlash_hbm (s : State) (tags : List Nat) : (s.loadFlash tags).hbm = s.hbm := by simp [State.loadFlash]

@[simp] theorem State.mergePhases_hbm (s : State) : s.mergePhases.hbm = s.hbm := by simp [State.mergePhases]

@[simp] theorem State.thinEdge_hbm (s : State) (field edge n : Nat) : (s.thinEdge field edge n).hbm = s.hbm := by
  induction n generalizing s with
  | zero => rfl
  | succ n ih => simp [State.thinEdge, ih]

@[simp] theorem State.bist_hbm (s : State) (found : List Nat) : (s.bist found).hbm = s.hbm := by simp [State.bist]

@[simp] theorem State.fwCommit_hbm (s : State) : s.fwCommit.hbm = s.hbm := by simp [State.fwCommit]

@[simp] theorem State.becomeReady_hbm (s : State) : s.becomeReady.hbm = s.hbm := by simp [State.becomeReady]

/-! ### Commands of the Casement ports -/

@[simp] theorem execPeerSignalDetect_keepsHbm (p : Nat) (s : State) : HbmFrom s (execPeerSignalDetect p s) := by simp [execPeerSignalDetect]

@[simp] theorem execTrainingComplete_keepsHbm (p lock pol : Nat) (snr : List Nat) (s : State) :
    HbmFrom s (execTrainingComplete p lock pol snr s) := by
  unfold execTrainingComplete
  dsimp only
  repeat' split
  all_goals simp

@[simp] theorem execTrainFail_keepsHbm (p lock : Nat) (s : State) : HbmFrom s (execTrainFail p lock s) := by simp [execTrainFail]

@[simp] theorem execLaneLoss_keepsHbm (p lane : Nat) (s : State) : HbmFrom s (execLaneLoss p lane s) := by simp [execLaneLoss]

@[simp] theorem execRetrainComplete_keepsHbm (p lock : Nat) (s : State) : HbmFrom s (execRetrainComplete p lock s) := by
  unfold execRetrainComplete
  dsimp only
  repeat' split
  all_goals simp

@[simp] theorem execRetrainTimeout_keepsHbm (p : Nat) (s : State) : HbmFrom s (execRetrainTimeout p s) := by simp [execRetrainTimeout]

@[simp] theorem State.portControl_hbm (s : State) (src p val : Nat) :
    (s.portControl src p val).hbm = s.hbm := by simp [State.portControl]

@[simp] theorem execPortEnable_keepsHbm (src p val : Nat) (s : State) : HbmFrom s (execPortEnable src p val s) := by simp [execPortEnable]

@[simp] theorem execRetrain_keepsHbm (src p val : Nat) (s : State) : HbmFrom s (execRetrain src p val s) := by simp [execRetrain]

@[simp] theorem execFullwidth_keepsHbm (src p val : Nat) (s : State) : HbmFrom s (execFullwidth src p val s) := by simp [execFullwidth]

@[simp] theorem execRekey_keepsHbm (src p val : Nat) (s : State) : HbmFrom s (execRekey src p val s) := by simp [execRekey]

@[simp] theorem execRekeyDue_keepsHbm (p : Nat) (s : State) : HbmFrom s (execRekeyDue p s) := by simp [execRekeyDue]

@[simp] theorem execRunLimitExhausted_keepsHbm (p : Nat) (s : State) :
    HbmFrom s (execRunLimitExhausted p s) := by simp [execRunLimitExhausted]

@[simp] theorem execSecuringTimeout_keepsHbm (p : Nat) (s : State) : HbmFrom s (execSecuringTimeout p s) := by simp [execSecuringTimeout]

@[simp] theorem execHello_keepsHbm (p : Nat) (certOk credOk : Bool) (s : State) : HbmFrom s (execHello p certOk credOk s) := by
  unfold execHello
  split
  · simp
  · split
    · simp
    · split
      · simp
      · next c u hu => simp [State.takeKey_hbm hu]

@[simp] theorem execEncap_keepsHbm (p : Nat) (s : State) : HbmFrom s (execEncap p s) := by
  unfold execEncap
  split
  · simp
  · split
    · simp
    · split
      · simp
      · next c u hu => simp [State.takeKey_hbm hu]

@[simp] theorem execFinish_keepsHbm (p : Nat) (engineOk : Bool) (s : State) : HbmFrom s (execFinish p engineOk s) := by
  unfold execFinish
  split
  · simp
  · split
    · simp
    · split
      · next c u k hu hk => simp [State.takeKey_hbm hu]
      · simp

@[simp] theorem execLinkAbort_keepsHbm (p : Nat) (s : State) : HbmFrom s (execLinkAbort p s) := by
  unfold execLinkAbort
  split
  · simp
  · split
    · simp
    · next c u hu => simp [State.takeKey_hbm hu]

@[simp] theorem execLinkAuthRetry_keepsHbm (p : Nat) (s : State) : HbmFrom s (execLinkAuthRetry p s) := by
  unfold execLinkAuthRetry
  dsimp only
  repeat' split
  all_goals simp

@[simp] theorem State.putFlit_hbm (s : State) (p : Nat) (f : Flit) : (s.putFlit p f).hbm = s.hbm := by simp [State.putFlit]

@[simp] theorem State.putSeq_hbm (s : State) (p : Nat) (f : Flit) : (s.putSeq p f).hbm = s.hbm := by simp [State.putSeq]

@[simp] theorem State.putRun_hbm (s : State) (p : Nat) (f : Flit) : (s.putRun p f).hbm = s.hbm := by simp [State.putRun]

@[simp] theorem State.putData_hbm (s : State) (p vc : Nat) : (s.putData p vc).hbm = s.hbm := by
  unfold State.putData
  repeat' split
  all_goals simp

@[simp] theorem State.putSeal_hbm (s : State) (p : Nat) : (s.putSeal p).hbm = s.hbm := by simp [State.putSeal]

@[simp] theorem State.putReplay_hbm (s : State) (p : Nat) (f : Flit) (r : List Flit) :
    (s.putReplay p f r).hbm = s.hbm := by simp [State.putReplay]

@[simp] theorem State.putIdle_hbm (s : State) (p : Nat) : (s.putIdle p).hbm = s.hbm := by simp [State.putIdle]

theorem State.slotControl_hbm {s t : State} {p : Nat} (h : s.slotControl p = some t) : t.hbm = s.hbm := by
  simp only [State.slotControl] at h
  split at h
  · cases h
    simp
  · split at h
    · cases h
      simp
    · split at h
      · cases h
        simp
      · contradiction

@[simp] theorem State.slotControl_getD_hbm (s t : State) (p : Nat) (ht : t.hbm = s.hbm) :
    ((s.slotControl p).getD t).hbm = s.hbm := by
  cases h : s.slotControl p with
  | none => exact ht
  | some u => exact State.slotControl_hbm h

@[simp] theorem State.slotSecuring_hbm (s : State) (p : Nat) : (s.slotSecuring p).hbm = s.hbm := by
  unfold State.slotSecuring
  split <;> simp

@[simp] theorem State.slotBulk_hbm (s : State) (p : Nat) : (s.slotBulk p).hbm = s.hbm := by
  unfold State.slotBulk
  dsimp only
  repeat' split
  all_goals simp

@[simp] theorem State.slotActive_hbm (s : State) (p : Nat) : (s.slotActive p).hbm = s.hbm := by
  unfold State.slotActive
  dsimp only
  repeat' split
  all_goals simp

@[simp] theorem execFlitTransmit_keepsHbm (p : Nat) (s : State) : HbmFrom s (execFlitTransmit p s) := by simp [execFlitTransmit]

@[simp] theorem State.requestRetry_hbm (s : State) (p : Nat) : (s.requestRetry p).hbm = s.hbm := by simp [State.requestRetry]

@[simp] theorem State.takeAck_hbm (s : State) (p ack : Nat) : (s.takeAck p ack).hbm = s.hbm := by
  unfold State.takeAck
  dsimp only
  split <;> simp

@[simp] theorem State.takeHeader_hbm (s : State) (p h : Nat) : (s.takeHeader p h).hbm = s.hbm := by simp [State.takeHeader]

@[simp] theorem State.takeQuick_hbm (s : State) (p h : Nat) : (s.takeQuick p h).hbm = s.hbm := by simp [State.takeQuick]

@[simp] theorem State.acceptFlit_hbm (s : State) (p : Nat) (f : Flit) : (s.acceptFlit p f).hbm = s.hbm := by simp [State.acceptFlit]

@[simp] theorem State.feedTx_hbm (s : State) (p q vc : Nat) (data : List Byte) (eom : Bool) :
    (s.feedTx p q vc data eom).hbm = s.hbm := by simp [State.feedTx]

@[simp] theorem State.dropOpen_hbm (s : State) (p vc : Nat) : (s.dropOpen p vc).hbm = s.hbm := by
  unfold State.dropOpen
  repeat' split
  all_goals simp

@[simp] theorem State.releaseData_hbm (s : State) (p : Nat) (f : Flit) : (s.releaseData p f).hbm = s.hbm := by
  unfold State.releaseData
  dsimp only
  repeat' split
  all_goals simp

@[simp] theorem State.releaseFlit_hbm (s : State) (p : Nat) (f : Flit) : (s.releaseFlit p f).hbm = s.hbm := by simp [State.releaseFlit]

@[simp] theorem State.takeSeal_hbm (s : State) (p : Nat) (f : Flit) : (s.takeSeal p f).hbm = s.hbm := by simp [State.takeSeal]

@[simp] theorem State.takeRetryReq_hbm (s : State) (p ref : Nat) : (s.takeRetryReq p ref).hbm = s.hbm := by simp [State.takeRetryReq]

@[simp] theorem State.receive_hbm (s : State) (p : Nat) (f : RxFlit) : (s.receive p f).hbm = s.hbm := by simp [State.receive]

@[simp] theorem execDataFlitReceive_keepsHbm (p : Nat) (f : RxFlit) (s : State) :
    HbmFrom s (execDataFlitReceive p f s) := by simp [execDataFlitReceive]

@[simp] theorem execIdle_keepsHbm (p : Nat) (f : RxFlit) (s : State) : HbmFrom s (execIdle p f s) := by simp [execIdle]

@[simp] theorem execSeal_keepsHbm (p : Nat) (f : RxFlit) (s : State) : HbmFrom s (execSeal p f s) := by simp [execSeal]

@[simp] theorem execRetryReq_keepsHbm (p : Nat) (f : RxFlit) (s : State) : HbmFrom s (execRetryReq p f s) := by simp [execRetryReq]

@[simp] theorem execReplay_keepsHbm (p : Nat) (f : RxFlit) (s : State) : HbmFrom s (execReplay p f s) := by simp [execReplay]

@[simp] theorem execRetryReqRepeat_keepsHbm (p : Nat) (s : State) : HbmFrom s (execRetryReqRepeat p s) := by simp [execRetryReqRepeat]

@[simp] theorem execCreditStall_keepsHbm (p vc k : Nat) (s : State) : HbmFrom s (execCreditStall p vc k s) := by
  unfold execCreditStall
  repeat' split
  all_goals simp

@[simp] theorem execQuickRead_keepsHbm (p : Nat) (f : RxFlit) (s : State) : HbmFrom s (execQuickRead p f s) := by simp [execQuickRead]

/-! ### Commands of the Weight engine and its chains -/

@[simp] theorem execWload_keepsHbm (g : Nat) (s : State) : HbmFrom s (execWload g s) := by simp [execWload]

@[simp] theorem State.refuseLoad_hbm (s : State) (l : WloadRec) (status : Nat) :
    (s.refuseLoad l status).hbm = s.hbm := by simp [State.refuseLoad]

@[simp] theorem execShardTimeout_keepsHbm (id i : Nat) (s : State) : HbmFrom s (execShardTimeout id i s) := by
  unfold execShardTimeout
  repeat' split
  all_goals simp

@[simp] theorem execSwing_keepsHbm (g : Nat) (s : State) : HbmFrom s (execSwing g s) :=
  withCritical_keepsHbm _ _ _ _ _ fun t id w => by
    extract_lets gen r x
    split
    · simp
    · split
      · extract_lets layout
        split
        · simp
        · split
          · split <;> simp
          · split
            · split <;> simp
            · simp
            · simp
      · simp

@[simp] theorem execRetire_keepsHbm (g : Nat) (s : State) : HbmFrom s (execRetire g s) :=
  withCommand_keepsHbm _ _ _ _ _ fun t id w => by
    dsimp only
    split <;> simp

@[simp] theorem execJoin_keepsHbm (m : Msg) (s : State) : HbmFrom s (execJoin m s) := by
  unfold execJoin
  repeat' split
  all_goals simp

@[simp] theorem execShard_keepsHbm (m : Msg) (s : State) : HbmFrom s (execShard m s) := by
  unfold execShard
  repeat' split
  all_goals simp

@[simp] theorem execHold_keepsHbm (m : Msg) (s : State) : HbmFrom s (execHold m s) := by
  unfold execHold
  repeat' split
  all_goals simp

@[simp] theorem execChainHoldTimer_keepsHbm (id : Nat) (s : State) : HbmFrom s (execChainHoldTimer id s) := by
  unfold execChainHoldTimer
  split <;> simp

@[simp] theorem execChainAbort_keepsHbm (m : Msg) (s : State) : HbmFrom s (execChainAbort m s) := by
  unfold execChainAbort
  repeat' split
  all_goals simp

@[simp] theorem execManifest_keepsHbm (m : Msg) (s : State) : HbmFrom s (execManifest m s) := by
  unfold execManifest
  repeat' split
  all_goals simp

@[simp] theorem execManifestReadTimeout_keepsHbm (id k : Nat) (s : State) : HbmFrom s (execManifestReadTimeout id k s) := by
  unfold execManifestReadTimeout
  repeat' split
  all_goals simp

@[simp] theorem execShardAck_keepsHbm (m : Msg) (s : State) : HbmFrom s (execShardAck m s) := by
  unfold execShardAck
  repeat' split
  all_goals simp

@[simp] theorem execChainJoinTimeout_keepsHbm (id : Nat) (s : State) : HbmFrom s (execChainJoinTimeout id s) := by
  unfold execChainJoinTimeout
  split <;> simp

/-! ### Commands of discovery, the host bridge, multicast, barriers and region arrivals -/

@[simp] theorem State.takeRx_hbm (s : State) (p : Nat) (m : Msg) : (s.takeRx p m).hbm = s.hbm := by
  unfold State.takeRx
  split <;> simp

@[simp] theorem execKnock_keepsHbm (p : Nat) (m : Msg) (s : State) : HbmFrom s (execKnock p m s) := by simp [execKnock]

@[simp] theorem execAnswer_keepsHbm (p : Nat) (m : Msg) (s : State) : HbmFrom s (execAnswer p m s) := by simp [execAnswer]

@[simp] theorem execKnockRetry_keepsHbm (p : Nat) (s : State) : HbmFrom s (execKnockRetry p s) := by simp [execKnockRetry]

@[simp] theorem execFabricAddrWrite_keepsHbm (src val : Nat) (s : State) :
    HbmFrom s (execFabricAddrWrite src val s) := by simp [execFabricAddrWrite]

@[simp] theorem State.takeRole_hbm (s : State) : s.takeRole.hbm = s.hbm := by simp [State.takeRole]

@[simp] theorem execBridgeWrite_keepsHbm (src val : Nat) (s : State) : HbmFrom s (execBridgeWrite src val s) := by simp [execBridgeWrite]

@[simp] theorem execBridgeBeatTimer_keepsHbm (s : State) : HbmFrom s (execBridgeBeatTimer s) := by simp [execBridgeBeatTimer]

@[simp] theorem execBridgeBeat_keepsHbm (m : Msg) (s : State) : HbmFrom s (execBridgeBeat m s) := by simp [execBridgeBeat]

@[simp] theorem execBridgeTakeover_keepsHbm (s : State) : HbmFrom s (execBridgeTakeover s) := by simp [execBridgeTakeover]

@[simp] theorem execBridgeAnnounce_keepsHbm (m : Msg) (s : State) : HbmFrom s (execBridgeAnnounce m s) := by simp [execBridgeAnnounce]

@[simp] theorem execMulticastReceive_keepsHbm (inp : Option Nat) (m : Msg) (s : State) : HbmFrom s (execMulticastReceive inp m s) := by
  cases inp <;> simp [execMulticastReceive]

@[simp] theorem execMcAck_keepsHbm (p : Nat) (m : Msg) (s : State) : HbmFrom s (execMcAck p m s) := by simp [execMcAck]

@[simp] theorem execArrive_keepsHbm (p : Nat) (m : Msg) (s : State) : HbmFrom s (execArrive p m s) := by simp [execArrive]

@[simp] theorem execReleaseBarrier_keepsHbm (p : Nat) (m : Msg) (s : State) :
    HbmFrom s (execReleaseBarrier p m s) := by simp [execReleaseBarrier]

@[simp] theorem execBarArrive_keepsHbm (src val : Nat) (s : State) : HbmFrom s (execBarArrive src val s) := by
  unfold execBarArrive
  dsimp only
  split <;> simp

@[simp] theorem execBarrierTimeout_keepsHbm (t : Nat) (s : State) : HbmFrom s (execBarrierTimeout t s) := by
  unfold execBarrierTimeout
  dsimp only
  repeat' split
  all_goals simp

@[simp] theorem execErrorCompletion_keepsHbm (m : Msg) (load : Option Nat) (s : State) : HbmFrom s (execErrorCompletion m load s) := by
  unfold execErrorCompletion
  dsimp only
  repeat' split
  all_goals simp

/-! ### The fault table, its forwarding, the bridge's sink, and alerts -/

@[simp] theorem State.setFt_hbm (s : State) (i : Nat) (e : FtEntry) : (s.setFt i e).hbm = s.hbm := by simp [State.setFt]

@[simp] theorem State.enterFault_hbm (s : State) (f : FaultRec) : (s.enterFault f).hbm = s.hbm := by
  unfold State.enterFault
  repeat' split
  all_goals simp

@[simp] theorem execFaultReport_keepsHbm (k : Nat) (s : State) : HbmFrom s (execFaultReport k s) := by
  unfold execFaultReport
  split <;> simp

@[simp] theorem execFaultEntrySettle_keepsHbm (i : Nat) (s : State) : HbmFrom s (execFaultEntrySettle i s) := by
  unfold execFaultEntrySettle
  split <;> simp

@[simp] theorem State.sinkPush_hbm (s : State) (src rec_ : Nat) : (s.sinkPush src rec_).hbm = s.hbm := by
  unfold State.sinkPush
  dsimp only
  split <;> simp

@[simp] theorem execFaultForward_keepsHbm (s : State) : HbmFrom s (execFaultForward s) := by simp [execFaultForward]

@[simp] theorem execFaultMessageRetry_keepsHbm (k : Nat) (s : State) : HbmFrom s (execFaultMessageRetry k s) := by
  unfold execFaultMessageRetry
  split <;> simp

@[simp] theorem execFaultAck_keepsHbm (m : Msg) (s : State) : HbmFrom s (execFaultAck m s) := by
  unfold execFaultAck
  split
  · simp
  · split
    · simp
    · rw [hbmFrom_next, foldl_hbm, State.modFabric_hbm]
      intro a i
      split <;> simp

@[simp] theorem execFaultMessage_keepsHbm (m : Msg) (s : State) : HbmFrom s (execFaultMessage m s) := by simp [execFaultMessage]

@[simp] theorem execFaultSinkWrite_keepsHbm (s : State) : HbmFrom s (execFaultSinkWrite s) := by
  unfold execFaultSinkWrite
  dsimp only
  split <;> simp

@[simp] theorem execAlertCauseClear_keepsHbm (src val : Nat) (s : State) :
    HbmFrom s (execAlertCauseClear src val s) := by simp [execAlertCauseClear]

@[simp] theorem execIbiAck_keepsHbm (s : State) : HbmFrom s (execIbiAck s) := by
  unfold execIbiAck
  split <;> simp

@[simp] theorem execShelfStatusRetry_keepsHbm (s : State) : HbmFrom s (execShelfStatusRetry s) := by
  unfold execShelfStatusRetry
  split <;> simp

@[simp] theorem execFtMetaRead_keepsHbm (src rtag : Nat) (s : State) : HbmFrom s (execFtMetaRead src rtag s) := by
  unfold execFtMetaRead
  dsimp only
  split <;> simp

/-! ### Mask sources and sampling entries -/

@[simp] theorem State.setSource_hbm (s : State) (n : Nat) (x : MaskSource) : (s.setSource n x).hbm = s.hbm := by simp [State.setSource]

@[simp] theorem State.setAut_hbm (s : State) (g code err : Nat) : (s.setAut g code err).hbm = s.hbm := by simp [State.setAut]

@[simp] theorem State.autAccess_hbm (s : State) (src g val : Nat) (f : State → Nat → State) (h : ∀ t n, (f t n).hbm = t.hbm) :
    (s.autAccess src g val f).hbm = s.hbm := by
  simp only [State.autAccess]
  split <;> simp [h]

@[simp] theorem State.dropSourceCopies_hbm (s : State) (n : Nat) : (s.dropSourceCopies n).hbm = s.hbm := by simp [State.dropSourceCopies]

@[simp] theorem execMaskSourceLoad_keepsHbm (src g val : Nat) (s : State) :
    HbmFrom s (execMaskSourceLoad src g val s) := by simp [execMaskSourceLoad]

@[simp] theorem State.freeSource_hbm (s : State) (n : Nat) : (s.freeSource n).hbm = s.hbm := by simp [State.freeSource]

@[simp] theorem execMaskSourceFree_keepsHbm (src g val : Nat) (s : State) :
    HbmFrom s (execMaskSourceFree src g val s) := by simp [execMaskSourceFree]

@[simp] theorem execSamplingEntryCommit_keepsHbm (src g i : Nat) (w : BitVec 64) (s : State) :
    HbmFrom s (execSamplingEntryCommit src g i w s) := by
  unfold execSamplingEntryCommit
  dsimp only
  repeat' split
  all_goals simp

/-! ### HBM controllers -/

@[simp] theorem State.hbmTraffic_hbm (s : State) (n dir master bytes unit : Nat) :
    (s.hbmTraffic n dir master bytes unit).hbm = s.hbm := by simp [State.hbmTraffic]

@[simp] theorem State.modChan_hbm (s : State) (n c : Nat) (f : HbmTarget → HbmTarget) :
    (s.modChan n c f).hbm = s.hbm := by simp [State.modChan]

@[simp] theorem State.modBank_hbm (s : State) (n c b : Nat) (f : HbmTarget → HbmTarget) :
    (s.modBank n c b f).hbm = s.hbm := by simp [State.modBank]

@[simp] theorem State.countCe_hbm (s : State) (u : Nat) : (s.countCe u).hbm = s.hbm := by simp [State.countCe]

@[simp] theorem State.holdRead_hbm (s : State) (a : Nat) (use : HbmUse) : (s.holdRead a use).hbm = s.hbm := by simp [State.holdRead]

@[simp] theorem State.hbmError_hbm (s : State) (src a code : Nat) (rtag : Option Nat) :
    (s.hbmError src a code rtag).hbm = s.hbm := by simp [State.hbmError]

@[simp] theorem State.lateAccess_hbm (s : State) (src a : Nat) (rtag : Option Nat) :
    (s.lateAccess src a rtag).hbm = s.hbm := by simp [State.lateAccess]

@[simp] theorem State.retire_hbm (s : State) (a : Nat) : (s.retire a).hbm = s.hbm := by simp [State.retire]

@[simp] theorem State.nullSlots_hbm (s : State) (d : Nat) : (s.nullSlots d).hbm = s.hbm := by simp [State.nullSlots]

@[simp] theorem State.endPromos_hbm (s : State) (d : Nat) : (s.endPromos d).hbm = s.hbm := by simp [State.endPromos]

@[simp] theorem State.losePage_hbm (s : State) (d : Nat) : (s.losePage d).hbm = s.hbm := by simp [State.losePage]

@[simp] theorem State.loseGen_hbm (s : State) (guest num a : Nat) : (s.loseGen guest num a).hbm = s.hbm := by
  unfold State.loseGen
  repeat' split
  all_goals simp

@[simp] theorem State.hbmPark_hbm (s : State) (w : HbmWait) : (s.hbmPark w).hbm = s.hbm := by simp [State.hbmPark]

@[simp] theorem execPatrolScrub_keepsHbm (n corrected : Nat) (bad : Option Nat) (s : State) :
    HbmFrom s (execPatrolScrub n corrected bad s) := by
  unfold execPatrolScrub
  repeat' split
  all_goals simp

@[simp] theorem State.modTarget_hbm (s : State) (n c : Nat) (b : Option Nat) (f : HbmTarget → HbmTarget) :
    (s.modTarget n c b f).hbm = s.hbm := by
  unfold State.modTarget
  split <;> simp

@[simp] theorem State.pwrResult_hbm (s : State) (n v : Nat) : (s.pwrResult n v).hbm = s.hbm := by simp [State.pwrResult]

@[simp] theorem execClose_keepsHbm (src n val : Nat) (s : State) : HbmFrom s (execClose src n val s) := by simp [execClose]

@[simp] theorem execHbmOpen_keepsHbm (src n val : Nat) (s : State) : HbmFrom s (execHbmOpen src n val s) := by simp [execHbmOpen]

@[simp] theorem execClosingComplete_keepsHbm (n c : Nat) (bank : Option Nat) (s : State) :
    HbmFrom s (execClosingComplete n c bank s) := by simp [execClosingComplete]

/-! ### Commands of admission, of the power states of regions, and of authenticated limit changes -/

@[simp] theorem State.admitPower_hbm (s : State) (r : Nat) : (s.admitPower r).hbm = s.hbm := by simp [State.admitPower]

@[simp] theorem State.testPower_hbm (s : State) (r : Nat) : (s.testPower r).hbm = s.hbm := by simp [State.testPower]

@[simp] theorem execAdmissionTest_keepsHbm (r : Nat) (s : State) : HbmFrom s (execAdmissionTest r s) := by
  unfold execAdmissionTest
  repeat' split
  all_goals simp

@[simp] theorem State.sendDeferrals_hbm (s : State) (r : Nat) : (s.sendDeferrals r).hbm = s.hbm := by simp [State.sendDeferrals]

@[simp] theorem execAdmissionRetest_keepsHbm (r : Nat) (s : State) : HbmFrom s (execAdmissionRetest r s) := by
  unfold execAdmissionRetest
  repeat' split
  all_goals simp

@[simp] theorem execRampStep_keepsHbm (r : Nat) (s : State) : HbmFrom s (execRampStep r s) := by
  unfold execRampStep
  dsimp only
  repeat' split
  all_goals simp

@[simp] theorem execSealedWakeRewrite_keepsHbm (r : Nat) (s : State) : HbmFrom s (execSealedWakeRewrite r s) := by
  unfold execSealedWakeRewrite
  dsimp only
  repeat' split
  all_goals simp

@[simp] theorem execWakeComplete_keepsHbm (r : Nat) (s : State) : HbmFrom s (execWakeComplete r s) := by
  unfold execWakeComplete
  dsimp only
  repeat' split
  all_goals simp

@[simp] theorem execPlannedWake_keepsHbm (r : Nat) (s : State) : HbmFrom s (execPlannedWake r s) := by
  unfold execPlannedWake
  repeat' split
  all_goals simp

@[simp] theorem execIdleEscalation_keepsHbm (r : Nat) (s : State) : HbmFrom s (execIdleEscalation r s) := by simp [execIdleEscalation]

@[simp] theorem State.lowerPane_hbm (s : State) (p st mv : Nat) : (s.lowerPane p st mv).hbm = s.hbm := by simp [State.lowerPane]

@[simp] theorem execPowerStateEntryComplete_keepsHbm (r : Nat) (s : State) :
    HbmFrom s (execPowerStateEntryComplete r s) := by simp [execPowerStateEntryComplete]

@[simp] theorem State.writeForce_hbm (s : State) (src r force : Nat) (f : State → State) (h : ∀ t, (f t).hbm = t.hbm) :
    (s.writeForce src r force f).hbm = s.hbm := by
  simp only [State.writeForce]
  split <;> simp [h]

@[simp] theorem execForceAuto_keepsHbm (src r : Nat) (s : State) : HbmFrom s (execForceAuto src r s) := by simp [execForceAuto]

@[simp] theorem execForceOpen_keepsHbm (src r : Nat) (s : State) : HbmFrom s (execForceOpen src r s) := by simp [execForceOpen]

@[simp] theorem execAuthGo_keepsHbm (src val : Nat) (s : State) : HbmFrom s (execAuthGo src val s) := by simp [execAuthGo]

/-! ### Management writes over the whole map of Table 21-1 -/

theorem landed_hbm {s : State} {o : Out} (h : HbmFrom s o) : (landed s o).hbm = s.hbm := by
  obtain ⟨t, rfl, ht⟩ := h
  exact ht

@[simp] theorem ownerSets_keepsHbm (s : State) (q : Nat) (t : State) (h : t.hbm = s.hbm) : WriteHbm s (ownerSets q t) := by
  simp [ownerSets, h]

@[simp] theorem State.readOnly_keepsHbm (s : State) (src q a : Nat) : WriteHbm s (s.readOnly src q a) := by
  unfold State.readOnly
  split <;> simp

@[simp] theorem State.setAlertEn_hbm (s : State) (v : Nat) : (s.setAlertEn v).hbm = s.hbm := by simp [State.setAlertEn]

@[simp] theorem State.setSel_hbm (s : State) (q k v : Nat) : (s.setSel q k v).hbm = s.hbm := by simp [State.setSel]

@[simp] theorem State.writeMc_keepsHbm (s : State) (m w v : Nat) : WriteHbm s (s.writeMc m w v) := by simp [State.writeMc]

@[simp] theorem State.writeBar_keepsHbm (s : State) (t w v : Nat) : WriteHbm s (s.writeBar t w v) := by simp [State.writeBar]

@[simp] theorem State.setBridgeFa_hbm (s : State) (v : Nat) : (s.setBridgeFa v).hbm = s.hbm := by simp [State.setBridgeFa]

@[simp] theorem State.writeBlock_keepsHbm (s : State) (src q a v : Nat) : WriteHbm s (s.writeBlock src q a v) := by simp [State.writeBlock]

@[simp] theorem State.writeLintel_keepsHbm (s : State) (src q a v : Nat) : WriteHbm s (s.writeLintel src q a v) := by
  cases h : routeWord v <;> simp [State.writeLintel, h]

@[simp] theorem State.writePower_keepsHbm (s : State) (src q a v : Nat) : WriteHbm s (s.writePower src q a v) := by simp [State.writePower]

@[simp] theorem State.mailGo_hbm (s : State) (g : Nat) : (s.mailGo g).hbm = s.hbm := by simp [State.mailGo]

@[simp] theorem State.writeMail_keepsHbm (s : State) (src q a v : Nat) : WriteHbm s (s.writeMail src q a v) := by simp [State.writeMail]

@[simp] theorem State.writePort_keepsHbm (s : State) (src q a v : Nat) : WriteHbm s (s.writePort src q a v) := by
  unfold State.writePort
  repeat' split
  all_goals simp

@[simp] theorem State.writeHbm_keepsHbm (s : State) (src q a v : Nat) : WriteHbm s (s.writeHbm src q a v) := by simp [State.writeHbm]

@[simp] theorem State.writeCampion_keepsHbm (s : State) (src q a v : Nat) :
    WriteHbm s (s.writeCampion src q a v) := by simp [State.writeCampion]

@[simp] theorem State.plainWrite_keepsHbm (s : State) (src q a v : Nat) : WriteHbm s (s.plainWrite src q a v) := by simp [State.plainWrite]

/-! ### Routing of messages, directed messages, messages that end at this module, the counters' controls and the sills' quick words -/

@[simp] theorem execPmcFreeze_keepsHbm (src c : Nat) (freeze : Bool) (s : State) :
    HbmFrom s (execPmcFreeze src c freeze s) := by simp [execPmcFreeze]

@[simp] theorem execPmcClear_keepsHbm (src c : Nat) (freeze : Bool) (s : State) :
    HbmFrom s (execPmcClear src c freeze s) := by simp [execPmcClear]

@[simp] theorem execQuickWordRefresh_keepsHbm (n : Nat) (s : State) : HbmFrom s (execQuickWordRefresh n s) := by simp [execQuickWordRefresh]

@[simp] theorem State.answerRead_hbm (s : State) (src a rtag len : Nat) : (s.answerRead src a rtag len).hbm = s.hbm := by
  have entry : (landed s (execFtMetaRead src rtag s)).hbm = s.hbm := landed_hbm (execFtMetaRead_keepsHbm src rtag s)
  unfold State.answerRead
  split
  · rfl
  · split
    · simp
    · split
      · simp
      · split
        · exact entry
        · split
          · simp
          · dsimp only
            split <;> simp

@[simp] theorem State.deliverHere_hbm (s : State) (m : Msg) : (s.deliverHere m).hbm = s.hbm := by
  unfold State.deliverHere
  repeat' split
  all_goals simp

@[simp] theorem State.discardRx_hbm (s : State) (p i : Nat) (y : RxMsg) (k : Nat) :
    (s.discardRx p i y k).hbm = s.hbm := by simp [State.discardRx]

@[simp] theorem State.forwardRx_hbm (s : State) (p i : Nat) (y : RxMsg) (q : Nat) :
    (s.forwardRx p i y q).hbm = s.hbm := by simp [State.forwardRx]

/-! ### Commands of the module's connectors -/

@[simp] theorem execBusbarImbalance_keepsHbm (s : State) : HbmFrom s (execBusbarImbalance s) := by
  unfold execBusbarImbalance
  dsimp only
  split <;> simp

@[simp] theorem execCablePresence_keepsHbm (p : Nat) (present : Bool) (s : State) :
    HbmFrom s (execCablePresence p present s) := by simp [execCablePresence]

@[simp] theorem execCablePower_keepsHbm (c : Nat) (s : State) : HbmFrom s (execCablePower c s) := by simp [execCablePower]

@[simp] theorem State.i3cAnswer_hbm (s : State) (data : List Nat) : (s.i3cAnswer data).hbm = s.hbm := by simp [State.i3cAnswer]

@[simp] theorem execEntdaa_keepsHbm (addr : Nat) (s : State) : HbmFrom s (execEntdaa addr s) := by simp [execEntdaa]

@[simp] theorem execSetdasa_keepsHbm (static addr : Nat) (s : State) : HbmFrom s (execSetdasa static addr s) := by simp [execSetdasa]

@[simp] theorem execRstdaa_keepsHbm (s : State) : HbmFrom s (execRstdaa s) := by simp [execRstdaa]

@[simp] theorem execEnec_keepsHbm (addr : Option Nat) (events : Nat) (s : State) : HbmFrom s (execEnec addr events s) := by simp [execEnec]

@[simp] theorem execDisec_keepsHbm (addr : Option Nat) (events : Nat) (s : State) :
    HbmFrom s (execDisec addr events s) := by simp [execDisec]

@[simp] theorem execGetpid_keepsHbm (addr : Nat) (s : State) : HbmFrom s (execGetpid addr s) := by simp [execGetpid]

@[simp] theorem execGetbcr_keepsHbm (addr : Nat) (s : State) : HbmFrom s (execGetbcr addr s) := by simp [execGetbcr]

@[simp] theorem execGetdcr_keepsHbm (addr : Nat) (s : State) : HbmFrom s (execGetdcr addr s) := by simp [execGetdcr]

@[simp] theorem execGetstatus_keepsHbm (addr : Nat) (s : State) : HbmFrom s (execGetstatus addr s) := by simp [execGetstatus]

@[simp] theorem execTrstN_keepsHbm (low : Bool) (s : State) : HbmFrom s (execTrstN low s) := by simp [execTrstN]

@[simp] theorem State.tapLoad_hbm (s : State) (op pins : Nat) (ok : Bool) : (s.tapLoad op pins ok).hbm = s.hbm := by simp [State.tapLoad]

@[simp] theorem State.scan_hbm (s : State) (sample shift : Nat) : (s.scan sample shift).hbm = s.hbm := by
  rw [State.scan, State.modIface_hbm]

@[simp] theorem State.pinTest_hbm (s : State) (op pins sample shift : Nat) :
    (s.pinTest op pins sample shift).hbm = s.hbm := by simp [State.pinTest]

@[simp] theorem execBypass_keepsHbm (s : State) : HbmFrom s (execBypass s) := by simp [execBypass]

@[simp] theorem execIdcode_keepsHbm (s : State) : HbmFrom s (execIdcode s) := by simp [execIdcode]

@[simp] theorem execSamplePreload_keepsHbm (sample shift : Nat) (s : State) :
    HbmFrom s (execSamplePreload sample shift s) := by simp [execSamplePreload]

@[simp] theorem execExtest_keepsHbm (sample shift : Nat) (s : State) : HbmFrom s (execExtest sample shift s) := by simp [execExtest]

@[simp] theorem execExtestPulse_keepsHbm (sample shift : Nat) (s : State) :
    HbmFrom s (execExtestPulse sample shift s) := by simp [execExtestPulse]

@[simp] theorem execExtestTrain_keepsHbm (sample shift : Nat) (s : State) :
    HbmFrom s (execExtestTrain sample shift s) := by simp [execExtestTrain]

@[simp] theorem execClamp_keepsHbm (s : State) : HbmFrom s (execClamp s) := by simp [execClamp]

@[simp] theorem execHighz_keepsHbm (s : State) : HbmFrom s (execHighz s) := by simp [execHighz]

@[simp] theorem State.tapMemRead_hbm (s : State) (c : Nat) : (s.tapMemRead c).1.hbm = s.hbm := by
  simp [State.tapMemRead, apply_ite Prod.fst]

@[simp] theorem execDbgLintelHalt_keepsHbm (s : State) : HbmFrom s (execDbgLintelHalt s) := by simp [execDbgLintelHalt]

@[simp] theorem execDbgTrace_keepsHbm (s : State) : HbmFrom s (execDbgTrace s) := by simp [execDbgTrace]

/-! ### Commands of thermal management and of the shelf grant -/

@[simp] theorem State.sampleRate_hbm (s : State) (x : Nat × Int × Int) : (s.sampleRate x).hbm = s.hbm := by simp [State.sampleRate]

@[simp] theorem execTrayReport_keepsHbm (b : List Byte) (s : State) : HbmFrom s (execTrayReport b s) := by
  unfold execTrayReport
  extract_lets w signed flow old recent top inlet outside s₁ due s₂
  have h₁ : s₁.hbm = s.hbm := by simp [s₁]
  have h₂ : s₂.hbm = s.hbm := by
    unfold s₂
    split <;> simp [h₁]
  split
  · simp
  · split
    · simp [h₂]
    · split <;> simp [h₂]

@[simp] theorem execReportLost_keepsHbm (s : State) : HbmFrom s (execReportLost s) := by
  unfold execReportLost
  split <;> simp

@[simp] theorem execProfile_keepsHbm (g : Nat) (s : State) : HbmFrom s (execProfile g s) := by simp [execProfile]

@[simp] theorem execPaneClockSwitch_keepsHbm (p vmin : Nat) (s : State) : HbmFrom s (execPaneClockSwitch p vmin s) := by
  unfold execPaneClockSwitch
  dsimp only
  repeat' split
  all_goals simp

@[simp] theorem State.endGrant_hbm (s : State) : s.endGrant.hbm = s.hbm := by simp [State.endGrant]

@[simp] theorem State.grantWaiting_hbm (s : State) : s.grantWaiting.hbm = s.hbm := by
  refine foldl_hbm _ (fun a r => ?_) _ _
  dsimp only
  split
  · simp
  · split <;> simp

@[simp] theorem State.readGrant_hbm (s : State) (a : Nat × Nat × Nat) : (s.readGrant a).hbm = s.hbm := by simp [State.readGrant]

@[simp] theorem execGrantRenewal_keepsHbm (ans : Option (Nat × Nat × Nat)) (s : State) : HbmFrom s (execGrantRenewal ans s) := by
  unfold execGrantRenewal
  split <;> simp

@[simp] theorem execSmbalert_keepsHbm (ans : Option (Nat × Nat × Nat)) (s : State) : HbmFrom s (execSmbalert ans s) := by
  unfold execSmbalert
  split <;> simp

@[simp] theorem execGrantLeaseExpiry_keepsHbm (s : State) : HbmFrom s (execGrantLeaseExpiry s) := by simp [execGrantLeaseExpiry]

@[simp] theorem execSprintMsExpiry_keepsHbm (r : Nat) (s : State) : HbmFrom s (execSprintMsExpiry r s) := by
  unfold execSprintMsExpiry
  dsimp only
  repeat' split
  all_goals simp

@[simp] theorem State.roundRead_hbm (s : State) (rd : Readings) : (s.roundRead rd).hbm = s.hbm := by simp [State.roundRead]

@[simp] theorem State.roundJoints_hbm (s : State) (rd : Readings) : (s.roundJoints rd).hbm = s.hbm := by simp [State.roundJoints]

@[simp] theorem State.roundPower_hbm (s : State) (p : Nat) : (s.roundPower p).hbm = s.hbm := by simp [State.roundPower]

@[simp] theorem State.roundEnforce_hbm (s : State) (p : Nat) : (s.roundEnforce p).hbm = s.hbm := by simp [State.roundEnforce]

@[simp] theorem State.roundSprint_hbm (s : State) : s.roundSprint.hbm = s.hbm := by simp [State.roundSprint]

@[simp] theorem State.roundHolds_hbm (s : State) : s.roundHolds.hbm = s.hbm := by simp [State.roundHolds]

@[simp] theorem State.roundPairs_hbm (s : State) (a b : Nat) : (s.roundPairs a b).hbm = s.hbm := by simp [State.roundPairs]

@[simp] theorem State.roundGauges_hbm (s : State) (r : Nat) : (s.roundGauges r).hbm = s.hbm := by simp [State.roundGauges]

end Sys2Proof.Machine

namespace Sys2Proof.Machine

/-! ## The form of the HBM (R256, log 2) -/

/-! ### Memories in their form -/

/-- The canonical form of a memory that has lost nothing: what every step keeps of the HBM. -/
def Mem.Formed (m : Mem) : Prop := m.wf = true ∧ m.lost = none

theorem Mem.formed_empty : ({} : Mem).Formed := ⟨rfl, rfl⟩

@[simp] theorem Mem.Formed.write {m : Mem} (h : m.Formed) (a : Nat) (l : List Byte) : (m.write a l).Formed :=
  ⟨m.wf_write a l h.1, (m.write_lost a l).trans h.2⟩

@[simp] theorem Mem.Formed.writeLE {m : Mem} (h : m.Formed) (a n v : Nat) : (m.writeLE a n v).Formed := h.write a _

@[simp] theorem Mem.Formed.zero {m : Mem} (h : m.Formed) (a n : Nat) : (m.zero a n).Formed := ⟨m.wf_zero a n h.1, h.2⟩

@[simp] theorem Mem.formed_ite (c : Prop) [Decidable c] (m n : Mem) :
    (if c then m else n).Formed ↔ if c then m.Formed else n.Formed := by split <;> rfl

theorem Mem.Formed.foldl {β : Type} {f : Mem → β → Mem} (h : ∀ m x, m.Formed → (f m x).Formed) (l : List β) {m : Mem} (hm : m.Formed) :
    (l.foldl f m).Formed := by
  induction l generalizing m with
  | nil => exact hm
  | cons x l ih => exact ih (h m x hm)

@[simp] theorem copyHome_formed {m : Mem} (h : m.Formed) (l : KvLayer) (src dst n : Nat) : (copyHome m l src dst n).Formed :=
  Mem.Formed.foldl (fun _ _ hm => hm.write _ _) _ h

@[simp] theorem writeRuns_formed {m : Mem} (h : m.Formed) (runs : List (Nat × Nat)) (off : Nat) (d : List Byte) :
    (writeRuns m runs off d).Formed := by
  induction runs generalizing m off d with
  | nil => exact h
  | cons run runs ih =>
    unfold writeRuns
    split
    · exact ih h _ _
    · dsimp only
      split
      · exact h.write _ _
      · exact ih (h.write _ _) _ _

@[simp] theorem writeShard_formed {mem : Mem} (h : mem.Formed) (m : Manifest) (runs : List (Nat × Nat)) (maps : Option (List Nat)) (i : Nat)
    (data : List Byte) : (writeShard mem m runs maps i data).Formed := by
  unfold writeShard
  split
  · exact writeRuns_formed h _ _ _
  · exact Mem.Formed.foldl (fun _ _ hm => writeRuns_formed hm _ _ _) _ h

/-! ### The laws' forms -/

@[simp] theorem foldl_formed {β : Type} (f : State → β → State) (h : ∀ a x, a.hbm.Formed → (f a x).hbm.Formed) (l : List β) {s : State}
    (hs : s.hbm.Formed) : (l.foldl f s).hbm.Formed := by
  induction l generalizing s with
  | nil => exact hs
  | cons x l ih => exact ih (h s x hs)

/-- The outcome is a next state whose HBM is in its form. -/
def Forms (o : Out) : Prop := ∃ t, o = .next t ∧ t.hbm.Formed

@[simp] theorem forms_next (t : State) : Forms (.next t) ↔ t.hbm.Formed := by simp [Forms]

@[simp] theorem forms_ite (c : Prop) [Decidable c] (a b : Out) : Forms (if c then a else b) ↔ if c then Forms a else Forms b := by
  split <;> rfl

theorem HbmFrom.forms {s : State} {o : Out} (h : HbmFrom s o) (hs : s.hbm.Formed) : Forms o := by
  obtain ⟨t, rfl, ht⟩ := h
  exact (forms_next t).mpr (ht ▸ hs)

@[simp] theorem withEntry_forms (g e : Nat) (ops : List Nat) {s : State} (f : State → EntryId → Nat → State) (hs : s.hbm.Formed)
    (h : ∀ t id w, t.hbm.Formed → (f t id w).hbm.Formed) : Forms (withEntry g e ops s f) := by
  unfold withEntry
  split
  · simp [hs]
  · split
    · split <;> simp [h, hs]
    · simp [hs]

@[simp] theorem withCommand_forms (g e op : Nat) {s : State} (f : State → EntryId → Nat → State) (hs : s.hbm.Formed)
    (h : ∀ t id w, t.hbm.Formed → (f t id w).hbm.Formed) : Forms (withCommand g e op s f) :=
  withEntry_forms g e [op] _ hs fun t id w ht => by split <;> simp [h, ht]

@[simp] theorem withCritical_forms (g e op : Nat) {s : State} (f : State → EntryId → Nat → State) (hs : s.hbm.Formed)
    (h : ∀ t id w, t.hbm.Formed → (f t id w).hbm.Formed) : Forms (withCritical g e op s f) := by
  unfold withCritical
  split
  · simp [hs]
  · split
    · simp [hs]
    · refine withEntry_forms g e [op] _ hs fun t id w ht => ?_
      dsimp only
      split <;> simp [h, ht]

@[simp] theorem withRequest_forms (g op : Nat) {s : State} (f : State → List Byte → State) (hs : s.hbm.Formed)
    (h : ∀ t b, t.hbm.Formed → (f t b).hbm.Formed) : Forms (withRequest g op s f) := by
  simp [withRequest, h, hs]

@[simp] theorem State.slotEntry_formed {s : State} (id : EntryId) (w : Nat) (states : List Nat) (f : State → Nat → Nat → State)
    (hs : s.hbm.Formed) (h : ∀ r n, (f s r n).hbm.Formed) : (s.slotEntry id w states f).hbm.Formed := by
  simp [State.slotEntry, h, hs]

@[simp] theorem State.writeForce_formed {s : State} (src r force : Nat) (f : State → State) (hs : s.hbm.Formed)
    (h : ∀ t, t.hbm.Formed → (f t).hbm.Formed) : (s.writeForce src r force f).hbm.Formed := by
  simp only [State.writeForce]
  split <;> simp [h, hs]

theorem Taking.andThen_formed {t : Taking} {f : State → Taking} (ht : t.s.hbm.Formed) (h : ∀ s, s.hbm.Formed → (f s).s.hbm.Formed) :
    (t.andThen f).s.hbm.Formed := by
  unfold Taking.andThen
  split
  · exact h t.s ht
  · exact ht

theorem foldl_taking_formed {β : Type} {f : Taking → β → Taking} (h : ∀ a x, a.s.hbm.Formed → (f a x).s.hbm.Formed) (l : List β)
    {t : Taking} (ht : t.s.hbm.Formed) : (l.foldl f t).s.hbm.Formed := by
  induction l generalizing t with
  | nil => exact ht
  | cons x l ih => exact ih (h t x ht)

/-! ### HBM units and KV pages -/

@[simp] theorem State.zeroUnits_formed (s : State) (a n g : Nat) (hs : s.hbm.Formed) : (s.zeroUnits a n g).hbm.Formed := by
  simp [State.zeroUnits, hs]

@[simp] theorem State.markUnits_formed (s : State) (a n g : Nat) (hs : s.hbm.Formed) : (s.markUnits a n g).hbm.Formed := by
  simp only [State.markUnits, State.clearPending_hbm]
  exact Mem.Formed.foldl (fun _ _ hm => hm.zero _ _) _ hs

theorem State.allocUnits_formed {s t : State} {g n lo a : Nat} (h : s.allocUnits g n lo = some (a, t)) (hs : s.hbm.Formed) : t.hbm.Formed := by
  simp only [State.allocUnits, Option.ite_none_right_eq_some, Option.some.injEq, Prod.mk.injEq] at h
  obtain ⟨-, -, rfl⟩ := h
  simp [hs]

theorem State.allocOther_formed {s t : State} {g n a fuel lo b : Nat} (h : s.allocOther g n a fuel lo = some (b, t)) (hs : s.hbm.Formed) :
    t.hbm.Formed := by
  induction fuel generalizing lo with
  | zero => simp [State.allocOther] at h
  | succ fuel ih => grind [State.allocOther, State.allocUnits_formed]

theorem State.allocCopy_formed {s t : State} {g n : Nat} {l : List (Nat × Nat)} (h : s.allocCopy g n = some (l, t)) (hs : s.hbm.Formed) :
    t.hbm.Formed := by
  unfold State.allocCopy at h
  split at h
  · next a u hu =>
    cases h
    exact State.allocUnits_formed hu hs
  · split at h
    · obtain ⟨runs, -, hl⟩ := Option.map_eq_some_iff.mp h
      cases hl
      exact foldl_formed _ (fun a x ha => a.markUnits_formed _ _ _ ha) _ hs
    · contradiction

theorem State.takeUnits_formed {s t : State} {g n lo r : Nat} {pinned : List Nat} {o : Option Nat}
    (h : s.takeUnits g n lo pinned r = (o, t)) (hs : s.hbm.Formed) : t.hbm.Formed := by
  unfold State.takeUnits at h
  split at h
  · next a u hu =>
    cases h
    exact State.allocUnits_formed hu (by simpa using hs)
  · split at h
    next u k hu =>
    have hu' : (if k = 0 then u else u.report (unitEngine 2)
        { cls := 8, code := 5, guest := g, detHi := g + k % 2 ^ 32 * 2 ^ 16 }).hbm.Formed := by
      simp [dropUntil_hbm hu, hs]
    simp only at h
    split at h
    · next a v hv =>
      cases h
      exact State.allocUnits_formed hv hu'
    · cases h
      exact hu'

theorem State.allocPage_eq_formed {s t : State} {r g : Nat} {l : KvLayer} {framed : Bool} {pinned : List Nat} {o : Option Nat}
    (h : s.allocPage r g l framed pinned = (o, t)) (hs : s.hbm.Formed) : t.hbm.Formed := by
  unfold State.allocPage at h
  split at h
  · cases h
    exact hs
  · split at h
    next frame u hu =>
    have hu' : u.hbm = s.hbm := by grind [State.takeFrame_hbm]
    simp only at h
    grind [State.takeUnits_formed, State.setDesc_hbm]

@[simp] theorem State.allocPage_formed (s : State) (r g : Nat) (l : KvLayer) (framed : Bool) (pinned : List Nat) (hs : s.hbm.Formed) :
    (s.allocPage r g l framed pinned).2.hbm.Formed := State.allocPage_eq_formed rfl hs

theorem State.takeOther_formed {s t : State} {g n a lo r fuel : Nat} {pinned : List Nat} {o : Option Nat}
    (h : s.takeOther g n a lo pinned r fuel = (o, t)) (hs : s.hbm.Formed) :
    t.hbm.Formed := by
  induction fuel generalizing lo with
  | zero => grind [State.takeOther]
  | succ fuel ih => grind [State.takeOther, State.takeUnits_formed]

theorem State.ensureLog_formed {s t : State} {r slotNo n fuel : Nat} {pinned : List Nat} {ok : Bool}
    (h : s.ensureLog r slotNo n pinned fuel = (ok, t)) (hs : s.hbm.Formed) : t.hbm.Formed := by
  induction fuel generalizing s with
  | zero => grind [State.ensureLog]
  | succ fuel ih =>
    simp only [State.ensureLog] at h
    split at h
    · cases h
      exact hs
    · split at h
      · next u hu =>
        cases h
        exact State.takeUnits_formed hu hs
      · next a u hu =>
        split at h
        · next v hv =>
          cases h
          simp [State.takeOther_formed hv (State.takeUnits_formed hu hs)]
        · next b v hv => exact ih h (by simp [State.takeOther_formed hv (State.takeUnits_formed hu hs)])

@[simp] theorem State.appendLog_formed (s : State) (r n : Nat) (es : List (Nat × Nat)) (hs : s.hbm.Formed) :
    (s.appendLog r n es).hbm.Formed := by
  refine foldl_formed _ (fun a e ha => ?_) es hs
  dsimp only
  split
  · exact (ha.writeLE _ _ _).writeLE _ _ _
  · exact ha

@[simp] theorem State.reserveLayer_formed (s : State) (r slotNo k p n : Nat) (l : KvLayer) (pinned : List Nat) (hs : s.hbm.Formed) :
    (s.reserveLayer r slotNo k p n l pinned).s.hbm.Formed := by
  have promos (ds : List Nat) {t : Taking} (ht : t.s.hbm.Formed) :
      (ds.foldl (fun (a : Taking) d => a.andThen (fun s => s.reservePromo r k d l pinned)) t).s.hbm.Formed :=
    foldl_taking_formed (fun a d ha => Taking.andThen_formed ha (fun s hs => by rwa [s.reservePromo_hbm])) ds ht
  unfold State.reserveLayer
  split
  · exact promos _ hs
  · refine Taking.andThen_formed (foldl_taking_formed (fun a j ha => Taking.andThen_formed ha fun u hu => ?_) _ (promos _ hs)) fun v hv => ?_
    · grind [State.allocPage_formed]
    · rw [State.growList_hbm rfl]
      exact hv

@[simp] theorem State.reserveSlot_formed (s : State) (r slotNo p n : Nat) (pinned : List Nat) (hs : s.hbm.Formed) :
    (s.reserveSlot r slotNo p n pinned).s.hbm.Formed := by
  unfold State.reserveSlot
  split
  next ok u hu =>
  dsimp only
  generalize hT : List.foldl _ (Taking.andThen _ _) _ = T
  have hT' : T.s.hbm.Formed := by
    rw [← hT]
    refine foldl_taking_formed (fun a k ha => Taking.andThen_formed ha fun v hv => ?_) _ (Taking.andThen_formed ?_ fun v hv => ?_)
    · split <;> simp [hv]
    · exact State.ensureLog_formed hu hs
    · rw [State.growList_hbm rfl]
      exact hv
  split <;> simp [hT']

@[simp] theorem State.writeRow_formed (s : State) (r d k row : Nat) (l : KvLayer) (data : List Byte) (hs : s.hbm.Formed) :
    (s.writeRow r d k row l data).hbm.Formed := by
  unfold State.writeRow
  dsimp only
  repeat' split
  all_goals simp [hs]

@[simp] theorem State.appendRow_formed (s : State) (r k : Nat) (l : KvLayer) (slotNo p : Nat) (resv : List (Nat × Nat × Nat × Nat))
    (rows : List (List Byte)) (hs : s.hbm.Formed) :
    (s.appendRow r k l slotNo p resv rows).hbm.Formed := by
  unfold State.appendRow
  dsimp only
  repeat' split
  all_goals simp +contextual [hs]

@[simp] theorem State.loseScatter_formed (s : State) (r : Nat) (c : Scatter) (hs : s.hbm.Formed) : (s.loseScatter r c).hbm.Formed := by
  rw [State.loseScatter, State.returnResv_hbm]
  refine foldl_formed _ (fun a k ha => ?_) _ hs
  split <;> simp +contextual [ha]

/-! ### Sequence slots -/

@[simp] theorem State.copyPages_formed (s : State) (r g : Nat) (kv : List KvLayer) (l : List (Nat × Nat)) (hs : s.hbm.Formed) :
    (s.copyPages r g kv l).2.1.hbm.Formed := by
  induction l generalizing s with
  | nil => exact hs
  | cons q rest ih =>
    simp only [State.copyPages]
    generalize hu :
      (if (s.desc q.2).unbound ∨ (s.desc q.2).region = r ∨ (s.desc q.2).refcnt ≤ 1 then _ else _ : Option Nat × State) = u
    have hu' : u.2.hbm.Formed := by
      rw [← hu]
      split
      · exact hs
      · split
        · exact hs
        · split
          · split <;> simp [hs]
          · split
            · next v hv => exact State.allocPage_eq_formed hv hs
            · next e v hv => simp [State.allocPage_eq_formed hv hs]
    split <;> simp [ih, hu']

@[simp] theorem State.resumeSlot_formed (s : State) (r n : Nat) (id : EntryId) (w : Nat) (hs : s.hbm.Formed) :
    (s.resumeSlot r n id w).1.hbm.Formed := by
  simp only [State.resumeSlot]
  split
  · exact hs
  · split <;> simp [apply_ite Prod.fst, hs]

@[simp] theorem State.forkSlot_formed (s : State) (r src dst : Nat) (id : EntryId) (len : Nat) (hs : s.hbm.Formed) :
    (s.forkSlot r src dst id len).1.hbm.Formed := by
  have log (t : State) (n : Nat) (pinned : List Nat) (fuel : Nat) (ht : t.hbm.Formed) : (t.ensureLog r dst n pinned fuel).2.hbm.Formed :=
    State.ensureLog_formed rfl ht
  simp [State.forkSlot, apply_ite Prod.fst, apply_ite Prod.snd, log, hs]

@[simp] theorem State.settleOps_formed (s : State) (r n k : Nat) (hs : s.hbm.Formed) : (s.settleOps r n k).hbm.Formed := by
  induction k generalizing s with
  | zero => exact hs
  | succ k ih =>
    unfold State.settleOps
    split <;> simp [ih, hs]

@[simp] theorem State.settleSlot_formed (s : State) (r n : Nat) (hs : s.hbm.Formed) : (s.settleSlot r n).hbm.Formed := by
  simp [State.settleSlot, hs]

@[simp] theorem State.opEffect_formed (s : State) (r n : Nat) (id : EntryId) (op : Nat) (hs : s.hbm.Formed) :
    (s.opEffect r n id op).hbm.Formed := by
  refine State.settleSlot_formed _ _ _ ?_
  have forked (dst len : Nat) : (s.forkSlot r n dst id len).1.hbm.Formed := s.forkSlot_formed _ _ _ _ _ hs
  simp [hs, forked]

@[simp] theorem State.takeEffect_formed (s : State) (r n op : Nat) (hs : s.hbm.Formed) : (s.takeEffect r n op).hbm.Formed := by
  unfold State.takeEffect
  split <;> simp [hs]

@[simp] theorem State.endRun_formed (s : State) (r : Nat) (e : RunEntry) (status result : Nat) (hs : s.hbm.Formed) :
    (s.endRun r e status result).hbm.Formed := by simp [State.endRun, hs]

/-! ### Steps, slots and stops shared by many commands -/

@[simp] theorem State.leaveStep_formed (s : State) (r n : Nat) (f : Flight) (hs : s.hbm.Formed) : (s.leaveStep r n f).hbm.Formed := by
  simp [State.leaveStep, hs]

@[simp] theorem State.abandonFlight_formed (s : State) (r : Nat) (hs : s.hbm.Formed) : (s.abandonFlight r).hbm.Formed := by
  unfold State.abandonFlight
  split
  · exact hs
  · extract_lets slots s₁ s₂ s₃ s₄
    have h₃ : s₃.hbm.Formed := foldl_formed _ (fun a n ha => a.leaveStep_formed _ _ _ ha) _ (by simpa [s₂, s₁] using hs)
    have h₄ : s₄.hbm.Formed := by
      unfold s₄
      split
      · split <;> simp [h₃]
      · exact h₃
    simp [h₄]

@[simp] theorem State.endRuns_formed (s : State) (r status : Nat) (hs : s.hbm.Formed) : (s.endRuns r status).hbm.Formed := by
  simp +contextual [State.endRuns, hs]

@[simp] theorem State.stopRegion_formed (s : State) (r : Nat) (hs : s.hbm.Formed) : (s.stopRegion r).hbm.Formed := by
  simp [State.stopRegion, hs]

@[simp] theorem State.stopContract_formed (s : State) (r : Nat) (hs : s.hbm.Formed) : (s.stopContract r).hbm.Formed := by
  simp [State.stopContract, hs]

@[simp] theorem State.failCell_formed (s : State) (c : Nat) (chks : List Chk) (hs : s.hbm.Formed) : (s.failCell c chks).hbm.Formed := by
  unfold State.failCell
  split <;> simp [hs]

/-! ### Issue and pipelines of a cell -/

@[simp] theorem issue_forms (c slot : Nat) (f : Ctx → List Chk × Cell) (s : State) (rot : Bool) (hs : s.hbm.Formed) :
    Forms (issue c slot f s rot) := by simp [issue, hs]

/-! ### Sequencer operations, CTL slot -/

@[simp] theorem scalarOp_forms (c rd : Nat) (ok : Bool) (lat : Nat) (f : Cell → R32) (s : State) (hs : s.hbm.Formed) :
    Forms (scalarOp c rd ok lat f s) := by simp [scalarOp, hs]

@[simp] theorem execAdd_forms (c rd ra rb : Nat) (s : State) (hs : s.hbm.Formed) : Forms (execAdd c rd ra rb s) := by simp [execAdd, hs]

@[simp] theorem execSub_forms (c rd ra rb : Nat) (s : State) (hs : s.hbm.Formed) : Forms (execSub c rd ra rb s) := by simp [execSub, hs]

@[simp] theorem execSAnd_forms (c rd ra rb : Nat) (s : State) (hs : s.hbm.Formed) : Forms (execSAnd c rd ra rb s) := by simp [execSAnd, hs]

@[simp] theorem execSOr_forms (c rd ra rb : Nat) (s : State) (hs : s.hbm.Formed) : Forms (execSOr c rd ra rb s) := by simp [execSOr, hs]

@[simp] theorem execSXor_forms (c rd ra rb : Nat) (s : State) (hs : s.hbm.Formed) : Forms (execSXor c rd ra rb s) := by simp [execSXor, hs]

@[simp] theorem execShl_forms (c rd ra rb : Nat) (s : State) (hs : s.hbm.Formed) : Forms (execShl c rd ra rb s) := by simp [execShl, hs]

@[simp] theorem execShr_forms (c rd ra rb : Nat) (s : State) (hs : s.hbm.Formed) : Forms (execShr c rd ra rb s) := by simp [execShr, hs]

@[simp] theorem execCmp_forms (c rd ra rb : Nat) (s : State) (hs : s.hbm.Formed) : Forms (execCmp c rd ra rb s) := by simp [execCmp, hs]

@[simp] theorem execMovi_forms (c rd imm : Nat) (s : State) (hs : s.hbm.Formed) : Forms (execMovi c rd imm s) := by simp [execMovi, hs]

@[simp] theorem execMul_forms (c rd ra rb : Nat) (s : State) (hs : s.hbm.Formed) : Forms (execMul c rd ra rb s) := by simp [execMul, hs]

@[simp] theorem execJmp_forms (c target : Nat) (s : State) (hs : s.hbm.Formed) : Forms (execJmp c target s) := by simp [execJmp, hs]

@[simp] theorem execBr_forms (c rs target : Nat) (s : State) (hs : s.hbm.Formed) : Forms (execBr c rs target s) := by simp [execBr, hs]

@[simp] theorem execLoop_forms (c : Nat) (fromReg : Bool) (count last : Nat) (s : State) (hs : s.hbm.Formed) :
    Forms (execLoop c fromReg count last s) := by simp [execLoop, hs]

@[simp] theorem execAwait_forms (c item : Nat) (s : State) (hs : s.hbm.Formed) : Forms (execAwait c item s) := by simp [execAwait, hs]

@[simp] theorem execStepwait_forms (c : Nat) (s : State) (hs : s.hbm.Formed) : Forms (execStepwait c s) := by simp [execStepwait, hs]

/-! ### Vector-unit operations, VEC slot -/

@[simp] theorem vecOp_forms (c vd : Nat) (srcs : List Nat) (lat : Nat) (f : Cell → W512) (s : State) (hs : s.hbm.Formed) :
    Forms (vecOp c vd srcs lat f s) := by simp [vecOp, hs]

@[simp] theorem execVadd_forms (c vd va vb : Nat) (s : State) (hs : s.hbm.Formed) : Forms (execVadd c vd va vb s) := by simp [execVadd, hs]

@[simp] theorem execVsub_forms (c vd va vb : Nat) (s : State) (hs : s.hbm.Formed) : Forms (execVsub c vd va vb s) := by simp [execVsub, hs]

@[simp] theorem execVmul_forms (c vd va vb : Nat) (s : State) (hs : s.hbm.Formed) : Forms (execVmul c vd va vb s) := by simp [execVmul, hs]

@[simp] theorem execVfma_forms (c vd va vb vc : Nat) (s : State) (hs : s.hbm.Formed) : Forms (execVfma c vd va vb vc s) := by
  simp [execVfma, hs]

@[simp] theorem execVmax_forms (c vd va vb : Nat) (s : State) (hs : s.hbm.Formed) : Forms (execVmax c vd va vb s) := by simp [execVmax, hs]

@[simp] theorem execVmin_forms (c vd va vb : Nat) (s : State) (hs : s.hbm.Formed) : Forms (execVmin c vd va vb s) := by simp [execVmin, hs]

@[simp] theorem execVcmp_forms (c vd va vb : Nat) (s : State) (hs : s.hbm.Formed) : Forms (execVcmp c vd va vb s) := by simp [execVcmp, hs]

@[simp] theorem execVsel_forms (c vd va vb vc : Nat) (s : State) (hs : s.hbm.Formed) : Forms (execVsel c vd va vb vc s) := by
  simp [execVsel, hs]

@[simp] theorem execVand_forms (c vd va vb : Nat) (s : State) (hs : s.hbm.Formed) : Forms (execVand c vd va vb s) := by simp [execVand, hs]

@[simp] theorem execVor_forms (c vd va vb : Nat) (s : State) (hs : s.hbm.Formed) : Forms (execVor c vd va vb s) := by simp [execVor, hs]

@[simp] theorem execVperm_forms (c vd va vb : Nat) (s : State) (hs : s.hbm.Formed) : Forms (execVperm c vd va vb s) := by
  simp [execVperm, hs]

@[simp] theorem execVbcast_forms (c vd va lane : Nat) (s : State) (hs : s.hbm.Formed) : Forms (execVbcast c vd va lane s) := by
  simp [execVbcast, hs]

@[simp] theorem execVredSum_forms (c vd va : Nat) (s : State) (hs : s.hbm.Formed) : Forms (execVredSum c vd va s) := by
  simp [execVredSum, hs]

@[simp] theorem execVredMax_forms (c vd va : Nat) (s : State) (hs : s.hbm.Formed) : Forms (execVredMax c vd va s) := by
  simp [execVredMax, hs]

@[simp] theorem execVlse_forms (c vd va vb : Nat) (s : State) (hs : s.hbm.Formed) : Forms (execVlse c vd va vb s) := by simp [execVlse, hs]

@[simp] theorem execVcvt_forms (c : Nat) (o : CvtOp) (s : State) (hs : s.hbm.Formed) : Forms (execVcvt c o s) := by
  unfold execVcvt
  split
  · simp [hs]
  · dsimp only
    split <;> simp [hs]

/-! ### Beats, holds, items and background accesses -/

@[simp] theorem State.failNow_formed (s : State) (c : Nat) (l : List Chk) (hs : s.hbm.Formed) : (s.failNow c l).hbm.Formed := by
  simp [State.failNow, hs]

@[simp] theorem execLinkNoFree_forms (c dir : Nat) (s : State) (hs : s.hbm.Formed) : Forms (execLinkNoFree c dir s) := by
  unfold execLinkNoFree
  split <;> simp [hs]

@[simp] theorem execBankNoFree_forms (c mem bank : Nat) (port : Bool) (s : State) (hs : s.hbm.Formed) :
    Forms (execBankNoFree c mem bank port s) := by
  unfold execBankNoFree
  dsimp only
  split <;> simp [hs]

@[simp] theorem execHoldTimeout_forms (r : Nat) (s : State) (hs : s.hbm.Formed) : Forms (execHoldTimeout r s) := by
  unfold execHoldTimeout
  dsimp only
  repeat' split
  all_goals simp [hs]

@[simp] theorem State.verdict_formed (s : State) (c v : Nat) (tileIn : Bool) (hs : s.hbm.Formed) : (s.verdict c v tileIn).hbm.Formed := by
  unfold State.verdict
  split <;> simp [hs]

@[simp] theorem State.deliver_formed (s : State) (r : Nat) (d : Delivery) (hs : s.hbm.Formed) : (s.deliver r d).1.hbm.Formed := by
  simp [State.deliver, apply_ite Prod.fst, hs]

@[simp] theorem execItemDelivery_forms (r k : Nat) (s : State) (hs : s.hbm.Formed) : Forms (execItemDelivery r k s) := by
  unfold execItemDelivery
  split <;> simp [hs]

@[simp] theorem execVerdictWord_forms (c : Nat) (w : VerdictIn) (s : State) (hs : s.hbm.Formed) : Forms (execVerdictWord c w s) := by
  simp [execVerdictWord, hs]

/-! ### Commands of the Step and Cache engines that name a slot or a run of steps -/

@[simp] theorem execSeqOpen_forms (g : Nat) (s : State) (hs : s.hbm.Formed) : Forms (execSeqOpen g s) :=
  withCommand_forms _ _ _ _ hs fun t id w ht => by simp [ht]

@[simp] theorem State.joinSlot_formed (s : State) (r n : Nat) (id : EntryId) (op : Nat) (hs : s.hbm.Formed) :
    (s.joinSlot r n id op).hbm.Formed := by simp [State.joinSlot, hs]

@[simp] theorem execSeqClose_forms (g : Nat) (s : State) (hs : s.hbm.Formed) : Forms (execSeqClose g s) :=
  withCommand_forms _ _ _ _ hs fun t id w ht => by simp [ht]

@[simp] theorem execSeqCloseTakesEffect_forms (r n : Nat) (s : State) (hs : s.hbm.Formed) : Forms (execSeqCloseTakesEffect r n s) := by
  simp [execSeqCloseTakesEffect, hs]

@[simp] theorem execCancel_forms (g : Nat) (s : State) (hs : s.hbm.Formed) : Forms (execCancel g s) := by
  have cancelled : Forms (withCommand g 0 0x14 s (fun s id w =>
      s.slotEntry id w [2, 3, 4] (fun s r n => (s.pushOp r n id 0x14).settleSlot r n))) :=
    withCommand_forms _ _ _ _ hs fun t id w ht => by simp [ht]
  simp [execCancel, hs, cancelled]

@[simp] theorem State.cancelAll_formed (s : State) (r : Nat) (id : EntryId) (hs : s.hbm.Formed) : (s.cancelAll r id).hbm.Formed := by
  unfold State.cancelAll
  extract_lets s₁ entry s₂ s₃ idle s₄
  have h₂ : s₂.hbm.Formed := foldl_formed _ (fun a e ha => a.endRun_formed _ _ _ _ ha) _ (by simpa [s₁] using hs)
  have h₄ : s₄.hbm.Formed := foldl_formed _ (fun a n ha => State.settleSlot_formed _ _ _ (by simpa using ha)) _ (by simpa [s₃] using h₂)
  split <;> simp [h₄]

@[simp] theorem execCancelAll_forms (g : Nat) (s : State) (hs : s.hbm.Formed) : Forms (execCancelAll g s) := by simp +contextual [execCancelAll, hs]

@[simp] theorem execPark_forms (g : Nat) (s : State) (hs : s.hbm.Formed) : Forms (execPark g s) :=
  withCommand_forms _ _ _ _ hs fun t id w ht => by simp [ht]

@[simp] theorem execParkTakesEffect_forms (r n : Nat) (s : State) (hs : s.hbm.Formed) : Forms (execParkTakesEffect r n s) := by
  simp [execParkTakesEffect, hs]

@[simp] theorem execResume_forms (g : Nat) (s : State) (hs : s.hbm.Formed) : Forms (execResume g s) := by simp +contextual [execResume, hs]

@[simp] theorem execFork_forms (g : Nat) (s : State) (hs : s.hbm.Formed) : Forms (execFork g s) :=
  withCommand_forms _ _ _ _ hs fun t id w ht => State.slotEntry_formed _ _ _ _ ht fun r n => by simp [ht]

@[simp] theorem execForkTakesEffect_forms (r n : Nat) (s : State) (hs : s.hbm.Formed) : Forms (execForkTakesEffect r n s) := by
  simp [execForkTakesEffect, hs]

@[simp] theorem execTrim_forms (g : Nat) (s : State) (hs : s.hbm.Formed) : Forms (execTrim g s) :=
  withCommand_forms _ _ _ _ hs fun t id w ht => by simp [ht]

@[simp] theorem execTrimTakesEffect_forms (r n : Nat) (s : State) (hs : s.hbm.Formed) : Forms (execTrimTakesEffect r n s) := by
  simp [execTrimTakesEffect, hs]

/-! ### Admission of a step -/

@[simp] theorem State.applyVerify_formed (s : State) (r n : Nat) (hs : s.hbm.Formed) : (s.applyVerify r n).hbm.Formed := by
  unfold State.applyVerify
  dsimp only
  split <;> simp [hs]

@[simp] theorem State.loseSlot_formed (s : State) (r n : Nat) (freePages : Bool) (id : EntryId) (hs : s.hbm.Formed) :
    (s.loseSlot r n freePages id).hbm.Formed := by simp [State.loseSlot, hs]

@[simp] theorem State.recompute_formed (s : State) (r n window : Nat) (e : RunEntry) (waveAt maskAt : List (Nat × Nat)) (hs : s.hbm.Formed) :
    (s.recompute r n window e waveAt maskAt).hbm.Formed := by
  unfold State.recompute
  split <;> simp [hs]

@[simp] theorem State.admitChunk_formed (s : State) (r current : Nat) (e : RunEntry) (t : StepTpl) (waveAt maskAt : List (Nat × Nat))
    (prompt : List Byte) (hs : s.hbm.Formed) :
    (s.admitChunk r current e t waveAt maskAt prompt).hbm.Formed := by
  unfold State.admitChunk
  dsimp only
  repeat' split
  all_goals simp [hs]

@[simp] theorem State.takeSlots_formed (r : Nat) (t : StepTpl) (group : Nat) (l : List Nat) (ps : List StepPos) (taken : List Nat)
    (a : Taking) (hs : a.s.hbm.Formed) : (State.takeSlots r t group l ps taken a).1.s.hbm.Formed := by
  induction l generalizing ps taken a with
  | nil => exact hs
  | cons n rest ih =>
    simp only [State.takeSlots]
    split
    · exact hs
    · split <;> simp [ih, hs]

@[simp] theorem State.admitSlots_formed (s : State) (r current : Nat) (e : RunEntry) (t : StepTpl) (waveAt maskAt : List (Nat × Nat))
    (hs : s.hbm.Formed) : (s.admitSlots r current e t waveAt maskAt).hbm.Formed := by
  unfold State.admitSlots
  extract_lets w gen group order lost s₁ order' absent s₂ order''
  have h₁ : s₁.hbm.Formed := foldl_formed _ (fun a n ha => a.loseSlot_formed _ _ _ _ ha) _ hs
  have h₂ : s₂.hbm.Formed := foldl_formed _ (fun a n ha => by rwa [State.modSlot_hbm]) _ h₁
  split
  · exact State.recompute_formed _ _ _ _ _ _ _ h₂
  · split
    · exact h₂
    · have taken : (State.takeSlots r t group order'' [] [] { s := s₂ }).1.s.hbm.Formed := State.takeSlots_formed _ _ _ _ _ _ _ h₂
      generalize State.takeSlots r t group order'' [] [] { s := s₂ } = took at taken ⊢
      obtain ⟨a, ps, slots⟩ := took
      dsimp only at taken ⊢
      split <;> simp [taken]

@[simp] theorem State.admitNext_formed (s : State) (r : Nat) (e : RunEntry) (waveAt maskAt : List (Nat × Nat)) (prompt : List Byte)
    (hs : s.hbm.Formed) : (s.admitNext r e waveAt maskAt prompt).hbm.Formed := by
  unfold State.admitNext
  split
  · simp [hs]
  · next t _ =>
    extract_lets kindOk s₁ s₂
    have h₁ : s₁.hbm.Formed := by simpa [s₁] using hs
    have h₂ : s₂.hbm.Formed := by
      simp only [s₂, State.settleRedo_hbm]
      exact foldl_formed _ (fun a n ha => a.applyVerify_formed _ _ ha) _ h₁
    split
    · simp [hs]
    · split
      · simp [hs]
      · split
        · simp [h₁]
        · split
          · exact State.admitChunk_formed _ _ _ _ _ _ _ _ h₂
          · exact State.admitSlots_formed _ _ _ _ _ _ _ h₂

@[simp] theorem execStepAdmission_forms (r : Nat) (waveAt maskAt : List (Nat × Nat)) (prompt : List Byte) (s : State) (hs : s.hbm.Formed) :
    Forms (execStepAdmission r waveAt maskAt prompt s) := by
  unfold execStepAdmission
  repeat' split
  all_goals simp [hs]

/-! ### The life of a region -/

@[simp] theorem State.loseScatters_formed (s : State) (r : Nat) (hs : s.hbm.Formed) : (s.loseScatters r).hbm.Formed := by
  simp +contextual [State.loseScatters, hs]

@[simp] theorem State.beginRelease_formed (s : State) (r : Nat) (entry : Option EntryId) (hs : s.hbm.Formed) :
    (s.beginRelease r entry).hbm.Formed := by simp [State.beginRelease, hs]

@[simp] theorem State.finishLoadOf_formed (s : State) (r : Nat) (hs : s.hbm.Formed) : (s.finishLoadOf r).hbm.Formed := by
  unfold State.finishLoadOf
  dsimp only
  repeat' split
  all_goals simp [hs]

/-! ### Commands of the Glaze engine -/

@[simp] theorem execCellWritesComplete_forms (r : Nat) (s : State) (hs : s.hbm.Formed) : Forms (execCellWritesComplete r s) := by
  unfold execCellWritesComplete
  repeat' split
  all_goals simp [hs]

@[simp] theorem execRelease_forms (g : Nat) (s : State) (hs : s.hbm.Formed) : Forms (execRelease g s) := by simp +contextual [execRelease, hs]

@[simp] theorem State.beginDelete_formed (s : State) (n : Nat) (entry : Option EntryId) (hs : s.hbm.Formed) :
    (s.beginDelete n entry).hbm.Formed := by simp +contextual [State.beginDelete, hs]

@[simp] theorem execGuestDelete_forms (g : Nat) (s : State) (hs : s.hbm.Formed) : Forms (execGuestDelete g s) := by
  simp +contextual [execGuestDelete, hs]

@[simp] theorem execGuestDeleteComplete_forms (n : Nat) (s : State) (hs : s.hbm.Formed) : Forms (execGuestDeleteComplete n s) := by
  unfold execGuestDeleteComplete
  dsimp only
  repeat' split
  all_goals simp +contextual [hs]

/-! ### Commands of the Keeper -/

@[simp] theorem State.beginZeroise_formed (s : State) (kind : Nat) (hs : s.hbm.Formed) : (s.beginZeroise kind).hbm.Formed := by
  unfold State.beginZeroise
  extract_lets gs s₁ own s₂
  have h₁ : s₁.hbm.Formed := foldl_formed _ (fun a n ha => a.beginDelete_formed _ _ ha) _ hs
  have h₂ : s₂.hbm.Formed := by
    refine foldl_formed _ (fun a r ha => ?_) _ h₁
    dsimp only
    split <;> simp [ha]
  simp [h₂]

@[simp] theorem execZeroise_forms (g : Nat) (s : State) (hs : s.hbm.Formed) : Forms (execZeroise g s) := by simp +contextual [execZeroise, hs]

@[simp] theorem execDecommission_forms (g : Nat) (s : State) (hs : s.hbm.Formed) : Forms (execDecommission g s) := by
  simp +contextual [execDecommission, hs]

@[simp] theorem execTamper_forms (sw : Nat) (s : State) (hs : s.hbm.Formed) : Forms (execTamper sw s) := by simp [execTamper, hs]

/-! ### The event log, critical shutdown, and what a cold boot keeps -/

@[simp] theorem State.holdRunning_formed (s : State) (hs : s.hbm.Formed) : s.holdRunning.hbm.Formed := by simp +contextual [State.holdRunning, hs]

@[simp] theorem State.shutdown_formed (s : State) (types : List Nat) (e : EventSub) (hs : s.hbm.Formed) : (s.shutdown types e).hbm.Formed := by
  simp [State.shutdown, hs]

/-! ### The course of a step -/

@[simp] theorem State.commitSlot_formed (s : State) (r : Nat) (f : Flight) (n : Nat) (hs : s.hbm.Formed) : (s.commitSlot r f n).1.hbm.Formed := by
  simp [State.commitSlot, apply_ite Prod.fst, hs]

@[simp] theorem State.endStep_formed (s : State) (r : Nat) (f : Flight) (hs : s.hbm.Formed) : (s.endStep r f).hbm.Formed := by
  unfold State.endStep
  split <;> simp [hs]

@[simp] theorem State.commit_formed (s : State) (r : Nat) (f : Flight) (hs : s.hbm.Formed) : (s.commit r f).hbm.Formed := by
  unfold State.commit
  extract_lets slots dead gone
  generalize hcommitted : List.foldl _ (s, []) _ = committed
  have hfirst : committed.1.hbm.Formed := by
    rw [← hcommitted]
    generalize slots.filter (fun n => !dead n) = l
    generalize hstart : ((s, []) : State × List (Nat × Nat × Nat)) = start
    have hs' : start.1.hbm.Formed := hstart ▸ hs
    clear hstart hcommitted
    induction l generalizing start with
    | nil => exact hs'
    | cons n l ih => exact ih _ (State.commitSlot_formed _ _ _ _ hs')
  obtain ⟨u, rows⟩ := committed
  dsimp -zeta only at hfirst ⊢
  extract_lets s₁ busy s₂ s₃ s₄ s₅ s₆
  have h₃ : s₃.hbm.Formed := by
    unfold s₃
    split <;> simpa [s₂, s₁] using hfirst
  have h₅ : s₅.hbm.Formed := foldl_formed _ (fun a n ha => State.leaveStep_formed _ _ _ _ (by simpa using ha)) _ (by simpa [s₄] using h₃)
  have h₆ : s₆.hbm.Formed := foldl_formed _ (fun a n ha => a.settleSlot_formed _ _ ha) _ h₅
  simp [h₆]

@[simp] theorem execStepCommit_forms (r : Nat) (s : State) (hs : s.hbm.Formed) : Forms (execStepCommit r s) := by
  unfold execStepCommit
  repeat' split
  all_goals simp [hs]

@[simp] theorem State.scatterRows_formed (s : State) (r : Nat) (c : Scatter) (hs : s.hbm.Formed) : (s.scatterRows r c).hbm.Formed := by
  refine foldl_formed _ (fun a k ha => ?_) _ hs
  split <;> simp +contextual [ha]

@[simp] theorem execScatterComplete_forms (r : Nat) (s : State) (hs : s.hbm.Formed) : Forms (execScatterComplete r s) := by
  unfold execScatterComplete
  split
  · exact (forms_next s).mpr hs
  · split
    · exact (forms_next s).mpr hs
    · next c rest _ =>
      have scattered : (s.scatterRows r c).hbm.Formed := s.scatterRows_formed r c hs
      refine (forms_next _).mpr (foldl_formed _ (fun a n ha => a.settleSlot_formed _ _ ha) _ ?_)
      simp [scattered]

@[simp] theorem execVerifyRecord_forms (m : Msg) (s : State) (hs : s.hbm.Formed) : Forms (execVerifyRecord m s) := by
  simp [execVerifyRecord, hs]

/-! ### The death of a cell, and the in-place row-shift -/

@[simp] theorem State.dieInRegion_formed (s : State) (r c : Nat) (hs : s.hbm.Formed) : (s.dieInRegion r c).hbm.Formed := by
  unfold State.dieInRegion
  dsimp only
  split <;> simp [hs]

@[simp] theorem execDeadCellDetect_forms (c : Nat) (s : State) (hs : s.hbm.Formed) : Forms (execDeadCellDetect c s) := by
  unfold execDeadCellDetect
  repeat' split
  all_goals simp [hs]

@[simp] theorem State.reserveAgain_formed (s : State) (r : Nat) (hs : s.hbm.Formed) : (s.reserveAgain r).hbm.Formed := by
  simp only [State.reserveAgain, State.modRegion_hbm]
  refine foldl_taking_formed (fun t n ht => foldl_taking_formed (fun u k hu => ?_) _ ht) _ (by simpa using hs)
  split <;> simp [hu]

@[simp] theorem execRowShiftCopyComplete_forms (r : Nat) (s : State) (hs : s.hbm.Formed) : Forms (execRowShiftCopyComplete r s) := by
  unfold execRowShiftCopyComplete
  dsimp only
  repeat' split
  all_goals simp [hs]

/-! ### Commands of the power supply and of pane regulation -/

@[simp] theorem execInputLowShutdown_forms (vin : Nat) (s : State) (hs : s.hbm.Formed) : Forms (execInputLowShutdown vin s) := by
  simp [execInputLowShutdown, hs]

@[simp] theorem State.darkCore_formed (s : State) (p : Nat) (hs : s.hbm.Formed) : (s.darkCore p).hbm.Formed := by
  unfold State.darkCore
  dsimp only
  repeat' split
  all_goals simp [hs]

/-! ### Temperatures -/

@[simp] theorem State.updateCap_formed (s : State) (hot : Int) (p : Nat) (hs : s.hbm.Formed) : (s.updateCap hot p).hbm.Formed := by
  simp [State.updateCap, hs]

/-! ### Resets, the boot sequence, standby activation, firmware attempts and commits -/

@[simp] theorem State.trainHbm_formed (s : State) (chans : List (Nat × Nat)) : (s.trainHbm chans).hbm.Formed := by
  simp [State.trainHbm, Mem.formed_empty]

@[simp] theorem execBootStageComplete_forms (f : BootFinds) (s : State) (hs : s.hbm.Formed) : Forms (execBootStageComplete f s) := by
  unfold execBootStageComplete
  dsimp only
  repeat' split
  all_goals simp [hs]

/-! ### Dot-unit operations, DOT slot -/

@[simp] theorem execDotW_forms (c : Nat) (o : DotOp) (waddr saddr : Nat) (s : State) (hs : s.hbm.Formed) :
    Forms (execDotW c o waddr saddr s) := by simp [execDotW, hs]

@[simp] theorem execDotL_forms (c : Nat) (o : DotOp) (grp : Nat) (s : State) (hs : s.hbm.Formed) : Forms (execDotL c o grp s) := by
  simp [execDotL, hs]

@[simp] theorem execDotFlush_forms (c e paddr : Nat) (s : State) (hs : s.hbm.Formed) : Forms (execDotFlush c e paddr s) := by
  simp [execDotFlush, hs]

@[simp] theorem execDotFlushAdd_forms (c e paddr : Nat) (s : State) (hs : s.hbm.Formed) : Forms (execDotFlushAdd c e paddr s) := by
  simp [execDotFlushAdd, hs]

@[simp] theorem execDotClr_forms (c : Nat) (s : State) (hs : s.hbm.Formed) : Forms (execDotClr c s) := by simp [execDotClr, hs]

/-! ### Commands of the Weight engine and its chains -/

theorem State.takeRooms_formed {s t : State} {g : Nat} {m : Manifest} {l : List Nat} {rooms : SMap (List (Nat × Nat))}
    (h : s.takeRooms g m l = some (rooms, t)) (hs : s.hbm.Formed) : t.hbm.Formed := by
  induction l generalizing s rooms with
  | nil =>
    cases h
    exact hs
  | cons i r ih =>
    unfold State.takeRooms at h
    split at h
    · contradiction
    · next runs u hu =>
      obtain ⟨q, hq, ht⟩ := Option.map_eq_some_iff.mp h
      cases ht
      exact ih hq (State.allocCopy_formed hu hs)

@[simp] theorem execManifestVerified_forms (id : Nat) (bytes : List Byte) (ok : Bool) (s : State) (hs : s.hbm.Formed) :
    Forms (execManifestVerified id bytes ok s) := by
  unfold execManifestVerified
  split
  · extract_lets _ _ _ _ _ _ _ _ _ _ s₁ win
    have h₁ : s₁.hbm.Formed := by simpa [s₁] using hs
    split
    · simp [hs]
    · split
      · split <;> simp [hs]
      · split
        · simp [hs]
        · split
          · split
            · simp [hs]
            · split
              · simp [hs]
              · extract_lets need n wanted copy rooms
                split
                · simp [h₁]
                · next runs rooms u hu =>
                  have hu : u.hbm.Formed := by
                    obtain ⟨q, hq, hu⟩ := Option.bind_eq_some_iff.mp hu
                    obtain ⟨t, ht, hu⟩ := Option.map_eq_some_iff.mp hu
                    cases hu
                    refine State.takeRooms_formed ht ?_
                    unfold copy at hq
                    split at hq
                    · cases hq
                      exact h₁
                    · exact State.allocCopy_formed hq h₁
                  split
                  · simp [h₁]
                  · extract_lets s₂ s₃ _ _ s₄ s₅ s₆ _ s₇
                    have h₂ : s₂.hbm.Formed := by cases h : win <;> simp [s₂, h, hu]
                    simp [s₇, s₆, s₅, s₄, s₃, h₂]
          · simp [hs]
  · simp [hs]

@[simp] theorem State.shardIn_formed (s : State) (l : WloadRec) (m : Manifest) (i : Nat) (bytes : List Byte) (hs : s.hbm.Formed) :
    (s.shardIn l m i bytes).hbm.Formed := by
  unfold State.shardIn
  extract_lets x setShard l' good sFault _ s₁ has s₂ s₃ s₄ s₅
  have hset (t : State) (f : ShardRec → ShardRec) : (setShard t f).hbm = t.hbm := by simp [setShard]
  have h₂ : s₂.hbm.Formed := by
    unfold s₂
    split <;> simp [s₁, hset, hs]
  have h₃ : s₃.hbm.Formed := by
    unfold s₃
    split <;> simp [h₂]
  have h₄ : s₄.hbm.Formed := by
    unfold s₄
    split <;> simp [h₃]
  split
  · simp [hset, sFault, hs]
  · simp [s₅, h₄]

@[simp] theorem execShardArrived_forms (id i : Nat) (bytes : List Byte) (s : State) (hs : s.hbm.Formed) :
    Forms (execShardArrived id i bytes s) := by
  unfold execShardArrived
  repeat' split
  all_goals simp [hs]

/-! ### Commands of discovery, the host bridge, multicast, barriers and region arrivals -/

@[simp] theorem State.offer_formed (s : State) (r : Nat) (d : Delivery) (hs : s.hbm.Formed) : (s.offer r d).hbm.Formed := by
  simp [State.offer, hs]

@[simp] theorem State.reduce_formed (s : State) (r : Nat) (d : Delivery) (k total : Nat) (vals : List FpVal) (hs : s.hbm.Formed) :
    (s.reduce r d k total vals).hbm.Formed := by simp [State.reduce, hs]

@[simp] theorem execRegionArrival_forms (q : Arrival) (s : State) (hs : s.hbm.Formed) : Forms (execRegionArrival q s) := by
  unfold execRegionArrival
  dsimp only
  repeat' split
  all_goals simp [hs]

/-! ### Mask sources and sampling entries -/

theorem State.twoCopies_formed {s t : State} {g n a b : Nat} (h : s.twoCopies g n = some (a, b, t)) (hs : s.hbm.Formed) : t.hbm.Formed := by
  unfold State.twoCopies at h
  split at h
  · contradiction
  · next c u hu =>
    obtain ⟨q, hq, ht⟩ := Option.map_eq_some_iff.mp h
    cases ht
    exact State.allocOther_formed hq (State.allocUnits_formed hu hs)

@[simp] theorem execMaskSourceLoadComplete_forms (n : Nat) (got : Option (List Byte)) (s : State) (hs : s.hbm.Formed) :
    Forms (execMaskSourceLoadComplete n got s) := by
  simp only [execMaskSourceLoadComplete]
  split
  · simp [hs]
  · split
    · simp [hs]
    · split
      · simp [hs]
      · split
        · simp [hs]
        · split
          · simp [hs]
          · split
            · simp [hs]
            · next a c t ht => simp [State.twoCopies_formed ht hs]

/-! ### HBM controllers -/

@[simp] theorem State.loseLog_formed (s : State) (r n u : Nat) (both : Bool) (hs : s.hbm.Formed) : (s.loseLog r n u both).hbm.Formed := by
  unfold State.loseLog
  generalize 49152 = fuel
  extract_lets g rec_ s₁
  have hrec (code : Nat) (t : State) : (rec_ code t).hbm = t.hbm := by simp [rec_]
  have h₁ : s₁.hbm.Formed := by simpa [s₁, hrec] using hs
  split
  · simp [hrec, hs]
  · split
    · simp [h₁]
    · extract_lets b good bad
      split
      · next v hv => simpa using State.takeOther_formed hv h₁
      · next c v hv => simp [State.takeOther_formed hv h₁]

@[simp] theorem State.loseMask_formed (s : State) (n u : Nat) (both : Bool) (hs : s.hbm.Formed) : (s.loseMask n u both).hbm.Formed := by
  unfold State.loseMask
  extract_lets x mend
  have hmend {lost good : List (Nat × Nat)} {put : List (Nat × Nat) → MaskSource} {t : State} (h : mend lost good put = some t) :
      t.hbm.Formed := by
    obtain ⟨k, -, h⟩ := Option.bind_eq_some_iff.mp h
    obtain ⟨q, hq, h⟩ := Option.map_eq_some_iff.mp h
    cases h
    simp [State.allocOther_formed hq hs]
  clear_value mend
  split
  · exact hs
  · split
    · simp [hs]
    · split
      · next ht => exact hmend ht
      · next ht => exact hmend ht
      · exact hs

@[simp] theorem State.loseRead_formed (s : State) (h : HeldRead) (hs : s.hbm.Formed) : (s.loseRead h).hbm.Formed := by
  unfold State.loseRead
  repeat' split
  all_goals simp [hs]

@[simp] theorem State.hbmReads_formed (s : State) (a src master outcome : Nat) (use : HbmUse) (rtag : Nat) (hs : s.hbm.Formed) :
    (s.hbmReads a src master outcome use rtag).hbm.Formed := by
  unfold State.hbmReads
  repeat' split
  all_goals simp [hs]

@[simp] theorem State.hbmWrites_formed (s : State) (a src master : Nat) (data : List Byte) (hs : s.hbm.Formed) :
    (s.hbmWrites a src master data).hbm.Formed := by
  unfold State.hbmWrites
  split <;> simp [hs]

@[simp] theorem State.hbmAgain_formed (s : State) (n : Nat) (hs : s.hbm.Formed) : (s.hbmAgain n).hbm.Formed := by
  refine foldl_formed _ (fun a w ha => ?_) _ (by simpa using hs)
  split <;> simp [ha]

@[simp] theorem execHbmRead_forms (a src master outcome : Nat) (use : BurstUse) (s : State) (hs : s.hbm.Formed) :
    Forms (execHbmRead a src master outcome use s) := by simp [execHbmRead, hs]

@[simp] theorem execHbmWrite_forms (a src master : Nat) (data : List Byte) (s : State) (hs : s.hbm.Formed) :
    Forms (execHbmWrite a src master data s) := by simp [execHbmWrite, hs]

@[simp] theorem execUeRetry_forms (n k outcome : Nat) (s : State) (hs : s.hbm.Formed) : Forms (execUeRetry n k outcome s) := by
  unfold execUeRetry
  repeat' split
  all_goals simp [hs]

@[simp] theorem execHbmUnitZero_forms (u : Nat) (s : State) (hs : s.hbm.Formed) : Forms (execHbmUnitZero u s) := by
  unfold execHbmUnitZero
  repeat' split
  all_goals simp [hs]

@[simp] theorem execOpeningComplete_forms (n c : Nat) (bank : Option Nat) (s : State) (hs : s.hbm.Formed) :
    Forms (execOpeningComplete n c bank s) := by simp [execOpeningComplete, hs]

/-! ### Commands of admission, of the power states of regions, and of authenticated limit changes -/

@[simp] theorem State.board_formed (s : State) (r : Nat) (hs : s.hbm.Formed) : (s.board r).hbm.Formed := by simp [State.board, hs]

@[simp] theorem execPowerStateLower_forms (r : Nat) (s : State) (hs : s.hbm.Formed) : Forms (execPowerStateLower r s) := by
  simp [execPowerStateLower, hs]

@[simp] theorem execForceBoarded_forms (src r : Nat) (s : State) (hs : s.hbm.Formed) : Forms (execForceBoarded src r s) := by
  unfold execForceBoarded
  split
  · exact (forms_next s).mpr hs
  · refine (forms_next _).mpr (State.writeForce_formed _ _ _ _ hs fun t ht => ?_)
    extract_lets entry s₁ s₂
    have h₂ : s₂.hbm.Formed := foldl_formed _ (fun a e ha => a.endRun_formed _ _ _ _ ha) _ (by simpa [s₁] using ht)
    split <;> simp [h₂]

/-! ### Memory, register-move and mesh operations, MOV slot -/

@[simp] theorem execLda_forms (c addr : Nat) (toX : Bool) (r h : Nat) (s : State) (hs : s.hbm.Formed) : Forms (execLda c addr toX r h s) := by
  simp [execLda, hs]

@[simp] theorem execSta_forms (c v h addr : Nat) (s : State) (hs : s.hbm.Formed) : Forms (execSta c v h addr s) := by simp [execSta, hs]

@[simp] theorem execStg_forms (c v h idx : Nat) (s : State) (hs : s.hbm.Formed) : Forms (execStg c v h idx s) := by simp [execStg, hs]

@[simp] theorem execLdp_forms (c vd addr : Nat) (s : State) (hs : s.hbm.Formed) : Forms (execLdp c vd addr s) := by simp [execLdp, hs]

@[simp] theorem execStp_forms (c v addr : Nat) (s : State) (hs : s.hbm.Formed) : Forms (execStp c v addr s) := by simp [execStp, hs]

@[simp] theorem execLdw_forms (c vd addr : Nat) (s : State) (hs : s.hbm.Formed) : Forms (execLdw c vd addr s) := by simp [execLdw, hs]

@[simp] theorem execSend_forms (c route v h : Nat) (s : State) (hs : s.hbm.Formed) : Forms (execSend c route v h s) := by
  simp [execSend, hs]

@[simp] theorem execRecv_forms (c vd h src : Nat) (s : State) (hs : s.hbm.Formed) : Forms (execRecv c vd h src s) := by simp [execRecv, hs]

@[simp] theorem execMovs_forms (c r v lane : Nat) (toScalar : Bool) (s : State) (hs : s.hbm.Formed) : Forms (execMovs c r v lane toScalar s) := by
  simp [execMovs, hs]

/-! ### Special-function and rotor operations, SFR slot -/

@[simp] theorem sfuOp_forms (f : SfuFn) (c vd va : Nat) (s : State) (hs : s.hbm.Formed) : Forms (sfuOp f c vd va s) := by simp [sfuOp, hs]

@[simp] theorem execExp_forms (c vd va : Nat) (s : State) (hs : s.hbm.Formed) : Forms (execExp c vd va s) := by simp [execExp, hs]

@[simp] theorem execLog_forms (c vd va : Nat) (s : State) (hs : s.hbm.Formed) : Forms (execLog c vd va s) := by simp [execLog, hs]

@[simp] theorem execRcp_forms (c vd va : Nat) (s : State) (hs : s.hbm.Formed) : Forms (execRcp c vd va s) := by simp [execRcp, hs]

@[simp] theorem execRsqrt_forms (c vd va : Nat) (s : State) (hs : s.hbm.Formed) : Forms (execRsqrt c vd va s) := by simp [execRsqrt, hs]

@[simp] theorem execSqrt_forms (c vd va : Nat) (s : State) (hs : s.hbm.Formed) : Forms (execSqrt c vd va s) := by simp [execSqrt, hs]

@[simp] theorem execSigm_forms (c vd va : Nat) (s : State) (hs : s.hbm.Formed) : Forms (execSigm c vd va s) := by simp [execSigm, hs]

@[simp] theorem execTanh_forms (c vd va : Nat) (s : State) (hs : s.hbm.Formed) : Forms (execTanh c vd va s) := by simp [execTanh, hs]

@[simp] theorem execSilu_forms (c vd va : Nat) (s : State) (hs : s.hbm.Formed) : Forms (execSilu c vd va s) := by simp [execSilu, hs]

@[simp] theorem execGelu_forms (c vd va : Nat) (s : State) (hs : s.hbm.Formed) : Forms (execGelu c vd va s) := by simp [execGelu, hs]

@[simp] theorem execRot_forms (c vd va rs base : Nat) (split : Bool) (s : State) (hs : s.hbm.Formed) :
    Forms (execRot c vd va rs base split s) := by simp [execRot, hs]

/-! ### Commands of thermal management and of the shelf grant -/

@[simp] theorem State.orCritical_formed (s t : State) (cs : List Channel) (hs : s.hbm.Formed) (h : t.hbm.Formed) :
    (s.orCritical t cs).hbm.Formed := by
  unfold State.orCritical
  split
  · simp [hs]
  · exact h

@[simp] theorem execRateSample_forms (sens : List (Nat × Int × Int)) (s : State) (hs : s.hbm.Formed) : Forms (execRateSample sens s) := by
  simp [execRateSample, hs]

@[simp] theorem execCoolantStopTimeout_forms (s : State) (hs : s.hbm.Formed) : Forms (execCoolantStopTimeout s) := by
  unfold execCoolantStopTimeout
  split <;> simp [hs]

@[simp] theorem execLintelRound_forms (rd : Readings) (s : State) (hs : s.hbm.Formed) : Forms (execLintelRound rd s) := by
  unfold execLintelRound
  dsimp only
  repeat' split
  all_goals simp [hs]

end Sys2Proof.Machine

namespace Sys2Proof.Machine

/-! ### Commands that may begin a cold boot, and the end of a check -/

theorem State.coldBoot_formed (s : State) (cause : Nat) : (s.coldBoot cause).hbm.Formed := by
  unfold State.coldBoot
  dsimp only
  split
  · exact Mem.formed_empty
  · rw [State.romSelect_hbm]
    exact Mem.formed_empty

theorem State.moduleReset_formed {s : State} (cause : Nat) (hs : s.hbm.Formed) : (s.moduleReset cause).hbm.Formed := by
  unfold State.moduleReset
  dsimp only
  split
  · simp [hs]
  · exact State.coldBoot_formed _ cause

theorem State.darkSill_formed {s : State} (p : Nat) (hs : s.hbm.Formed) : (s.darkSill p).hbm.Formed := by
  unfold State.darkSill
  dsimp only
  split
  · simp [hs]
  · split
    · exact State.moduleReset_formed 4 (by simpa using hs)
    · simp [hs]

theorem execPhaseFail_forms (p ph why : Nat) (s : State) (hs : s.hbm.Formed) : Forms (execPhaseFail p ph why s) := by
  unfold execPhaseFail
  extract_lets q failed mask s₁ s₂ s₃ n s₄ s₅
  have h₃ : s₃.hbm.Formed := by simpa [s₃, s₂, s₁] using hs
  have h₅ : s₅.hbm.Formed := by simpa [s₅] using h₃
  generalize (if p < 738 then 4 else 3) = phases
  split
  · simp [hs]
  · split
    · simp [hs]
    · split
      · split <;> simp [s₄, h₃]
      · split
        · refine (forms_next _).mpr ?_
          split
          · simp [h₅]
          · exact State.darkSill_formed p h₅
        · simp [h₃]

theorem execPowerOn_forms (vin : Nat) (s : State) (hs : s.hbm.Formed) : Forms (execPowerOn vin s) := by
  unfold execPowerOn
  split
  · simp [s.coldBoot_formed 0]
  · simp [hs]

theorem execResetN_forms (low : Bool) (s : State) (hs : s.hbm.Formed) : Forms (execResetN low s) := by
  unfold execResetN
  split
  · split <;> simp [hs]
  · split
    · simp [hs]
    · split <;> simp [hs, s.coldBoot_formed 1]

theorem execModuleReset_forms (src val : Nat) (s : State) (hs : s.hbm.Formed) : Forms (execModuleReset src val s) := by
  have traced (a v : Nat) : (s.traced a true v).hbm.Formed := by simpa using hs
  refine (forms_next _).mpr ?_
  unfold State.ownerWrites
  dsimp only
  split
  · split
    · exact State.moduleReset_formed 2 (traced _ _)
    · simp [hs]
  · simp [hs]

theorem execLintelWatchdog_forms (s : State) (hs : s.hbm.Formed) : Forms (execLintelWatchdog s) := by
  unfold execLintelWatchdog
  dsimp only
  split
  · simp [hs]
  · exact (forms_next _).mpr (State.moduleReset_formed 3 hs)

theorem execFwAttempt_forms (s : State) (hs : s.hbm.Formed) : Forms (execFwAttempt s) := by
  unfold execFwAttempt
  split
  · split
    · exact (forms_next _).mpr (State.moduleReset_formed 5 hs)
    · simp [hs]
  · simp [hs]

theorem State.setLimit_hbm {s t : State} {a v : Nat} (h : s.setLimit a v = some t) : t.hbm = s.hbm := by
  unfold State.setLimit at h
  grind [State.modPower, State.modThermal, State.modProf]

@[simp] theorem execAuthGoResult_keepsHbm (s : State) : HbmFrom s (execAuthGoResult s) := by
  unfold execAuthGoResult
  dsimp only
  split
  · simp
  · split
    · simp
    · split
      · next t ht => simp [State.setLimit_hbm ht]
      · simp

/-! ### Writes that may reset the module -/

/-- The state, where there is one, has its HBM in its form. -/
def FormedIfSome : Option State → Prop
  | some t => t.hbm.Formed
  | none => True

@[simp] theorem formedIfSome_some (t : State) : FormedIfSome (some t) ↔ t.hbm.Formed := .rfl

@[simp] theorem formedIfSome_none : FormedIfSome none := trivial

theorem landed_formed {s : State} {o : Out} (h : Forms o) : (landed s o).hbm.Formed := by
  obtain ⟨t, rfl, ht⟩ := h
  exact ht

theorem State.ownWrite_formed {s : State} (src a v : Nat) (hs : s.hbm.Formed) : FormedIfSome (s.ownWrite src a v) := by
  have kept (o : Out) (ho : HbmFrom s o) : (landed s o).hbm.Formed := landed_formed (ho.forms hs)
  have boarded (r : Nat) : (landed s (execForceBoarded src r s)).hbm.Formed := landed_formed (execForceBoarded_forms src r s hs)
  have intake (m : Msg) : (landed s (execCommandListIntake m (s.traced a true v))).hbm.Formed :=
    landed_formed ((execCommandListIntake_keepsHbm m (s.traced a true v)).forms (by simpa using hs))
  unfold State.ownWrite
  extract_lets p n o
  refine iteInduction (fun _ => ?_) (fun _ => ?_)
  · simp [kept]
  · refine iteInduction (fun _ => ?_) (fun _ => ?_)
    · exact landed_formed (execModuleReset_forms src v s hs)
    · repeat' refine iteInduction (fun _ => ?_) (fun _ => ?_)
      all_goals try split
      all_goals simp [kept, boarded, intake, hs]

theorem State.writeReg_formed {s : State} (src a v : Nat) (hs : s.hbm.Formed) : (s.writeReg src a v).hbm.Formed := by
  unfold State.writeReg
  split
  · exact hs
  · split
    · simp [hs]
    · split
      · simp [hs]
      · split
        · simp [hs]
        · next q _ =>
          split
          · next t ht => simpa [ht] using State.ownWrite_formed src a v hs
          · have plain := (s.traced a true v).plainWrite_keepsHbm src q a v
            split
            · next t ht =>
              have same : t.hbm = s.hbm := by simpa [ht] using plain
              rwa [same]
            · simp [hs]

theorem execRegisterWrite_forms (src addr len val : Nat) (s : State) (hs : s.hbm.Formed) : Forms (execRegisterWrite src addr len val s) := by
  unfold execRegisterWrite
  split
  · exact (forms_next _).mpr (State.writeReg_formed _ _ _ hs)
  · split <;> simp [hs]

theorem State.applyWrite_formed {s : State} (m : Msg) (hs : s.hbm.Formed) : (s.applyWrite m).hbm.Formed := by
  unfold State.applyWrite
  split
  · exact hs
  · split
    · exact landed_formed (HbmFrom.forms (s := s) (by simp) hs)
    · exact landed_formed (execRegisterWrite_forms _ _ _ _ s hs)

theorem State.directedHere_formed {s : State} (p : Nat) (m : Msg) (hs : s.hbm.Formed) : (s.directedHere p m).hbm.Formed := by
  have served (m' : Msg) : ((s.deliverHere m').applyWrite m').hbm.Formed := State.applyWrite_formed m' (by simpa using hs)
  unfold State.directedHere
  dsimp only
  split <;> simp [served]

theorem State.directed_formed {s : State} (p : Nat) (m : Msg) (hs : s.hbm.Formed) : (s.directed p m).hbm.Formed := by
  unfold State.directed
  dsimp only
  split
  · simp [hs]
  · split
    · exact State.directedHere_formed p m hs
    · split <;> simp [hs]

theorem execDirectedMessage_forms (p : Nat) (m : Msg) (s : State) (hs : s.hbm.Formed) : Forms (execDirectedMessage p m s) := by
  unfold execDirectedMessage
  split
  · simp [hs]
  · split
    · simp [hs]
    · exact (forms_next _).mpr (State.directed_formed p m (by simpa using hs))

theorem State.routeRx_formed {s : State} (p i : Nat) (y : RxMsg) (hs : s.hbm.Formed) : (s.routeRx p i y).hbm.Formed := by
  have entry (o : Out) (h : HbmFrom s o) : (landed s o).hbm.Formed := landed_formed (h.forms hs)
  unfold State.routeRx
  dsimp only
  split
  · simp [hs]
  · split
    · split <;> simp [hs]
    · split
      · split
        · exact State.directed_formed p y.msg (by simpa using hs)
        · simp [hs]
      · split
        · simp [hs]
        · split
          · split <;> simp [hs, entry]
          · split
            · split <;> simp [hs, entry]
            · split
              · simp [hs]
              · split <;> simp [hs]

@[simp] theorem State.routeLocal_hbm (s : State) (o : OutMsg) : (s.routeLocal o).hbm = s.hbm := by
  have entry (o : Out) (h : HbmFrom s o) : (landed s o).hbm = s.hbm := landed_hbm h
  unfold State.routeLocal
  dsimp only
  split
  · simp
  · split
    · simp
    · split
      · simp
      · split
        · simp [entry]
        · split
          · simp
          · split <;> simp

theorem execMessageRoute_forms (inp : Option Nat) (vc : Nat) (s : State) (hs : s.hbm.Formed) : Forms (execMessageRoute inp vc s) := by
  unfold execMessageRoute
  split
  · simp [hs]
  · split
    · dsimp only
      split
      · simp [hs]
      · split
        · exact (forms_next _).mpr (State.routeRx_formed _ _ _ hs)
        · simp [hs]
    · split
      · simp [hs]
      · split
        · simp [hs]
        · split <;> simp [hs]

theorem State.tapAccess_formed {s : State} (addr : Nat) (write : Bool) (data : Nat) (hs : s.hbm.Formed) :
    (s.tapAccess addr write data).1.hbm.Formed := by
  unfold State.tapAccess
  split
  · simp [hs]
  · dsimp only
    have acted : (if write then s.writeReg s.ownerSource addr (data % 2 ^ 64) else s.answerRead s.ownerSource addr 0 8).hbm.Formed := by
      split
      · exact State.writeReg_formed _ _ _ hs
      · simp [hs]
    simpa using acted

theorem execDbgMgmt_forms (addr : Nat) (write : Bool) (data : Nat) (s : State) (hs : s.hbm.Formed) :
    Forms (execDbgMgmt addr write data s) := by
  unfold execDbgMgmt
  split
  · simp [hs]
  · split
    · simp [hs]
    · split
      · simp [hs]
      · have accessed : ((s.tapLoad 0x80 0 true).tapAccess (addr % 2 ^ 40) write data).1.hbm.Formed :=
          State.tapAccess_formed _ write data (by simpa using hs)
        dsimp only
        split <;> simpa using accessed

/-! ### Every command, and every step -/

/-- Every command answers a next state, and keeps the form of the HBM. -/
theorem exec_forms (c : Instr) (s : State) (hs : s.hbm.Formed) : Forms (exec c s) := by
  have kept (o : Out) (ho : HbmFrom s o) : Forms o := ho.forms hs
  cases c with
  | phaseFail p ph why => exact execPhaseFail_forms p ph why s hs
  | powerOn vin => exact execPowerOn_forms vin s hs
  | resetN low => exact execResetN_forms low s hs
  | moduleReset src val => exact execModuleReset_forms src val s hs
  | lintelWatchdog => exact execLintelWatchdog_forms s hs
  | fwAttempt => exact execFwAttempt_forms s hs
  | registerWrite src addr len val => exact execRegisterWrite_forms src addr len val s hs
  | directedMessage p m => exact execDirectedMessage_forms p m s hs
  | messageRoute inp vc => exact execMessageRoute_forms inp vc s hs
  | dbgMgmt addr write data => exact execDbgMgmt_forms addr write data s hs
  | _ => simp [kept, hs]

theorem keptByPanes_formed : KeptByPanes (fun s => s.hbm.Formed) where
  time _ _ h := h
  snap _ _ h := h
  cells _ _ h := h
  setPane _ _ _ h := h
  failCell s c l h := s.failCell_formed c l h
  settleHold s r h := by rwa [s.settleHold_hbm r]
  stopContract s r h := s.stopContract_formed r h
  serveBg s c mem h := by rwa [s.serveBg_hbm c mem]

/-- Settles O54: a step is a command, each of which keeps the form, or the tick, which keeps it too. -/
theorem stepsKeepTheMemoryInItsForm : Obligations.StepsKeepTheMemoryInItsForm := by
  intro s t hwf hlost hstep
  have hs : s.hbm.Formed := ⟨hwf, hlost⟩
  cases hqueue : s.pending with
  | nil =>
    obtain rfl : s.tick = t := by simpa [step_of_nil hqueue] using hstep
    exact keptByPanes_formed.tick hs
  | cons c rest =>
    obtain ⟨u, hu, hformed⟩ := exec_forms c { s with pending := rest } hs
    obtain rfl : u = t := by simpa [step_of_cons hqueue, hu] using hstep
    exact hformed

end Sys2Proof.Machine

namespace Sys2Proof.Machine

/-! ## Issue of a slot (R41, R42, R122-R124) -/

theorem State.keepSnap_ctx (s : State) (c : Nat) : (s.keepSnap c).ctx c = s.ctx c := by
  unfold State.keepSnap
  split <;> rfl

theorem State.keepSnap_failed (s : State) (c d : Nat) : (s.keepSnap c).failed d = s.failed d := by
  unfold State.keepSnap
  split <;> rfl

/-- The shared check of an operation with usable operands, in a bundle whose bits 3:0 are zero. -/
theorem Ctx.base_of_issues {s : State} {c slot : Nat} (h : Issues s c slot) {ok : Bool} (hok : ok = true) : (s.ctx c).base ok = [] := by
  obtain ⟨-, -, hbits, -⟩ := h
  have hbits' : (s.ctx c).x.bundle (s.ctx c).x.pc % 16 = 0 := hbits
  simp [Ctx.base, hok, hbits']

/-- A slot that may issue an operation none of whose checks fails: the cell becomes what the operation makes of it. -/
theorem issue_of_issues {s : State} {c slot : Nat} (h : Issues s c slot) {f : Ctx → List Chk × Cell} (hchks : (f (s.ctx c)).1 = [])
    (rot : Bool := false) : issue c slot f s rot = .next (s.issuedAs c slot (f (s.ctx c)).2 rot) := by
  obtain ⟨-, hlive, -, hfailed⟩ := h
  rw [issue, if_pos hlive]
  simp [State.keepSnap_ctx, hchks, State.keepSnap_failed, hfailed, State.issuedAs]

/-- A slot that may issue an operation that fails checks. -/
theorem issue_fails {s : State} {c slot : Nat} (h : Issues s c slot) {f : Ctx → List Chk × Cell} (hchks : (f (s.ctx c)).1 ≠ []) :
    issue c slot f s = .next (s.issueFails c slot (f (s.ctx c)).1) := by
  obtain ⟨-, hlive, -, -⟩ := h
  rw [issue, if_pos hlive]
  simp [State.keepSnap_ctx, hchks, State.issueFails]

/-! ## The scalar operations (R43) -/

theorem scalarOp_of_issues {s : State} {c rd lat : Nat} {ok : Bool} {f : Cell → R32} (h : Issues s c 0) (hok : ok = true) (hrd : rd < 32) :
    scalarOp c rd ok lat f s = .next (s.issuedAs c 0 (s.landing c lat (.sReg rd (f (s.cell c))))) :=
  issue_of_issues h (Ctx.base_of_issues h (by simp [hok, hrd]))

theorem twoRegs_eq_true {ra rb : Nat} (ha : ra < 32) (hb : rb < 32) : twoRegs ra rb = true := by simp [twoRegs, ha, hb]

theorem shiftVal_short (right : Bool) {a b : R32} (h : b.toNat < 32) :
    shiftVal right a b = if right then a >>> b.toNat else a <<< b.toNat := if_pos h

theorem shiftVal_long (right : Bool) {a b : R32} (h : 32 ≤ b.toNat) : shiftVal right a b = Config.longShift right a b :=
  if_neg (Nat.not_lt.mpr h)

/-- A scalar result that lands is in its register, but for s0, which reads zero. -/
theorem Cell.s_land1_sReg (x : Cell) (n r q : Nat) (v : R32) : (x.land1 n (.sReg r v)).s q = if q = r ∧ r ≠ 0 then v else x.s q := by
  by_cases hr : r = 0
  · simp [Cell.land1, hr]
  · by_cases hq : q = 0
    · have : q ≠ r := fun h => hr (h ▸ hq)
      simp [Cell.s, hq, Ne.symm hr]
    · simp [Cell.land1, Cell.s, hr, hq, mget_mset]

/-- What else of the cell a scalar result leaves. -/
theorem Cell.land1_sReg_frame (x : Cell) (n r : Nat) (v : R32) :
    (x.land1 n (.sReg r v)).vreg = x.vreg ∧ (x.land1 n (.sReg r v)).wmem = x.wmem ∧ (x.land1 n (.sReg r v)).amem = x.amem := by
  unfold Cell.land1
  dsimp only
  split <;> exact ⟨rfl, rfl, rfl⟩

theorem Cell.v_land1_vReg (x : Cell) (n r q : Nat) (w : W512) : (x.land1 n (.vReg r w)).v q = if q = r then w else x.v q := by
  simp [Cell.land1, Cell.v, mget_mset]

/-- Settles O3: each operation is `scalarOp` with its value, and what lands is the law of `Cell.land1`. -/
theorem scalarOperations : Obligations.ScalarOperations := by
  refine ⟨?_, ?_⟩
  · intro s c rd ra rb imm h hrd hra hrb himm x out
    have op {lat : Nat} {f : Cell → R32} : scalarOp c rd (twoRegs ra rb) lat f s = out lat (f x) :=
      scalarOp_of_issues h (twoRegs_eq_true hra hrb) hrd
    have shift {right : Bool} {v : R32} (hv : shiftVal right (x.s ra) (x.s rb) = v) :
        scalarOp c rd (twoRegs ra rb) 1 (fun x => shiftVal right (x.s ra) (x.s rb)) s = out 1 v := by rw [op, hv]
    simp only [exec_add, execAdd, exec_sub, execSub, exec_sAnd, execSAnd, exec_sOr, execSOr, exec_sXor, execSXor, exec_shl, execShl,
      exec_shr, execShr, exec_cmp, execCmp, exec_movi, execMovi, exec_mul, execMul]
    refine ⟨op, op, op, op, op, fun hb => ?_, fun hb => ?_, fun hb => ?_, fun hb => ?_, op, ?_, op⟩
    · exact shift (shiftVal_short false hb)
    · exact shift (shiftVal_short true hb)
    · exact shift (shiftVal_long false hb)
    · exact shift (shiftVal_long true hb)
    · exact scalarOp_of_issues h (decide_eq_true himm) hrd
  · intro x n r q v w
    obtain ⟨hv, hw, ha⟩ := x.land1_sReg_frame n r v
    exact ⟨x.s_land1_sReg n r q v, by rw [Cell.v, hv]; rfl, x.v_land1_vReg n r q w, rfl, hw, ha, rfl, rfl⟩

/-! ## The vector unit (Table 2-6) -/

theorem vecOp_of_issues {s : State} {c vd lat : Nat} {srcs : List Nat} {f : Cell → W512} (h : Issues s c 2) (hvd : vd < 32)
    (hsrcs : ∀ r ∈ srcs, r < 32) : vecOp c vd srcs lat f s = .next (s.issuedAs c 2 (s.landing c lat (.vReg vd (f (s.cell c))))) :=
  issue_of_issues h (Ctx.base_of_issues h (by simpa [hvd] using hsrcs))

/-- Settles O6: each operation is `vecOp` with its value; VBCAST also names a lane. -/
theorem vectorOperations : Obligations.VectorOperations := by
  intro s c vd va vb vc lane h hvd hva hvb hvc hlane x a b out
  have op1 {lat : Nat} {f : Cell → W512} : vecOp c vd [va] lat f s = out lat (f x) := vecOp_of_issues h hvd (by simp [hva])
  have op2 {lat : Nat} {f : Cell → W512} : vecOp c vd [va, vb] lat f s = out lat (f x) := vecOp_of_issues h hvd (by simp [hva, hvb])
  have op3 {lat : Nat} {f : Cell → W512} : vecOp c vd [va, vb, vc] lat f s = out lat (f x) :=
    vecOp_of_issues h hvd (by simp [hva, hvb, hvc])
  have bcast : execVbcast c vd va lane s = out 2 (vpack (fun _ => vlane a lane)) :=
    issue_of_issues h (Ctx.base_of_issues h (by simp [hvd, hva, hlane]))
  simp only [exec_vadd, execVadd, exec_vsub, execVsub, exec_vmul, execVmul, exec_vfma, execVfma, exec_vmax, execVmax, exec_vmin, execVmin,
    exec_vcmp, execVcmp, exec_vsel, execVsel, exec_vand, execVand, exec_vor, execVor, exec_vperm, execVperm, exec_vbcast, exec_vredSum,
    execVredSum, exec_vredMax, execVredMax, exec_vlse, execVlse]
  exact ⟨op2, op2, op2, op3, op2, op2, op2, op3, op2, op2, op2, bcast, op1, op1, op2⟩

/-! ### VCVT -/

theorem Issues.useFree {s : State} {c slot : Nat} (h : Issues s c slot) : Issues s.useFree c slot := h

/-- Settles O7: a reserved code fails its check, and each form of VCVT issues with the cell that the clause names. -/
theorem conversions : Obligations.Conversions := by
  intro s c o h x k
  simp only [exec_vcvt, execVcvt]
  refine ⟨fun hf => ?_, ?_⟩
  · rw [hf]
    exact issue_fails h (by simp)
  · intro f hf hvd hva hts hrd
    rw [hf]
    refine ⟨fun hn htwo hvd' => ?_, fun hn htwo => ?_, fun hn hva' => ?_⟩
    · simp only [hn, htwo, Bool.false_eq_true, if_false, if_true]
      exact issue_of_issues h (Ctx.base_of_issues h (by simp [hvd, hva, hts, hrd, hvd']))
    · simp only [hn, htwo, Bool.false_eq_true, if_false]
      exact issue_of_issues h (Ctx.base_of_issues h (by simp [hvd, hva, hts, hrd]))
    · have hva'' : (!decide (f.perOp = 32) || decide (o.va < 31)) = true := by simpa using Decidable.imp_iff_not_or.mp hva'
      simp only [hn, if_true]
      refine ⟨fun hwidth => ?_, fun hwidth hsite hchk => ?_⟩
      · simp only [hwidth, ne_eq, not_true_eq_false, decide_false, Bool.false_and, Bool.false_eq_true, if_false]
        refine issue_of_issues h.useFree ?_
        simp [Ctx.base_of_issues h.useFree, hvd, hva, hts, hrd, hva'']
      · have hchk' : (s.useFree.ctx c).siteChk o = [] := hchk
        have hsite' : o.site < (s.useFree.ctx c).x.sites.length := hsite
        simp only [hwidth, ne_eq, not_false_eq_true, decide_true, if_true]
        refine issue_of_issues h.useFree ?_
        simp [Ctx.base_of_issues h.useFree, hvd, hva, hts, hrd, hva'', hsite', hchk']

end Sys2Proof.Machine

namespace Sys2Proof.Machine

/-! ## The dot unit (R46-R48, R92, R93) -/

theorem Ctx.range_eq_nil (k : Ctx) {mem port slot offset : Nat} (h : offset < memSize mem) : k.range mem port slot offset = [] := if_pos h

/-- Two accesses of one cycle to one memory, on different banks and ports, do not meet. -/
theorem clash_eq_nil {a b : Access} (hbank : a.bank ≠ b.bank) (hport : a.port ≠ b.port) : clash a b = [] := by simp [clash, hbank, hport]

/-- Settles O5: every form of issue passes its checks, and the cell becomes what the clause names. -/
theorem dotIssues : Obligations.DotIssues := by
  intro s c h x k
  simp only [exec_dotL, execDotL, exec_dotW, execDotW, exec_dotFlush, execDotFlush, exec_dotFlushAdd, execDotFlushAdd, exec_dotClr,
    execDotClr]
  refine ⟨fun o grp hok => ?_, fun o waddr saddr f hok hf hs => ?_, fun o waddr saddr f hok hf hs => ?_, fun e paddr he hp => ⟨?_, ?_⟩, ?_⟩
  · exact issue_of_issues h (Ctx.base_of_issues h hok)
  · intro hacc
    simp only [hf, Option.getD_some, hs, Bool.false_eq_true, if_false]
    refine issue_of_issues h ?_
    simpa [Ctx.base_of_issues h hok, clashes] using hacc
  · intro hacc hside hbanks
    simp only [hf, Option.getD_some, hs, if_true]
    refine issue_of_issues h ?_
    have hmeet : clash (k.access 1 1 1 ((k.reg.windowBase + waddr) % 2 ^ 20 / 64 * 64) 0 false)
        (k.access 1 2 1 ((k.reg.windowBase + saddr) % 2 ^ 20 / 8 * 8) 0 true) = [] := clash_eq_nil hbanks (Nat.succ_ne_self 1).symm
    simpa [Ctx.base_of_issues h hok, clashes] using ⟨hacc, hside, hmeet⟩
  · refine issue_of_issues h ?_
    simp [Ctx.base_of_issues h, he, Ctx.range_eq_nil _ (mem := 3) hp]
  · refine issue_of_issues h ?_
    simp [Ctx.base_of_issues h, he, Ctx.range_eq_nil _ (mem := 3) hp]
  · refine issue_of_issues h ?_
    simp [Ctx.base_of_issues h]

/-! ## The special-function unit (R49-R51) -/

theorem sfuOp_of_issues {s : State} {c vd va : Nat} (h : Issues s c 3) (f : SfuFn) (hvd : vd < 32) (hva : va < 32)
    (hfree : (s.cell c).sfuFree ≤ (s.ctx c).n) :
    sfuOp f c vd va s = .next (s.issuedAs c 3 { (s.ctx c).land (s.cell c) (sfuLatency (s.ctx c).reg.cls)
      (.vReg vd (vpack (fun i => sfuLane f (vlane ((s.cell c).v va) i)))) with sfuFree := (s.ctx c).n + 4 }) := by
  refine issue_of_issues h ?_
  have hbusy : (s.ctx c).sfuBusy = [] := if_neg (Nat.not_lt.mpr hfree)
  simp [Ctx.base_of_issues h, hvd, hva, hbusy]

/-- Bit `b` of the first `n` lanes packed: that of the lane it lies in. -/
theorem getLsbD_pack (f : Nat → R32) (n b : Nat) (hb : b < 512) :
    ((List.range n).foldl (fun (a : W512) i => a ||| ((f i).setWidth 512 <<< (32 * i))) 0).getLsbD b =
      (decide (b / 32 < n) && (f (b / 32)).getLsbD (b % 32)) := by
  induction n with
  | zero => simp
  | succ n ih =>
    rw [List.range_succ, List.foldl_append]
    simp only [List.foldl_cons, List.foldl_nil, BitVec.getLsbD_or, ih, BitVec.getLsbD_shiftLeft, hb, decide_true, Bool.true_and,
      BitVec.getLsbD_setWidth]
    obtain hlt | heq | hgt := Nat.lt_trichotomy (b / 32) n
    · have h1 : b < 32 * n := by omega
      have h2 : b / 32 < n + 1 := by omega
      simp [hlt, h1, h2]
    · have h1 : ¬b < 32 * n := by omega
      have h2 : b - 32 * n = b % 32 := by omega
      have h3 : b % 32 < 512 := by omega
      simp [heq, h1, h2, h3]
    · have h1 : ¬b < 32 * n := by omega
      have h2 : ¬b / 32 < n := by omega
      have h3 : ¬b / 32 < n + 1 := by omega
      have h4 : 32 ≤ b - 32 * n := by omega
      simp [h2, h3, BitVec.getLsbD_of_ge _ _ h4]

/-- A lane of a packed register is the value packed there. -/
theorem vlane_vpack (f : Nat → R32) {i : Nat} (hi : i < 16) : vlane (vpack f) i = f i := by
  refine BitVec.eq_of_getLsbD_eq fun j hj => ?_
  have hdiv : (32 * i + j) / 32 = i := by omega
  have hmod : (32 * i + j) % 32 = j := by omega
  rw [vlane, BitVec.getLsbD_extractLsb', vpack, getLsbD_pack f 16 _ (by omega), hdiv, hmod]
  simp [hj, hi]

/-- Settles O8: each function is `sfuOp`, and a lane of a rotation's result is the rotation of its pair. -/
theorem specialFunctions : Obligations.SpecialFunctions := by
  intro s c vd va rs base split h hvd hva hrs hbase x k fn
  simp only [exec_exp, execExp, exec_log, execLog, exec_rcp, execRcp, exec_rsqrt, execRsqrt, exec_sqrt, execSqrt, exec_sigm, execSigm,
    exec_tanh, execTanh, exec_silu, execSilu, exec_gelu, execGelu, exec_rot, execRot]
  refine ⟨fun hfree => ?_, _, issue_of_issues h (Ctx.base_of_issues h (by simp [hvd, hva, hrs, hbase])) true, fun i hi => vlane_vpack _ hi⟩
  have op (f : SfuFn) : sfuOp f c vd va s = fn f := sfuOp_of_issues h f hvd hva hfree
  exact ⟨op _, op _, op _, op _, op _, op _, op _, op _, op _⟩

/-! ## The MOV slot (Table 2-9) -/

theorem Cell.guardChk_eq_nil {x : Cell} {offset : Nat} (h : x.guardHit offset = none) (port : Nat) : x.guardChk offset port = [] := by
  rw [Cell.guardChk, h]

/-- Settles O9: each access is in range and meets no other. -/
theorem loadsAndStores : Obligations.LoadsAndStores := by
  intro s c r v h addr hi hr hv hh x k
  simp only [exec_lda, execLda, exec_sta, execSta, exec_ldp, execLdp, exec_stp, execStp, exec_ldw, execLdw]
  refine ⟨fun haddr hacc hguard => ?_, fun haddr => ?_, fun haddr hacc => ?_, fun haddr => ?_, fun hacc => ?_⟩
  · have hchks : (s.ctx c).range 2 3 4 addr ++ (if addr < memSize 2 then
        (s.ctx c).clashNow ((s.ctx c).access 2 3 4 (addr / 32 * 32) 0 false) ++ (s.ctx c).x.guardChk (addr / 32 * 32) 3 else []) = [] := by
      have hacc' : (s.ctx c).clashNow ((s.ctx c).access 2 3 4 (addr / 32 * 32) 0 false) = [] := hacc
      have hguard' : (s.ctx c).x.guardChk (addr / 32 * 32) 3 = [] := Cell.guardChk_eq_nil hguard 3
      have haddr' : addr < memSize 2 := haddr
      simp [Ctx.range_eq_nil _ haddr', hacc', hguard']
    refine ⟨issue_of_issues hi ?_, fun hr4 => issue_of_issues hi ?_⟩
    · rw [List.append_assoc, hchks]
      simp [Ctx.base_of_issues hi, hr, hh]
    · rw [List.append_assoc, hchks]
      simp [Ctx.base_of_issues hi, hr4]
  · refine issue_of_issues hi ?_
    simp [Ctx.base_of_issues hi, hv, hh, Ctx.range_eq_nil _ (mem := 2) haddr]
  · refine issue_of_issues hi ?_
    simp [Ctx.base_of_issues hi, hr, Ctx.range_eq_nil _ (mem := 3) haddr, hacc, k]
  · refine issue_of_issues hi ?_
    simp [Ctx.base_of_issues hi, hv, Ctx.range_eq_nil _ (mem := 3) haddr]
  · refine issue_of_issues hi ?_
    simpa [Ctx.base_of_issues hi, hr] using hacc

/-- A FIFO whose head carries the tag of the beat before passes its check (R110). -/
theorem Ctx.fifoChk_eq_nil {k : Ctx} {side : Nat} {e : FifoEnt} {rest : List FifoEnt} (hq : mget [] k.x.fifo side = e :: rest)
    (htag : e.tag = (k.beat + 3) % 4) : k.fifoChk side = [] := by
  simp [Ctx.fifoChk, hq, htag]

theorem Ctx.stgChk_eq_nil {k : Ctx} {idx : Nat} (hstate : (k.x.stg (k.step % 2)).state < 2) (hidx : idx < (k.x.stg (k.step % 2)).size) :
    k.stgChk idx = [] := by
  simp [Ctx.stgChk, Nat.not_le.mpr hstate, Nat.not_le.mpr hidx]

/-- Settles O10: each operation passes its checks, and the cell becomes what the clause names. -/
theorem stagingMeshAndMoves : Obligations.StagingMeshAndMoves := by
  intro s c r v h lane hi hr hv hh hlane x k
  simp only [exec_stg, execStg, exec_send, execSend, exec_recv, execRecv, exec_movs, execMovs]
  refine ⟨fun idx hstate hidx => ?_, fun route p hroute hinn => ?_, ?_, fun side m e rest h1 h5 hm hlink hpane hq htag => ?_, ?_, ?_⟩
  · refine issue_of_issues hi ?_
    simp [Ctx.base_of_issues hi, hv, hh, Ctx.stgChk_eq_nil (k := s.ctx c) hstate hidx]
  · refine issue_of_issues hi ?_
    have hroute' : (s.ctx c).x.routes.find? (fun q => q.1 == route) = some p := hroute
    simp [hroute', hinn, Ctx.base_of_issues hi, hv, hh]
  · simp only [if_true]
    exact issue_of_issues hi (Ctx.base_of_issues hi (by simp [hr, hh]))
  · have hside : side ≠ 0 := by omega
    simp only [hside, if_false, hm, hlink]
    have hq' : mget [] (s.ctx c).x.fifo side = e :: rest := hq
    refine (issue_of_issues hi ?_).trans ?_
    · simp [Ctx.base_of_issues hi, hr, hh, h5, hpane, Ctx.fifoChk_eq_nil hq' htag]
    · simp [hq', x, k]
      rfl
  · simp only [if_true]
    exact issue_of_issues hi (Ctx.base_of_issues hi (by simp [hr, hv, hlane]))
  · simp only [Bool.false_eq_true, if_false]
    exact issue_of_issues hi (Ctx.base_of_issues hi (by simp [hr, hv, hlane]))

end Sys2Proof.Machine

namespace Sys2Proof.Machine

/-! ## The registers' reset values -/

/-- Settles O51: each read falls to its register's case of the map, and each field to the reset state's. -/
theorem resetValues : Obligations.ResetValues := by
  refine ⟨?_, rfl, rfl, rfl, rfl, rfl, rfl, rfl⟩
  intro e he
  simp only [List.mem_cons, List.not_mem_nil, or_false] at he
  rcases he with rfl | rfl | rfl | rfl | rfl | rfl | rfl | rfl | rfl | rfl | rfl | rfl | rfl | rfl | rfl | rfl | rfl | rfl <;> rfl

/-! ## Management writes -/

theorem windowCell_of_lt {a : Nat} (h : a < 0x1000000000) : windowCell a = none :=
  if_neg fun ⟨hlo, _⟩ => absurd hlo (by omega)

/-- A write that reaches the map: the register's own command, or what its rules allow or refuse (R404, R424, R425). -/
theorem State.writeReg_of_requester {s : State} {src a q : Nat} (v : Nat) (hoff : s.boot.off = false) (hready : s.boot.ready = true)
    (haligned : a % 8 = 0) (hq : s.requester src = some q) (hown : s.ownWrite src a v = none) :
    s.writeReg src a v = match (s.traced a true v).plainWrite src q a v with
      | .ok t => t
      | .error c => (s.traced a true v).rejectAccess src a 0 false c := by
  simp [State.writeReg, hoff, hready, haligned, hq, hown] <;> rfl

/-- Neither the owner's limits of idleness, nor the selector of a requester, nor a mailbox has a command of its own. -/
theorem State.ownWrite_eq_none (s : State) (src v : Nat) {a : Nat}
    (ha : a = 0x20018 ∨ a = 0x10810 ∨ 0x1000000 ≤ a ∧ a < 0x1400000) : s.ownWrite src a v = none := by
  unfold State.ownWrite
  have hauth : a ≠ authGoAddr := by
    unfold authGoAddr
    omega
  rw [windowCell_of_lt (by omega)]
  iterate 5 rw [if_neg (by omega)]
  rw [if_neg hauth]
  iterate 6 rw [if_neg (by omega)]

theorem State.mailGo_of_not_busy {s : State} {g : Nat} (h : (s.mailbox g).state ≠ 1) :
    s.mailGo g = s.modKeeper (fun k => { k with queue := k.queue ++ [g], mail := mset k.mail g { mget {} k.mail g with state := 1 } }) :=
  if_neg h

theorem State.plainWrite_idleLimits (s : State) (src q v : Nat) :
    s.plainWrite src q 0x20018 v = ownerSets q (s.modPower (fun p => { p with idleShut := bits v 63 32, idleSeal := bits v 31 0 })) := rfl

theorem State.plainWrite_selector (s : State) (src q v : Nat) : s.plainWrite src q 0x10810 v = .ok (s.setSel q 0 (v % 4096)) := rfl

theorem State.plainWrite_mailGo (s : State) (src v : Nat) {g : Nat} (hg : g < 64) (hgo : bitAt v 63 = true) :
    s.plainWrite src g (0x1000008 + 65536 * g) v = .ok (s.mailGo g) := by
  unfold State.plainWrite
  iterate 2 rw [if_neg (by omega)]
  rw [if_pos (by omega)]
  have hguest : (0x1000008 + 65536 * g - 0x1000000) / 65536 = g := by omega
  have hword : (0x1000008 + 65536 * g) % 65536 = 8 := by omega
  simp [State.writeMail, hguest, hword, hgo]

/-- MB_GO of a mailbox that is not BUSY, by the guest whose it is (R387). -/
theorem exec_registerWrite_mailGo {s : State} {src g val : Nat} (hoff : s.boot.off = false) (hready : s.boot.ready = true) (hg : g < 64)
    (hval : val < 2 ^ 64) (hq : s.requester src = some g) (hgo : bitAt val 63 = true) :
    exec (.registerWrite src (0x1000008 + 65536 * g) 8 val) s = .next ((s.traced (0x1000008 + 65536 * g) true val).mailGo g) := by
  have hown : s.ownWrite src (0x1000008 + 65536 * g) val = none := s.ownWrite_eq_none src val (by omega)
  rw [exec_registerWrite, execRegisterWrite, if_pos rfl, Nat.mod_eq_of_lt hval,
    State.writeReg_of_requester val hoff hready (by omega) hq hown, State.plainWrite_mailGo _ _ _ hg hgo]

/-- Settles O48: one test of the write after the other, down to the register's own rules. -/
theorem registerWritesAreChecked : Obligations.RegisterWritesAreChecked := by
  intro s src addr val hoff hval
  have hword : exec (.registerWrite src addr 8 val) s = .next (s.writeReg src addr val) := by
    rw [exec_registerWrite, execRegisterWrite, if_pos rfl, Nat.mod_eq_of_lt hval]
  refine ⟨fun hready hearly => ?_, fun len hready hform => ?_, fun hready haligned hq => ?_, fun hready hq ha => ?_,
    fun q hready hq hne ha => ?_, fun q hready hq ha => ?_, fun g hg hready hq ha hgo hidle => ?_, fun q hready haligned hq hown => ?_⟩
  · simp [hword, State.writeReg, hoff, hready, hearly]
  · by_cases hlen : len = 8
    · subst hlen
      have haddr : addr % 8 ≠ 0 := by simpa using hform
      simp [hword, State.writeReg, hoff, hready, haddr]
    · simp [execRegisterWrite, hlen, hoff, hready]
  · simp [hword, State.writeReg, hoff, hready, haligned, hq]
  · subst ha
    rw [hword, State.writeReg_of_requester val hoff hready rfl hq (s.ownWrite_eq_none src val (by omega)), State.plainWrite_idleLimits,
      ownerSets, if_pos rfl]
  · subst ha
    rw [hword, State.writeReg_of_requester val hoff hready rfl hq (s.ownWrite_eq_none src val (by omega)), State.plainWrite_idleLimits,
      ownerSets, if_neg hne]
  · subst ha
    rw [hword, State.writeReg_of_requester val hoff hready rfl hq (s.ownWrite_eq_none src val (by omega)), State.plainWrite_selector]
  · subst ha
    rw [exec_registerWrite_mailGo hoff hready hg hval hq hgo]
    have hidle' : ((s.traced (0x1000008 + 65536 * g) true val).mailbox g).state ≠ 1 := hidle
    refine ⟨_, rfl, ?_, ?_⟩
    · simp [State.mailGo_of_not_busy hidle']
    · simp [State.mailGo_of_not_busy hidle', State.mailbox]
  · rw [hword, State.writeReg_of_requester val hoff hready haligned hq hown]
    exact ⟨fun t ht => by rw [ht], fun c hc => by rw [hc]⟩

/-! ## The TAP -/

/-- An available instruction selects its register (R454). -/
theorem State.tapLoad_available (s : State) (op pins : Nat) :
    s.tapLoad op pins true =
      s.modIface (fun f => { f with inst := op, refused := false, dr := 0, pins := pins, halted := op == 0x81 }) := rfl

/-- An instruction that is not available selects BYPASS, with B set (R454). -/
theorem State.tapLoad_refused (s : State) (op pins : Nat) :
    s.tapLoad op pins false = s.modIface (fun f => { f with inst := 0xFF, refused := true, dr := 0, pins := 0, halted := false }) := rfl

theorem State.pinTest_of_pinsFree {s : State} (h : s.pinsFree = true) (op pins sample shift : Nat) :
    s.pinTest op pins sample shift = (s.tapLoad op pins true).scan sample shift := by
  simp [State.pinTest, h]

theorem State.pinTest_of_not_pinsFree {s : State} (h : s.pinsFree = false) (op pins sample shift : Nat) :
    s.pinTest op pins sample shift = s.tapLoad op pins false := by
  simp [State.pinTest, h]

/-- DBG_MGMT in the scope that allows it: the access, and the register that holds what it answered. -/
theorem exec_dbgMgmt_of_access {s t : State} {a data : Nat} {write : Bool} {v : Option Nat} (hlive : s.tapLive = true)
    (hscope : s.keeper.tap = 2) (hnow : write = true ∨ s.tapWaits a = false)
    (haccess : (s.tapLoad 0x80 0 true).tapAccess (a % 2 ^ 40) write data = (t, v)) :
    exec (.dbgMgmt a write data) s =
      match v with
      | some v => .next (t.modIface (fun f => { f with dr := a % 2 ^ 40 * 2 ^ 72 + bit write * 2 ^ 64 + v }))
      | none => .next (t.useFree.modIface (fun f => { f with dr := a % 2 ^ 40 * 2 ^ 72 + bit write * 2 ^ 64 + t.free.toNat })) := by
  have hgo : ¬(!write && s.tapWaits a) = true := by
    obtain rfl | hwaits := hnow
    · simp
    · simp [hwaits]
  rw [exec_dbgMgmt, execDbgMgmt, if_neg (by simp [hlive]), if_neg (not_not_intro hscope), if_neg hgo]
  simp only [haccess]
  cases v <;> rfl

/-- The limits of idleness, written through the TAP (R332, R452): the owner's write, which answers nothing. -/
theorem State.tapAccess_idleLimits {s : State} {val : Nat} (hoff : s.boot.off = false) (hready : s.boot.ready = true)
    (hval : val < 2 ^ 64) (howner : s.requester s.ownerSource = some 0) :
    s.tapAccess 0x20018 true val = ((s.traced 0x20018 true val).modPower (fun p =>
      { p with idleShut := bits val 63 32, idleSeal := bits val 31 0 }), some val) := by
  have hwrite : s.writeReg s.ownerSource 0x20018 val = (s.traced 0x20018 true val).modPower (fun p =>
      { p with idleShut := bits val 63 32, idleSeal := bits val 31 0 }) := by
    rw [State.writeReg_of_requester val hoff hready rfl howner (s.ownWrite_eq_none _ val (.inl rfl)), State.plainWrite_idleLimits,
      ownerSets, if_pos rfl]
  generalize hu : (s.traced 0x20018 true val).modPower (fun p =>
      { p with idleShut := bits val 63 32, idleSeal := bits val 31 0 }) = u at hwrite ⊢
  have hout : u.outbox = s.outbox := hu ▸ rfl
  have hmod : val % 18446744073709551616 = val := Nat.mod_eq_of_lt hval
  simp [State.tapAccess, hmod, hwrite, ← hout]

/-- Settles O50: each instruction is available, or is not, and then its register or BYPASS is selected. -/
theorem tapInstructions : Obligations.TapInstructions := by
  intro s
  refine ⟨⟨_, rfl, rfl, rfl, rfl, ?_⟩, rfl, fun hlive => ⟨?_, ?_, fun a b htap => ?_, fun a b htap => ?_, fun a b hfree => ?_,
    fun a b hfree => ?_, fun hscope => ⟨?_, ?_, fun a data write hnow => ?_, fun val hoff hready hval howner => ?_⟩,
    fun hscope a v => ?_⟩⟩
  · simp [State.tapLive]
  · simp [execBypass, hlive, State.tapLoad_available]
  · simp [execIdcode, hlive, State.tapLoad_available]
  · simp [execSamplePreload, hlive, htap, State.tapLoad_available, State.scan, -Nat.reducePow]
  · simp [execSamplePreload, hlive, htap, State.tapLoad_refused]
  · simp [execExtest, execExtestPulse, execExtestTrain, execClamp, execHighz, hlive, hfree, State.pinTest_of_pinsFree hfree,
      State.tapLoad_available, State.scan, -Nat.reducePow]
  · simp [execExtest, execClamp, hlive, hfree, State.pinTest_of_not_pinsFree hfree, State.tapLoad_refused]
  · simp [execDbgLintelHalt, hlive, hscope, State.tapLoad_available]
  · simp [execDbgTrace, hlive, hscope, State.tapLoad_available, Iface.traceBits]
  · exact ⟨fun t v haccess => exec_dbgMgmt_of_access hlive hscope hnow haccess,
      fun t haccess => exec_dbgMgmt_of_access hlive hscope hnow haccess⟩
  · have haccess := State.tapAccess_idleLimits (s := s.tapLoad 0x80 0 true) hoff hready hval howner
    refine ⟨_, exec_dbgMgmt_of_access (a := 0x20018) hlive hscope (.inl rfl) haccess, ?_, ?_, ?_, ?_⟩ <;> simp [bit, State.tapLoad_available]
  · have hother : (s.keeper.tap == 2) = false := by simpa using hscope
    refine ⟨⟨_, if_neg (by simp [hlive]) |>.trans (if_pos hscope), rfl, rfl, rfl⟩, ?_, ?_⟩
    · simp [execDbgTrace, hlive, hother, State.tapLoad_refused]
    · simp [execDbgLintelHalt, hlive, hother, State.tapLoad_refused]

end Sys2Proof.Machine

namespace Sys2Proof.Machine

/-! ## What a report, an alert and an event record leave alone (R351, R433, R437)

A report goes to its unit's own place, an alert's cause to ALERT_CAUSE, and an event record to the log and the service UART. -/

@[simp] theorem State.report_fields (s : State) (unit : Nat) (f : FaultRec) :
    (s.report unit f).pending = s.pending ∧ (s.report unit f).time = s.time ∧ (s.report unit f).freeCount = s.freeCount ∧
    (s.report unit f).outbox = s.outbox ∧ (s.report unit f).delivered = s.delivered ∧ (s.report unit f).cells = s.cells ∧
    (s.report unit f).panes = s.panes ∧ (s.report unit f).regions = s.regions ∧ (s.report unit f).guests = s.guests ∧
    (s.report unit f).arb = s.arb ∧ (s.report unit f).campion = s.campion ∧ (s.report unit f).cache = s.cache ∧
    (s.report unit f).weight = s.weight ∧ (s.report unit f).hbm = s.hbm ∧ (s.report unit f).extents = s.extents ∧
    (s.report unit f).hbmCtl = s.hbmCtl ∧ (s.report unit f).retired = s.retired ∧ (s.report unit f).retiredTagOk = s.retiredTagOk ∧
    (s.report unit f).wafer = s.wafer ∧ (s.report unit f).keeper = s.keeper ∧ (s.report unit f).power = s.power ∧
    (s.report unit f).thermal = s.thermal ∧ (s.report unit f).prof = s.prof ∧ (s.report unit f).ports = s.ports ∧
    (s.report unit f).fabric = s.fabric ∧ (s.report unit f).quick = s.quick ∧ (s.report unit f).mgmt = s.mgmt ∧
    (s.report unit f).boot = s.boot ∧ (s.report unit f).iface = s.iface ∧ (s.report unit f).windowHeld = s.windowHeld ∧
    (s.report unit f).snap = s.snap ∧ (s.report unit f).spareMem = s.spareMem ∧ (s.report unit f).fabricAddr = s.fabricAddr ∧
    (s.report unit f).ownerSrc = s.ownerSrc ∧ (s.report unit f).stepping = s.stepping := by
  unfold State.report
  dsimp only
  split
  · simp
  · split <;> simp

@[simp] theorem State.security_fields (s : State) (code detHi : Nat) :
    (s.security code detHi).pending = s.pending ∧ (s.security code detHi).time = s.time ∧ (s.security code detHi).freeCount = s.freeCount ∧
    (s.security code detHi).outbox = s.outbox ∧ (s.security code detHi).delivered = s.delivered ∧ (s.security code detHi).cells = s.cells ∧
    (s.security code detHi).panes = s.panes ∧ (s.security code detHi).regions = s.regions ∧ (s.security code detHi).guests = s.guests ∧
    (s.security code detHi).arb = s.arb ∧ (s.security code detHi).campion = s.campion ∧ (s.security code detHi).cache = s.cache ∧
    (s.security code detHi).weight = s.weight ∧ (s.security code detHi).hbm = s.hbm ∧ (s.security code detHi).extents = s.extents ∧
    (s.security code detHi).hbmCtl = s.hbmCtl ∧ (s.security code detHi).retired = s.retired ∧
    (s.security code detHi).retiredTagOk = s.retiredTagOk ∧ (s.security code detHi).wafer = s.wafer ∧
    (s.security code detHi).keeper = s.keeper ∧ (s.security code detHi).power = s.power ∧ (s.security code detHi).thermal = s.thermal ∧
    (s.security code detHi).prof = s.prof ∧ (s.security code detHi).ports = s.ports ∧ (s.security code detHi).fabric = s.fabric ∧
    (s.security code detHi).quick = s.quick ∧ (s.security code detHi).mgmt = s.mgmt ∧ (s.security code detHi).boot = s.boot ∧
    (s.security code detHi).iface = s.iface ∧ (s.security code detHi).windowHeld = s.windowHeld ∧ (s.security code detHi).snap = s.snap ∧
    (s.security code detHi).spareMem = s.spareMem ∧ (s.security code detHi).fabricAddr = s.fabricAddr ∧
    (s.security code detHi).ownerSrc = s.ownerSrc ∧ (s.security code detHi).stepping = s.stepping := by
  simp [State.security]

@[simp] theorem State.linkFault_fields (s : State) (p code detHi : Nat) :
    (s.linkFault p code detHi).pending = s.pending ∧ (s.linkFault p code detHi).time = s.time ∧
    (s.linkFault p code detHi).freeCount = s.freeCount ∧ (s.linkFault p code detHi).outbox = s.outbox ∧
    (s.linkFault p code detHi).delivered = s.delivered ∧ (s.linkFault p code detHi).cells = s.cells ∧
    (s.linkFault p code detHi).panes = s.panes ∧ (s.linkFault p code detHi).regions = s.regions ∧
    (s.linkFault p code detHi).guests = s.guests ∧ (s.linkFault p code detHi).arb = s.arb ∧ (s.linkFault p code detHi).campion = s.campion ∧
    (s.linkFault p code detHi).cache = s.cache ∧ (s.linkFault p code detHi).weight = s.weight ∧ (s.linkFault p code detHi).hbm = s.hbm ∧
    (s.linkFault p code detHi).extents = s.extents ∧ (s.linkFault p code detHi).hbmCtl = s.hbmCtl ∧
    (s.linkFault p code detHi).retired = s.retired ∧ (s.linkFault p code detHi).retiredTagOk = s.retiredTagOk ∧
    (s.linkFault p code detHi).wafer = s.wafer ∧ (s.linkFault p code detHi).keeper = s.keeper ∧ (s.linkFault p code detHi).power = s.power ∧
    (s.linkFault p code detHi).thermal = s.thermal ∧ (s.linkFault p code detHi).prof = s.prof ∧ (s.linkFault p code detHi).ports = s.ports ∧
    (s.linkFault p code detHi).fabric = s.fabric ∧ (s.linkFault p code detHi).quick = s.quick ∧ (s.linkFault p code detHi).mgmt = s.mgmt ∧
    (s.linkFault p code detHi).boot = s.boot ∧ (s.linkFault p code detHi).iface = s.iface ∧
    (s.linkFault p code detHi).windowHeld = s.windowHeld ∧ (s.linkFault p code detHi).snap = s.snap ∧
    (s.linkFault p code detHi).spareMem = s.spareMem ∧ (s.linkFault p code detHi).fabricAddr = s.fabricAddr ∧
    (s.linkFault p code detHi).ownerSrc = s.ownerSrc ∧ (s.linkFault p code detHi).stepping = s.stepping := by
  simp [State.linkFault]

@[simp] theorem State.hbmFault_fields (s : State) (n code detHi : Nat) :
    (s.hbmFault n code detHi).pending = s.pending ∧ (s.hbmFault n code detHi).time = s.time ∧
    (s.hbmFault n code detHi).freeCount = s.freeCount ∧ (s.hbmFault n code detHi).outbox = s.outbox ∧
    (s.hbmFault n code detHi).delivered = s.delivered ∧ (s.hbmFault n code detHi).cells = s.cells ∧
    (s.hbmFault n code detHi).panes = s.panes ∧ (s.hbmFault n code detHi).regions = s.regions ∧ (s.hbmFault n code detHi).guests = s.guests ∧
    (s.hbmFault n code detHi).arb = s.arb ∧ (s.hbmFault n code detHi).campion = s.campion ∧ (s.hbmFault n code detHi).cache = s.cache ∧
    (s.hbmFault n code detHi).weight = s.weight ∧ (s.hbmFault n code detHi).hbm = s.hbm ∧ (s.hbmFault n code detHi).extents = s.extents ∧
    (s.hbmFault n code detHi).hbmCtl = s.hbmCtl ∧ (s.hbmFault n code detHi).retired = s.retired ∧
    (s.hbmFault n code detHi).retiredTagOk = s.retiredTagOk ∧ (s.hbmFault n code detHi).wafer = s.wafer ∧
    (s.hbmFault n code detHi).keeper = s.keeper ∧ (s.hbmFault n code detHi).power = s.power ∧ (s.hbmFault n code detHi).thermal = s.thermal ∧
    (s.hbmFault n code detHi).prof = s.prof ∧ (s.hbmFault n code detHi).ports = s.ports ∧ (s.hbmFault n code detHi).fabric = s.fabric ∧
    (s.hbmFault n code detHi).quick = s.quick ∧ (s.hbmFault n code detHi).mgmt = s.mgmt ∧ (s.hbmFault n code detHi).boot = s.boot ∧
    (s.hbmFault n code detHi).iface = s.iface ∧ (s.hbmFault n code detHi).windowHeld = s.windowHeld ∧
    (s.hbmFault n code detHi).snap = s.snap ∧ (s.hbmFault n code detHi).spareMem = s.spareMem ∧
    (s.hbmFault n code detHi).fabricAddr = s.fabricAddr ∧ (s.hbmFault n code detHi).ownerSrc = s.ownerSrc ∧
    (s.hbmFault n code detHi).stepping = s.stepping := by
  simp [State.hbmFault]

@[simp] theorem State.powerModule_fields (s : State) (code detHi : Nat) :
    (s.powerModule code detHi).pending = s.pending ∧ (s.powerModule code detHi).time = s.time ∧
    (s.powerModule code detHi).freeCount = s.freeCount ∧ (s.powerModule code detHi).outbox = s.outbox ∧
    (s.powerModule code detHi).delivered = s.delivered ∧ (s.powerModule code detHi).cells = s.cells ∧
    (s.powerModule code detHi).panes = s.panes ∧ (s.powerModule code detHi).regions = s.regions ∧
    (s.powerModule code detHi).guests = s.guests ∧ (s.powerModule code detHi).arb = s.arb ∧ (s.powerModule code detHi).campion = s.campion ∧
    (s.powerModule code detHi).cache = s.cache ∧ (s.powerModule code detHi).weight = s.weight ∧ (s.powerModule code detHi).hbm = s.hbm ∧
    (s.powerModule code detHi).extents = s.extents ∧ (s.powerModule code detHi).hbmCtl = s.hbmCtl ∧
    (s.powerModule code detHi).retired = s.retired ∧ (s.powerModule code detHi).retiredTagOk = s.retiredTagOk ∧
    (s.powerModule code detHi).wafer = s.wafer ∧ (s.powerModule code detHi).keeper = s.keeper ∧ (s.powerModule code detHi).power = s.power ∧
    (s.powerModule code detHi).thermal = s.thermal ∧ (s.powerModule code detHi).prof = s.prof ∧ (s.powerModule code detHi).ports = s.ports ∧
    (s.powerModule code detHi).fabric = s.fabric ∧ (s.powerModule code detHi).quick = s.quick ∧ (s.powerModule code detHi).mgmt = s.mgmt ∧
    (s.powerModule code detHi).boot = s.boot ∧ (s.powerModule code detHi).iface = s.iface ∧
    (s.powerModule code detHi).windowHeld = s.windowHeld ∧ (s.powerModule code detHi).snap = s.snap ∧
    (s.powerModule code detHi).spareMem = s.spareMem ∧ (s.powerModule code detHi).fabricAddr = s.fabricAddr ∧
    (s.powerModule code detHi).ownerSrc = s.ownerSrc ∧ (s.powerModule code detHi).stepping = s.stepping := by
  simp [State.powerModule]

@[simp] theorem State.setCauses_fields (s : State) (new : Nat) :
    (s.setCauses new).pending = s.pending ∧ (s.setCauses new).time = s.time ∧ (s.setCauses new).freeCount = s.freeCount ∧
    (s.setCauses new).outbox = s.outbox ∧ (s.setCauses new).delivered = s.delivered ∧ (s.setCauses new).cells = s.cells ∧
    (s.setCauses new).panes = s.panes ∧ (s.setCauses new).regions = s.regions ∧ (s.setCauses new).guests = s.guests ∧
    (s.setCauses new).arb = s.arb ∧ (s.setCauses new).campion = s.campion ∧ (s.setCauses new).cache = s.cache ∧
    (s.setCauses new).weight = s.weight ∧ (s.setCauses new).hbm = s.hbm ∧ (s.setCauses new).extents = s.extents ∧
    (s.setCauses new).hbmCtl = s.hbmCtl ∧ (s.setCauses new).retired = s.retired ∧ (s.setCauses new).retiredTagOk = s.retiredTagOk ∧
    (s.setCauses new).wafer = s.wafer ∧ (s.setCauses new).keeper = s.keeper ∧ (s.setCauses new).power = s.power ∧
    (s.setCauses new).thermal = s.thermal ∧ (s.setCauses new).prof = s.prof ∧ (s.setCauses new).ports = s.ports ∧
    (s.setCauses new).fabric = s.fabric ∧ (s.setCauses new).quick = s.quick ∧ (s.setCauses new).boot = s.boot ∧
    (s.setCauses new).iface = s.iface ∧ (s.setCauses new).windowHeld = s.windowHeld ∧ (s.setCauses new).snap = s.snap ∧
    (s.setCauses new).spareMem = s.spareMem ∧ (s.setCauses new).fabricAddr = s.fabricAddr ∧ (s.setCauses new).ownerSrc = s.ownerSrc ∧
    (s.setCauses new).stepping = s.stepping ∧ (s.setCauses new).reports = s.reports ∧ (s.setCauses new).lost = s.lost ∧
    (s.setCauses new).lostClass = s.lostClass := by
  unfold State.setCauses
  dsimp only
  split <;> simp

@[simp] theorem State.cause_fields (s : State) (b : Nat) :
    (s.cause b).pending = s.pending ∧ (s.cause b).time = s.time ∧ (s.cause b).freeCount = s.freeCount ∧ (s.cause b).outbox = s.outbox ∧
    (s.cause b).delivered = s.delivered ∧ (s.cause b).cells = s.cells ∧ (s.cause b).panes = s.panes ∧ (s.cause b).regions = s.regions ∧
    (s.cause b).guests = s.guests ∧ (s.cause b).arb = s.arb ∧ (s.cause b).campion = s.campion ∧ (s.cause b).cache = s.cache ∧
    (s.cause b).weight = s.weight ∧ (s.cause b).hbm = s.hbm ∧ (s.cause b).extents = s.extents ∧ (s.cause b).hbmCtl = s.hbmCtl ∧
    (s.cause b).retired = s.retired ∧ (s.cause b).retiredTagOk = s.retiredTagOk ∧ (s.cause b).wafer = s.wafer ∧
    (s.cause b).keeper = s.keeper ∧ (s.cause b).power = s.power ∧ (s.cause b).thermal = s.thermal ∧ (s.cause b).prof = s.prof ∧
    (s.cause b).ports = s.ports ∧ (s.cause b).fabric = s.fabric ∧ (s.cause b).quick = s.quick ∧ (s.cause b).boot = s.boot ∧
    (s.cause b).iface = s.iface ∧ (s.cause b).windowHeld = s.windowHeld ∧ (s.cause b).snap = s.snap ∧ (s.cause b).spareMem = s.spareMem ∧
    (s.cause b).fabricAddr = s.fabricAddr ∧ (s.cause b).ownerSrc = s.ownerSrc ∧ (s.cause b).stepping = s.stepping ∧
    (s.cause b).reports = s.reports ∧ (s.cause b).lost = s.lost ∧ (s.cause b).lostClass = s.lostClass := by
  unfold State.cause
  split <;> simp

@[simp] theorem State.eventAt_fields (s : State) (typ running : Nat) (e : EventSub) :
    (s.eventAt typ running e).pending = s.pending ∧ (s.eventAt typ running e).time = s.time ∧
    (s.eventAt typ running e).freeCount = s.freeCount ∧ (s.eventAt typ running e).outbox = s.outbox ∧
    (s.eventAt typ running e).delivered = s.delivered ∧ (s.eventAt typ running e).cells = s.cells ∧
    (s.eventAt typ running e).panes = s.panes ∧ (s.eventAt typ running e).regions = s.regions ∧ (s.eventAt typ running e).guests = s.guests ∧
    (s.eventAt typ running e).arb = s.arb ∧ (s.eventAt typ running e).campion = s.campion ∧ (s.eventAt typ running e).cache = s.cache ∧
    (s.eventAt typ running e).weight = s.weight ∧ (s.eventAt typ running e).hbm = s.hbm ∧ (s.eventAt typ running e).extents = s.extents ∧
    (s.eventAt typ running e).hbmCtl = s.hbmCtl ∧ (s.eventAt typ running e).retired = s.retired ∧
    (s.eventAt typ running e).retiredTagOk = s.retiredTagOk ∧ (s.eventAt typ running e).wafer = s.wafer ∧
    (s.eventAt typ running e).keeper = s.keeper ∧ (s.eventAt typ running e).power = s.power ∧ (s.eventAt typ running e).prof = s.prof ∧
    (s.eventAt typ running e).ports = s.ports ∧ (s.eventAt typ running e).fabric = s.fabric ∧ (s.eventAt typ running e).quick = s.quick ∧
    (s.eventAt typ running e).mgmt = s.mgmt ∧ (s.eventAt typ running e).boot = s.boot ∧ (s.eventAt typ running e).windowHeld = s.windowHeld ∧
    (s.eventAt typ running e).snap = s.snap ∧ (s.eventAt typ running e).spareMem = s.spareMem ∧
    (s.eventAt typ running e).fabricAddr = s.fabricAddr ∧ (s.eventAt typ running e).ownerSrc = s.ownerSrc ∧
    (s.eventAt typ running e).stepping = s.stepping ∧ (s.eventAt typ running e).reports = s.reports ∧
    (s.eventAt typ running e).lost = s.lost ∧ (s.eventAt typ running e).lostClass = s.lostClass := by
  simp [State.eventAt, State.uart]

@[simp] theorem State.event_fields (s : State) (typ : Nat) (e : EventSub) :
    (s.event typ e).pending = s.pending ∧ (s.event typ e).time = s.time ∧ (s.event typ e).freeCount = s.freeCount ∧
    (s.event typ e).outbox = s.outbox ∧ (s.event typ e).delivered = s.delivered ∧ (s.event typ e).cells = s.cells ∧
    (s.event typ e).panes = s.panes ∧ (s.event typ e).regions = s.regions ∧ (s.event typ e).guests = s.guests ∧ (s.event typ e).arb = s.arb ∧
    (s.event typ e).campion = s.campion ∧ (s.event typ e).cache = s.cache ∧ (s.event typ e).weight = s.weight ∧ (s.event typ e).hbm = s.hbm ∧
    (s.event typ e).extents = s.extents ∧ (s.event typ e).hbmCtl = s.hbmCtl ∧ (s.event typ e).retired = s.retired ∧
    (s.event typ e).retiredTagOk = s.retiredTagOk ∧ (s.event typ e).wafer = s.wafer ∧ (s.event typ e).keeper = s.keeper ∧
    (s.event typ e).power = s.power ∧ (s.event typ e).prof = s.prof ∧ (s.event typ e).ports = s.ports ∧ (s.event typ e).fabric = s.fabric ∧
    (s.event typ e).quick = s.quick ∧ (s.event typ e).mgmt = s.mgmt ∧ (s.event typ e).boot = s.boot ∧
    (s.event typ e).windowHeld = s.windowHeld ∧ (s.event typ e).snap = s.snap ∧ (s.event typ e).spareMem = s.spareMem ∧
    (s.event typ e).fabricAddr = s.fabricAddr ∧ (s.event typ e).ownerSrc = s.ownerSrc ∧ (s.event typ e).stepping = s.stepping ∧
    (s.event typ e).reports = s.reports ∧ (s.event typ e).lost = s.lost ∧ (s.event typ e).lostClass = s.lostClass := by
  simp [State.event]

@[simp] theorem State.report_parts (s : State) (unit : Nat) (f : FaultRec) (k : Nat) :
    (s.report unit f).cell k = s.cell k ∧ (s.report unit f).pane k = s.pane k ∧ (s.report unit f).region k = s.region k ∧
    (s.report unit f).guest k = s.guest k ∧ (s.report unit f).port k = s.port k ∧ (s.report unit f).hctl k = s.hctl k := by
  simp [State.cell, State.pane, State.region, State.guest, State.port, State.hctl]

@[simp] theorem State.linkFault_parts (s : State) (p code detHi : Nat) (k : Nat) :
    (s.linkFault p code detHi).cell k = s.cell k ∧ (s.linkFault p code detHi).pane k = s.pane k ∧ (s.linkFault p code detHi).region k = s.region k ∧
    (s.linkFault p code detHi).guest k = s.guest k ∧ (s.linkFault p code detHi).port k = s.port k ∧ (s.linkFault p code detHi).hctl k = s.hctl k := by
  simp [State.cell, State.pane, State.region, State.guest, State.port, State.hctl]

end Sys2Proof.Machine

namespace Sys2Proof.Machine

/-- What the traffic of the links, the reports and the alerts leave alone. -/
def State.still (s : State) : Nat × Boot × SMap Region × SMap Cell × SMap Pane × Power × Prof × Mem × List Nat × Wafer × WeightEng :=
  (s.time, s.boot, s.regions, s.cells, s.panes, s.power, s.prof, s.hbm, s.retired, s.wafer, s.weight)

@[simp] theorem State.still_fold (s : State) :
    (s.time, s.boot, s.regions, s.cells, s.panes, s.power, s.prof, s.hbm, s.retired, s.wafer, s.weight) = s.still := rfl

/-- The same of a state written with its fields. -/
@[simp] theorem State.still_mk x0 x1 x2 x3 x4 x5 x6 x7 x8 x9 x10 x11 x12 x13 x14 x15 x16 x17 x18 x19
    x20 x21 x22 x23 x24 x25 x26 x27 x28 x29 x30 x31 x32 x33 x34 x35 x36 x37 :
    (State.mk x0 x1 x2 x3 x4 x5 x6 x7 x8 x9 x10 x11 x12 x13 x14 x15 x16 x17 x18 x19
      x20 x21 x22 x23 x24 x25 x26 x27 x28 x29 x30 x31 x32 x33 x34 x35 x36 x37).still = (x1, x27, x7, x5, x6, x20, x22, x13, x16, x18, x12) := rfl

@[simp] theorem State.still_ite (c : Prop) [Decidable c] (s t : State) :
    (if c then s else t).still = if c then s.still else t.still := apply_ite State.still c s t

@[simp] theorem foldl_still {β : Type} (f : State → β → State) (h : ∀ a x, (f a x).still = a.still) (l : List β) (s : State) :
    (l.foldl f s).still = s.still := foldl_proj State.still h l s

@[simp] theorem State.useFree_still (s : State) : s.useFree.still = s.still := by simp [State.useFree]

@[simp] theorem State.setPort_still (s : State) (p : Nat) (x : Port) : (s.setPort p x).still = s.still := by simp [State.setPort]

@[simp] theorem State.modPort_still (s : State) (p : Nat) (f : Port → Port) : (s.modPort p f).still = s.still := by simp [State.modPort]

@[simp] theorem State.modMgmt_still (s : State) (f : Mgmt → Mgmt) : (s.modMgmt f).still = s.still := by simp [State.modMgmt]

@[simp] theorem State.modIface_still (s : State) (f : Iface → Iface) : (s.modIface f).still = s.still := by simp [State.modIface]

@[simp] theorem State.shelfWrite_still (s : State) (cmd : Nat) (data : List Byte) :
    (s.shelfWrite cmd data).still = s.still := by simp [State.shelfWrite]

@[simp] theorem State.shelfStatus_still (s : State) : s.shelfStatus.still = s.still := by simp [State.shelfStatus]

@[simp] theorem State.queueTx_still (s : State) (p : Nat) (t : TxMsg) : (s.queueTx p t).still = s.still := by simp [State.queueTx]

@[simp] theorem State.queueOn_still (s : State) (p : Nat) (m : Msg) : (s.queueOn p m).still = s.still := by simp [State.queueOn]

@[simp] theorem State.draw_still (s : State) (n : Nat) : (s.draw n).still = s.still := by simp [State.draw]

@[simp] theorem State.queueKnock_still (s : State) (p : Nat) : (s.queueKnock p).still = s.still := by simp [State.queueKnock]

@[simp] theorem State.sendKnock_still (s : State) (p : Nat) : (s.sendKnock p).still = s.still := by simp [State.sendKnock]

@[simp] theorem State.knockAll_still (s : State) : s.knockAll.still = s.still := by simp [State.knockAll]

@[simp] theorem State.modThermal_still (s : State) (f : Thermal → Thermal) : (s.modThermal f).still = s.still := rfl

end Sys2Proof.Machine

namespace Sys2Proof.Machine

/-! ## Busbar, cables and the tray bus -/

theorem State.i3cMine_eq_true {s : State} {addr : Nat} (hup : s.i3cUp = true) (haddr : s.iface.i3cAddr = some addr) :
    s.i3cMine addr = true := by
  simp [State.i3cMine, hup, haddr]

theorem State.i3cMine_eq_false {s : State} {addr : Nat} (haddr : s.iface.i3cAddr ≠ some addr) : s.i3cMine addr = false := by
  simp [State.i3cMine, haddr]

/-- A broadcast reaches a module that answers, and so does a command addressed to it (R448). -/
theorem State.i3cHears_eq_true {s : State} {addr : Option Nat} (hup : s.i3cUp = true) (h : addr = none ∨ addr = s.iface.i3cAddr) :
    s.i3cHears addr = true := by
  cases addr with
  | none => exact hup
  | some a => exact State.i3cMine_eq_true hup (h.resolve_left nofun).symm

/-- Settles O49: each event's rule, under the conditions that let it act. -/
theorem busbarCablesAndTrayBus : Obligations.BusbarCablesAndTrayBus := by
  intro s
  refine ⟨fun t0 hsince hfresh hlong => ?_, fun p hp => ?_, fun p hp => ?_, fun c hc hsupply => ?_,
    fun hup => ⟨fun addr hnone => ?_, fun addr hnone => ?_, ?_, fun addr events haddr hbit => ?_, fun addr haddr => ?_, fun addr hother => ?_⟩⟩
  · simp [execBusbarImbalance, hsince, hfresh, hlong]
  · simp [execCablePresence, hp]
  · simp only [exec_cablePresence, execCablePresence, if_neg (Nat.not_le_of_lt hp)]
    constructor
    · intro hstate
      simp [hstate]
    · intro hstate
      simp [hstate]
  · simp [execCablePower, hc, hsupply]
  · simp [execEntdaa, hup, hnone, State.i3cAnswer, i3cPidOctets]
  · simp [execSetdasa, hup, hnone]
  · simp [execRstdaa, hup]
  · have hhears := State.i3cHears_eq_true hup haddr
    simp [execEnec, execDisec, hhears, hbit]
  · have hmine := State.i3cMine_eq_true hup haddr
    simp [execGetpid, execGetbcr, execGetdcr, execGetstatus, hmine, State.i3cAnswer]
  · have hmine := State.i3cMine_eq_false hother
    simp [execGetpid, execGetstatus, hmine]

end Sys2Proof.Machine

namespace Sys2Proof.Machine

theorem withRequest_of_asksPlainly {s : State} {g op : Nat} {body : List Byte} (h : AsksPlainly s g op body)
    (hplain : mbCritical op = false) (f : State → List Byte → State) : withRequest g op s f = .next (f s body) := by
  obtain ⟨⟨hg, hhead, hop, hst, hreserved, hlen, hbody, howner⟩, hcounter, htag⟩ := h
  have hg' : ¬ 64 ≤ g := by omega
  have hlen' : ¬ 32736 < leAt (s.mbReq g 0 8) 4 4 := by omega
  have howner' : ¬(mbOwner op = true ∧ g ≠ 0) := fun ⟨ho, hne⟩ => hne (howner ho)
  simp only [withRequest, if_neg hg', if_neg howner']
  simp [hhead, hop, hst, hreserved, hlen', hbody, hplain, hcounter, htag]

/-- What an accepted pair changes of the module is the keys of the Keeper. -/
theorem AsksAuthorised.eq_keys {s u : State} {g op : Nat} {body : List Byte} (h : AsksAuthorised s g op body u) :
    ∃ keys, u = { s with keeper := { s.keeper with keys := keys } } := by
  obtain ⟨-, -, hpair⟩ := h
  obtain ⟨k, k', -, -, -, -, -, -, -, -, heq⟩ := acceptedPairTakesItsCounter _ _ _ _ _ _ hpair
  exact ⟨_, heq⟩

/-! ## Keys and credentials (R387, R388, R390, R394) -/

theorem State.cmdKey_setKey (s : State) (g : Nat) (key : List Byte) : (s.setKey g key).cmdKey g = some (newKey key) :=
  (find_mset s.keeper.keys g g _).trans (if_pos rfl)

@[simp] theorem State.cmdKey_mbDone (s : State) (g result : Nat) (resp : List Byte) (n : Nat) :
    (s.mbDone g result resp).cmdKey n = s.cmdKey n := rfl

/-- A request that is done leaves its result and its response in the mailbox (R387). -/
theorem State.mailbox_mbDone (s : State) (g result : Nat) (resp : List Byte) :
    (s.mbDone g result resp).mailbox g = { s.mailbox g with state := 2, result := result, respLen := resp.length, resp := resp } := by
  simp [State.mbDone, State.mailbox]

/-- The Keeper's other parts after a request is done. -/
@[simp] theorem State.mbDone_keeper_parts (s : State) (g result : Nat) (resp : List Byte) :
    (s.mbDone g result resp).keeper.enrolled = s.keeper.enrolled ∧ (s.mbDone g result resp).keeper.tamper = s.keeper.tamper ∧
    (s.mbDone g result resp).keeper.tap = s.keeper.tap ∧ (s.mbDone g result resp).keeper.tapUntil = s.keeper.tapUntil ∧
    (s.mbDone g result resp).keeper.st = s.keeper.st ∧
    (s.mbDone g result resp).keeper.decommissioned = s.keeper.decommissioned := ⟨rfl, rfl, rfl, rfl, rfl, rfl⟩

/-- Settles O43: each request has its own effect on its body, once its checks have passed. -/
theorem keeperKeysAndCredentials : Obligations.KeeperKeysAndCredentials := by
  intro s u g body
  refine ⟨fun h => ?_, fun h hlen => ?_, fun key h hlen hunclaimed hunwrap => ?_, fun h hlen hclaimed => ?_,
    fun key h hlen hzero hguest howner hactive hunwrap => ?_,
    fun h hlen hkind hkind' hzero howner hnew hroom hmine => ?_, fun e h hfind howner => ?_, fun e h hfind hguest hother => ?_⟩
  · simp [execCredGet, withRequest_of_asksPlainly h rfl, mbOK]
  · obtain ⟨⟨-, -, -, hst, -⟩, -⟩ := id h
    refine ⟨s.modKeeper (fun k => { k with
      job := some { guest := g, op := 0x11, result := mbOK, resp := s.attestation g body, startAt := s.time } }), _, ?_, rfl, rfl, ?_⟩
    · simp [execAttest, withRequest_of_asksPlainly h rfl, hlen]
    simp [execMbStatusDone, hst, mbOK]
  · refine ⟨((s.setKey 0 key).modKeeper (fun k => { k with tamper := false })).mbDone g mbOK [], ?_, State.cmdKey_setKey s 0 key, by simp,
      ?_, ?_⟩
    · simp [execOwnerClaim, withRequest_of_asksPlainly h rfl, hlen, hunclaimed, hunwrap]
    · rw [State.mailbox_mbDone]
    · rw [State.mailbox_mbDone, mbOK]
  · simp [execOwnerClaim, withRequest_of_asksPlainly h rfl, hlen, hclaimed]
  · have howner' : ¬(g ≠ 0 ∧ leAt body 0 1 ≠ g) := by tauto
    refine ⟨(u.setKey (leAt body 0 1) key).mbDone g mbOK [], ?_, State.cmdKey_setKey u _ key, ?_⟩
    · simp [execKeyInstall, withRequest_of_asksAuthorised h rfl, hlen, hzero, Nat.not_le_of_lt hguest, howner', hactive, hunwrap]
    · rw [State.mailbox_mbDone, mbOK]
  · have hform : ¬(body.length ≠ 48 ∨ leAt body 0 1 = 0 ∨ 3 < leAt body 0 1 ∨ leAt body 1 7 ≠ 0) := by omega
    have howner' : ¬(g ≠ 0 ∧ leAt body 8 8 ≠ 2 ^ g) := by tauto
    have hspace : ¬(64 ≤ u.keeper.enrolled.length ∨ (g ≠ 0 ∧ 4 ≤ (u.keeper.enrolled.filter (fun e => e.by_ == g)).length)) := by omega
    refine ⟨(u.modKeeper (fun k => { k with enrolled := k.enrolled ++ [{
      keyid := (sha256 (slice body 16 32)).take 16, kind := leAt body 0 1, mask := leAt body 8 8, pub := slice body 16 32, by_ := g }] })).mbDone g
      mbOK ((sha256 (slice body 16 32)).take 16), ?_, ?_, ?_⟩
    · simp only [exec_keyEnroll, execKeyEnroll, withRequest_of_asksAuthorised h rfl, if_neg hform, if_neg howner', hnew, if_neg hspace,
        Bool.false_eq_true, if_false]
    · rw [State.mailbox_mbDone]
    · simp
  · have howner' : ¬(g ≠ 0 ∧ e.by_ ≠ g) := by tauto
    refine ⟨(u.modKeeper (fun k => { k with enrolled := k.enrolled.filter (fun x => x.keyid != body) })).mbDone g mbOK [], ?_, ?_, ?_⟩
    · simp only [exec_keyRevoke, execKeyRevoke, withRequest_of_asksAuthorised h rfl, hfind, if_neg howner']
    · simp
    · rw [State.mailbox_mbDone, mbOK]
  · simp only [exec_keyRevoke, execKeyRevoke, withRequest_of_asksAuthorised h rfl, hfind, if_pos (And.intro hguest hother)]

end Sys2Proof.Machine

namespace Sys2Proof.Machine

/-! ## Zeroisation (R395, R396) -/

/-- What a zeroisation leaves of the Keeper: no key and no enrolment, no approved mode, and after DECOMMISSION no identity. -/
structure Keeper.Zeroised (k before : Keeper) (kind : Nat) : Prop where
  keys : k.keys = []
  enrolled : k.enrolled = []
  approved : k.approved = false
  decommissioned : k.decommissioned = (before.decommissioned || kind == 3)
  st : k.st = if kind = 3 then 4 else before.st
  tamper : k.tamper = before.tamper
  leave : k.leave = false

theorem State.mbDone_zeroised {s : State} {before : Keeper} {kind : Nat} (h : s.keeper.Zeroised before kind) (g result : Nat)
    (resp : List Byte) : (s.mbDone g result resp).keeper.Zeroised before kind :=
  ⟨h.keys, h.enrolled, h.approved, h.decommissioned, h.st, h.tamper, h.leave⟩

theorem State.zeroiseKeys_zeroised (s : State) (kind : Nat) : (s.zeroiseKeys kind).keeper.Zeroised s.keeper kind := by
  unfold State.zeroiseKeys
  extract_lets erased t u
  have gone : u.keeper.Zeroised s.keeper kind := by
    simp only [u, t, State.keeper_ite, State.cause_keeper, ite_self, State.security_keeper, State.dropLinks_keeper]
    exact ⟨rfl, rfl, rfl, rfl, rfl, rfl, rfl⟩
  split
  · split
    · exact State.mbDone_zeroised gone _ _ _
    · exact gone
  · exact gone

/-- With no guest and no region there is nothing to wait for: the keys go at once. -/
theorem State.beginZeroise_of_empty {s : State} (hguests : s.guests = []) (hregions : s.regions = []) (kind : Nat) :
    s.beginZeroise kind = (s.modKeeper (fun k => { k with zeroing := some kind })).zeroiseKeys kind := by
  simp [State.beginZeroise, hguests, hregions, State.settleZeroise, State.clearing]

theorem State.beginZeroise_zeroised {s : State} (hguests : s.guests = []) (hregions : s.regions = []) (kind : Nat) :
    (s.beginZeroise kind).keeper.Zeroised s.keeper kind := by
  rw [State.beginZeroise_of_empty hguests hregions]
  obtain ⟨hkeys, henrolled, happroved, hdecommissioned, hst, htamper, hleave⟩ :=
    (s.modKeeper (fun k => { k with zeroing := some kind })).zeroiseKeys_zeroised kind
  exact ⟨hkeys, henrolled, happroved, hdecommissioned, hst, htamper, hleave⟩

theorem exec_zeroise_of_asksAuthorised {s u : State} (h : AsksAuthorised s 0 0x50 [] u) :
    exec (.zeroise 0) s = .next ((u.zeroiseJob 0 0x50).beginZeroise 1) := by
  simp [execZeroise, withRequest_of_asksAuthorised h rfl]

theorem exec_decommission_of_asksAuthorised {s u : State} (h : AsksAuthorised s 0 0x51 wordDecommission u) :
    exec (.decommission 0) s = .next ((u.zeroiseJob 0 0x51).beginZeroise 3) := by
  simp [execDecommission, withRequest_of_asksAuthorised h rfl]

/-! ## Modes, erasure and firmware -/

theorem State.tapLock_tap (s : State) : s.tapLock.keeper.tap = 0 := by
  unfold State.tapLock
  dsimp only
  split <;> rfl

/-- The lock leaves no instruction but BYPASS and IDCODE, and drives no pin (R454). -/
theorem State.tapLock_iface {s : State} (hbypass : s.iface.inst ≠ 0xFF) (hidcode : s.iface.inst ≠ 1) :
    s.tapLock.iface.inst = 0xFF ∧ s.tapLock.iface.pins = 0 ∧ s.tapLock.iface.halted = false := by
  simp [State.tapLock, hbypass, hidcode]

/-- Settles O44: each request has its own effect on its body, once its checks have passed. -/
theorem keeperModesAndErasure : Obligations.KeeperModesAndErasure := by
  intro s u body
  refine ⟨fun h hlen hscope hzero hsecs hsecs' hopen hguests => ?_, fun h => ?_, fun htap hover => ?_, fun h hsrc htap hclear => ?_,
    fun h => ?_, exec_zeroise_of_asksAuthorised, exec_decommission_of_asksAuthorised, fun h hguests hregions => ?_,
    fun h hguests hregions => ?_, fun h hlen hzero hzero' => ⟨fun hpos hmax => ?_, fun hdisarm => ?_⟩, fun j sig b hjob => ⟨?_, ?_, ?_⟩,
    fun g sig b hjob hhead hop => ?_⟩
  · have hform : ¬(body.length ≠ 8 ∨ leAt body 0 1 = 0 ∨ 2 < leAt body 0 1 ∨ leAt body 1 3 ≠ 0 ∨ leAt body 4 4 = 0 ∨ 86400 < leAt body 4 4) := by
      omega
    have hmode : ¬(u.keeper.approved = true ∨ leAt body 0 1 = 2 ∧ u.guests.any (fun q => q.1 != 0 && q.2.gstate == 1) = true) := by
      rintro (happroved | ⟨htwo, hany⟩)
      · simp [hopen] at happroved
      · simp [hguests htwo] at hany
    obtain ⟨keys, hu⟩ := h.eq_keys
    refine ⟨_, (exec_tapUnlock 0 s).trans ((withRequest_of_asksAuthorised h rfl _).trans
      (congrArg Host.Outcome.next ((if_neg hform).trans (if_neg hmode)))), ?_, ?_⟩
    · simp
    · simp [hu]
  · refine ⟨s.tapLock.mbDone 0 mbOK [], by simp [execTapLock, withRequest_of_asksPlainly h rfl], ?_, ?_⟩
    · simp [State.tapLock_tap]
    · rw [State.mailbox_mbDone, mbOK]
  · exact ⟨s.tapLock, by simp [execTapRelock, htap, hover], s.tapLock_tap, State.tapLock_iface⟩
  · exact ⟨((u.modKeeper (fun k => { k with approved := true })).security 0xC 1).mbDone 0 mbOK [],
      by simp [execApprovedEnter, withRequest_of_asksAuthorised h rfl, hsrc, htap, hclear], by simp⟩
  · exact ⟨_, exec_approvedLeave_of_asksAuthorised h, by simp, by simp⟩
  · obtain ⟨keys, hu⟩ := h.eq_keys
    have hz := State.beginZeroise_zeroised (s := u.zeroiseJob 0 0x50) (hu ▸ hguests) (hu ▸ hregions) 1
    have hidentity : u.keeper.decommissioned = s.keeper.decommissioned := by rw [hu]
    exact ⟨_, exec_zeroise_of_asksAuthorised h, hz.keys, hz.enrolled, hz.approved,
      (hz.decommissioned.trans (Bool.or_false _)).trans hidentity⟩
  · obtain ⟨keys, hu⟩ := h.eq_keys
    have hz := State.beginZeroise_zeroised (s := u.zeroiseJob 0 0x51) (hu ▸ hguests) (hu ▸ hregions) 3
    exact ⟨_, exec_decommission_of_asksAuthorised h, hz.keys, hz.decommissioned.trans (Bool.or_true _), hz.st⟩
  · have hform : ¬(body.length ≠ 56 ∨ leAt body 2 6 ≠ 0 ∨ leAt body 20 4 ≠ 0 ∨ 67108864 < leAt body 16 4) := by omega
    have hlong : leAt body 16 4 ≠ 0 := by omega
    simp only [exec_fwActivate, execFwActivate, withRequest_of_asksAuthorised h rfl, if_neg hform, if_neg hlong]
  · have hform : ¬(body.length ≠ 56 ∨ leAt body 2 6 ≠ 0 ∨ leAt body 20 4 ≠ 0 ∨ 67108864 < leAt body 16 4) := by omega
    simp only [exec_fwActivate, execFwActivate, withRequest_of_asksAuthorised h rfl, if_neg hform, if_pos hdisarm]
  · intro hzeroise hdecommission hst
    simp [execMbStatusDone, hjob, hzeroise, hdecommission, hst]
  · intro hfetch hst
    simp [execMbStatusDone, hjob, hfetch, hst]
  · intro hzeroise hdecommission hfetch hst
    simp [execMbStatusDone, hjob, hzeroise, hdecommission, hfetch, hst]
  · simp only [exec_mbStatusDone, execMbStatusDone, hjob, hhead, hop, Bool.false_eq_true, if_false]

/-! ## The Keeper on its own -/

/-- Settles O45: each event acts where its conditions hold. -/
theorem keeperTestsAndTamper : Obligations.KeeperTestsAndTamper := by
  intro s
  have hcover (sw : Nat) (hsw : sw < 4) (hon : s.boot.off = false) : exec (.tamper sw) s =
      .next ((((s.modKeeper (fun k => { k with tamper := true })).security 0xD sw).cause 61).beginZeroise 2) := by
    simp [execTamper, Nat.not_le_of_lt hsw, hon]
  refine ⟨fun sw hsw hoff => ?_, hcover, fun sw hsw hon hguests hregions => ?_, fun g k hg hk hwriting => ?_, fun n sub hst hn => ?_,
    fun hst hfresh => ?_, fun k => ⟨rfl, rfl, rfl⟩, fun n hst hfresh hn => ?_, fun hst hdue => ?_⟩
  · simp [execTamper, Nat.not_le_of_lt hsw, hoff]
  · have hz := State.beginZeroise_zeroised (s := ((s.modKeeper (fun k => { k with tamper := true })).security 0xD sw).cause 61)
      (by simpa using hguests) (by simpa using hregions) 2
    exact ⟨_, hcover sw hsw hon, hz.tamper.trans (by simp), hz.keys, hz.enrolled, hz.approved⟩
  · let k' : CmdKey := { k with persisted := min (2 ^ 64 - 1) (k.persisted + 65536) }
    refine ⟨s.modKeeper (fun x => { x with keys := mset x.keys g { k' with writing := k'.advances k'.lac } }), _, ?_,
      (find_mset s.keeper.keys g g _).trans (if_pos rfl), rfl, rfl, rfl⟩
    simp only [exec_reservationWriteComplete, execReservationWriteComplete, if_neg (Nat.not_le_of_lt hg), hk, hwriting,
      Bool.not_true, Bool.false_eq_true, if_false, k']
  · simp [execConditionalTestFail, hst, hn]
  · simp [execKeeperRestart, hst, hfresh]
  · simp [execKeeperRestart, hst, hfresh, hn]
  · simp only [exec_drbgReseed, execDrbgReseed, if_pos (And.intro hst hdue)]

/-! ## Limits that a pair changes (R338, R339, R428) -/

/-- Settles O40: the check's start and end case by case, and the ranges of each limit. -/
theorem limitsChangeByAPair : Obligations.LimitsChangeByAPair := by
  intro s
  refine ⟨fun src val howner hgo hidle => ?_, fun src val howner hbusy => ?_, fun u ok hbusy hready hpair => ⟨?_, ?_⟩,
    fun v => ⟨rfl, rfl, rfl, rfl, rfl⟩⟩
  · have howner' : (s.traced authGoAddr true val).accessor src = some 0 := howner
    simp only [exec_authGo, execAuthGo, State.ownerWrites, if_pos howner']
    exact congrArg Host.Outcome.next (if_pos ⟨hgo, hidle⟩)
  · have howner' : (s.traced authGoAddr true val).accessor src = some 0 := howner
    simp only [exec_authGo, execAuthGo, State.ownerWrites, if_pos howner']
    exact congrArg Host.Outcome.next (if_neg fun hstart => hstart.2 hbusy)
  · rintro rfl
    simp [execAuthGoResult, hbusy, hready, hpair]
  · rintro rfl
    simp only [exec_authGoResult, execAuthGoResult, hbusy, hready, hpair]
    cases u.setLimit s.power.authAddr s.power.authValue <;> rfl

end Sys2Proof.Machine

namespace Sys2Proof.Machine

/-! ## Resets -/

theorem State.boot_of_still {s t : State} (h : t.still = s.still) : t.boot = s.boot := congrArg (fun x => x.2.1) h

/-- The ROM selects a slot: nothing lies in the module's cells and regions, and of the boot its stage and the slots change (R406, R411). -/
theorem State.romSelect_fields (s : State) :
    s.romSelect.time = s.time ∧ s.romSelect.wafer = s.wafer ∧ s.romSelect.regions = s.regions ∧ s.romSelect.cells = s.cells ∧
    s.romSelect.retired = s.retired ∧ s.romSelect.boot.cause = s.boot.cause ∧ s.romSelect.boot.ready = s.boot.ready ∧
    s.romSelect.boot.svn = s.boot.svn ∧ s.romSelect.boot.stage = 1 := by
  unfold State.romSelect
  extract_lets b other set dark t u old
  have hset (x : Boot) (st : Nat) : (set x st).cause = x.cause ∧ (set x st).ready = x.ready ∧ (set x st).svn = x.svn ∧
      (set x st).stage = x.stage := by
    simp only [set]
    split <;> exact ⟨rfl, rfl, rfl, rfl⟩
  split
  · simp [u, t]
  · split <;> simp [u, t, hset]

/-- A cold boot counts, restarts module time, and begins at the ROM, or at a power-on before it (R399, Table 19-2). -/
theorem State.coldBoot_fields (s : State) (cause : Nat) :
    (s.coldBoot cause).time = 0 ∧ (s.coldBoot cause).wafer.boots = s.wafer.boots + 1 ∧ (s.coldBoot cause).regions = [] ∧
    (s.coldBoot cause).cells = [] ∧ (s.coldBoot cause).retired = s.retired ∧ (s.coldBoot cause).boot.cause = cause ∧
    (s.coldBoot cause).boot.ready = false ∧ (s.coldBoot cause).boot.svn = s.boot.svn ∧
    (s.coldBoot cause).boot.stage = if cause = 0 then 0 else 1 := by
  unfold State.coldBoot
  dsimp only
  split
  · exact ⟨rfl, rfl, rfl, rfl, rfl, rfl, rfl, rfl, rfl⟩
  · simp only [State.romSelect_fields]
    simp [State.coldState]

theorem State.coldBoot_enrolled (s : State) (cause : Nat) : (s.coldBoot cause).keeper.enrolled = s.keeper.enrolled := by
  obtain ⟨standby, hkeeper⟩ := s.coldBoot_keeper cause
  rw [hkeeper]
  rfl

theorem State.coldBoot_power_on_off (s : State) : (s.coldBoot 0).boot.off = false := rfl

/-- Settles O46: each event's own condition, and what a cold boot keeps and sets. -/
theorem resetsStartACauseAndCount : Obligations.ResetsStartACauseAndCount := by
  intro s
  refine ⟨fun vin hoff hvin => ?_, fun cause => ?_, fun hhigh => ?_, fun hlow => ⟨fun hbegun => ?_, fun hstage hon => ?_⟩,
    fun src howner => ?_, fun src val howner hkey => ?_, fun hon hreset hrunning hstopped hserved => ?_, fun t0 hfailed hlong hreset => ?_,
    fun cause => ⟨fun hreached harmed hfails => ?_, fun hbooted => ?_⟩⟩
  · obtain ⟨htime, hboots, hregions, hcells, hretired, hcause, hready, hsvn, -⟩ := s.coldBoot_fields 0
    exact ⟨_, (exec_powerOn vin s).trans (if_pos ⟨hoff, hvin⟩), htime, hboots, hcause, s.coldBoot_power_on_off, hready, hretired,
      s.coldBoot_enrolled 0, hsvn, hregions, hcells⟩
  · obtain ⟨htime, hboots, hregions, hcells, -, hcause, hready, hsvn, hstage⟩ := s.coldBoot_fields cause
    exact ⟨htime, hboots, hcause, hready, hregions, hcells, s.coldBoot_enrolled cause, hsvn, hstage⟩
  · simp [execResetN, hhigh]
  · have hwaits : ¬(s.boot.stage = 0 ∧ (!s.boot.off) = true) := by
      rintro ⟨hstage, hon⟩
      obtain hstage' | hoff := hbegun
      · exact hstage' hstage
      · simp [hoff] at hon
    simp only [exec_resetN, execResetN, hlow, if_neg hwaits]
    rfl
  · simp [execResetN, hlow, hstage, hon]
  · have howner' : (s.traced 0x10408 true 0x52535445).accessor src = some 0 := howner
    simp [execModuleReset, State.ownerWrites, howner']
  · have howner' : (s.traced 0x10408 true val).accessor src = some 0 := howner
    simp [execModuleReset, State.ownerWrites, howner', hkey]
  · have hserving : ¬(s.boot.off = true ∨ s.boot.resetLow = true ∨ s.boot.stage < 4 ∨ s.boot.stage = 0xF ∨
        s.time < s.boot.servedAt + ms 100) := by
      rw [hon, hreset]
      rintro (h | h | h | h | h)
      · contradiction
      · contradiction
      · omega
      · exact hstopped h
      · exact absurd hserved (Nat.not_le_of_lt h)
    simp only [exec_lintelWatchdog, execLintelWatchdog, if_neg hserving]
  · simp [execFwAttempt, hfailed, hlong, hreset]
  · have hthird : s.moduleReset cause = (((s.holdRunning).portsDown).lowerAll 4).bootStopped := by
      unfold State.moduleReset
      dsimp only
      rw [if_pos]
      simp only [hreached, harmed]
      exact ⟨rfl, rfl, hfails⟩
    rw [hthird]
    simp [State.bootStopped]
  · unfold State.moduleReset
    dsimp only
    rw [if_neg]
    rintro ⟨hreached, harmed, hfails⟩
    obtain h | h | h := hbooted
    · simp [h] at hreached
    · simp [h] at harmed
    · omega

/-! ## The stages of the boot -/

theorem State.toStage_stage (s : State) (n : Nat) : (s.toStage n).boot.stage = n := by
  unfold State.toStage
  dsimp only
  split <;> rfl

theorem State.toStage_boot (s : State) (n : Nat) : (s.toStage n).boot = { s.boot with stage := n, stageAt := s.time, servedAt := s.time } := by
  unfold State.toStage
  dsimp only
  split <;> rfl

/-- The Keeper of a sound module that starts is OPERATIONAL, with no APPROVED_LEAVE pending (R386, R391). -/
theorem State.keeperStart_operational {s : State} (hsound : s.keeper.decommissioned = false) :
    s.keeperStart.keeper.st = 2 ∧ s.keeperStart.keeper.leave = false := by
  unfold State.keeperStart
  extract_lets started t
  have hleave : t.keeper.leave = false := by
    simp only [t]
    split
    · exact (State.zeroiseKeys_zeroised _ 2).leave
    · rfl
  have hidentity : t.keeper.decommissioned = false := by
    simp only [t]
    split
    · rw [(State.zeroiseKeys_zeroised _ 2).decommissioned]
      simp [started, hsound]
    · exact hsound
  rw [if_neg (by simp [hidentity])]
  exact ⟨rfl, hleave⟩

/-- The Lintel's training of an HBM with no retired unit leaves it zeroed (R402). -/
theorem State.trainHbm_hbm {s : State} (hretired : s.retired = []) (chans : List (Nat × Nat)) : (s.trainHbm chans).hbm = {} := by
  unfold State.trainHbm
  extract_lets bad ctl cleared reported
  have hkept : reported.hbm = {} ∧ reported.retired = [] := by
    refine foldl_keeps (P := fun a : State => a.hbm = {} ∧ a.retired = []) (fun a n ha => ?_) _ ⟨rfl, hretired⟩
    exact foldl_keeps (P := fun a : State => a.hbm = {} ∧ a.retired = []) (fun b c hb => by simpa using hb) _ ha
  rw [hkept.2]
  split <;> exact hkept.1

theorem State.fwCommit_boot (s : State) : s.fwCommit.boot.stage = s.boot.stage ∧ s.fwCommit.boot.ready = s.boot.ready ∧
    s.fwCommit.boot.reached = s.boot.reached ∧ s.fwCommit.boot.fails = s.boot.fails := by
  unfold State.fwCommit
  have hslot (b : Boot) (i : Nat) (x : FwSlot) : (b.setSlot i x).stage = b.stage ∧ (b.setSlot i x).ready = b.ready ∧
      (b.setSlot i x).reached = b.reached ∧ (b.setSlot i x).fails = b.fails := by
    unfold Boot.setSlot
    split <;> exact ⟨rfl, rfl, rfl, rfl⟩
  split
  · exact ⟨rfl, rfl, rfl, rfl⟩
  · simp [State.raiseFuses, hslot]

/-- READY, reached (R404, R405). -/
theorem State.becomeReady_boot (s : State) : s.becomeReady.boot.stage = 9 ∧ s.becomeReady.boot.ready = true ∧
    s.becomeReady.boot.reached = true ∧ s.becomeReady.boot.fails = 0 := by
  unfold State.becomeReady
  extract_lets t
  obtain ⟨hstage, hready, hreached, hfails⟩ := t.fwCommit_boot
  rw [State.boot_of_still t.fwCommit.knockAll_still, hstage, hready, hreached, hfails]
  simp [t, State.toStage_boot]

/-- A failed test of the S0 copy hands over to the S6 copy, whose stages run again (R380, R406). -/
theorem State.keeperFails_first {s : State} (hfirst : s.keeper.standby = false) (hsound : s.keeper.decommissioned = false) (n : Nat) :
    (s.keeperFails n).boot.stage = 1 ∧ (s.keeperFails n).keeper.standby = true ∧ (s.keeperFails n).keeper.st = 1 := by
  unfold State.keeperFails State.toStandby
  extract_lets failed reported
  have hkeeper : reported.keeper = failed.keeper := by
    simp only [reported]
    split <;> simp
  rw [if_neg (by simp [hkeeper, failed, hfirst]), State.toStage_stage, State.toStage_keeper]
  simp [hkeeper, failed, hsound]

/-- With the S6 copy failed too the module stops (R403, R406). -/
theorem State.keeperFails_second {s : State} (hsecond : s.keeper.standby = true) (hbooted : s.boot.attempting = false) (n : Nat) :
    (s.keeperFails n).boot.stage = 0xF ∧ (s.keeperFails n).boot.ready = false := by
  unfold State.keeperFails State.toStandby State.copiesFailed
  extract_lets failed reported
  have hkeeper : reported.keeper = failed.keeper := by
    simp only [reported]
    split <;> simp
  have hboot : reported.boot = s.boot := by
    simp only [reported]
    split <;> simp [failed]
  rw [if_pos (by simp [hkeeper, failed, hsecond]), if_neg (by simp [hboot, hbooted])]
  simp [State.bootStopped]

/-- Settles O47: the present stage ends by its own rule. -/
theorem bootStagesFollow : Obligations.BootStagesFollow := by
  intro s hoff hreset hboth hattempting f
  have hwaits : ¬(s.boot.off = true ∨ s.boot.resetLow = true ∨ s.boot.bothFailed.isSome = true) := by simp [hoff, hreset, hboth]
  have hattempt : ¬(s.boot.attempting = true ∧ f.digestBad = true ∧ 1 ≤ s.boot.stage ∧ s.boot.stage ≤ 8) := by simp [hattempting]
  simp only [exec_bootStageComplete, execBootStageComplete, if_neg hwaits, if_neg hattempt]
  refine ⟨fun h => ?_, fun h hok => ?_, fun h hfail => ?_, fun h hok hsound => ?_, fun h hfail hfirst hsound => ?_,
    fun h hfail hsecond => ?_, fun h hok => ?_, fun h hfail => ?_, fun h => ?_, fun h => ?_, fun h hover => ?_, fun h hretired => ?_,
    fun h => ?_, fun h => ?_, fun h => ?_⟩ <;> simp only [h]
  · obtain ⟨-, -, -, -, -, -, -, -, hstage⟩ := s.romSelect_fields
    exact ⟨_, rfl, hstage⟩
  · simp [hok]
  · simp [hfail]
  · simp only [hok, hattempting]
    refine ⟨_, rfl, State.toStage_stage _ 3, ?_⟩
    rw [State.toStage_keeper]
    exact State.keeperStart_operational hsound
  · simp only [if_pos hfail]
    exact ⟨_, rfl, State.keeperFails_first hfirst hsound _⟩
  · simp only [if_pos hfail]
    exact ⟨_, rfl, State.keeperFails_second hsecond hattempting _⟩
  · simp [hok]
  · simp [hfail]
  · simp only [if_pos hover]
    exact ⟨_, rfl, State.toStage_stage _ 6, by simp [State.toStage_boot]⟩
  · exact ⟨_, rfl, State.toStage_stage _ 7, (State.toStage_hbm _ 7).trans (State.trainHbm_hbm hretired _)⟩
  · exact ⟨_, rfl, State.toStage_stage _ 8⟩
  · exact ⟨_, rfl, s.becomeReady_boot⟩

end Sys2Proof.Machine

namespace Sys2Proof.Machine

/-! ## Lists and the commands of every engine -/

/-- The entry that may start next starts, and has its effect (R150-R152). -/
theorem withEntry_of_starts {s : State} {g e op i : Nat} {l : ListRec} {x : Entry} (h : Starts s g e op l i x)
    (f : State → EntryId → Nat → State) : withEntry g e [op] s f = .next (f (s.begun g e l i) ⟨g, e, l.seq, i⟩ x.word) := by
  obtain ⟨hg, he, hnext, hop, hturn, hready⟩ := h
  have hbound : ¬(64 ≤ g ∨ 4 ≤ e) := by omega
  simp [withEntry, hbound, hnext, hop, hturn, hready, State.begun]

/-- A critical command whose pair the Keeper accepts has its own effect, on the module as the check leaves it (R156, R157, R378). -/
theorem withCritical_of_authorised {s u : State} {g e op i : Nat} {l : ListRec} {x a : Entry} (h : Authorised s g e op l i x a u)
    (f : State → EntryId → Nat → State) : withCritical g e op s f = .next (f u ⟨g, e, l.seq, i⟩ x.word) := by
  obtain ⟨hstarts, hkey, hoperands, howner, hi, hprev, haop, haprog, hpair⟩ := h
  obtain ⟨hg, he, -⟩ := id hstarts
  have hbound : ¬(64 ≤ g ∨ 4 ≤ e) := by omega
  have hfirst : i ≠ 0 := by omega
  have hrole : ¬(opOwner op && g != 0) = true := by
    cases hop : opOwner op with
    | false => simp
    | true => simp [howner hop]
  have hauth : (some a).filter (fun a => a.op == 2 && a.prog == 1) = some a := by simp [Option.filter, haop, haprog]
  simp [withCritical, hbound, hkey, withEntry_of_starts hstarts, hfirst, hprev, hauth, hpair, hrole, hoperands]

/-- Settles O16: each command's checks hold, and what is left is its own effect. -/
theorem listsAndCommonCommands : Obligations.ListsAndCommonCommands := by
  refine ⟨?_, fun s g e l i x => ⟨fun h => ?_, fun h hmet => ?_, fun h hmet => ?_, fun y h hafter hcritical hlisted => ?_,
    fun hg he hentry hop hprog hlong => ?_, fun k o hk hq hlong => ?_⟩⟩
  · intro s m hready hkind hvc hwindow hzero hoffset g e h hactive hbound hmagic hengine hreserved hcount hmax hlength hroom
    simp only [exec_commandListIntake, execCommandListIntake]
    rw [if_neg (by simp [hkind, hwindow, hzero, hready]), if_neg (by simp [hoffset, hvc, hactive, hbound, g])]
    have hgood : ¬(bits h 255 240 != 0x434C || bits h 228 227 != e || m.payload.length != 32 + 32 * bits h 239 229 || bits h 130 0 != 0 ||
        bits h 239 229 == 0 || decide (1024 < bits h 239 229)) = true := by
      have hsome : bits h 239 229 ≠ 0 := by omega
      simp [hmagic, hengine, hlength, hreserved, hsome, hmax]
    simp only [State.intake]
    rw [if_neg hgood, if_neg (Nat.not_le_of_lt hroom)]
  · obtain ⟨hstarts, hoperands⟩ := h
    obtain ⟨hg, he, hnext, hop, -⟩ := id hstarts
    have hop' : bits x.word 255 248 = 0 := hop
    simp only [exec_nop, execNop, hnext, hop']
    rw [if_neg (by omega), if_neg (by simp), withEntry_of_starts hstarts]
    simp [hoperands]
  · obtain ⟨hstarts, hoperands⟩ := h
    simp [execWait, withEntry_of_starts hstarts, hoperands, hmet]
  · obtain ⟨hstarts, hoperands⟩ := h
    simp [execWait, withEntry_of_starts hstarts, hoperands, hmet]
  · obtain ⟨hstarts, hoperands⟩ := h
    simp [execAuth, withEntry_of_starts hstarts, hoperands, hafter, hcritical, hlisted]
  · simp only [exec_waitTimeout, execWaitTimeout]
    rw [if_neg (by omega)]
    simp only [hentry]
    rw [if_pos ⟨hop, hprog, hlong⟩]
  · simp [execCompletionRecordTimeout, hk, hq, hlong]

/-! ## The Step and the Cache engine -/

/-- An entry that names a region of its guest and one of its slots has its own effect there. -/
theorem State.slotEntry_of_ok {u : State} {id : EntryId} {w : Nat} {states : List Nat}
    (hregion : u.regionOk id.guest (bits w 223 218) states = true) (hslot : bits w 217 204 < (u.region (bits w 223 218)).slotsMax)
    (f : State → Nat → Nat → State) : u.slotEntry id w states f = f u (bits w 223 218) (bits w 217 204) := by
  simp [State.slotEntry, hregion, Nat.not_le_of_lt hslot]

theorem State.nextWord_of_startsWell {s : State} {g e op i : Nat} {l : ListRec} {x : Entry} (h : StartsWell s g e op l i x) :
    s.nextWord g e = x.word := by
  obtain ⟨⟨-, -, hnext, -⟩, -⟩ := h
  simp [State.nextWord, hnext]

/-- Settles O17: each entry passes its checks, and has its own effect on its region or slot. -/
theorem stepEngineEntries : Obligations.StepEngineEntries := by
  intro s g l i x
  refine ⟨fun h hregion hforce => ?_, fun h hregion hforce hslot => ?_, fun h hregion hslot => ?_, fun h hregion hslot => ?_,
    fun h hall hregion hslot => ?_, fun h hall hregion => ?_⟩
  · simp only [exec_step, execStep, withCommand_of_startsWell h]
    rw [if_neg (by simpa [hregion] using hforce)]
  · simp only [exec_prefill, execPrefill, withCommand_of_startsWell h]
    rw [if_neg (by simpa [hregion] using hforce), if_neg (Nat.not_le_of_lt hslot)]
  · rw [exec_seqOpen, execSeqOpen, withCommand_of_startsWell h, State.slotEntry_of_ok hregion hslot]
  · rw [exec_seqClose, execSeqClose, withCommand_of_startsWell h, State.slotEntry_of_ok hregion hslot]
    rfl
  · obtain ⟨⟨hg, -⟩, -⟩ := id h
    rw [exec_cancel, execCancel, if_neg (Nat.not_le_of_lt hg), State.nextWord_of_startsWell h, if_neg (by simp [hall]),
      withCommand_of_startsWell h, State.slotEntry_of_ok hregion hslot]
  · obtain ⟨⟨hg, -⟩, -⟩ := id h
    rw [exec_cancelAll, execCancelAll, if_neg (Nat.not_le_of_lt hg), State.nextWord_of_startsWell h, if_neg (by simp [hall]),
      withCommand_of_startsWell h]
    simp [hregion]

/-- The first waiting entry of a slot that may take effect does, when it is of the opcode asked for. -/
theorem State.takeEffect_of_ready {s : State} {r n op : Nat} {id : EntryId} {rest : List (EntryId × Nat)}
    (hfirst : (s.slot r n).ops = (id, op) :: rest) (hready : s.opReady r n id op = true)
    (hsource : op ≠ 0x32 ∨ n = bits (s.wordOf id) 217 204) : s.takeEffect r n op = s.opEffect r n id op := by
  simp only [State.takeEffect, hfirst]
  rw [if_pos ⟨trivial, hready, hsource⟩]

/-- Settles O18: each entry passes its checks and joins its slot; a waiting one takes effect in its turn. -/
theorem cacheEngineEntries : Obligations.CacheEngineEntries := by
  refine ⟨?_, ?_⟩
  · intro s g l i x id u r n dst hregion joined
    refine ⟨fun h hslot => ?_, fun h htest => ?_, fun h htest => ?_, fun h hslot hdst => ?_, fun h hslot => ?_⟩
    · rw [exec_park, execPark, withCommand_of_startsWell h, State.slotEntry_of_ok hregion hslot]
      rfl
    · simp only [exec_resume, execResume, withCommand_of_startsWell h]
      rw [if_neg (by simpa using hregion), if_neg (not_not_intro htest)]
    · simp only [exec_resume, execResume, withCommand_of_startsWell h]
      rw [if_neg (by simpa using hregion), if_pos htest]
    · rw [exec_fork, execFork, withCommand_of_startsWell h, State.slotEntry_of_ok hregion hslot]
      dsimp only
      rw [if_neg (Nat.not_le_of_lt hdst)]
      rfl
    · rw [exec_trim, execTrim, withCommand_of_startsWell h, State.slotEntry_of_ok hregion hslot]
      rfl
  · intro s r n id op rest hr hn hfirst hready
    have hexists : ¬(64 ≤ r ∨ 16384 ≤ n) := by omega
    refine ⟨?_, ?_, ?_, ?_⟩
    · rintro rfl
      rw [exec_seqCloseTakesEffect, execSeqCloseTakesEffect, if_neg hexists, State.takeEffect_of_ready hfirst hready (.inl (by decide))]
    · rintro rfl
      rw [exec_parkTakesEffect, execParkTakesEffect, if_neg hexists, State.takeEffect_of_ready hfirst hready (.inl (by decide))]
    · rintro rfl hsource
      rw [exec_forkTakesEffect, execForkTakesEffect, if_neg hexists, State.takeEffect_of_ready hfirst hready (.inr hsource)]
    · rintro rfl
      rw [exec_trimTakesEffect, execTrimTakesEffect, if_neg hexists, State.takeEffect_of_ready hfirst hready (.inl (by decide))]

/-! ## Regions -/

/-- A region in a state of a list is in a state of any list that holds it (R151). -/
theorem State.regionOk_of_subset {s : State} {g r : Nat} {states more : List Nat} (hsub : states ⊆ more)
    (h : s.regionOk g r states = true) : s.regionOk g r more = true := by
  simp only [State.regionOk, Bool.and_eq_true, decide_eq_true_eq] at h ⊢
  exact ⟨h.1, hsub h.2⟩

theorem State.state_mem_of_regionOk {s : State} {g r : Nat} {states : List Nat} (h : s.regionOk g r states = true) :
    (s.region r).state ∈ states := by
  simp only [State.regionOk, Bool.and_eq_true, decide_eq_true_eq] at h
  exact h.2

/-- Settles O19: each stage of a load or a release begins where the one before it ended. -/
theorem regionsLoadAndRelease : Obligations.RegionsLoadAndRelease := by
  refine ⟨fun s => ⟨?_, ?_, ?_, ?_, ?_, ?_⟩, fun s => ⟨?_, ?_, ?_⟩⟩
  · intro g hdr l i x a u h hfree
    rw [exec_load, execLoad, withCritical_of_authorised h]
    simp [State.tryLoad, hfree]
  · intro r k bytes hr hload hphase hlength hform
    simp [execImageCopyComplete, Nat.not_le_of_lt hr, hload, hphase, hlength, hform]
  · intro r k im ps hr hload hphase hst hverdict
    simp only [exec_signatureVerified, execSignatureVerified, hload, hverdict]
    rw [if_neg (Nat.not_le_of_lt hr), if_neg (by simp [hphase, hst])]
    rfl
  · intro r k ok st hr hload hphase hst hverdict
    simp only [exec_signatureVerified, execSignatureVerified, hload, hverdict]
    rw [if_neg (Nat.not_le_of_lt hr), if_neg (by simp [hphase, hst])]
  · intro r k hr hload hphase hreq hlong
    simp [execLoadAdmissionTimeout, Nat.not_le_of_lt hr, hload, hphase, hreq, hlong]
  · intro r k hr hload hphase
    simp [execCellWritesComplete, Nat.not_le_of_lt hr, hload, hphase]
  · intro g l i x a u h hregion
    have hloaded : (u.region (bits x.word 223 218)).state ≠ 1 := by
      have := State.state_mem_of_regionOk hregion
      simp only [List.mem_cons, List.not_mem_nil, or_false] at this
      omega
    simp only [exec_release, execRelease, withCritical_of_authorised h]
    rw [if_neg (by simp [State.regionOk_of_subset (more := [1, 2, 3, 4]) (by simp) hregion]), if_neg hloaded]
  · intro g l i x a u h hregion
    have hloading : (u.region (bits x.word 223 218)).state = 1 := by simpa using State.state_mem_of_regionOk hregion
    simp only [exec_release, execRelease, withCritical_of_authorised h]
    rw [if_neg (by simp [State.regionOk_of_subset (more := [1, 2, 3, 4]) (by simp) hregion]), if_pos hloading]
  · intro r hr hstate hshifts
    simp [execScrubComplete, Nat.not_le_of_lt hr, hstate, hshifts]

end Sys2Proof.Machine

namespace Sys2Proof.Machine

/-! ## Admission -/

theorem turnedAway_eq_nil {bad : Nat → Bool} {l : List Nat} (h : ∀ n ∈ l, bad n = false) (cap : Nat) : turnedAway bad cap l = [] := by
  induction l generalizing cap with
  | nil => rfl
  | cons n rest ih =>
    cases cap with
    | zero => rfl
    | succ cap => simp [turnedAway, h n (by simp), ih (fun m hm => h m (by simp [hm]))]

/-- With no swing pending, no verify record and no slot to recompute, admission goes straight to the entry's kind (R167, R170). -/
theorem exec_stepAdmission_of_plain {s : State} {r k : Nat} {e : RunEntry} {rest : List RunEntry} {t : StepTpl} {w : Window}
    {waveAt maskAt : List (Nat × Nat)} {prompt : List Byte} (hr : r < 64) (hruns : (s.region r).runs = e :: rest)
    (hmay : s.mayAdmit r = true) (htpl : (s.region r).tplOf e.tpl = some t) (hshards : (s.region r).shards ≠ 0)
    (hswings : (s.region r).swings = []) (hcurrent : (s.region r).current = some (k, w))
    (hverify : (((s.region r).slots.map (·.1)).foldl (fun a n => a.applyVerify r n) s).settleRedo r = s)
    (hfirst : e.prefill = true → s.opFirst r e.slot e.id = true)
    (hkind : (if e.prefill then t.kind == 2 && t.width == 256 else t.kind == 1 || t.kind == 3) = true) :
    exec (.stepAdmission r waveAt maskAt prompt) s =
      .next (if e.prefill then s.admitChunk r k e t waveAt maskAt prompt else s.admitSlots r k e t waveAt maskAt) := by
  have hgo : s.mayAdmit r = true ∧ ((!e.prefill) = true ∨ s.opFirst r e.slot e.id = true) := by
    refine ⟨hmay, ?_⟩
    cases hp : e.prefill with
    | false => exact .inl rfl
    | true => exact .inr (hfirst hp)
  simp only [exec_stepAdmission, execStepAdmission, if_neg (Nat.not_le_of_lt hr), hruns, if_pos hgo, State.admitNext, htpl, hkind,
    hshards, hswings, List.length_nil, State.applySwings, hcurrent, hverify]
  rfl

theorem State.admitSlots_of_ready {s : State} {r k : Nat} {e : RunEntry} {t : StepTpl} {waveAt maskAt : List (Nat × Nat)}
    {a : Taking} {ps : List StepPos} {taken : List Nat}
    (hready : ∀ n ∈ (s.region r).cursorOrder t (lget ({} : Window) (s.region r).windows ((s.region r).chooseWindow k)).gen
      (s.candidates r ((s.region r).chooseWindow k)),
      s.maskless r n = false ∧ s.absentAt r n = none ∧ s.maskHeld (s.slot r n).mask = false)
    (hwaiting : ∀ q ∈ (s.region r).slots, q.2.state ≠ 4)
    (htake : State.takeSlots r t (if t.kind = 3 then t.draft + 1 else 1)
      (((s.region r).cursorOrder t (lget ({} : Window) (s.region r).windows ((s.region r).chooseWindow k)).gen
        (s.candidates r ((s.region r).chooseWindow k))).take (t.width / (if t.kind = 3 then t.draft + 1 else 1))) [] [] { s := s } =
      (a, ps, taken))
    (htaken : taken = [] → ((s.region r).cursorOrder t (lget ({} : Window) (s.region r).windows ((s.region r).chooseWindow k)).gen
        (s.candidates r ((s.region r).chooseWindow k))).take (t.width / (if t.kind = 3 then t.draft + 1 else 1)) = []) :
    s.admitSlots r k e t waveAt maskAt =
      (let u := a.s.modRegion r (fun y => { y with
        lastPinned := (lget ({} : Window) (s.region r).windows ((s.region r).chooseWindow k)).gen
        cursor := match taken.getLast? with
          | some n => mset y.cursor (65536 * t.tpl + (lget ({} : Window) (s.region r).windows ((s.region r).chooseWindow k)).gen) n
          | none => y.cursor })
       u.admitStep r (newFlight (u.region r) t ((s.region r).chooseWindow k) (some e.id) ps a) waveAt maskAt) := by
  unfold State.admitSlots
  generalize hw : (s.region r).chooseWindow k = win at *
  generalize hgen : (lget ({} : Window) (s.region r).windows win).gen = gen at *
  generalize hgroup : (if t.kind = 3 then t.draft + 1 else 1) = group at *
  generalize horder : (s.region r).cursorOrder t gen (s.candidates r win) = order at *
  have hlost : turnedAway (s.maskless r) (t.width / group) order = [] := turnedAway_eq_nil (fun n hn => (hready n hn).1) _
  have habsent : turnedAway (fun n => (s.absentAt r n).isSome) (t.width / group) order = [] :=
    turnedAway_eq_nil (fun n hn => by simp [(hready n hn).2.1]) _
  have hredo : (s.region r).slots.find? (fun q => q.2.state == 4) = none := List.find?_eq_none.mpr (by simpa using hwaiting)
  have hheld : (order.take (t.width / group)).any (fun n => s.maskHeld (s.slot r n).mask) = false := by
    rw [List.any_eq_false]
    intro n hn
    simp [(hready n (List.mem_of_mem_take hn)).2.2]
  have hsome : (taken.isEmpty && !(order.take (t.width / group)).isEmpty) = false := by
    cases taken with
    | nil => simp [htaken rfl]
    | cons _ _ => rfl
  have hall (l : List Nat) : l.filter (fun n => !([] : List Nat).contains n) = l := by simp
  simp only [hgen, horder, hlost, List.foldl_nil, hall, habsent, hredo, Option.map_none, hheld, htake, hsome]
  rfl

/-- An admitted step takes the region's next number (R166). -/
theorem State.admitStep_region (s : State) (r : Nat) (f : Flight) (waveAt maskAt : List (Nat × Nat)) :
    ((s.admitStep r f waveAt maskAt).region r).stepNext = (s.region r).stepNext + 1 ∧
    ∃ lanes params, ((s.admitStep r f waveAt maskAt).region r).flight =
      some { f with number := (s.region r).stepNext, lanes := lanes, params := params } := by
  unfold State.admitStep
  simp only [State.region_modRegion_same]
  exact ⟨trivial, _, _, rfl⟩

/-- Settles O22: the checks of an admission pass one after the other, and what is left takes the slots, or the prompt's own. -/
theorem stepsAreAdmitted : Obligations.StepsAreAdmitted := by
  refine ⟨?_, fun s r f waveAt maskAt => s.admitStep_region r f waveAt maskAt⟩
  intro s r k e rest t w waveAt maskAt prompt hr hruns hmay htpl hshards hswings hcurrent hverify
  refine ⟨fun hdecode hkind => ?_, fun hprefill hfirst hkind hwidth => ?_⟩
  · intro v gen group order hready hwaiting a ps taken htake htaken
    have hkind' : (if e.prefill then t.kind == 2 && t.width == 256 else t.kind == 1 || t.kind == 3) = true := by
      simpa [hdecode] using hkind
    rw [exec_stepAdmission_of_plain hr hruns hmay htpl hshards hswings hcurrent hverify (by simp [hdecode]) hkind', hdecode]
    exact congrArg Host.Outcome.next (State.admitSlots_of_ready hready hwaiting htake htaken)
  · intro x n hopen hlength hmasked hpresent hprompt hheld hlists v hwindow a hreserved
    have hkind' : (if e.prefill then t.kind == 2 && t.width == 256 else t.kind == 1 || t.kind == 3) = true := by
      simp [hprefill, hkind, hwidth]
    rw [exec_stepAdmission_of_plain hr hruns hmay htpl hshards hswings hcurrent hverify (fun _ => hfirst) hkind', hprefill]
    have hstate : (s.slot r e.slot).state = 1 ∨ (s.slot r e.slot).state = 2 := hopen
    have hlength' : (s.slot r e.slot).length = e.pos + e.done := hlength
    have hoctets : (decide (prompt.length ≠ 4 * min 256 (e.tokens - e.done)) || s.maskHeld (s.slot r e.slot).mask) = false := by
      rw [Bool.or_eq_false_iff, decide_eq_false_iff_not]
      exact ⟨not_not_intro hprompt, hheld⟩
    have hwindow' : (s.region r).slotWindow (s.slot r e.slot) = some v := hwindow
    have hlists' : s.listsFit r t.width (List.replicate (min 256 (e.tokens - e.done)) e.slot) = true := by
      rw [hwidth]
      exact hlists
    have hreserved' : (s.reserveSlot r e.slot (s.slot r e.slot).length (min 256 (e.tokens - e.done)) [e.slot]).ok = true := hreserved
    have hredo : ¬((s.slot r e.slot).state = 4 ∧ e.held = true) := by omega
    have hopen' : ¬((s.slot r e.slot).state ≠ 1 ∧ (s.slot r e.slot).state ≠ 2) := by omega
    simp only [if_true, State.admitChunk, if_neg hredo, if_neg hopen', if_neg (not_not_intro hlength'), hmasked, hpresent,
      hwindow', hoctets, hlists', hreserved', Option.isSome_none, Bool.not_true, Bool.false_eq_true, if_false]
    rfl

end Sys2Proof.Machine

namespace Sys2Proof.Machine

/-! ## Runs, commits, drafts and verify records -/

theorem length_insertBy {α : Type} (le : α → α → Bool) (x : α) (l : List α) : (insertBy le x l).length = l.length + 1 := by
  induction l with
  | nil => rfl
  | cons y l ih =>
    unfold insertBy
    split
    · rfl
    · simp [ih]

theorem length_sortBy {α : Type} (le : α → α → Bool) (l : List α) : (sortBy le l).length = l.length := by
  induction l with
  | nil => rfl
  | cons x l ih => simpa [sortBy, length_insertBy] using ih

theorem State.readHeld_eq_false (s : State) {p : HbmUse → Bool} (h : ∀ u, p u = false) : s.readHeld p = false := by
  simp [State.readHeld, h]

/-- The frame lists of a layer none of whose pages is on its way go to its cells at once (R193). -/
theorem exec_promotionComplete_of_framed {s : State} {r k : Nat} {f : Flight} {l : KvLayer} (hr : r < 64)
    (hf : (s.region r).flight = some f) (hl : (s.region r).kv[k]? = some l) (hfirst : k ∉ f.kvReady)
    (hframed : ∀ p ∈ f.positions, ∀ n, p.slot = some n → ∀ d ∈ mget [] ((s.region r).slot n).pages k, (s.desc d).tier ≠ 3) :
    exec (.promotionComplete r k) s = .next ((s.modRegion r (fun y => { y with
        deliveries := y.deliveries ++ (List.range l.cells).filterMap (fun i => ((s.region r).localCell (l.firstCell + i)).map (fun c =>
          { cell := c, item := l.item, tag := f.number, data := f.positions.flatMap (fun p =>
            match p.slot with
            | none => natLE 2 0
            | some n => if f.nulls.contains n then natLE 2 0
              else natLE 2 (mget [] ((s.region r).slot n).pages k).length ++
                (mget [] ((s.region r).slot n).pages k).flatMap (fun d => natLE 2 (s.desc d).frame)) }))
        flight := some { f with kvReady := f.kvReady ++ [k], promos := f.promos.filter (fun q => q.1 != k) } })).returnPromos
          (f.promos.filter (fun q => q.1 == k))) := by
  have hmoving : (((f.positions.filterMap (·.slot)).eraseDups).flatMap (fun n => mget [] ((s.region r).slot n).pages k)).filter
      (fun d => (s.desc d).tier == 3) = [] := by
    rw [List.filter_eq_nil_iff]
    intro d hd
    simp only [List.mem_flatMap, List.mem_eraseDups, List.mem_filterMap] at hd
    obtain ⟨n, ⟨p, hp, hslot⟩, hpage⟩ := hd
    simpa using hframed p hp n hslot d hpage
  simp only [exec_promotionComplete, execPromotionComplete, if_neg (Nat.not_le_of_lt hr), hf, hl, hmoving]
  rw [if_neg (by simpa using hfirst), if_neg]
  · simp [List.flatMap_map] <;> rfl
  · rw [s.readHeld_eq_false (fun u => by cases u <;> rfl)]
    exact Bool.false_ne_true

/-- Settles O23: each stage of a step begins where the one before it ended, and each record passes its tests or is counted. -/
theorem stepsRunCommitAndVerify : Obligations.StepsRunCommitAndVerify := by
  refine ⟨fun s r f hr hf => ⟨?_, ?_, ?_, ?_, ?_⟩, fun s => ⟨?_, ?_, ?_⟩, fun s m => ⟨?_, ?_, ?_, ?_⟩⟩
  · intro hstarted hstate hshifts hopen
    simp only [exec_stepStart, execStepStart, if_neg (Nat.not_le_of_lt hr), hf]
    rw [if_neg]
    rintro (h | h | h | h)
    · simp [hstarted] at h
    · omega
    · exact h hshifts
    · simp [hopen] at h
  · intro bytes n h q known hstarted hlive hshard hcount hlength hfresh hok
    simp only [exec_shardCandidates, execShardCandidates, if_neg (Nat.not_le_of_lt hr), hf]
    rw [if_pos]
    exact ⟨hstarted, by rw [hlive]; rfl, hshard, hcount, hlength, by simpa using hfresh, hok⟩
  · intro q n p hp hslot hsampled hfresh hall shards y res
    have hready : (!f.sampledAt.contains q || mhas f.sampled q ||
        (sortBy (fun a b => decide (bits (shardHeader a) 105 98 ≤ bits (shardHeader b) 105 98)) (mget [] f.cands q)).length !=
          (s.region r).shards) = false := by
      have hlength : (mget [] f.cands q).length = (s.region r).shards := hall
      simp [hsampled, hfresh, length_sortBy, hlength]
    simp only [exec_campionResult, execCampionResult, if_neg (Nat.not_le_of_lt hr), hf, hp, Option.bind_some, hslot, hready]
    refine ⟨_, rfl, ?_⟩
    rw [State.region_modRegion_same]
  · intro hover hall
    simp only [exec_stepCommit, execStepCommit, if_neg (Nat.not_le_of_lt hr), hf, if_pos (And.intro hover hall)]
  · intro k l hl hfirst hframed
    exact exec_promotionComplete_of_framed hr hf hl hfirst hframed
  · intro r c rest hr hc u hidle
    have hrunning : (match (u.region r).flight with | some f => f.started && f.number == c.step + 1 | none => false) = false := by
      cases hflight : (u.region r).flight with
      | none => rfl
      | some f =>
        obtain h | h := hidle f hflight
        · simp [h]
        · simp [h]
    simp only [exec_scatterComplete, execScatterComplete, if_neg (Nat.not_le_of_lt hr), hc]
    rw [if_neg]
    rw [Bool.not_eq_true]
    exact hrunning
  · intro d hd hreclaim hpassed
    simp only [exec_epochPassed, execEpochPassed, if_neg (Nat.not_le_of_lt hd), if_pos (And.intro hreclaim hpassed)]
    by_cases htier : (s.desc d).tier = 0
    · by_cases hzpend : (s.desc d).zpend = true
      · simp [htier, hzpend]
      · simp [htier, hzpend]
    · simp [htier]
  · intro k hk hparked hexpired
    simp only [exec_parkExpiry, execParkExpiry, if_neg (Nat.not_le_of_lt hk), if_pos (And.intro hparked hexpired)]
    refine ⟨_, rfl, ?_⟩
    simp [State.setPark]
  · intro hpair haccepts hopen hroom hnext
    simp only [exec_draftRecord, execDraftRecord]
    rw [if_neg (by simp [hpair]), if_pos ⟨haccepts, hopen, hroom, hnext⟩]
  · intro hpair haccepts hopen
    simp only [exec_verifyRecord, execVerifyRecord]
    rw [if_neg (by simp [hpair]), if_pos haccepts, if_neg hopen]
  · intro hpair hrefused
    simp [execDraftRecord, hpair, hrefused]
  · intro hpair hrefused
    simp [execVerifyRecord, hpair, hrefused]

end Sys2Proof.Machine

namespace Sys2Proof.Machine

/-! ## Mask sources and sampling entries -/

/-- A permitted write of AUT_CMD that names a source reaches Campion (R232, R275). -/
theorem State.autAccess_of_permitted {s : State} {src g val req : Nat} (haccess : s.accessor src = some req) (hreq : req = 0 ∨ req = g)
    (hsource : bits val 61 52 < 0x300) (f : State → Nat → State) :
    s.autAccess src g val f = f (s.traced (0x30002008 + 16 * g) true val) (bits val 61 52) := by
  have haccess' : (s.traced (0x30002008 + 16 * g) true val).accessor src = some req := haccess
  have hpermitted : ¬(req ≠ 0 ∧ req ≠ g) := by omega
  simp only [State.autAccess, haccess']
  rw [if_neg hpermitted, if_neg (Nat.not_le_of_lt hsource)]

/-- Settles O24: the write is permitted and its source's condition holds; the fetch's end is the first check that fails. -/
theorem samplingSourcesAndEntries : Obligations.SamplingSourcesAndEntries := by
  refine ⟨fun s src g req hg haccess hreq => ⟨?_, ?_, ?_⟩, fun s n hn hloading => ⟨?_, ?_, ?_, ?_⟩⟩
  · intro val hop hsource hfree n u
    have hfree' : ((u.source n).state == 0 || (((u.source n).state == 2 || (u.source n).state == 3) && (u.source n).guest == g &&
        u.maskRefs n == 0)) = true := by
      change ((s.source n).state == 0 || (((s.source n).state == 2 || (s.source n).state == 3) && (s.source n).guest == g &&
        s.maskRefs n == 0)) = true
      simpa [and_assoc] using hfree
    simp only [exec_maskSourceLoad, execMaskSourceLoad]
    rw [if_neg (Nat.not_le_of_lt hg), if_neg (not_not_intro hop), State.autAccess_of_permitted haccess hreq hsource]
    exact congrArg Host.Outcome.next (if_neg (by rw [hfree']; exact Bool.false_ne_true))
  · intro val hop hsource hidle hunused howner n
    have hfree : ((s.source n).state != 1 && s.maskRefs n == 0 && (g == 0 || ((s.source n).state != 0 && (s.source n).guest == g))) = true := by
      simpa [hidle, n, hunused] using howner
    simp only [exec_maskSourceFree, execMaskSourceFree]
    rw [if_neg (Nat.not_le_of_lt hg), if_neg (not_not_intro hop), State.autAccess_of_permitted haccess hreq hsource]
    exact congrArg Host.Outcome.next (if_pos hfree)
  · intro e w he x
    have hexists : ¬(64 ≤ g ∨ 256 ≤ e) := by omega
    have hpermitted : ¬(req ≠ 0 ∧ req ≠ g) := by omega
    have haccess' : (s.traced (0x30080000 + g * 2 ^ 13 + e * 2 ^ 5) true w.toNat).accessor src = some req := haccess
    simp only [exec_samplingEntryCommit, execSamplingEntryCommit, if_neg hexists, haccess', if_neg hpermitted]
    refine ⟨_, rfl, ?_⟩
    simp [State.setGuest, State.guest, x]
  · simp [execMaskSourceLoadComplete, Nat.not_le_of_lt hn, hloading]
  · intro b hlength hform
    simp [execMaskSourceLoadComplete, Nat.not_le_of_lt hn, hloading, hlength, hform]
  · intro b hlength hform hroom
    simp only [exec_maskSourceLoadComplete, execMaskSourceLoadComplete, hform, hroom]
    rw [if_neg (Nat.not_le_of_lt hn), if_neg (not_not_intro hloading), if_neg (not_not_intro hlength)]
    rfl
  · intro b a c t hlength hform hroom
    simp only [exec_maskSourceLoadComplete, execMaskSourceLoadComplete, hform, hroom]
    rw [if_neg (Nat.not_le_of_lt hn), if_neg (not_not_intro hloading), if_neg (not_not_intro hlength)]
    rfl

end Sys2Proof.Machine

namespace Sys2Proof.Machine

/-! ## Weight loads, swings, manifests and shards -/

theorem ceilDiv_ne_zero {a b : Nat} (ha : a ≠ 0) (hb : 0 < b) : ceilDiv a b ≠ 0 :=
  Nat.ne_of_gt (Nat.div_pos (by omega) hb)

/-- WLOAD, SWING and RETIRE (R233, R247, R252). -/
theorem weightEntries (s : State) (g : Nat) (l : ListRec) (i : Nat) (x a : Entry) (u : State) :
    let id : EntryId := ⟨g, 1, l.seq, i⟩
    let gen := bits x.word 223 208
    (StartsWell s g 1 0x20 l i x → u = s.begun g 1 l i →
      (bits x.word 207 206 = 0 ∨ u.regionOk g (bits x.word 205 200) [2, 3, 4] = true) →
      ((u.generation g gen).isSome = true ∨ u.weight.gens.length < 256) →
      let w : WloadRec := { id := u.weight.nextId, entry := some id, guest := g, gen := gen, target := bits x.word 207 206,
                            region := bits x.word 205 200, srcFa := bits x.word 199 184, srcAddr := bits x.word 183 136,
                            fwdFa := bits x.word 135 120, startAt := u.time, holdAt := u.time }
      let t := u.modWeight (fun e => { e with loads := e.loads ++ [w], nextId := u.weight.nextId + 1 })
      (w.downstream = false → exec (.wload g) s = .next t) ∧
      (w.downstream = true → exec (.wload g) s = .next (t.sendMsg
        { kind := 1, vc := 3, dest := w.srcFa, src := u.fabricAddr, addr := chainAddr 5 gen,
          payload := natLE 4 128 ++ natLE 4 u.weight.nextId }))) ∧
    (∀ (n : Generation) (im : Image) (m : Manifest) (k : Nat), Authorised s g 1 0x21 l i x a u →
      let r := bits x.word 207 202
      u.regionOk g r [2, 3] = true → u.generation g gen = some n → (u.region r).image = some im → parseManifest n.manifest = some m →
      m.layout = im.wlayout → (u.region r).windowOf g gen = some k → ((lget ({} : Window) (u.region r).windows k).state ≠ 3 ∨ (u.region r).swings ≠ []) →
      exec (.swing g) s = .next ((u.modRegion r (fun y => { y with swings := y.swings ++ [(id, gen)] })).settleSwings r)) ∧
    (∀ n : Generation, StartsWell s g 1 0x22 l i x → u = s.begun g 1 l i → u.generation g gen = some n → u.genInUse g gen = false →
      let drop (y : Region) : Region := { y with windows := y.windows.map (fun v => if v.gen == gen && v.owner == g then {} else v) }
      exec (.retire g) s = .next ((({ u with regions := mmap (fun _ y => drop y) u.regions }.freeRuns n.runs).modWeight (fun e =>
        { e with gens := e.gens.filter (fun y => !(y.guest == g && y.num == gen)) })).complete id stOK 0)) := by
  refine ⟨?_, ?_, ?_⟩
  · intro hstarts hu htarget hgens w t
    subst hu
    have hregion : ¬(bits x.word 207 206 ≠ 0 ∧ (!(s.begun g 1 l i).regionOk g (bits x.word 205 200) [2, 3, 4]) = true) := by
      rcases htarget with h | h <;> simp [h]
    have hroom : ¬(((s.begun g 1 l i).generation g (bits x.word 223 208)).isNone = true ∧ (s.begun g 1 l i).weight.gens.length ≥ 256) := by
      rcases hgens with h | h
      · simp [Option.isNone_iff_eq_none, Option.isSome_iff_ne_none.1 h]
      · omega
    constructor <;> intro hdown <;>
      simp only [exec_wload, execWload, withCommand_of_startsWell hstarts, if_neg hregion, if_neg hroom]
    · exact congrArg Host.Outcome.next (if_neg (by rw [hdown]; exact Bool.false_ne_true))
    · exact congrArg Host.Outcome.next (if_pos hdown)
  · intro n im m k h r hregion hgen himage hparse hlayout hwindow hpending
    have hnot : ¬((lget ({} : Window) (u.region (bits x.word 207 202)).windows k).state = 3 ∧ (u.region (bits x.word 207 202)).swings = []) := by
      rintro ⟨h3, hempty⟩
      rcases hpending with h | h
      · exact h h3
      · exact h hempty
    simp only [r] at hregion himage hwindow
    simp only [exec_swing, execSwing, withCritical_of_authorised h, hregion, hgen, himage, hparse, hwindow, if_neg hnot]
    rw [if_neg (by simp), if_neg (not_not_intro hlayout)]
  · intro n hstarts hu hgen huse drop
    subst hu
    simp only [exec_retire, execRetire, withCommand_of_startsWell hstarts, hgen, huse]
    rw [if_neg Bool.false_ne_true]

/-- The end of a manifest's checks (R236-R239). -/
theorem manifestChecks (s : State) (id : Nat) (l : WloadRec) (bytes : List Byte) (hload : s.wload id = some l) (hphase : l.phase = 0)
    (hkeeper : s.keeper.st = 2) :
    (l.downstream = true → l.manLen = 0 → bytes.length = 128 →
      let n := manifestLen (leNat bytes)
      exec (.manifestVerified id bytes true) s = .next ((s.modWload id (fun y => { y with manLen := n })).sendMsg
        { kind := 1, vc := 3, dest := l.srcFa, src := s.fabricAddr, addr := chainAddr 5 l.gen, payload := natLE 4 n ++ natLE 4 id })) ∧
    (∀ ok : Bool, (l.downstream = true → l.manLen ≠ 0 ∧ bytes.length = l.manLen) → s.manifestVerdict l bytes ok ≠ 0 →
      exec (.manifestVerified id bytes ok) s = .next ((s.weightFault l 3 (l.gen + s.manifestVerdict l bytes ok * 2 ^ 16)).refuseLoad l
        (if s.manifestVerdict l bytes ok = 2 then stBadSignature else stBadFormat))) ∧
    ∀ (t : State) (runs : List (Nat × Nat)) (m : Manifest), parseManifest bytes = some m → s.manifestVerdict l bytes true = 0 →
    s.generation l.guest l.gen = none → s.weight.gens.length < 256 →
    l.target = 0 → l.downstream = false → l.held = [] → m.blobLen ≠ 0 →
    s.settleHolds.allocCopy l.guest (ceilDiv m.blobLen 4096) = some (runs, t) →
    let meas := sha256 (bytes.take (bytes.length - 7880))
    exec (.manifestVerified id bytes true) s =
      .next (((((t.modWeight (fun e => { e with gens := e.gens ++ [{ guest := l.guest, num := l.gen, manifest := bytes, measure := meas }] })).modWload
        id (fun y => { y with
          phase := 1
          manifest := bytes
          measure := meas
          window := none
          runs := runs
          rooms := []
          startAt := t.time
          shards := List.replicate (bits m.hdr 903 887) { source := 0 }
          held := [] })).requestShards id).finishLoad id)) := by
  have hready : ¬(l.phase ≠ 0 ∨ s.keeper.st ≠ 2) := by simp [hphase, hkeeper]
  refine ⟨?_, ?_, ?_⟩
  · intro hdown hfirst hlength n
    simp only [exec_manifestVerified, execManifestVerified, hload, if_neg hready]
    rw [if_pos ⟨hdown, hfirst⟩, if_neg (not_not_intro hlength)]
  · intro ok hdown hverdict
    have hheader : ¬(l.downstream = true ∧ l.manLen = 0) := fun h => (hdown h.1).1 h.2
    have hlength : ¬(l.downstream = true ∧ bytes.length ≠ l.manLen) := fun h => h.2 (hdown h.1).2
    simp only [exec_manifestVerified, execManifestVerified, hload, if_neg hready, if_neg hheader, if_neg hlength]
    generalize s.manifestVerdict l bytes ok = b at hverdict
    cases b with
    | zero => exact absurd rfl hverdict
    | succ b => cases parseManifest bytes <;> rfl
  · intro t runs m hparse hverdict hgen hgens htarget hdown hheld hblob halloc meas
    have hheader : ¬(l.downstream = true ∧ l.manLen = 0) := by simp [hdown]
    have hlength : ¬(l.downstream = true ∧ bytes.length ≠ l.manLen) := by simp [hdown]
    have hneed : ceilDiv m.blobLen 4096 ≠ 0 := ceilDiv_ne_zero hblob (by omega)
    simp only [exec_manifestVerified, execManifestVerified, hload, if_neg hready, if_neg hheader, if_neg hlength, hparse, hverdict, hgen]
    simp [Nat.not_le_of_lt hgens, htarget, hneed, halloc, State.takeRooms, hdown, hheld, meas, List.map_const']

/-- The arrival and the timeout of a requested shard (R239, R243, R245). -/
theorem shardsArrive (s : State) (id k : Nat) (l : WloadRec) (m : Manifest) (hload : s.wload id = some l) (hman : l.man = some m)
    (hphase : l.phase = 1) (hstate : (lget ({} : ShardRec) l.shards k).state = 1) :
    (∀ bytes : List Byte, (lget ({} : ShardRec) l.shards k).source < 8 →
      exec (.shardArrived id k bytes) s = .next (s.shardIn l m k bytes).feedAgain) ∧
    (∀ bytes : List Byte, (lget ({} : ShardRec) l.shards k).source = 8 →
      exec (.shardArrived id k bytes) s = .next (s.shardIn l m k (lget ({} : ShardRec) l.shards k).data).feedAgain) ∧
    (∀ (bytes : List Byte) (g : Generation), (lget ({} : ShardRec) l.shards k).source = 9 → s.generation l.guest l.gen = some g →
      g.badIn (shardSize * k) (m.shardLen k) = false →
      exec (.shardArrived id k bytes) s = .next (s.shardIn l m k (readRuns s.hbm g.runs (shardSize * k) (m.shardLen k))).feedAgain) ∧
    ((lget ({} : ShardRec) l.shards k).at_ + ms m.timeout ≤ s.time →
      exec (.shardTimeout id k) s = .next ((s.weightFault l 2
        (k + l.sourceFa m (lget ({} : ShardRec) l.shards k).source * 2 ^ 32)).undoLoad id stShardTimeout)) := by
  have hasked : ¬(l.phase ≠ 1 ∨ (lget ({} : ShardRec) l.shards k).state ≠ 1) := by simp [hphase, hstate]
  refine ⟨?_, ?_, ?_, ?_⟩
  · intro bytes hsource
    simp only [exec_shardArrived, execShardArrived, hload, hman, if_neg hasked]
    rw [if_neg (by omega), if_neg (by omega)]
  · intro bytes hsource
    simp only [exec_shardArrived, execShardArrived, hload, hman, if_neg hasked]
    rw [if_neg (by omega), if_pos hsource]
  · intro bytes g hsource hgen hgood
    simp only [exec_shardArrived, execShardArrived, hload, hman, if_neg hasked, if_pos hsource, hgen, hgood]
    rw [if_neg Bool.false_ne_true]
  · intro hlong
    simp only [exec_shardTimeout, execShardTimeout, hload, hman, if_pos (And.intro hphase (And.intro hstate hlong))]

/-- Settles O27: the entry starts, the load or shard is in the state asked for, and each later check of the command passes. -/
theorem weightEntriesManifestsAndShards : Obligations.WeightEntriesManifestsAndShards :=
  ⟨weightEntries, manifestChecks, shardsArrive⟩

/-! ## Chains of generations -/

/-- Settles O28: the message is one of the chain's and meets its load, or the timer's condition holds. -/
theorem generationChains : Obligations.GenerationChains := by
  refine ⟨fun s m l => ⟨?_, ?_, ?_, ?_, ?_, ?_, ?_, ?_⟩, fun s id l hload => ⟨?_, ?_, ?_⟩⟩
  · intro htype hmeets
    simp [execJoin, htype, hmeets]
  · intro htype hmeets
    simp [execShardAck, htype, hmeets]
  · intro htype
    exact ⟨fun hnone => by simp [execManifest, htype, hnone], fun hmeets hlength => by simp [execManifest, htype, hmeets, hlength]⟩
  · intro htype hmeets hlength hphase
    simp [execManifest, htype, hmeets, hlength, hphase]
  · intro htype hmeets hlength hphase
    simp [execManifest, htype, hmeets, hlength, hphase]
  · intro htype hmeets
    simp [execShard, htype, hmeets]
  · intro htype hmeets
    simp [execHold, htype, hmeets]
  · intro htype hmeets
    simp [execChainAbort, htype, hmeets]
  · intro hphase hforwards hidle hlong
    simp [execChainHoldTimer, hload, hphase, hforwards, hidle, hlong]
  · intro k q t hheld hlong
    simp [execManifestReadTimeout, hload, hheld, hlong]
  · intro hjoined hforwards
    simp [execChainJoinTimeout, hload, hjoined, hforwards]

end Sys2Proof.Machine

namespace Sys2Proof.Machine

/-! ## Casement ports: training, width and PORT_CONTROL -/

/-- An access of the owner is made (R13). -/
theorem State.ownerWrites_of_owner {s : State} {src : Nat} (h : s.accessor src = some 0) (addr val : Nat) (f : State → State) :
    s.ownerWrites src addr val f = f (s.traced addr true val) :=
  if_pos h

@[simp] theorem State.port_traced (s : State) (addr val k : Nat) (write : Bool) : (s.traced addr write val).port k = s.port k := rfl

/-- A knock that goes out changes the neighbour's record and a queue of its port, and nothing else of it (R294). -/
theorem State.port_sendKnock (s : State) (p : Nat) : ∃ n q,
    (s.sendKnock p).port p = { s.port p with nbr := n, tx := { (s.port p).tx with queues := q } } := by
  unfold State.sendKnock State.queueKnock State.queueOn State.queueTx
  simp only [State.port_modPort_same]
  exact ⟨_, _, rfl⟩

theorem trainingAndWidth (s : State) (p : Nat) (hp : p < 96) :
    let x := s.port p
    (x.state = 1 → x.mayTrain = true → s.portServed p = true →
      exec (.peerSignalDetect p) s = .next (s.modPort p (fun y => { y with state := 2, since := s.time }))) ∧
    (∀ (lock pol w g : Nat) (snr : List Nat), x.state = 2 → widest (x.usable lock) 3 = some (w, g) →
      exec (.trainingComplete p lock pol snr) s =
        .next ((s.modPort p (fun y => { (y.withLanes lock pol snr) with width := w, lanes := g })).enterSecuring p)) ∧
    (∀ lock : Nat, x.state = 2 → x.since + ms 500 ≤ s.time →
      exec (.trainFail p lock) s = .next ((s.linkFault p 1 (lock % 256 * 2 ^ 48)).enterDown p 1)) ∧
    (∀ lane : Nat, lane < 8 → x.state = 4 → bitAt x.lanes lane = true →
      exec (.laneLoss p lane) s = .next ((s.modPort p (fun y =>
        { y with lane := mset y.lane lane { mget {} y.lane lane with lock := false } })).enterRetraining p (x.width - 1))) ∧
    (∀ lock w g : Nat, x.state = 5 → widest (x.usable lock) x.want = some (w, g) →
      ∃ t, exec (.retrainComplete p lock) s = .next t ∧ (t.port p).state = 4 ∧ (t.port p).width = w ∧ (t.port p).lanes = g ∧
        (t.port p).keys = x.keys ∧ (t.port p).tx.buf = x.tx.buf) ∧
    (x.state = 5 → x.since + ms 2 ≤ s.time → exec (.retrainTimeout p) s = .next (s.enterDown p 1)) := by
  have hlt := Nat.not_le_of_lt hp
  refine ⟨?_, ?_, ?_, ?_, ?_, ?_⟩
  · intro hstate htrain hserved
    simp [execPeerSignalDetect, hlt, hstate, htrain, hserved]
  · intro lock pol w g snr hstate hwidth
    simp [execTrainingComplete, hlt, hstate, hwidth]
  · intro lock hstate hlong
    simp [execTrainFail, hlt, hstate, hlong]
  · intro lane hlane hstate hused
    simp [execLaneLoss, hlt, Nat.not_le_of_lt hlane, hstate, hused]
  · intro lock w g hstate hwidth
    simp only [exec_retrainComplete, execRetrainComplete, if_neg hlt, if_pos hstate, hwidth]
    refine ⟨_, rfl, ?_⟩
    split
    all_goals
      obtain ⟨n, q, hport⟩ := State.port_sendKnock _ p
      rw [hport]
      simp
  · intro hstate hlong
    simp [execRetrainTimeout, hlt, hstate, hlong]

/-- What a write of PORT_CONTROL does once its fields are stored and a tripped supply is on again (R269, R270, R284). -/
def State.controlActs (s : State) (p val : Nat) : State :=
  if !bitAt val 63 then (if (s.port p).state = 0 then s else s.enterDown p 0)
  else
    let s := if (s.port p).state = 0 then s.modPort p (fun x => { x with state := 1, since := s.time }) else s
    if (s.port p).state ≠ 4 then s
    else if bitAt val 61 then s.enterRetraining p 3
    else if bitAt val 62 then s.enterRetraining p (s.port p).width
    else if bitAt val 59 then s.beginRekey p
    else s

theorem State.portControl_of_owner {s : State} {src : Nat} (howner : s.accessor src = some 0) (p val : Nat) :
    let u := (s.traced (portControlAddr p) true val).modPort p (fun x =>
      { x with clear := bitAt val 60, laneOff := bits val 58 51, enable := bitAt val 63 })
    s.portControl src p val = State.controlActs
      (if bitAt val 62 || bitAt val 61 then { u with iface := { u.iface with cabOff := u.iface.cabOff.filter (· != p / 4) } } else u) p val :=
  State.ownerWrites_of_owner howner _ _ _

theorem State.controlActs_of_active {s : State} {p val : Nat} (h63 : bitAt val 63 = true) (hstate : (s.port p).state = 4) :
    s.controlActs p val = if bitAt val 61 then s.enterRetraining p 3
      else if bitAt val 62 then s.enterRetraining p (s.port p).width
      else if bitAt val 59 then s.beginRekey p else s := by
  simp [State.controlActs, h63, hstate]

theorem State.controlActs_of_disabled {s : State} {p val : Nat} (h63 : bitAt val 63 = true) (hstate : (s.port p).state = 0) :
    s.controlActs p val = s.modPort p (fun x => { x with state := 1, since := s.time }) := by
  simp [State.controlActs, h63, hstate]

theorem portControlWrites (s : State) (src p val : Nat) (hp : p < 96) (howner : s.accessor src = some 0) :
    let u := (s.traced (portControlAddr p) true val).modPort p (fun x =>
      { x with clear := bitAt val 60, laneOff := bits val 58 51, enable := bitAt val 63 })
    let v : State := { u with iface := { u.iface with cabOff := u.iface.cabOff.filter (· != p / 4) } }
    (bitAt val 63 = false → bitAt val 62 = false → bitAt val 61 = false → (s.port p).enable = true → (s.port p).state ≠ 0 →
      exec (.portEnable src p val) s = .next (u.enterDown p 0)) ∧
    (bitAt val 63 = true → bitAt val 62 = false → bitAt val 61 = false → (s.port p).enable = false → (s.port p).state = 0 →
      exec (.portEnable src p val) s = .next (u.modPort p (fun x => { x with state := 1, since := s.time }))) ∧
    (bitAt val 63 = true → (s.port p).state = 4 → bitAt val 62 = true → bitAt val 61 = false →
      exec (.retrain src p val) s = .next (v.enterRetraining p (v.port p).width)) ∧
    (bitAt val 63 = true → (s.port p).state = 4 → bitAt val 61 = true →
      exec (.fullwidth src p val) s = .next (v.enterRetraining p 3)) ∧
    (bitAt val 63 = true → (s.port p).state = 4 → bitAt val 62 = false → bitAt val 61 = false → bitAt val 59 = true →
      exec (.rekey src p val) s = .next (u.beginRekey p)) := by
  intro u v
  have hlt := Nat.not_le_of_lt hp
  have hu : (u.port p).state = (s.port p).state := by simp [u]
  have hv : (v.port p).state = (s.port p).state := hu
  refine ⟨?_, ?_, ?_, ?_, ?_⟩
  · intro h63 h62 h61 henable hstate
    have hacts : u.controlActs p val = u.enterDown p 0 := by simp [State.controlActs, h63, hu, hstate]
    simp only [exec_portEnable, execPortEnable, State.portControl_of_owner howner, if_neg hlt, h62, h61, ← hacts]
    rw [if_neg (by simp [h63, henable])]
    rfl
  · intro h63 h62 h61 henable hstate
    have hacts := State.controlActs_of_disabled h63 (hu.trans hstate)
    simp only [exec_portEnable, execPortEnable, State.portControl_of_owner howner, if_neg hlt, h62, h61]
    rw [if_neg (by simp [h63, henable])]
    exact congrArg Host.Outcome.next hacts
  · intro h63 hstate h62 h61
    have hacts := State.controlActs_of_active h63 (hv.trans hstate)
    simp only [h61, h62] at hacts
    simp only [exec_retrain, execRetrain, State.portControl_of_owner howner, if_neg hlt, h62, h61]
    exact congrArg Host.Outcome.next hacts
  · intro h63 hstate h61
    have hacts := State.controlActs_of_active h63 (hv.trans hstate)
    simp only [h61] at hacts
    simp only [exec_fullwidth, execFullwidth, State.portControl_of_owner howner, if_neg hlt, h61, Bool.or_true]
    exact congrArg Host.Outcome.next hacts
  · intro h63 hstate h62 h61 h59
    have hacts := State.controlActs_of_active h63 (hu.trans hstate)
    simp only [h61, h62, h59] at hacts
    simp only [exec_rekey, execRekey, State.portControl_of_owner howner, if_neg hlt, h62, h61, h59]
    exact congrArg Host.Outcome.next hacts

/-- Settles O29: the port is in the state asked for; a write of PORT_CONTROL is the owner's and goes down one branch of its rules. -/
theorem portsTrainRetrainAndAreControlled : Obligations.PortsTrainRetrainAndAreControlled :=
  ⟨trainingAndWidth, portControlWrites⟩

end Sys2Proof.Machine

namespace Sys2Proof.Machine

/-! ## The key exchange of a link -/

/-- A port that enters ACTIVE is in it, with or without cleartext, under the keys it has (R279). -/
theorem State.port_enterActive (s : State) (p : Nat) (cleartext : Bool) :
    ((s.enterActive p cleartext).port p).state = 4 ∧ ((s.enterActive p cleartext).port p).cleartext = cleartext ∧
      ((s.enterActive p cleartext).port p).keys = (s.port p).keys := by
  unfold State.enterActive
  obtain ⟨n, q, hport⟩ := State.port_sendKnock (s.modPort p (fun x =>
    { x with
      state := 4
      since := s.time
      cleartext := cleartext
      tx := { queues := x.tx.queues, keyFlits := x.tx.keyFlits }
      rx := { msgs := x.rx.msgs, keyMsgs := x.rx.keyMsgs } })) p
  rw [hport]
  simp

theorem linkKeyTimers (s : State) (p : Nat) (hp : p < 96) :
    let x := s.port p
    (x.state = 4 → (2 ^ 31 ≤ x.tx.runNo ∨ x.keyAt + secs 3600 ≤ s.time) → exec (.rekeyDue p) s = .next (s.beginRekey p)) ∧
    (x.state = 4 → x.cleartext = false → 2 ^ 32 ≤ x.tx.runNo → exec (.runLimitExhausted p) s = .next (s.enterDown p 1)) ∧
    (x.state = 3 → x.since + ms 25 ≤ s.time → x.clear = true → s.keeper.approved = false →
      exec (.securingTimeout p) s = .next (s.enterActive p true)) ∧
    (x.state = 3 → x.since + ms 25 ≤ s.time → x.clear = false → x.auth.failed = false →
      exec (.securingTimeout p) s = .next (s.linkFail p 4)) ∧
    (∀ a : Nat, x.auth.retryAt = some a → a ≤ s.time → x.state = 3 →
      exec (.linkAuthRetry p) s = .next ((s.modPort p (fun y => { y with since := s.time })).beginExchange p)) ∧
    (∀ a : Nat, x.auth.retryAt = some a → a ≤ s.time → x.state ≠ 3 →
      exec (.linkAuthRetry p) s =
        .next ((s.modAuth p (fun y => { y with failed := false, retryAt := none, rekey := false })).beginRekey p)) := by
  have hlt := Nat.not_le_of_lt hp
  refine ⟨?_, ?_, ?_, ?_, ?_, ?_⟩
  · intro hstate hdue
    simp only [exec_rekeyDue, execRekeyDue, if_neg hlt, if_pos (And.intro hstate hdue)]
  · intro hstate hsealed hruns
    simp only [exec_runLimitExhausted, execRunLimitExhausted, if_neg hlt]
    exact if_pos ⟨hstate, by simp [hsealed], hruns⟩
  · intro hstate hlong hclear happroved
    simp [execSecuringTimeout, hlt, hstate, Nat.not_lt_of_le hlong, hclear, happroved]
  · intro hstate hlong hclear hfailed
    simp [execSecuringTimeout, hlt, hstate, Nat.not_lt_of_le hlong, hclear, hfailed]
  · intro a hretry hlong hstate
    simp [execLinkAuthRetry, hlt, hretry, Nat.not_lt_of_le hlong, hstate]
  · intro a hretry hlong hstate
    simp [execLinkAuthRetry, hlt, hretry, Nat.not_lt_of_le hlong, hstate]

theorem linkKeyMessages (s u : State) (p : Nat) (c : List Byte) (hp : p < 96) :
    (s.canExchange p = true → (s.port p).state = 3 → s.takeKey p 1 = some (c, u) →
      exec (.hello p true true) s = .next (((u.modAuth p (fun a => { a with helloIn := c })).sendEncap p).tryKeys p) ∧
      (∀ cred : Bool, exec (.hello p false cred) s = .next (u.linkFail p 1)) ∧
      exec (.hello p true false) s = .next (u.linkFail p 2)) ∧
    (s.canExchange p = true → s.takeKey p 2 = some (c, u) →
      let v := if (u.port p).state = 4 then u.beginRekey p else u
      exec (.encap p) s = .next ((v.modAuth p (fun a =>
        { a with encapIn := c, secretIn := Config.kemDecap v.keeper.kemNo (c.take 1088) })).tryKeys p)) ∧
    (∀ k : LinkKeys, s.canExchange p = true → (s.port p).auth.keys = some k → s.takeKey p 3 = some (c, u) →
      let a := (u.port p).auth
      (c.take 32 = (finishMac k a.peer a.transcript).take 32 → (u.port p).state = 3 →
        ∃ t, exec (.finish p true) s = .next t ∧ (t.port p).state = 4 ∧ (t.port p).cleartext = false ∧ (t.port p).keys = k) ∧
      (c.take 32 = (finishMac k a.peer a.transcript).take 32 → (u.port p).state = 4 →
        exec (.finish p true) s = .next (u.modPort p (fun x =>
          { x with keyState := 2, stagedTx := some k, stagedRx := some k, auth := { x.auth with keys := none, rekey := false } }))) ∧
      (c.take 32 ≠ (finishMac k a.peer a.transcript).take 32 → exec (.finish p true) s = .next (u.linkFail p 3))) ∧
    (s.takeKey p 4 = some (c, u) →
      exec (.linkAbort p) s = .next (u.modPort p (fun x =>
        { x with keyState := 3, auth := { x.auth with failed := true, keys := none, retryAt := some (u.time + secs 1) } }))) := by
  have hlt := Nat.not_le_of_lt hp
  refine ⟨?_, ?_, ?_, ?_⟩
  · intro hcan hstate htake
    have hopen : ¬((!s.canExchange p) = true ∨ (s.port p).state ≠ 3) := by simp [hcan, hstate]
    refine ⟨?_, fun cred => ?_, ?_⟩ <;> simp only [exec_hello, execHello, if_neg hlt, if_neg hopen, htake] <;> rfl
  · intro hcan htake v
    simp only [exec_encap, execEncap, if_neg hlt, htake]
    exact if_neg (by simp [hcan])
  · intro k hcan hkeys htake a
    have hcan' : ¬(!s.canExchange p) = true := by simp [hcan]
    refine ⟨?_, ?_, ?_⟩
    · intro hmac hstate
      have hmac' : c.take 32 = (finishMac k (u.port p).auth.peer (u.port p).auth.transcript).take 32 := hmac
      have hnot : ¬(u.port p).state = 4 := by omega
      simp only [exec_finish, execFinish, if_neg hlt, if_neg hcan', hkeys, htake, if_neg (not_not_intro hmac'), if_neg hnot]
      refine ⟨_, rfl, ?_⟩
      simp [State.port_enterActive]
    · intro hmac hstate
      have hmac' : c.take 32 = (finishMac k (u.port p).auth.peer (u.port p).auth.transcript).take 32 := hmac
      simp only [exec_finish, execFinish, if_neg hlt, if_neg hcan', hkeys, htake, if_neg (not_not_intro hmac'), if_pos hstate]
      rfl
    · intro hmac
      have hmac' : c.take 32 ≠ (finishMac k (u.port p).auth.peer (u.port p).auth.transcript).take 32 := hmac
      simp only [exec_finish, execFinish, if_neg hlt, if_neg hcan', hkeys, htake, if_pos hmac']
  · intro htake
    simp only [exec_linkAbort, execLinkAbort, if_neg hlt, htake]

/-- Settles O30: the timer's condition holds, or the KEY message is there and the exchange is open; each verdict has its branch. -/
theorem linksExchangeTheirKeys : Obligations.LinksExchangeTheirKeys :=
  ⟨linkKeyTimers, linkKeyMessages⟩

/-! ## Flits: slots, reception and replays -/

theorem flitSlots (s : State) (p : Nat) (hp : p < 96) :
    let u := s.modPort p Port.passSlot
    let x := u.port p
    (x.state = 2 → exec (.flitTransmit p) s = .next (u.putFlit p { hdr := x.linkHeader 5 0, payload := zeros 240 })) ∧
    (x.state = 3 → exec (.flitTransmit p) s = .next (u.slotSecuring p) ∧
      (x.tx.replay = [] → x.tx.retryReq = false → x.tx.replayDue = false → x.tx.keyFlits = [] →
        exec (.flitTransmit p) s = .next (u.putFlit p { hdr := x.linkHeader 0 0, payload := zeros 240 }))) ∧
    (x.state = 4 → 16 ≤ x.tx.crWait → exec (.flitTransmit p) s = .next (u.putIdle p)) ∧
    (x.state = 4 → x.tx.crWait < 16 →
      exec (.flitTransmit p) s = .next (u.slotActive p) ∧
      (∀ (f : Flit) (r : List Flit), x.tx.replay = f :: r → exec (.flitTransmit p) s = .next (u.putReplay p f r)) ∧
      (x.tx.replay = [] → x.ready 0 = true → x.tx.run.length < 48 → exec (.flitTransmit p) s = .next (u.putData p 0))) := by
  intro u x
  have hlt := Nat.not_le_of_lt hp
  have hslot : exec (.flitTransmit p) s =
      if x.state = 2 then .next (u.putFlit p { hdr := x.linkHeader 5 0, payload := zeros 240 })
      else if x.state = 3 then .next (u.slotSecuring p)
      else if x.state = 4 then .next (if 16 ≤ x.tx.crWait then u.putIdle p else u.slotActive p)
      else .next u := (exec_flitTransmit ..).trans (if_neg hlt)
  rw [hslot]
  refine ⟨fun hstate => if_pos hstate, fun hstate => ?_, fun hstate hwait => ?_, fun hstate hwait => ?_⟩
  · have hsecuring : u.slotSecuring p = match x.tx.replay with | f :: r => u.putReplay p f r | [] => (u.slotControl p).getD (u.putIdle p) := rfl
    rw [if_neg (by omega), if_pos hstate]
    refine ⟨rfl, fun hreplay hretry hdue hkeys => ?_⟩
    have hcontrol : u.slotControl p = none := by
      unfold State.slotControl
      change (if x.tx.retryReq = true then _ else _) = _
      simp [hretry, show (u.port p).tx.replayDue = false from hdue, show (u.port p).tx.keyFlits = [] from hkeys]
    rw [hsecuring, hreplay, hcontrol]
    rfl
  · rw [if_neg (by omega), if_neg (by omega), if_pos hstate, if_pos hwait]
  · rw [if_neg (by omega), if_neg (by omega), if_pos hstate, if_neg (by omega)]
    refine ⟨rfl, fun f r hreplay => ?_, fun hreplay hready hrun => ?_⟩
    · have hreplay' : (u.port p).tx.replay = f :: r := hreplay
      simp only [State.slotActive, hreplay']
    · have hreplay' : (u.port p).tx.replay = [] := hreplay
      have hready' : (u.port p).ready 0 = true ∧ (u.port p).tx.run.length < 48 := ⟨hready, hrun⟩
      simp only [State.slotActive, hreplay', if_pos hready']

/-- A good flit is counted; a port that does not carry it takes nothing of it, a sequenced one is dropped while a replay is awaited,
and any other gives its header's acknowledgement and is taken by its kind (R280). -/
theorem State.receive_of_good {s : State} {p : Nat} {f : RxFlit} (h : GoodFlit s p f) :
    let g := Flit.ofBytes f.bytes
    let h := g.hdr
    let x := s.port p
    let u := (s.flitCounted p f).takeHeader p h
    s.receive p f =
      if !x.carriesFlit h then s.flitCounted p f
      else if hdrSequenced h then
        if x.rx.discard then s.flitCounted p f
        else
          let v := if hdrKind h = 5 then u
            else u.modPort p (fun x => x.traffic 1 (if hdrKind h < 5 then some (bits h 92 91) else none) (bits h 81 66) (bits h 65 50))
          if hdrKind h = 5 ∧ hdrType h = 1 then v.takeSeal p g
          else v.acceptFlit p g
      else if hdrType h = 2 then u.takeRetryReq p (bits h 23 12)
      else if hdrType h = 3 ∧ bits h 23 12 = x.rx.seq then u.modPort p (fun x => x.modRx (fun r => { r with discard := false }))
      else u := by
  obtain ⟨hstate, huncorr, hintact, hform⟩ := h
  have hopen : ¬((s.port p).state ≠ 3 ∧ (s.port p).state ≠ 4) := by omega
  unfold State.receive
  simp only [huncorr, hintact, hform]
  rw [if_neg hopen]
  rfl

/-- The header of a flit is its first 12 octets (Table 13-4). -/
theorem isLink_iff (f : RxFlit) (typ : Nat) : isLink f typ = true ↔
    flitIntact f.bytes = true ∧ f.uncorr = false ∧ hdrKind (Flit.ofBytes f.bytes).hdr = 5 ∧ hdrType (Flit.ofBytes f.bytes).hdr = typ := by
  simp [isLink, Flit.ofBytes, and_assoc]

/-- A good flit that no command of a link-control type is for is received as a data flit (R280). -/
theorem exec_dataFlitReceive_of {p : Nat} {f : RxFlit} (hp : p < 96)
    (hkind : hdrKind (Flit.ofBytes f.bytes).hdr < 5 ∨ (hdrKind (Flit.ofBytes f.bytes).hdr = 5 ∧ hdrType (Flit.ofBytes f.bytes).hdr = 4))
    (s : State) : exec (.dataFlitReceive p f) s = .next (s.receive p f) := by
  rw [exec_dataFlitReceive]
  unfold execDataFlitReceive
  have hnot : ¬((flitIntact f.bytes && !f.uncorr) && (hdrKind (leAt f.bytes 0 12) == 6 || (hdrKind (leAt f.bytes 0 12) == 5 &&
      (hdrType (leAt f.bytes 0 12) == 0 || hdrType (leAt f.bytes 0 12) == 1 || hdrType (leAt f.bytes 0 12) == 2 ||
        hdrType (leAt f.bytes 0 12) == 3)))) = true := by
    change hdrKind (leAt f.bytes 0 12) < 5 ∨ (hdrKind (leAt f.bytes 0 12) = 5 ∧ hdrType (leAt f.bytes 0 12) = 4) at hkind
    simp only [Bool.and_eq_true, Bool.or_eq_true, beq_iff_eq]
    omega
  rw [if_neg (Nat.not_le_of_lt hp)]
  exact if_neg hnot

theorem goodFlits (s : State) (p : Nat) (f : RxFlit) (hp : p < 96) (hgood : GoodFlit s p f) :
    let g := Flit.ofBytes f.bytes
    let h := g.hdr
    let u := (s.flitCounted p f).takeHeader p h
    let x := s.port p
    (isLink f 0 = true → exec (.idle p f) s = .next u) ∧
    (isLink f 2 = true → exec (.retryReq p f) s = .next (u.takeRetryReq p (bits h 23 12))) ∧
    (isLink f 3 = true → bits h 23 12 = x.rx.seq →
      exec (.replay p f) s = .next (u.modPort p (fun x => x.modRx (fun r => { r with discard := false })))) ∧
    (isLink f 4 = true → x.rx.discard = false → exec (.dataFlitReceive p f) s = .next (u.acceptFlit p g)) ∧
    (x.state = 4 → x.rx.discard = false →
      (isLink f 1 = true → exec (.seal p f) s = .next (u.takeSeal p g)) ∧
      (hdrKind h < 5 → exec (.dataFlitReceive p f) s =
        .next ((u.modPort p (fun x => x.traffic 1 (some (bits h 92 91)) (bits h 81 66) (bits h 65 50))).acceptFlit p g)) ∧
      (hdrKind h = 6 → exec (.quickRead p f) s =
        .next ((u.modPort p (fun x => x.traffic 1 none (bits h 81 66) (bits h 65 50))).acceptFlit p g))) ∧
    (x.state = 3 →
      (isLink f 1 = true → exec (.seal p f) s = .next (s.flitCounted p f)) ∧
      (hdrKind h < 5 → exec (.dataFlitReceive p f) s = .next (s.flitCounted p f)) ∧
      (hdrKind h = 6 → exec (.quickRead p f) s = .next (s.flitCounted p f))) := by
  intro g h u x
  have hlt := Nat.not_le_of_lt hp
  have hreceive := State.receive_of_good hgood
  obtain ⟨-, huncorr, hintact, -⟩ := id hgood
  have hquick : hdrKind h = 6 → exec (.quickRead p f) s = .next (s.receive p f) := by
    intro hkind
    have hkind' : hdrKind (leAt f.bytes 0 12) = 6 := hkind
    simp [execQuickRead, hlt, hintact, huncorr, hkind']
  refine ⟨?_, ?_, ?_, ?_, ?_, ?_⟩
  · intro hlink
    obtain ⟨-, -, hkind, htype⟩ := (isLink_iff f 0).1 hlink
    simp [execIdle, hlt, hlink, hreceive, hkind, htype, hdrSequenced, Port.carriesFlit, u, h, g]
  · intro hlink
    obtain ⟨-, -, hkind, htype⟩ := (isLink_iff f 2).1 hlink
    simp [execRetryReq, hlt, hlink, hreceive, hkind, htype, hdrSequenced, Port.carriesFlit, u, h, g]
  · intro hlink hseq
    obtain ⟨-, -, hkind, htype⟩ := (isLink_iff f 3).1 hlink
    simp only [h, g, x] at hseq
    simp [execReplay, hlt, hlink, hreceive, hkind, htype, hdrSequenced, Port.carriesFlit, u, h, g, hseq]
  · intro hlink hdiscard
    obtain ⟨-, -, hkind, htype⟩ := (isLink_iff f 4).1 hlink
    simp only [x] at hdiscard
    rw [exec_dataFlitReceive_of hp (.inr ⟨hkind, htype⟩)]
    simp [hreceive, hkind, htype, hdrSequenced, Port.carriesFlit, hdiscard, u, h, g]
  · intro hstate hdiscard
    simp only [x] at hstate hdiscard
    refine ⟨?_, ?_, ?_⟩
    · intro hlink
      obtain ⟨-, -, hkind, htype⟩ := (isLink_iff f 1).1 hlink
      simp [execSeal, hlt, hlink, hreceive, hkind, htype, hdrSequenced, Port.carriesFlit, hstate, hdiscard, u, h, g]
    · intro hkind
      have hdata : hdrKind (Flit.ofBytes f.bytes).hdr < 5 := hkind
      rw [exec_dataFlitReceive_of hp (.inl hkind)]
      simp [hreceive, hdrSequenced, Port.carriesFlit, hstate, hdiscard, hdata, Nat.ne_of_lt hdata, u, h, g]
    · intro hkind
      have hdata : hdrKind (Flit.ofBytes f.bytes).hdr = 6 := hkind
      rw [hquick hkind]
      simp [hreceive, hdrSequenced, Port.carriesFlit, hstate, hdiscard, hdata, u, h, g]
  · intro hstate
    simp only [x] at hstate
    refine ⟨?_, ?_, ?_⟩
    · intro hlink
      obtain ⟨-, -, hkind, htype⟩ := (isLink_iff f 1).1 hlink
      simp [execSeal, hlt, hlink, hreceive, hkind, htype, Port.carriesFlit, hstate]
    · intro hkind
      have hdata : hdrKind (Flit.ofBytes f.bytes).hdr < 5 := hkind
      rw [exec_dataFlitReceive_of hp (.inl hkind)]
      simp [hreceive, Port.carriesFlit, hstate, Nat.ne_of_lt hdata]
    · intro hkind
      have hdata : hdrKind (Flit.ofBytes f.bytes).hdr = 6 := hkind
      rw [hquick hkind]
      simp [hreceive, Port.carriesFlit, hstate, hdata]

/-- The first seven requests for one flit ask for its replay and await it (R280). -/
theorem State.requestRetry_of_few {s : State} {p : Nat}
    (hfew : (if (s.port p).rx.reqRef = (s.port p).rx.seq then (s.port p).rx.requests + 1 else 1) < 8) :
    s.requestRetry p = s.modPort p (fun x =>
      { x with
        tx := { x.tx with retryReq := true }
        rx := { x.rx with
          discard := true
          reqRef := x.rx.seq
          requests := if (s.port p).rx.reqRef = (s.port p).rx.seq then (s.port p).rx.requests + 1 else 1
          slots := 0 } }) := by
  unfold State.requestRetry
  simp only [if_pos hfew]
  congr 1
  funext x
  rw [if_neg (by omega)]

theorem retriesAndStalls (s : State) (p : Nat) (hp : p < 96) :
    let x := s.port p
    (x.state = 3 ∨ x.state = 4 → x.rx.discard = true → 64 ≤ x.rx.slots → exec (.retryReqRepeat p) s = .next (s.requestRetry p)) ∧
    (x.rx.reqRef = x.rx.seq → x.rx.requests = 7 → x.state = 4 → ((s.requestRetry p).port p).state = 5) ∧
    (x.rx.reqRef = x.rx.seq → x.rx.requests = 7 → x.state = 3 → ((s.requestRetry p).port p).state = 3 ∧
      ((s.requestRetry p).port p).rx.requests = 0 ∧ ((s.requestRetry p).port p).tx.retryReq = true) ∧
    (∀ f : RxFlit, x.state = 3 ∨ x.state = 4 → x.rx.discard = false → f.uncorr = true →
      exec (.dataFlitReceive p f) s = .next (let u := (s.flitCounted p f).countPort p cFecUncorr 1
        (if flitIntact f.bytes then u else u.countPort p cCrcErr 1).requestRetry p)) ∧
    (x.rx.reqRef ≠ x.rx.seq → ((s.requestRetry p).port p).rx.discard = true ∧ ((s.requestRetry p).port p).rx.requests = 1 ∧
      ((s.requestRetry p).port p).tx.retryReq = true ∧ ((s.requestRetry p).port p).rx.msgs = x.rx.msgs) ∧
    (∀ (vc k : Nat) (t : TxMsg), vc < 4 → (mget [] x.tx.queues vc)[k]? = some t → t.sent = 0 → t.since + ms 2 ≤ s.time →
      let v := (((s.modPort p (fun y => (y.count cDiscarded 1).modTx (fun z =>
        { z with queues := mset z.queues vc ((mget [] z.queues vc).eraseIdx k) }))).linkFault p 6
          (vc * 2 ^ 46 + t.msg.dest % 65536 * 2 ^ 16)).dropTx t).dropRecord t
      exec (.creditStall p vc k) s = .next (match t.mc with | some m => v.mcBranchFail p m.1 m.2 x.peerFa | none => v)) := by
  have hlt := Nat.not_le_of_lt hp
  refine ⟨?_, ?_, ?_, ?_, ?_, ?_⟩
  · intro hstate hdiscard hslots
    simp only [exec_retryReqRepeat, execRetryReqRepeat, if_neg hlt, if_pos (And.intro hstate (And.intro hdiscard hslots))]
  · intro href hseven hstate
    simp [State.requestRetry, href, hseven, hstate, State.enterRetraining]
  · intro href hseven hstate
    simp [State.requestRetry, href, hseven, hstate]
  · intro f hstate hdiscard huncorr
    have hopen : ¬((s.port p).state ≠ 3 ∧ (s.port p).state ≠ 4) := by omega
    simp only [exec_dataFlitReceive, execDataFlitReceive, if_neg hlt, huncorr]
    unfold State.receive
    simp only [huncorr, hdiscard]
    rw [if_neg (by simp), if_neg hopen, if_pos (by simp)]
    rfl
  · intro href
    have hfew : (if (s.port p).rx.reqRef = (s.port p).rx.seq then (s.port p).rx.requests + 1 else 1) < 8 := by simp [href]
    simp [State.requestRetry_of_few hfew, href]
  · intro vc k t hvc hmsg hsent hlong v
    have hbound : ¬(96 ≤ p ∨ 4 ≤ vc) := by omega
    simp only [exec_creditStall, execCreditStall, if_neg hbound, hmsg, if_pos (And.intro hsent hlong)]
    rfl

/-- Settles O31: a slot by the port's state, a good flit by the branches of reception, and the retries by their count. -/
theorem flitsAreSentTakenAndRetried : Obligations.FlitsAreSentTakenAndRetried :=
  ⟨flitSlots, goodFlits, retriesAndStalls⟩

end Sys2Proof.Machine

namespace Sys2Proof.Machine

/-! ## Neighbours and the bridge pair -/

theorem neighbours (s : State) (p : Nat) (m : Msg) (hp : p < 96) (hactive : (s.port p).state = 4) :
    let u := (s.takeRx p m).meetNeighbour p m.payload
    let x := (s.port p).nbr
    (isDiscovery m 1 = true →
      exec (.knock p m) s = .next (u.queueOn p (u.peerMsg 1 0xFFFE 0x1A900 (u.knockData 2 p (leAt m.payload 12 4))))) ∧
    (isDiscovery m 2 = true → exec (.answer p m) s = .next (u.modPort p (fun y =>
      if leAt m.payload 12 4 = y.nbr.nonce then { y with nbr := { y.nbr with sends := 0 } } else y))) ∧
    (1 ≤ x.sends → x.sends < 8 → x.sentAt + ms 1 ≤ s.time →
      exec (.knockRetry p) s = .next ((s.modPort p (fun y => { y with nbr := { y.nbr with
        state := if x.sends = 7 then 2 else y.nbr.state
        sends := x.sends + 1
        sentAt := s.time } })).queueKnock p)) ∧
    (8 ≤ x.sends → x.sentAt + secs 1 ≤ s.time →
      exec (.knockRetry p) s = .next ((s.sendKnock p).modPort p (fun y => { y with nbr := { y.nbr with sends := 8 } }))) ∧
    ((s.queueKnock p) = s.queueOn p (s.peerMsg 1 0xFFFE 0x1A900 (s.knockData 1 p x.nonce))) := by
  have hlt := Nat.not_le_of_lt hp
  refine ⟨?_, ?_, ?_, ?_, rfl⟩
  · intro htype
    simp [execKnock, hlt, htype, hactive]
  · intro htype
    simp [execAnswer, hlt, htype, hactive]
  · intro hsent hfew hlong
    have hdue : ¬((s.port p).state ≠ 4 ∨ (s.port p).nbr.sends = 0 ∨
        s.time < (s.port p).nbr.sentAt + (if (s.port p).nbr.sends < 8 then ms 1 else secs 1)) := by
      rw [if_pos hfew]; omega
    simp only [exec_knockRetry, execKnockRetry, if_neg hlt, if_neg hdue]
    rw [if_pos hfew]
    rfl
  · intro hmany hlong
    have hdue : ¬((s.port p).state ≠ 4 ∨ (s.port p).nbr.sends = 0 ∨
        s.time < (s.port p).nbr.sentAt + (if (s.port p).nbr.sends < 8 then ms 1 else secs 1)) := by
      rw [if_neg (Nat.not_lt_of_le hmany)]; omega
    simp only [exec_knockRetry, execKnockRetry, if_neg hlt, if_neg hdue]
    rw [if_neg (Nat.not_lt_of_le hmany)]

theorem addressAndBridgeWrites (s : State) (src val : Nat) (howner : s.accessor src = some 0) :
    (faClass (val % 65536) = 0 → faReserved (val % 65536) = false →
      exec (.fabricAddrWrite src val) s = .next { s.traced 0x1A800 true val with fabricAddr := val % 65536 }.knockAll) ∧
    (faClass (val % 65536) ≠ 0 ∨ faReserved (val % 65536) = true →
      exec (.fabricAddrWrite src val) s = .next ((s.traced 0x1A800 true val).rejectAccess src 0x1A800 0 false 6)) ∧
    (let u := (s.traced 0x1A808 true val).modFabric (fun f =>
        { f with role := bits val 63 62, hostPort := bits val 61 55, partner := bits val 54 39, beatAt := s.time })
     let v := (s.traced 0x1A808 true val).modFabric (fun f =>
        { f with role := bits val 63 62, hostPort := bits val 61 55, partner := bits val 54 39 })
     (bits val 63 62 < 3 → bits val 61 55 < 96 →
      (bits val 63 62 = s.fabric.role → exec (.bridgeWrite src val) s = .next v) ∧
      (s.fabric.role = 2 → bits val 63 62 = 1 → exec (.bridgeWrite src val) s = .next u.takeRole) ∧
      (bits val 63 62 ≠ s.fabric.role → ¬ (s.fabric.role = 2 ∧ bits val 63 62 = 1) →
        exec (.bridgeWrite src val) s = .next u.knockAll))) ∧
    (3 ≤ bits val 63 62 ∨ 96 ≤ bits val 61 55 →
      exec (.bridgeWrite src val) s = .next ((s.traced 0x1A808 true val).rejectAccess src 0x1A808 0 false 6)) := by
  refine ⟨?_, ?_, ?_, ?_⟩
  · intro hclass hreserved
    simp [execFabricAddrWrite, State.ownerWrites_of_owner howner, hclass, hreserved]
  · intro hbad
    simp only [exec_fabricAddrWrite, execFabricAddrWrite, State.ownerWrites_of_owner howner, if_pos hbad]
  · intro u v hrole hport
    have hgood : ¬(bits val 63 62 = 3 ∨ 96 ≤ bits val 61 55) := by omega
    have hfabric : (s.traced 0x1A808 true val).fabric.role = s.fabric.role := rfl
    simp only [exec_bridgeWrite, execBridgeWrite, State.ownerWrites_of_owner howner, if_neg hgood, hfabric]
    refine ⟨fun hsame => ?_, fun hstandby hactive => ?_, fun hother hnot => ?_⟩
    · simp only [if_pos hsame]
      rfl
    · have hother : ¬bits val 63 62 = s.fabric.role := by omega
      simp only [if_neg hother, if_pos (And.intro hstandby hactive)]
      rfl
    · simp only [if_neg hother, if_neg hnot]
      rfl
  · intro hbad
    have hfour : bits val 63 62 < 4 := Nat.mod_lt _ (by decide)
    have hrefused : bits val 63 62 = 3 ∨ 96 ≤ bits val 61 55 := by omega
    simp only [exec_bridgeWrite, execBridgeWrite, State.ownerWrites_of_owner howner, if_pos hrefused]

theorem bridgePair (s : State) :
    (s.fabric.role = 1 → s.fabric.partner ≠ 0xFFFF → s.fabric.beatAt + ms 1 ≤ s.time →
      exec .bridgeBeatTimer s = .next ((s.sendWrite 0 s.fabric.partner 0x1A9C0 (natLE 2 s.fabric.epoch ++ natLE 2 s.fabricAddr)).modFabric
        (fun f => { f with beatAt := s.time }))) ∧
    (∀ m : Msg, m.kind = 0 → m.vc = 0 → m.addr = 0x1A9C0 → s.fabric.role = 2 →
      (s.fabric.epoch ≤ leAt m.payload 0 2 → exec (.bridgeBeat m) s = .next (s.modFabric (fun f => { f with beatAt := s.time }))) ∧
      (leAt m.payload 0 2 < s.fabric.epoch →
        exec (.bridgeBeat m) s = .next (s.modFabric (fun f => { f with beatAt := s.time })).takeRole)) ∧
    (s.fabric.role = 2 → s.fabric.beatAt + ms 3 ≤ s.time → exec .bridgeTakeover s = .next s.takeRole) ∧
    (∀ m : Msg, m.kind = 0 → m.vc = 1 → m.addr = 0x1A9C0 →
      let ahead := (leAt m.payload 0 2 + 65536 - s.fabric.epoch % 65536) % 65536
      let fa := leAt m.payload 2 2
      let u := s.modFabric (fun f => { f with
        epoch := leAt m.payload 0 2
        bridgeFa := fa
        role := if f.role = 1 then 2 else f.role
        beatAt := if f.role = 1 then s.time else f.beatAt
        unacked := f.unacked.map (fun y => { y with sentAt := s.time }) })
      let v := s.fabric.unacked.foldl (fun a y => a.sendWrite 1 fa 0x1AA00 y.data) u
      ahead ≠ 0 → ahead < 0x8000 →
        exec (.bridgeAnnounce m) s = .next (if s.fabric.role = 1 ∨ s.fabric.bridgeFa ≠ fa then v.knockAll else v)) := by
  refine ⟨?_, ?_, ?_, ?_⟩
  · intro hrole hpartner hlong
    simp only [exec_bridgeBeatTimer, execBridgeBeatTimer, if_pos (And.intro hrole (And.intro hpartner hlong))]
  · intro m hkind hvc haddr hrole
    have hmeets : ¬(m.kind ≠ 0 ∨ m.vc ≠ 0 ∨ m.addr ≠ 0x1A9C0 ∨ s.fabric.role ≠ 2) := by simp [hkind, hvc, haddr, hrole]
    have hepoch : (s.modFabric (fun f => { f with beatAt := s.time })).fabric.epoch = s.fabric.epoch := rfl
    simp only [exec_bridgeBeat, execBridgeBeat, if_neg hmeets, hepoch]
    exact ⟨fun hlater => by rw [if_neg (Nat.not_lt_of_le hlater)], fun hlower => by rw [if_pos hlower]⟩
  · intro hrole hlong
    simp only [exec_bridgeTakeover, execBridgeTakeover, if_pos (And.intro hrole hlong)]
  · intro m hkind hvc haddr ahead fa u v hne hlater
    have hmeets : ¬(m.kind ≠ 0 ∨ m.vc ≠ 1 ∨ m.addr ≠ 0x1A9C0 ∨
        (leAt m.payload 0 2 + 65536 - s.fabric.epoch % 65536) % 65536 = 0 ∨
        0x8000 ≤ (leAt m.payload 0 2 + 65536 - s.fabric.epoch % 65536) % 65536) := by
      simpa [hkind, hvc, haddr] using And.intro hne hlater
    simp only [exec_bridgeAnnounce, execBridgeAnnounce, if_neg hmeets]
    rfl

/-- Settles O32: the message or timer meets the port or the role asked for; an owner's write passes or fails its range check. -/
theorem neighboursAndBridges : Obligations.NeighboursAndBridges :=
  ⟨neighbours, addressAndBridgeWrites, bridgePair⟩

/-! ## Multicast and barriers -/

theorem multicast (s : State) (m : Msg) :
    (0xFE00 ≤ m.dest → m.dest ≤ 0xFEFF →
      let g := m.dest - 0xFE00
      let e := s.mcEntry g
      (∀ inp : Option Nat, inp.getD 0 < 96 →
        let taken (t : State) : State := match inp with | some p => t.takeRx p m | none => t
        (bitAt e 255 = true → m.kind = 0 → m.vc = mcVc e → m.vc ≠ 0 → m.src = mcRoot e → mcIn e = inp.getD 0x7F → 8 ≤ m.payload.length →
          m.payload.length ≤ 1048576 → s.mcUsed + m.payload.length ≤ 67108864 →
          exec (.multicastReceive inp m) s =
            (let seq := leAt m.payload 0 4
             let rec_ : McMsg := { group := g, seq := seq, msg := m, branches := mcOut e, unsent := mcOut e }
             let u := (taken s).modFabric (fun f => { f with mcBuf := f.mcBuf ++ [rec_] })
             let v : State := if bitAt e 254 = true then { u with delivered := u.delivered ++ [{ m with payload := m.payload.drop 8 }] } else u
             let w := (mcOut e).foldl (fun a p => a.queueTx p { msg := m, since := a.time, mc := some (g, seq) }) v
             .next (w.mcFlush g (w.fabric.mcBuf.length + 1)))) ∧
        (bitAt e 255 = false ∨ m.kind ≠ 0 ∨ m.vc ≠ mcVc e ∨ m.vc = 0 ∨ m.src ≠ mcRoot e ∨ mcIn e ≠ inp.getD 0x7F ∨ m.payload.length < 8 ∨
          1048576 < m.payload.length →
          exec (.multicastReceive inp m) s = .next ((taken s).countPort (inp.getD 0) cMcReject 1)))) ∧
    (∀ p : Nat, p < 96 → m.kind = 0 → m.vc = 1 → m.dest = 0xFFFE → m.addr = 0x1A940 →
      exec (.mcAck p m) s = .next ((s.takeRx p m).mcBranchDone p (leAt m.payload 0 1) (leAt m.payload 4 4) (leAt m.payload 2 2)
        (if leAt m.payload 1 1 = 0 then 0 else max 1 (leAt m.payload 8 2)))) := by
  refine ⟨?_, ?_⟩
  · intro hlow hhigh g e inp hinp taken
    have hgroup : ¬(m.dest < 0xFE00 ∨ 0xFEFF < m.dest) := by omega
    have hreceive : exec (.multicastReceive inp m) s = execMulticastReceive inp m s := exec_multicastReceive ..
    unfold execMulticastReceive at hreceive
    rw [if_neg (Nat.not_le_of_lt hinp), if_neg hgroup] at hreceive
    refine ⟨fun hvalid hkind hvc hnotC hroot hin h8 hlong hfits => ?_, fun hbad => ?_⟩
    · refine hreceive.trans ((if_neg ?_).trans (if_neg (Nat.not_lt_of_le hfits)))
      simp only [e, g] at hvalid hvc hroot hin
      simp [hkind, hnotC, hvalid, ← hvc, ← hroot, hin, h8, hlong]
    · refine hreceive.trans (if_pos ?_)
      simp only [Bool.not_eq_true', Bool.and_eq_false_iff, beq_eq_false_iff_ne, bne_eq_false_iff_eq, decide_eq_false_iff_not, ne_eq, Nat.not_le]
      have hin : mcIn e ≠ inp.getD 0x7F → ¬inp.getD 0x7F = mcIn e := fun h h' => h h'.symm
      simp only [e, g] at hbad hin
      tauto
  · intro p hp hkind hvc hdest haddr
    have hmeets : ¬(m.kind ≠ 0 ∨ m.vc ≠ 1 ∨ m.dest ≠ 0xFFFE ∨ m.addr ≠ 0x1A940) := by simp [hkind, hvc, hdest, haddr]
    simp only [exec_mcAck, execMcAck, if_neg (Nat.not_le_of_lt hp), if_neg hmeets]

theorem barriers (s : State) (p : Nat) (m : Msg) (hp : p < 96) :
    let t := m.dest - 0xFF00
    let u := s.takeRx p m
    let b := u.bar t
    let gen := leAt m.payload 4 4
    (isBarrier m 1 = true →
      (b.valid = true → p ∈ b.children → gen = b.gen →
        exec (.arrive p m) s = .next (if b.up = true then u else
          (u.setBar t (b.arrive u.time (some p) (leAt m.payload 1 1 == 1) (leAt m.payload 2 2))).barCheck t 2)) ∧
      (b.valid = true → p ∈ b.children → gen = (b.gen + 1) % 2 ^ 32 → gen ≠ b.gen →
        exec (.arrive p m) s = .next (u.setBar t { b with early := b.early ++ [(p, leAt m.payload 1 1, leAt m.payload 2 2)] })) ∧
      (b.valid = false ∨ p ∉ b.children ∨ (gen ≠ b.gen ∧ gen ≠ (b.gen + 1) % 2 ^ 32) →
        exec (.arrive p m) s = .next (u.countPort p cMcReject 1))) ∧
    (isBarrier m 2 = true →
      (b.valid = true → b.parent = p → gen = b.gen →
        exec (.releaseBarrier p m) s = .next ((u.barRelease t (leAt m.payload 1 1 == 1) (leAt m.payload 2 2)).barCheck t 2)) ∧
      (b.valid = false ∨ b.parent ≠ p ∨ gen ≠ b.gen → exec (.releaseBarrier p m) s = .next (u.countPort p cMcReject 1))) ∧
    (∀ src val q : Nat, s.accessor src = some q → (q = 0 ∨ q = bits (s.bar (bits val 5 0)).entry 246 241) → bitAt val 63 = true →
      (s.bar (bits val 5 0)).valid = true → (s.bar (bits val 5 0)).isLocal = true → (s.bar (bits val 5 0)).here = false →
      exec (.barArrive src val) s = .next (((s.traced 0x1A828 true val).setBar (bits val 5 0)
        ((s.bar (bits val 5 0)).arrive s.time none false 0)).barCheck (bits val 5 0) 2)) ∧
    (∀ n f : Nat, n < 64 → (s.bar n).first = some f → (s.bar n).valid = true → bits (s.bar n).entry 240 225 ≠ 0 →
      (s.bar n).up = false → f + ms (bits (s.bar n).entry 240 225) ≤ s.time →
      exec (.barrierTimeout n) s = .next (s.barFail n 2)) := by
  intro t u b gen
  have hlt := Nat.not_le_of_lt hp
  refine ⟨fun htype => ?_, fun htype => ?_, ?_, ?_⟩
  · have harrive : exec (.arrive p m) s =
        if b.valid ∧ b.children.contains p ∧ gen = b.gen then
          .next (if b.up then u else (u.setBar t (b.arrive u.time (some p) (leAt m.payload 1 1 == 1) (leAt m.payload 2 2))).barCheck t 2)
        else if b.valid ∧ b.children.contains p ∧ gen = (b.gen + 1) % 2 ^ 32 then
          .next (u.setBar t { b with early := b.early ++ [(p, leAt m.payload 1 1, leAt m.payload 2 2)] })
        else .next (u.countPort p cMcReject 1) :=
      (exec_arrive ..).trans ((if_neg hlt).trans (if_neg (by simp [htype])))
    simp only [List.contains_iff_mem] at harrive
    rw [harrive]
    refine ⟨fun hvalid hchild hgen => if_pos ⟨hvalid, hchild, hgen⟩, fun hvalid hchild hnext hother => ?_, fun hbad => ?_⟩
    · rw [if_neg (fun h => hother h.2.2), if_pos ⟨hvalid, hchild, hnext⟩]
    · have hvalid : b.valid = false → ¬b.valid = true := fun h => by simp [h]
      rw [if_neg (by tauto), if_neg (by tauto)]
  · have hrelease : exec (.releaseBarrier p m) s =
        if b.valid ∧ b.parent = p ∧ gen = b.gen then
          .next ((u.barRelease t (leAt m.payload 1 1 == 1) (leAt m.payload 2 2)).barCheck t 2)
        else .next (u.countPort p cMcReject 1) :=
      (exec_releaseBarrier ..).trans ((if_neg hlt).trans (if_neg (by simp [htype])))
    rw [hrelease]
    refine ⟨fun hvalid hparent hgen => if_pos ⟨hvalid, hparent, hgen⟩, fun hbad => if_neg ?_⟩
    have hvalid : b.valid = false → ¬b.valid = true := fun h => by simp [h]
    tauto
  · intro src val q haccess hreq hmade hvalid hlocal hhere
    have haccess' : (s.traced 0x1A828 true val).accessor src = some q := haccess
    have hpermitted : ¬(q ≠ 0 ∧ q ≠ bits (s.bar (bits val 5 0)).entry 246 241) := by omega
    simp only [exec_barArrive, execBarArrive, haccess', if_neg hpermitted]
    exact if_pos ⟨hmade, hvalid, hlocal, by simp [hhere]⟩
  · intro n f hn hfirst hvalid hlimit hup hlong
    simp only [exec_barrierTimeout, execBarrierTimeout, if_neg (Nat.not_le_of_lt hn), hfirst]
    exact if_pos ⟨hvalid, hlimit, by simp [hup], hlong⟩

/-- Settles O33: the message passes or fails its entry's form; the barrier's conditions decide each of its commands. -/
theorem multicastAndBarriers : Obligations.MulticastAndBarriers :=
  ⟨multicast, barriers⟩

end Sys2Proof.Machine

namespace Sys2Proof.Machine

/-! ## Messages for a region's items, and routing -/

/-- A message for an item of a region that runs, under a tag of a step, meets its cell (R113, R274). -/
theorem exec_regionArrival_of {s : State} {m : Msg} (red : Option (Nat × Nat)) {c n : Nat} (hform : bits m.addr 47 46 = 3) (hkind : m.kind = 0)
    (hstate : (s.region (bits m.addr 45 40)).state = 2 ∨ (s.region (bits m.addr 45 40)).state = 3)
    (hrange : bits m.addr 39 22 < 256 * (s.region (bits m.addr 45 40)).panes.length)
    (hcell : (s.region (bits m.addr 45 40)).localCell (bits m.addr 39 22) = some c)
    (hstep : stepOfTag (s.region (bits m.addr 45 40)).stepNo (bits m.addr 16 0) = some n) :
    let r := bits m.addr 45 40
    let d : Delivery := { cell := c, item := bits m.addr 21 17, tag := n, data := m.payload, src := m.src }
    exec (.regionArrival ⟨m, red⟩) s =
      if m.vc ≠ 2 ∨ s.isVerdict d ∨ (s.cell c).items.length ≤ d.item then .next (s.offer r d)
      else
        match readPreamble m.payload with
        | none => .next (s.sendError m 6)
        | some f =>
          match red with
          | some (k, total) =>
            if partialSums f then .next (s.reduce r d k total (decodeValues f.fmt f.scale (valuesOf f m.payload)))
            else .next (s.offer r { d with data := m.payload.take 8 ++ valuesOf f m.payload })
          | none => .next (s.offer r { d with data := m.payload.take 8 ++ valuesOf f m.payload }) := by
  have hitem : ¬(bits m.addr 47 46 ≠ 3 ∨ m.kind ≠ 0) := by simp [hform, hkind]
  have hgoing : ¬((s.region (bits m.addr 45 40)).state = 4 ∧ (s.region (bits m.addr 45 40)).contract = true) := by omega
  have hopen : ¬((s.region (bits m.addr 45 40)).state ≠ 2 ∧ (s.region (bits m.addr 45 40)).state ≠ 3) := by omega
  simp only [exec_regionArrival, execRegionArrival, if_neg hitem, if_neg hgoing, if_neg hopen, if_pos hrange, hcell, hstep] <;> rfl

theorem regionArrivals_of {s : State} {m : Msg} (hform : bits m.addr 47 46 = 3) (hkind : m.kind = 0) :
    let r := bits m.addr 45 40
    let i := bits m.addr 39 22
    (∀ (red : Option (Nat × Nat)) (c n : Nat), (s.region r).state = 2 ∨ (s.region r).state = 3 → i < 256 * (s.region r).panes.length →
      (s.region r).localCell i = some c → stepOfTag (s.region r).stepNo (bits m.addr 16 0) = some n →
      let d : Delivery := { cell := c, item := bits m.addr 21 17, tag := n, data := m.payload, src := m.src }
      (m.vc ≠ 2 ∨ s.isVerdict d = true → exec (.regionArrival ⟨m, red⟩) s = .next (s.offer r d)) ∧
      (m.vc = 2 → s.isVerdict d = false → d.item < (s.cell c).items.length →
        (readPreamble m.payload = none → exec (.regionArrival ⟨m, red⟩) s = .next (s.sendError m 6)) ∧
        (∀ f, readPreamble m.payload = some f →
          (red = none ∨ partialSums f = false →
            exec (.regionArrival ⟨m, red⟩) s = .next (s.offer r { d with data := m.payload.take 8 ++ valuesOf f m.payload })) ∧
          (∀ k total : Nat, red = some (k, total) → partialSums f = true →
            exec (.regionArrival ⟨m, red⟩) s =
              .next (s.reduce r d k total (decodeValues f.fmt f.scale (valuesOf f m.payload))))))) ∧
    (∀ red : Option (Nat × Nat), (s.region r).state = 0 ∨ (s.region r).state = 1 →
      exec (.regionArrival ⟨m, red⟩) s = .next (s.sendError m 1)) ∧
    (∀ (red : Option (Nat × Nat)) (c : Nat), (s.region r).state = 4 → (s.region r).contract = true → i < 256 * (s.region r).panes.length →
      (s.region r).localCell i = some c →
      exec (.regionArrival ⟨m, red⟩) s = .next (s.modCell c (fun x => x.countEv { cls := 6, ev := 3, master := 6 } 1))) := by
  intro r i
  refine ⟨?_, ?_, ?_⟩
  · intro red c n hstate hrange hcell hstep d
    have harrival := exec_regionArrival_of red hform hkind hstate hrange hcell hstep
    refine ⟨fun hplain => ?_, fun hvc hverdict hitem => ?_⟩
    · exact harrival.trans (if_pos (hplain.imp_right Or.inl))
    · have hvalues : ¬(m.vc ≠ 2 ∨ s.isVerdict d = true ∨ (s.cell c).items.length ≤ d.item) := by
        simp [hvc, hverdict, hitem]
      have hmeets := harrival.trans (if_neg hvalues)
      refine ⟨fun hnone => ?_, fun f hsome => ⟨fun hplain => ?_, fun k total hred hsums => ?_⟩⟩
      · rw [hmeets, hnone]
      · rw [hmeets, hsome]
        rcases hplain with hplain | hplain
        · rw [hplain]
        · cases red with
          | none => rfl
          | some q => exact if_neg (by simp [hplain])
      · rw [hmeets, hsome, hred]
        exact if_pos hsums
  · intro red hstate
    have hitem : ¬(bits m.addr 47 46 ≠ 3 ∨ m.kind ≠ 0) := by simp [hform, hkind]
    have hstate' : (s.region (bits m.addr 45 40)).state = 0 ∨ (s.region (bits m.addr 45 40)).state = 1 := hstate
    have hgoing : ¬((s.region (bits m.addr 45 40)).state = 4 ∧ (s.region (bits m.addr 45 40)).contract = true) := by omega
    have hopen : (s.region (bits m.addr 45 40)).state ≠ 2 ∧ (s.region (bits m.addr 45 40)).state ≠ 3 := by omega
    simp only [exec_regionArrival, execRegionArrival, if_neg hitem, if_neg hgoing, if_pos hopen]
  · intro red c hstate hcontract hrange hcell
    have hitem : ¬(bits m.addr 47 46 ≠ 3 ∨ m.kind ≠ 0) := by simp [hform, hkind]
    have hstopped : (s.region (bits m.addr 45 40)).state = 4 ∧ (s.region (bits m.addr 45 40)).contract = true := ⟨hstate, hcontract⟩
    have hrange' : bits m.addr 39 22 < 256 * (s.region (bits m.addr 45 40)).panes.length := hrange
    have hcell' : (s.region (bits m.addr 45 40)).localCell (bits m.addr 39 22) = some c := hcell
    simp only [exec_regionArrival, execRegionArrival, if_neg hitem, if_pos hstopped, if_pos hrange', hcell']

theorem regionArrivals (s : State) (m : Msg) :
    (bits m.addr 47 46 = 3 → m.kind = 0 →
      let r := bits m.addr 45 40
      let i := bits m.addr 39 22
      (∀ (red : Option (Nat × Nat)) (c n : Nat), (s.region r).state = 2 ∨ (s.region r).state = 3 → i < 256 * (s.region r).panes.length →
        (s.region r).localCell i = some c → stepOfTag (s.region r).stepNo (bits m.addr 16 0) = some n →
        let d : Delivery := { cell := c, item := bits m.addr 21 17, tag := n, data := m.payload, src := m.src }
        (m.vc ≠ 2 ∨ s.isVerdict d = true → exec (.regionArrival ⟨m, red⟩) s = .next (s.offer r d)) ∧
        (m.vc = 2 → s.isVerdict d = false → d.item < (s.cell c).items.length →
          (readPreamble m.payload = none → exec (.regionArrival ⟨m, red⟩) s = .next (s.sendError m 6)) ∧
          (∀ f, readPreamble m.payload = some f →
            (red = none ∨ partialSums f = false →
              exec (.regionArrival ⟨m, red⟩) s = .next (s.offer r { d with data := m.payload.take 8 ++ valuesOf f m.payload })) ∧
            (∀ k total : Nat, red = some (k, total) → partialSums f = true →
              exec (.regionArrival ⟨m, red⟩) s =
                .next (s.reduce r d k total (decodeValues f.fmt f.scale (valuesOf f m.payload))))))) ∧
      (∀ red : Option (Nat × Nat), (s.region r).state = 0 ∨ (s.region r).state = 1 →
        exec (.regionArrival ⟨m, red⟩) s = .next (s.sendError m 1)) ∧
      (∀ (red : Option (Nat × Nat)) (c : Nat), (s.region r).state = 4 → (s.region r).contract = true → i < 256 * (s.region r).panes.length →
        (s.region r).localCell i = some c →
        exec (.regionArrival ⟨m, red⟩) s = .next (s.modCell c (fun x => x.countEv { cls := 6, ev := 3, master := 6 } 1)))) ∧
    (m.kind = 3 → m.dest = s.fabricAddr → exec (.errorCompletion m none) s = .next { s with delivered := s.delivered ++ [m] }) := by
  refine ⟨?_, fun hkind hdest => ?_⟩
  · intro hform hkind r i
    exact regionArrivals_of hform hkind
  · have hmine : ¬(m.kind ≠ 3 ∨ m.dest ≠ s.fabricAddr) := by simp [hkind, hdest]
    simp only [exec_errorCompletion, execErrorCompletion, if_neg hmine]

theorem routing (s : State) :
    (∀ (p vc i : Nat) (y : RxMsg), p < 96 → vc < 4 →
      (s.port p).rx.msgs.findIdx? (fun z => z.out.isNone && z.msg.vc == vc) = some i → (s.port p).rx.msgs[i]? = some y →
      exec (.messageRoute (some p) vc) s = .next (s.routeRx p i y)) ∧
    (∀ (vc i : Nat) (o : OutMsg), vc < 4 → s.outbox.findIdx? (fun z => z.msg.vc == vc) = some i → s.outbox[i]? = some o →
      s.localWaits o.msg = false →
      exec (.messageRoute none vc) s = .next ({ s with outbox := s.outbox.eraseIdx i }.routeLocal o)) ∧
    (∀ (p : Nat) (m : Msg), p < 96 → m.dest = 0xFFFD → exec (.directedMessage p m) s = .next ((s.takeRx p m).directed p m)) ∧
    (∀ n : Nat, n < 12 → mhas s.quick n = false ∨ (mget (0, []) s.quick n).1 + ns 100 ≤ s.time →
      exec (.quickWordRefresh n) s = .next { s with quick := mset s.quick n (s.time, s.quickWords) }) := by
  refine ⟨?_, ?_, ?_, ?_⟩
  · intro p vc i y hp hvc hfirst hmsg
    have hbound : ¬(96 ≤ (some p).getD 0 ∨ 4 ≤ vc) := by simp only [Option.getD_some]; omega
    simp only [exec_messageRoute, execMessageRoute, if_neg hbound, hfirst, hmsg]
  · intro vc i o hvc hfirst hmsg hwaits
    have hbound : ¬(96 ≤ (none : Option Nat).getD 0 ∨ 4 ≤ vc) := by simp only [Option.getD_none]; omega
    simp only [exec_messageRoute, execMessageRoute, if_neg hbound, hfirst, hmsg, hwaits]
    exact if_neg Bool.false_ne_true
  · intro p m hp hdest
    simp only [exec_directedMessage, execDirectedMessage, if_neg (Nat.not_le_of_lt hp), if_neg (not_not_intro hdest)]
  · intro n hn hdue
    have hold : ¬(mhas s.quick n = true ∧ s.time < (mget (0, []) s.quick n).1 + ns 100) := by
      rintro ⟨hhas, hearly⟩
      rcases hdue with h | h
      · simp [h] at hhas
      · omega
    simp only [exec_quickWordRefresh, execQuickWordRefresh, if_neg (Nat.not_le_of_lt hn), if_neg hold]

/-- Settles O34: the arrival meets its region's state and its cell; the route and the refresh have their own conditions. -/
theorem messagesArriveAndAreRouted : Obligations.MessagesArriveAndAreRouted :=
  ⟨regionArrivals, routing⟩

/-! ## Fault messages -/

/-- Settles O36: an OPEN record goes out as the bridge's role says; the others meet their message, timer or rate. -/
theorem faultMessages : Obligations.FaultMessages := by
  intro s
  refine ⟨?_, ?_, ?_, ?_, ?_⟩
  · intro hbridge hopen hwindow hhalted es u
    have hdue : ¬(s.fabric.bridgeFa = 0xFFFF ∨ s.openEntries 3 = [] ∨ s.fabric.window = some (s.time / ms 1) ∨ s.iface.halted = true) := by
      simp [hbridge, hopen, hwindow, hhalted]
    refine ⟨?_, ?_⟩
    · intro hactive
      simp only [exec_faultForward, execFaultForward, if_neg hdue, if_pos hactive]
      rfl
    · intro hother n data
      have htime : (es.foldl (fun a q => a.setFt q.1 { q.2 with state := 2, acked := false }) u).time = s.time :=
        foldl_keeps (P := fun a : State => a.time = s.time)
          (f := fun a (q : Nat × FtEntry) => a.setFt q.1 { q.2 with state := 2, acked := false }) (fun _ _ ha => ha) es rfl
      simp only [es, u] at htime
      simp only [exec_faultForward, execFaultForward, if_neg hdue, if_neg hother, htime]
      rfl
  · intro k u hmsg hlong
    simp only [exec_faultMessageRetry, execFaultMessageRetry, hmsg, if_pos hlong]
  · intro m u hkind haddr hmsg
    have hmeets : ¬(m.kind ≠ 0 ∨ m.addr ≠ 0x1A980) := by simp [hkind, haddr]
    simp only [exec_faultAck, execFaultAck, if_neg hmeets, hmsg]
  · intro m hkind hvc haddr hrole src seq u later
    have hmeets : ¬(m.kind ≠ 0 ∨ m.vc ≠ 1 ∨ m.addr ≠ 0x1AA00 ∨ s.fabric.role ≠ 1) := by simp [hkind, hvc, haddr, hrole]
    have hold : (match u.fabric.sources.find? (fun q => q.1 == src) with
        | some q => decide (seq ≤ q.2) | none => false) = !later := by
      change (match s.fabric.sources.find? (fun q => q.1 == src) with
        | some q => decide (seq ≤ q.2) | none => false) = !later
      simp only [later]
      cases s.fabric.sources.find? (fun q => q.1 == src) with
      | none => rfl
      | some q =>
        show decide (seq ≤ q.2) = !decide (q.2 < seq)
        rw [← decide_not]
        exact decide_eq_decide.2 Nat.not_lt.symm
    have hmsg : exec (.faultMessage m) s = if (!later) = true then .next u
        else .next ((records 64 ((m.payload.drop 8).take (64 * min 3 (leAt m.payload 2 1)))).foldl
          (fun a v => a.sinkPush src v) (u.modFabric (fun f => { f with sources := mset f.sources src seq }))) := by
      rw [← hold, exec_faultMessage]
      unfold execFaultMessage
      exact if_neg hmeets
    rw [hmsg]
    exact ⟨fun h => if_neg (by simp [h]), fun h => if_pos (by simp [h])⟩
  · intro q rest hqueue hrole hsink n hrate
    have hmay : ¬(s.fabric.role ≠ 1 ∨ s.fabric.sinkFa = 0xFFFF ∨
        16000 ≤ (if s.fabric.sinkSec = s.time / secs 1 then s.fabric.sinkCount else 0)) := by
      have hrate' : (if s.fabric.sinkSec = s.time / secs 1 then s.fabric.sinkCount else 0) < 16000 := hrate
      rintro (h | h | h)
      · exact h hrole
      · exact hsink h
      · omega
    simp only [exec_faultSinkWrite, execFaultSinkWrite, hqueue, if_neg hmay]
    rfl

end Sys2Proof.Machine

namespace Sys2Proof.Machine

/-! ## The power input and the converters -/

theorem satTo_eq_min (limit v : Nat) : satTo limit v = min limit v := by
  unfold satTo
  split <;> omega

/-- What an applied environment leaves: the pause level of the coolant or of low input in every region it names (R352). -/
theorem kEnv_foldl (v : Nat) (l : List Nat) (s : State) (r : Nat) :
    ((l.foldl (fun a q => if (a.region q).kEnv = v then a else a.modRegion q (fun x => { x with kEnv := v })) s).region r).kEnv =
      if r ∈ l then v else (s.region r).kEnv := by
  induction l generalizing s with
  | nil => simp
  | cons q l ih =>
    rw [List.foldl_cons, ih]
    by_cases hmem : r ∈ l
    · simp [hmem]
    · by_cases hq : r = q
      · subst hq
        by_cases hv : (s.region r).kEnv = v <;> simp [hmem, hv]
      · by_cases hv : (s.region q).kEnv = v <;> simp [hmem, hq, hv, State.region_modRegion]

theorem State.kEnv_applyEnv (s : State) {r : Nat} (hr : r < 64) :
    (s.applyEnv.region r).kEnv = if s.power.inputLow then 31 else s.thermal.kCool := by
  unfold State.applyEnv
  rw [kEnv_foldl, if_pos (List.mem_range.2 hr)]

theorem State.applyEnv_fields (s : State) : s.applyEnv.power = s.power ∧ s.applyEnv.thermal = s.thermal := by
  unfold State.applyEnv
  refine foldl_keeps (P := fun a : State => a.power = s.power ∧ a.thermal = s.thermal)
    (f := fun a r => if (a.region r).kEnv = (if s.power.inputLow then 31 else s.thermal.kCool) then a
      else a.modRegion r (fun x => { x with kEnv := if s.power.inputLow then 31 else s.thermal.kCool })) (fun a r ha => ?_) _ ⟨rfl, rfl⟩
  by_cases hv : (a.region r).kEnv = (if s.power.inputLow then 31 else s.thermal.kCool)
  · rw [if_pos hv]
    exact ha
  · rw [if_neg hv]
    exact ha

theorem State.regions_of_still {s t : State} (h : t.still = s.still) : t.regions = s.regions := congrArg (fun x => x.2.2.1) h
theorem State.power_of_still {s t : State} (h : t.still = s.still) : t.power = s.power := congrArg (fun x => x.2.2.2.2.2.1) h

theorem State.region_of_still {s t : State} (h : t.still = s.still) (r : Nat) : t.region r = s.region r := by
  simp [State.region, State.regions_of_still h]

@[simp] theorem State.region_shelfStatus (s : State) (r : Nat) : s.shelfStatus.region r = s.region r := State.region_of_still (by simp) r
@[simp] theorem State.power_shelfStatus (s : State) : s.shelfStatus.power = s.power := State.power_of_still (by simp)

@[simp] theorem State.thermal_shelfStatus (s : State) : s.shelfStatus.thermal = s.thermal := by
  unfold State.shelfStatus
  dsimp only
  split <;> rfl

/-- The state in which low input has been recorded and reported, before the regions' pause level follows (R352). -/
theorem State.inputLow_recorded (s : State) (vin code detHi b : Nat) (typ : Nat) (e : EventSub) (t0 : Option Nat) :
    let u := (((((s.setVin vin).event typ e).modPower (fun p => { p with inputLow := true, lowSince := t0 })).powerModule code detHi).cause b)
    u.power = { s.power with vin := vin, inputLow := true, lowSince := t0 } := by
  intro u
  simp [u, State.modPower, State.setVin]

theorem inputAndConverters (s : State) (hon : s.boot.off = false) :
    (∀ vin, vin < 460 → s.power.inputLow = false →
      ∃ t, exec (.inputLow vin) s = .next t ∧ t.power.inputLow = true ∧ t.power.vin = vin ∧ t.capNow = some 2000 ∧
        ∀ r < 64, (t.region r).kEnv = 31) ∧
    (∀ vin, 470 ≤ vin → s.power.inputLow = true →
      ∃ t, exec (.inputLowRelease vin) s = .next t ∧ t.power.inputLow = false ∧ t.capNow = s.thermal.cap ∧
        ∀ r < 64, (t.region r).kEnv = s.thermal.kCool) ∧
    (∀ vin, (vin < 420 ∨ (vin < 460 ∧ ∃ t0, s.power.lowSince = some t0 ∧ t0 + secs 5 ≤ s.time)) →
      exec (.inputLowShutdown vin) s = .next ((s.setVin vin).shutdown (if s.power.inputLow = true then [0x08] else [0x07, 0x08]) {})) ∧
    (∀ vin, 600 < vin →
      exec (.inputHigh vin) s = .next ((((s.setVin vin).powerModule 9 (vin % 2 ^ 12)).cause 57).shutdownHigh)) ∧
    (∀ k c : Nat, k < 9 → c < segConverters k → (s.seg k).lost.contains c = false →
      let t := s.setSeg k { s.seg k with lost := (s.seg k).lost ++ [c] }
      exec (.converterFail k c) s = .next (if (s.seg k).lost = [] then t else (t.powerModule 7 (k + 16 * c)).shelfStatus) ∧
        t.segRating k = s.segRating k - (if (s.seg k).lost = [] then 0 else 166)) := by
  refine ⟨?_, ?_, ?_, ?_, ?_⟩
  · intro vin hvin hlow
    have hfalls : ¬(460 ≤ vin ∨ s.power.inputLow = true ∨ s.boot.off = true) := by simp [hlow, hon, hvin]
    simp only [exec_inputLow, execInputLow, if_neg hfalls]
    refine ⟨_, rfl, ?_⟩
    have hpower := State.inputLow_recorded s vin 8 (vin % 2 ^ 12) 57 0x07 {} (some (((s.setVin vin).event 0x07 {}).time - ms 1))
    refine ⟨?_, ?_, ?_, fun r hr => ?_⟩
    · rw [State.power_shelfStatus, (State.applyEnv_fields _).1, hpower]
    · rw [State.power_shelfStatus, (State.applyEnv_fields _).1, hpower]
    · unfold State.capNow
      rw [State.power_shelfStatus, (State.applyEnv_fields _).1, hpower]
      rfl
    · rw [State.region_shelfStatus, State.kEnv_applyEnv _ hr, hpower]
      rfl
  · intro vin hvin hlow
    have hback : ¬(vin < 470 ∨ (!s.power.inputLow) = true ∨ s.boot.off = true) := by simp [hlow, hon, hvin]
    simp only [exec_inputLowRelease, execInputLowRelease, if_neg hback]
    refine ⟨_, rfl, ?_⟩
    refine ⟨?_, ?_, fun r hr => ?_⟩
    · rw [State.power_shelfStatus, (State.applyEnv_fields _).1]
      rfl
    · unfold State.capNow
      rw [State.power_shelfStatus, State.thermal_shelfStatus, (State.applyEnv_fields _).1, (State.applyEnv_fields _).2]
      rfl
    · rw [State.region_shelfStatus, State.kEnv_applyEnv _ hr]
      rfl
  · intro vin hdeep
    simp only [exec_inputLowShutdown, execInputLowShutdown]
    refine if_neg ?_
    rcases hdeep with hvin | ⟨hvin, t0, hsince, hlong⟩
    · rw [hon]; simp; omega
    · rw [hon, hsince]; simp [hlong]; omega
  · intro vin hvin
    have hhigh : ¬(vin ≤ 600 ∨ s.boot.off = true) := by simp [hon, hvin]
    simp only [exec_inputHigh, execInputHigh, if_neg hhigh]
  · intro k c hk hc hnew t
    have hfails : ¬(9 ≤ k ∨ segConverters k ≤ c) := by omega
    have hseg : t.seg k = { s.seg k with lost := (s.seg k).lost ++ [c] } := mget_mset_same ..
    refine ⟨?_, ?_⟩
    · have hseg' : ((s.setSeg k { s.seg k with lost := (s.seg k).lost ++ [c] }).seg k).lost = (s.seg k).lost ++ [c] := by
        change (t.seg k).lost = _; rw [hseg]
      simp only [exec_converterFail, execConverterFail, if_neg hfails, hnew, hseg']
      cases hlost : (s.seg k).lost with
      | nil => simp [t, hlost]
      | cons a l => simp [t, hlost]
    · simp only [State.segRating, hseg, List.length_append, List.length_singleton]
      cases hlost : (s.seg k).lost with
      | nil => simp
      | cons a l =>
        simp only [List.length_cons, reduceCtorEq, if_false]
        omega

/-! ## The regulation of a pane -/

theorem boostsAndDroops (s : State) (p : Nat) :
    (∀ vmin, p < 786 → s.regulated p = true → vmin + 25 ≤ s.setpointOf p → (∀ t0, (s.pane p).pwr.boostAt = some t0 → t0 + us 5 ≤ s.time) →
      exec (.boost p vmin) s = .next (s.modPane p (fun y => y.modPwr (fun w =>
        { w with vmin := vmin, boosts := min 2047 (w.boosts + 1), boostAt := some s.time })))) ∧
    (∀ vmin, p < 786 → (s.pane p).clk.stretched = false → s.regulated p = true → vmin + 50 ≤ s.setpointOf p →
      exec (.clockStretch p vmin) s = .next (s.modPane p (fun y => (y.modClk (fun c => { c with stretched := true })).modPwr (fun w =>
        { w with vmin := vmin, stretch := min 2047 (w.stretch + 1) })))) ∧
    (∀ vmin, p < 786 → (s.pane p).clk.stretched = true → s.setpointOf p < vmin + 25 →
      exec (.clockStretch p vmin) s = .next (s.modPane p (fun y => (y.modClk (fun c => { c with stretched := false })).modPwr (fun w =>
        { w with vmin := vmin })))) ∧
    (∀ vmax, p < 786 → s.regulated p = true → s.setpointOf p + 25 ≤ vmax →
      exec (.shunt p vmax) s = .next (s.modPane p (fun y => y.modPwr (fun w => { w with shunts := min (2 ^ 32 - 1) (w.shunts + 1) })))) ∧
    (∀ vmin, p < 786 → s.regulated p = true → vmin + 25 ≤ s.setpointOf p → (s.pane p).pwr.droopSent = false →
      exec (.droop p vmin) s = .next ((s.powerPane p 5 (vmin % 2 ^ 16)).modPane p (fun y => y.modPwr (fun w =>
        { w with vmin := vmin, droopSent := true })))) := by
  refine ⟨?_, ?_, ?_, ?_, ?_⟩
  · intro vmin hp hreg hlow hcharged
    simp only [exec_boost, execBoost, if_neg (Nat.not_le_of_lt hp), satTo_eq_min]
    refine if_pos (And.intro hreg (And.intro hlow ?_))
    cases hboost : (s.pane p).pwr.boostAt with
    | none => rfl
    | some t0 => exact decide_eq_true (hcharged t0 hboost)
  · intro vmin hp hclock hreg hlow
    simp only [exec_clockStretch, execClockStretch, if_neg (Nat.not_le_of_lt hp), hclock, if_pos (And.intro hreg hlow), satTo_eq_min]
    exact if_neg Bool.false_ne_true
  · intro vmin hp hclock hback
    simp only [exec_clockStretch, execClockStretch, if_neg (Nat.not_le_of_lt hp), if_pos hclock, if_pos hback]
  · intro vmax hp hreg hhigh
    simp only [exec_shunt, execShunt, if_neg (Nat.not_le_of_lt hp), if_pos (And.intro hreg hhigh), satTo_eq_min]
  · intro vmin hp hreg hlow hsent
    simp only [exec_droop, execDroop, if_neg (Nat.not_le_of_lt hp)]
    exact if_pos ⟨hreg, hlow, by simp [hsent]⟩

theorem loadStepRaises (s : State) (p : Nat) :
    (p < 738 → (s.pane p).cond = .running →
      let n := s.stepCycles p
      let new := (((s.marksOf p).filter (fun m => decide (m.1 ≤ n ∧ n < m.2))).map (fun m => (s.pane p).runCycles + (m.2 - n))).filter
        (fun e => !(s.pane p).pwr.raises.contains e)
      ((s.pane p).pwr.raiseOff = true →
        exec (.loadStepRaise p) s = .next (s.modPane p (fun y => y.modPwr (fun w => { w with raiseOff := false })))) ∧
      ((s.pane p).pwr.raiseOff = false → new ≠ [] →
        exec (.loadStepRaise p) s = .next (s.modPane p (fun y => y.modPwr (fun w => { w with raises := w.raises ++ new }))) ∧
        ((s.pane p).pwr.cap ≠ 2 → (s.pane p).pwr.base ≠ 0 →
          (s.modPane p (fun y => y.modPwr (fun w => { w with raises := w.raises ++ new }))).setpointOf p =
            min 860 ((s.pane p).pwr.rail s.time + 15)))) ∧
    (p < 738 →
      let left := (s.pane p).pwr.raises.filter (fun e => decide ((s.pane p).runCycles < e))
      let long := (s.pane p).cond ≠ .running ∧ (s.pane p).ranAt + us 20 < s.time
      exec (.loadStepRaiseEnd p) s = .next (s.modPane p (fun y => y.modPwr (fun w =>
        { w with raises := left, raiseOff := ((s.pane p).pwr.raiseOff || decide long) && !left.isEmpty })))) := by
  refine ⟨?_, ?_⟩
  · intro hp hrun n new
    refine ⟨fun hoff => ?_, fun hon hnew => ⟨?_, fun hcap hbase => ?_⟩⟩
    · simp only [exec_loadStepRaise, execLoadStepRaise, if_neg (Nat.not_le_of_lt hp), if_neg (not_not_intro hrun), if_pos hoff]
    · simp only [exec_loadStepRaise, execLoadStepRaise, if_neg (Nat.not_le_of_lt hp), if_neg (not_not_intro hrun), hon]
      rw [if_neg Bool.false_ne_true]
      exact if_neg hnew
    · simp only [State.setpointOf, State.pane_modPane_same, Pane.modPwr]
      rw [if_neg hcap, if_neg (Nat.not_le_of_lt hp), PanePower.setpoint, if_neg hbase, if_pos (by simp [hnew, hon])] <;> rfl
  · intro hp left long
    have hlong : decide long = ((s.pane p).cond != .running && decide ((s.pane p).ranAt + us 20 < s.time)) := by
      simp only [long, Bool.decide_and, bne, decide_not]
      congr 1
    simp only [exec_loadStepRaiseEnd, execLoadStepRaiseEnd, if_neg (Nat.not_le_of_lt hp), hlong]
    rfl

theorem phasesFail (s : State) (p ph why : Nat) (hp : p < 786) (hph : ph < (if p < 738 then 4 else 3))
    (hnew : (s.pane p).pwr.failed.contains ph = false) :
    let failed := (s.pane p).pwr.failed ++ [ph]
    let mask := failed.foldl (fun a i => a + 2 ^ i) 0
    let u := ((s.modPane p (fun y => y.modPwr (fun w => { w with failed := failed }))).modPower (fun w =>
      { w with phaseMap := if w.phaseMap.contains (4 * p + ph) then w.phaseMap else w.phaseMap ++ [4 * p + ph] })).powerPane p 1
        (ph + why % 16 * 2 ^ 8)
    let v := (u.powerPane p 2 mask).modPane p (fun y => y.modPwr (fun w => { w with cap := 1 }))
    let w := u.powerPane p 3 (mask + (s.pane p).region.getD 0 * 2 ^ 16)
    (p < 738 →
      (failed.length = 2 → exec (.phaseFail p ph why) s =
        .next (match (s.pane p).region with | some r => v.capRegion r | none => v)) ∧
      (failed.length = 3 → exec (.phaseFail p ph why) s = .next (w.darkCore p)) ∧
      (failed.length ≠ 2 → failed.length ≠ 3 → exec (.phaseFail p ph why) s = .next u)) ∧
    (738 ≤ p →
      (failed.length = 2 → exec (.phaseFail p ph why) s = .next (w.darkSill p)) ∧
      (failed.length ≠ 2 → exec (.phaseFail p ph why) s = .next u)) := by
  intro failed mask u v w
  have hbound : ¬(786 ≤ p ∨ (if p < 738 then 4 else 3) ≤ ph) := by omega
  have hfails : exec (.phaseFail p ph why) s =
      if p < 738 ∧ failed.length = 2 then (match (s.pane p).region with | some r => .next (v.capRegion r) | none => .next v)
      else if (p < 738 ∧ failed.length = 3) ∨ (738 ≤ p ∧ failed.length = 2) then .next (if p < 738 then w.darkCore p else w.darkSill p)
      else .next u := by
    rw [exec_phaseFail]
    unfold execPhaseFail
    rw [if_neg hbound]
    exact if_neg (by simp only [hnew, Bool.false_eq_true, not_false_eq_true])
  rw [hfails]
  refine ⟨fun hcore => ⟨fun h2 => ?_, fun h3 => ?_, fun h2 h3 => ?_⟩, fun hsill => ⟨fun h2 => ?_, fun h2 => ?_⟩⟩
  · rw [if_pos ⟨hcore, h2⟩]
    cases (s.pane p).region <;> rfl
  · rw [if_neg (by omega), if_pos (.inl ⟨hcore, h3⟩), if_pos hcore]
  · rw [if_neg (by omega), if_neg (by omega)]
  · rw [if_neg (by omega), if_pos (.inr ⟨hsill, h2⟩), if_neg (by omega)]
  · rw [if_neg (by omega), if_neg (by omega)]

/-- Settles O37: low input and its end by the pause level that they apply, a pane's regulation by the conditions of each command. -/
theorem powerInputAndPaneRegulation : Obligations.PowerInputAndPaneRegulation := by
  refine ⟨inputAndConverters, fun s p => ?_⟩
  obtain ⟨hboost, hstretch, hback, hshunt, hdroop⟩ := boostsAndDroops s p
  obtain ⟨hraise, hend⟩ := loadStepRaises s p
  exact ⟨hboost, hstretch, hback, hshunt, hdroop, hraise, hend, phasesFail s p⟩

end Sys2Proof.Machine

namespace Sys2Proof.Machine

/-! ## Admission of power and its enforcement -/

@[simp] theorem State.region_modRegPower_same (s : State) (r : Nat) (f : RegPower → RegPower) :
    (s.modRegPower r f).region r = { s.region r with power := f (s.region r).power } := by
  simp [State.modRegPower]

theorem State.modRegPower_congr {s : State} {r : Nat} {f g : RegPower → RegPower} (h : f (s.region r).power = g (s.region r).power) :
    s.modRegPower r f = s.modRegPower r g := by
  simp only [State.modRegPower, State.modRegion, h]

theorem mem_of_mget_ne {α : Type} {d : α} {m : SMap α} {k : Nat} (h : mget d m k ≠ d) : (k, mget d m k) ∈ m := by
  induction m with
  | nil => exact absurd rfl h
  | cons a m ih =>
    obtain ⟨i, v⟩ := a
    simp only [mget] at h ⊢
    split
    · next hik => simp [hik]
    · next hik =>
      rw [if_neg hik] at h
      exact List.mem_cons_of_mem _ (ih h)

/-- A region in RUNNING is listed as such. -/
theorem State.mem_runningRegions {s : State} {r : Nat} (h : (s.region r).state = 3) : r ∈ s.runningRegions := by
  have hne : mget {} s.regions r ≠ ({} : Region) := by
    intro heq
    rw [State.region, heq] at h
    exact absurd h (by decide)
  exact List.mem_map.2 ⟨_, List.mem_filter.2 ⟨mem_of_mget_ne hne, beq_iff_eq.2 h⟩, rfl⟩

/-- Each region of a list without repetition has its pause level raised once (R330). -/
theorem State.kPwr_raiseAll (n : Nat) {l : List Nat} (hl : l.Nodup) (s : State) (r : Nat) :
    ((l.foldl (fun a q => a.raisePwr q n) s).region r).kPwr = if r ∈ l then min 31 ((s.region r).kPwr + n) else (s.region r).kPwr := by
  induction l generalizing s with
  | nil => simp
  | cons q l ih =>
    obtain ⟨hq, hl⟩ := List.nodup_cons.1 hl
    rw [List.foldl_cons, ih hl]
    by_cases hr : r = q
    · subst hr
      simp [hq, State.raisePwr, satTo_eq_min]
    · simp [hr, State.raisePwr, State.region_modRegion]

theorem State.raiseAll_prof (n : Nat) (l : List Nat) (s : State) : (l.foldl (fun a q => a.raisePwr q n) s).prof = s.prof :=
  foldl_keeps (P := fun a : State => a.prof = s.prof) (f := fun a q => a.raisePwr q n) (fun _ _ ha => ha) l rfl

/-- What a fast sample's readings of the segments leave (R329). -/
theorem segmentSamples_keep (f : State → Nat → Segment) (l : List Nat) (s : State) :
    let t := l.foldl (fun a k => a.setSeg k (f a k)) s
    t.regions = s.regions ∧ t.prof = s.prof ∧ t.limitPK = s.limitPK := by
  intro t
  have hkeep : t.regions = s.regions ∧ t.prof = s.prof ∧ t.thermal = s.thermal ∧ t.power.limPeak = s.power.limPeak ∧
      t.power.limSustained = s.power.limSustained ∧ t.power.inputLow = s.power.inputLow :=
    foldl_keeps (P := fun a : State => a.regions = s.regions ∧ a.prof = s.prof ∧ a.thermal = s.thermal ∧
      a.power.limPeak = s.power.limPeak ∧ a.power.limSustained = s.power.limSustained ∧ a.power.inputLow = s.power.inputLow)
      (f := fun a k => a.setSeg k (f a k)) (fun _ _ ha => ha) l ⟨rfl, rfl, rfl, rfl, rfl, rfl⟩
  obtain ⟨hregions, hprof, hthermal, hpeak, hsustained, hlow⟩ := hkeep
  exact ⟨hregions, hprof, by simp only [State.limitPK, State.limitSU, State.capNow, hprof, hthermal, hpeak, hsustained, hlow]⟩

theorem State.time_ite (c : Prop) [Decidable c] (s t : State) : (if c then s else t).time = if c then s.time else t.time :=
  apply_ite State.time c s t

theorem foldl_time {β : Type} (f : State → β → State) (h : ∀ a x, (f a x).time = a.time) (l : List β) (s : State) :
    (l.foldl f s).time = s.time := foldl_proj State.time h l s

@[simp] theorem State.modRegPower_time (s : State) (r : Nat) (f : RegPower → RegPower) : (s.modRegPower r f).time = s.time := rfl

@[simp] theorem State.modRegProf_time (s : State) (r : Nat) (f : RegProfile → RegProfile) : (s.modRegProf r f).time = s.time := rfl

@[simp] theorem State.beginSwitch_time (s : State) (r target : Nat) : (s.beginSwitch r target).time = s.time := by
  simp [State.beginSwitch, foldl_time]

@[simp] theorem State.admitPower_time (s : State) (r : Nat) : (s.admitPower r).time = s.time := by
  simp [State.admitPower, State.time_ite, foldl_time]

@[simp] theorem State.testPower_time (s : State) (r : Nat) : (s.testPower r).time = s.time := by
  simp [State.testPower, State.time_ite]

theorem admissionTests (s : State) (r : Nat) (hr : r < 64) (hon : s.boot.off = false) :
    (∀ q, (s.region r).power.req = some q → q.tested = none → s.iface.halted = false → s.testedLater r q.since = false →
      (s.fits r = true → s.heldBack r = false → exec (.admissionTest r) s = .next (s.admitPower r)) ∧
      (s.fits r = false ∨ s.heldBack r = true → exec (.admissionTest r) s = .next (s.modRegPower r (fun w =>
        { w with req := some { q with tested := some s.time } })))) ∧
    (∀ (q : AdmReq) (t0 : Nat), (s.region r).power.req = some q → q.tested = some t0 → s.iface.halted = false →
      let u := s.testPower r
      (s.time < q.since + ms 2 → t0 + us 100 ≤ s.time → exec (.admissionRetest r) s = .next u) ∧
      (q.since + ms 2 ≤ s.time → t0 + (if q.since + ms 2 ≤ t0 then us 500 else us 100) ≤ s.time →
        ((u.region r).power.req = none → exec (.admissionRetest r) s = .next u) ∧
        ((u.region r).power.req ≠ none → q.kind = 2 → q.since + ms 100 ≤ s.time →
          exec (.admissionRetest r) s = .next (u.refuseProfile r stPowerDeferred)) ∧
        ((u.region r).power.req ≠ none → q.kind ≠ 2 ∨ s.time < q.since + ms 100 →
          exec (.admissionRetest r) s = .next (u.sendDeferrals r)))) := by
  have hlt := Nat.not_le_of_lt hr
  refine ⟨fun q hreq htested hhalted hfirst => ?_, fun q t0 hreq htested hhalted => ?_⟩
  · have htest : exec (.admissionTest r) s = .next (s.testPower r) := by
      simp [execAdmissionTest, hlt, hreq, htested, hhalted, hfirst, hon]
    refine ⟨fun hfits hheld => ?_, fun hwaits => ?_⟩
    · rw [htest, State.testPower, if_pos (by simp [hfits, hheld])]
    · rw [htest, State.testPower, if_neg (by rcases hwaits with h | h <;> simp [h])]
      exact congrArg Host.Outcome.next (State.modRegPower_congr (by simp [hreq]))
  · intro u
    have hretest (hdue : t0 + (if q.since + ms 2 ≤ t0 then us 500 else us 100) ≤ s.time) : exec (.admissionRetest r) s =
        if (u.region r).power.req.isNone = true ∨ (!decide (q.since + ms 2 ≤ s.time)) = true then .next u
        else if q.kind = 2 ∧ q.since + ms 100 ≤ s.time then .next (u.refuseProfile r stPowerDeferred)
        else .next (u.sendDeferrals r) := by
      have hgo : ¬(s.time < t0 + (if q.since + ms 2 ≤ t0 then us 500 else us 100) ∨ s.boot.off = true ∨ s.iface.halted = true) := by
        simp only [hon, hhalted, Bool.false_eq_true, or_false]
        exact Nat.not_lt_of_le hdue
      simp only [exec_admissionRetest, execAdmissionRetest, if_neg hlt, hreq, htested]
      rw [if_neg hgo, State.testPower_time]
    refine ⟨fun hearly hdue => ?_, fun hlate hdue => ?_⟩
    · have hshort : ¬q.since + ms 2 ≤ t0 := by omega
      rw [hretest (by rw [if_neg hshort]; exact hdue)]
      exact if_pos (.inr (by simp [Nat.not_le_of_lt hearly]))
    · rw [hretest hdue]
      refine ⟨fun hgone => if_pos (.inl (by simp [hgone])), fun hwaits hkind hlong => ?_, fun hwaits hother => ?_⟩
      · rw [if_neg (by simp [hwaits, hlate]), if_pos ⟨hkind, hlong⟩]
      · rw [if_neg (by simp [hwaits, hlate]), if_neg (by omega)]

theorem rampsAndSamples (s : State) (r : Nat) (hr : r < 64) (hon : s.boot.off = false) :
    (∀ i : Nat, (s.region r).power.ramp = some i → i < (s.region r).rampSteps → (s.region r).power.rampAt + us (5 * i) ≤ s.time →
      let ps := (s.region r).wakePanes
      let mine := (List.range ps.length).filter (fun k => (s.region r).rampSteps == 1 || k % 8 == i)
      exec (.rampStep r) s = .next ((mine.foldl (fun a k => a.modPane (lget 0 ps k) (fun q => q.modPwr (fun w =>
        w.setTo s.time (profileMv (s.region r).prof.profile)))) s).modRegPower r (fun w => { w with ramp := some (i + 1) }))) ∧
    (∀ (amps : List Nat) (bus : Nat), amps.length = 9 → (s.region r).state = 3 →
      ∃ t, exec (.powerFastSample amps bus) s = .next t ∧ t.prof.pfast = amps.foldl (· + ·) 0 * bus / 1000 ∧
        (s.limitPK * 1000 < ((amps.foldl (· + ·) 0 * bus : Nat) : Rat) → (s.regions.map (·.1)).Nodup →
          (t.region r).kPwr = min 31 ((s.region r).kPwr + 8))) ∧
    (∀ k t0 : Nat, k < 9 → (s.seg k).overSince = some t0 → t0 + ms 1 ≤ s.time → s.regions = [(r, s.region r)] →
      0 < panesInSeg (s.region r).panes k → (s.region r).kPower < 31 →
      ∃ t, exec (.segmentOver k) s = .next t ∧ (t.region r).kPwr = min 31 ((s.region r).kPwr + (1 + s.free.toNat % 31))) := by
  refine ⟨?_, ?_, ?_⟩
  · intro i hramp hsteps hlong ps mine
    have hdue : ¬((s.region r).rampSteps ≤ i ∨ s.time < (s.region r).power.rampAt + us (5 * i)) := by omega
    simp only [exec_rampStep, execRampStep, if_neg (Nat.not_le_of_lt hr), hramp, if_neg hdue]
    rfl
  · intro amps bus hlength hrun
    have hsample : ¬(s.boot.off = true ∨ amps.length ≠ 9) := by simp [hon, hlength]
    obtain ⟨hregions, hprof, hlimit⟩ := segmentSamples_keep (fun a k => { a.seg k with
      samples := (a.time, lget 0 amps k) :: (a.seg k).samples.filter (fun q => decide (a.time ≤ q.1 + us 100))
      overSince := if decide (a.segRating k < lget 0 amps k) then some ((a.seg k).overSince.getD a.time) else none
      overSent := decide (a.segRating k < lget 0 amps k) && (a.seg k).overSent }) (List.range 9) s
    simp only [exec_powerFastSample, execPowerFastSample, if_neg hsample]
    generalize hsamples : (List.range 9).foldl _ s = u at hregions hprof hlimit ⊢
    have hlimit' : (u.modProf (fun p => { p with pfast := amps.foldl (· + ·) 0 * bus / 1000 })).limitPK = s.limitPK := hlimit
    rw [hlimit']
    by_cases hover : s.limitPK * 1000 < ((amps.foldl (· + ·) 0 * bus : Nat) : Rat)
    · rw [if_pos hover]
      refine ⟨_, rfl, ?_, fun _ hnodup => ?_⟩
      · rw [State.raiseAll_prof]
        rfl
      · have hrunning : (u.modProf (fun p => { p with pfast := amps.foldl (· + ·) 0 * bus / 1000 })).runningRegions = s.runningRegions := by
          simp [State.runningRegions, State.modProf, hregions]
        have hlist : s.runningRegions.Nodup := List.Nodup.sublist (List.filter_sublist.map _) hnodup
        have hregion : (u.modProf (fun p => { p with pfast := amps.foldl (· + ·) 0 * bus / 1000 })).region r = s.region r := by
          simp [State.region, State.modProf, hregions]
        rw [hrunning, State.kPwr_raiseAll 8 hlist, if_pos (State.mem_runningRegions hrun), hregion]
    · rw [if_neg hover]
      exact ⟨_, rfl, rfl, fun h => absurd h hover⟩
  · intro k t0 hk hover hlong honly hpanes hpower
    have hmine (u : State) (hu : u.regions = s.regions) : (sortBy (fun (a b : Nat × Region) => decide (b.2.power.admittedAt ≤ a.2.power.admittedAt))
        (u.regions.filter (fun q => decide (0 < panesInSeg q.2.panes k) && decide (q.2.kPower < 31)))).head? = some (r, s.region r) := by
      rw [hu, honly]
      simp [hpanes, hpower, sortBy, insertBy]
    simp only [exec_segmentOver, execSegmentOver, if_neg (Nat.not_le_of_lt hk), hover, if_neg (Nat.not_lt_of_le hlong)]
    refine ⟨_, rfl, ?_⟩
    generalize hreported : (if (s.seg k).overSent = true then s else _) = u
    have hu : u.regions = s.regions ∧ u.freeCount = s.freeCount := by
      rw [← hreported]
      split
      · exact ⟨rfl, rfl⟩
      · simp [State.setSeg]
    have hregion : u.region r = s.region r := by simp [State.region, hu.1]
    have hfree : u.free = s.free := by simp [State.free, hu.2]
    rw [State.region_shelfStatus, hmine u hu.1]
    simp [State.raisePwr, satTo_eq_min, hregion, hfree]

/-- Settles O38: a test admits or waits; a region of a list without repetition is raised once, and a segment's only region is the last. -/
theorem powerIsAdmittedAndEnforced : Obligations.PowerIsAdmittedAndEnforced := by
  intro s r hr hon
  obtain ⟨htest, hretest⟩ := admissionTests s r hr hon
  exact ⟨htest, hretest, rampsAndSamples s r hr hon⟩

end Sys2Proof.Machine

namespace Sys2Proof.Machine

/-! ## The power states of a region -/

/-- The region's record after a lowering that the Lintel asked for (R332). -/
theorem State.region_askLower {s : State} {r target : Nat} (htrans : (s.region r).power.trans = 0) (hreq : (s.region r).power.req = none)
    (hdeeper : (s.region r).power.state < target) :
    ((s.askLower r target).region r).power =
      { (s.region r).power with trans := 1, target := target, transAt := s.time, plannedWake := none } := by
  have hmay : ¬((s.region r).power.trans ≠ 0 ∨ (s.region r).power.req.isSome = true ∨ target ≤ (s.region r).power.state) := by
    simp [htrans, hreq, hdeeper]
  simp [State.askLower, if_neg hmay]

theorem State.force_askRaise (s : State) (r kind : Nat) : ((s.askRaise r kind).region r).power.force = (s.region r).power.force := by
  unfold State.askRaise
  dsimp only
  split
  · simp
  · split
    · rfl
    · split <;> simp

/-- A raise from Shuttered or deeper waits for admission (R327). -/
theorem State.askRaise_of_deep {s : State} {r : Nat} (kind : Nat) (htrans : (s.region r).power.trans = 0)
    (hdeep : 2 ≤ (s.region r).power.state) :
    s.askRaise r kind = s.modRegPower r (fun p => { p with trans := 3, target := 0, req := some { kind := kind, since := s.time } }) := by
  have h1 : ¬(s.region r).power.trans = 1 := by omega
  have h2 : ¬((s.region r).power.trans ≠ 0 ∨ (s.region r).power.state = 0) := by omega
  have h3 : ¬((s.region r).power.state = 1 ∧ (s.region r).prof.profile ≤ (s.region r).prof.admitted) := by omega
  simp only [State.askRaise, if_neg h1, if_neg h2, if_neg h3]

theorem power_openPanes (l : List Nat) (s : State) (p : Nat) :
    ((l.foldl (fun a q => a.modPane q (fun y => { y with power := 0 })) s).pane p).power = if p ∈ l then 0 else (s.pane p).power := by
  induction l generalizing s with
  | nil => simp
  | cons q l ih =>
    rw [List.foldl_cons, ih]
    by_cases hmem : p ∈ l
    · simp [hmem]
    · by_cases hq : p = q
      · simp [hq]
      · simp [hmem, hq, State.pane_modPane]

/-- The owner, or the guest of a region that is not FREE, may write FORCE (R336). -/
theorem State.writeForce_of_permitted {s : State} {src g r : Nat} (haccess : s.accessor src = some g) (hstate : (s.region r).state ≠ 0)
    (hmay : g = 0 ∨ (s.region r).guest = g) (force : Nat) (f : State → State) :
    s.writeForce src r force f = f (s.traced (regionPwrAddr r) true (force * 2 ^ 56)) := by
  have haccess' : (s.traced (regionPwrAddr r) true (force * 2 ^ 56)).accessor src = some g := haccess
  have hpermitted : ¬(g ≠ 0 ∧ ((s.region r).state = 0 ∨ (s.region r).guest ≠ g)) := by
    rintro ⟨h0, h | h⟩
    · exact hstate h
    · exact hmay.elim h0 h
  simp only [State.writeForce, haccess']
  exact (if_neg hpermitted).trans (if_neg hstate)

theorem State.writeForce_of_free {s : State} {src r : Nat} (howner : s.accessor src = some 0) (hstate : (s.region r).state = 0)
    (force : Nat) (f : State → State) :
    s.writeForce src r force f = (s.traced (regionPwrAddr r) true (force * 2 ^ 56)).modRegPower r (fun w => { w with force := force }) := by
  have howner' : (s.traced (regionPwrAddr r) true (force * 2 ^ 56)).accessor src = some 0 := howner
  simp only [State.writeForce, howner']
  exact (if_neg (fun h => h.1 rfl)).trans (if_pos hstate)

theorem regionsAreLowered (s : State) (r : Nat) (hr : r < 64) (hstate : (s.region r).state = 2) (hload : (s.region r).load = none)
    (htrans : (s.region r).power.trans = 0) (hreq : (s.region r).power.req = none) (hhalted : s.iface.halted = false)
    (hquiet : s.quiesced r = true) :
    ((s.region r).power.force = 0 → (s.region r).power.state = 0 → (s.region r).power.due = true → (s.region r).power.quiet = 0 →
      ∃ t, exec (.powerStateLower r) s = .next t ∧ (t.region r).power.trans = 1 ∧ (t.region r).power.target = 1 ∧
        (t.region r).power.due = false) ∧
    ((s.region r).power.force = 0 → (s.region r).power.state = 0 → (s.region r).power.due = true →
      (s.region r).deepest (s.region r).power.quiet ≠ 0 → (s.region r).power.quiet ≠ 0 →
      ∃ t, exec (.powerStateLower r) s = .next t ∧ (t.region r).power.target = (s.region r).deepest (s.region r).power.quiet ∧
        (t.region r).power.trans = 1 ∧ (t.region r).power.plannedWake = some ((s.region r).power.idleSince + us (s.region r).power.quiet -
          (s.region r).wakeTime ((s.region r).deepest (s.region r).power.quiet))) ∧
    ((s.region r).power.force = 0 → (s.region r).power.quiet = 0 → (s.region r).power.state = 1 ∨ (s.region r).power.state = 2 →
      s.power.idleSeal ≠ 0 → (s.region r).power.idleSince + us s.power.idleSeal ≤ s.time →
      ∃ t, exec (.idleEscalation r) s = .next t ∧ (t.region r).power.trans = 1 ∧ (t.region r).power.target = 3) := by
  have hlt := Nat.not_le_of_lt hr
  have hready : ¬(s.iface.halted = true ∨ (s.region r).state < 2 ∨ 4 < (s.region r).state ∨ (s.region r).load.isSome = true ∨
      (s.region r).power.trans ≠ 0 ∨ (s.region r).power.req.isSome = true ∨ (!s.quiesced r) = true) := by
    simp [hhalted, hstate, hload, htrans, hreq, hquiet]
  refine ⟨fun hforce hopen hdue hnone => ?_, fun hforce hopen hdue hdeepest hsome => ?_, fun hforce hnone hshut hseal hlong => ?_⟩
  · have hlowers : ¬((s.region r).state ≠ 2 ∨ (s.region r).power.force = 1 ∨ (s.region r).power.state ≠ 0 ∨
        (!(s.region r).power.due) = true) := by simp [hstate, hforce, hopen, hdue]
    simp only [exec_powerStateLower, execPowerStateLower, if_neg hlt, if_neg hready, if_neg hlowers, if_pos hnone]
    rw [if_neg (by omega)]
    refine ⟨_, rfl, ?_⟩
    rw [State.region_askLower (by simpa using htrans) (by simpa using hreq) (by simp [hopen])]
    simp
  · have hlowers : ¬((s.region r).state ≠ 2 ∨ (s.region r).power.force = 1 ∨ (s.region r).power.state ≠ 0 ∨
        (!(s.region r).power.due) = true) := by simp [hstate, hforce, hopen, hdue]
    simp only [exec_powerStateLower, execPowerStateLower, if_neg hlt, if_neg hready, if_neg hlowers, if_neg hsome, if_neg hdeepest]
    rw [if_neg (by omega)]
    refine ⟨_, rfl, ?_⟩
    rw [State.region_modRegPower_same]
    dsimp only
    rw [State.region_askLower (by simpa using htrans) (by simpa using hreq) (by simp [hopen]; omega)]
    simp
  · have hidle : ¬(s.iface.halted = true ∨ (s.region r).state ≠ 2 ∨ (s.region r).power.quiet ≠ 0 ∨ (s.region r).power.force ≠ 0 ∨
        (s.region r).power.state = 0 ∨ (s.region r).power.trans ≠ 0 ∨ (!s.quiesced r) = true) := by
      simp [hhalted, hstate, hnone, hforce, htrans, hquiet]; omega
    have hover : (s.power.idleSeal != 0 && decide ((s.region r).power.idleSince + us s.power.idleSeal ≤ s.time)) = true := by
      simp [hseal, hlong]
    simp only [exec_idleEscalation, execIdleEscalation, if_neg hlt, if_neg hidle, if_pos hover]
    refine ⟨_, rfl, ?_⟩
    rw [State.region_askLower htrans hreq (by omega)]
    exact ⟨rfl, rfl⟩

theorem regionsWake (s : State) (r : Nat) (hr : r < 64) :
    (∀ t0, (s.region r).power.plannedWake = some t0 → t0 ≤ s.time → s.iface.halted = false → (s.region r).power.trans = 0 →
      2 ≤ (s.region r).power.state →
      ∃ t, exec (.plannedWake r) s = .next t ∧ (t.region r).power.plannedWake = none ∧ (t.region r).power.trans = 3 ∧
        (t.region r).power.req = some { kind := 3, since := s.time }) ∧
    (∀ (im : Image) (p : Parsed), (s.region r).power.trans = 2 → (s.region r).power.rewritten = false →
      (s.region r).rampOver s.time = true → (s.region r).image = some im → parseImage im.bytes = some p →
      exec (.sealedWakeRewrite r) s = .next (((s.installRegion r p).homeAll r).modRegPower r (fun w =>
        { w with rewritten := true, pendCur := 0 }))) ∧
    ((s.region r).power.trans = 2 → (s.region r).load = none →
      (s.region r).power.state = 1 ∨ ((s.region r).rampOver s.time = true ∧ (s.region r).power.rewritten = true) →
      ∃ t, exec (.wakeComplete r) s = .next t ∧ (t.region r).power.state = 0 ∧ (t.region r).power.trans = 0 ∧
        ∀ p ∈ (s.region r).panes, (t.pane p).power = 0) ∧
    (∀ l, (s.region r).power.trans = 2 → (s.region r).load = some l → l.phase = 4 →
      (s.region r).rampOver s.time = true ∨ l.panes.all (fun p => decide ((s.pane p).power ≤ 1)) = true →
      exec (.wakeComplete r) s = .next ((s.setOpen r).modRegion r (fun y => { y with load := some { l with phase := 5, since := s.time } }))) := by
  have hlt := Nat.not_le_of_lt hr
  refine ⟨?_, ?_, ?_, ?_⟩
  · intro t0 hwake hlong hhalted htrans hdeep
    have hdue : t0 ≤ s.time ∧ (!s.iface.halted) = true := ⟨hlong, by simp [hhalted]⟩
    simp only [exec_plannedWake, execPlannedWake, if_neg hlt, hwake, if_pos hdue]
    refine ⟨_, rfl, ?_⟩
    rw [State.askRaise_of_deep 3 (by simpa using htrans) (by simpa using hdeep)]
    simp
  · intro im p htrans hrewritten hover himage hparse
    have hdue : ¬((s.region r).power.trans ≠ 2 ∨ (s.region r).power.rewritten = true ∨ (!(s.region r).rampOver s.time) = true) := by
      simp [htrans, hrewritten, hover]
    simp only [exec_sealedWakeRewrite, execSealedWakeRewrite, if_neg hlt, if_neg hdue, himage, hparse]
  · intro htrans hload hover
    have hpanes : (s.region r).wakePanes = (s.region r).panes := by simp [Region.wakePanes, hload]
    simp only [exec_wakeComplete, execWakeComplete, if_neg hlt, if_neg (not_not_intro htrans), hload, if_pos hover]
    refine ⟨_, rfl, ?_, ?_, fun p hp => ?_⟩
    · simp [State.setOpen]
    · simp [State.setOpen]
    · change ((List.foldl _ s (s.region r).wakePanes).pane p).power = 0
      rw [power_openPanes, hpanes, if_pos hp]
  · intro l htrans hload hphase hover
    simp only [exec_wakeComplete, execWakeComplete, if_neg hlt, if_neg (not_not_intro htrans), hload, if_pos (And.intro hphase hover)]

theorem forceIsWritten (s : State) (r : Nat) (hr : r < 64) :
    (∀ src g : Nat, s.accessor src = some g → (s.region r).state ≠ 0 → (g = 0 ∨ (s.region r).guest = g) →
      (∃ t, exec (.forceOpen src r) s = .next t ∧ (t.region r).power.force = 1) ∧
      (∃ t, exec (.forceAuto src r) s = .next t ∧ (t.region r).power.force = 0 ∧
        ((s.region r).power.state = 4 → (s.region r).power.trans = 0 → (t.region r).power.trans = 3)) ∧
      (let inFlight := ((s.region r).flight).bind (fun f => f.entry)
       let u := (s.traced (regionPwrAddr r) true (2 * 2 ^ 56)).modRegPower r (fun w => { w with force := 2 })
       let v := ((u.region r).runs.filter (fun e => some e.id != inFlight)).foldl (fun a e => a.endRun r e stNoRegion e.lastStep) u
       exec (.forceBoarded src r) s = .next (if v.quiesced r = true then v.board r else v))) ∧
    (∀ src : Nat, s.accessor src = some 0 → (s.region r).state = 0 →
      (∀ f : Nat, let t := (s.traced (regionPwrAddr r) true (f * 2 ^ 56)).modRegPower r (fun w => { w with force := f })
        (f = 0 → exec (.forceAuto src r) s = .next t) ∧ (f = 1 → exec (.forceOpen src r) s = .next t) ∧
        (f = 2 → exec (.forceBoarded src r) s = .next t))) := by
  have hlt := Nat.not_le_of_lt hr
  refine ⟨fun src g haccess hstate hmay => ⟨?_, ?_, ?_⟩, fun src howner hstate f => ?_⟩
  · simp only [exec_forceOpen, execForceOpen, if_neg hlt, State.writeForce_of_permitted haccess hstate hmay]
    refine ⟨_, rfl, ?_⟩
    rw [State.force_askRaise]
    simp
  · simp only [exec_forceAuto, execForceAuto, if_neg hlt, State.writeForce_of_permitted haccess hstate hmay]
    refine ⟨_, rfl, ?_, fun hboarded htrans => ?_⟩
    · split
      · rw [State.force_askRaise]
        simp
      · simp
    · have htraced : (s.traced (regionPwrAddr r) true (0 * 2 ^ 56)).region r = s.region r := rfl
      rw [if_pos (by simp [hboarded]), State.askRaise_of_deep 3 (by simpa using htrans) (by simp [hboarded])]
      simp
  · intro inFlight u v
    simp only [exec_forceBoarded, execForceBoarded, if_neg hlt, State.writeForce_of_permitted haccess hstate hmay]
    rfl
  · intro t
    refine ⟨fun hf => ?_, fun hf => ?_, fun hf => ?_⟩
    · simp only [exec_forceAuto, execForceAuto, if_neg hlt, State.writeForce_of_free howner hstate, t, hf]
    · simp only [exec_forceOpen, execForceOpen, if_neg hlt, State.writeForce_of_free howner hstate, t, hf]
    · simp only [exec_forceBoarded, execForceBoarded, if_neg hlt, State.writeForce_of_free howner hstate, t, hf]

/-- Settles O39: a lowering, a wake and a write of FORCE by what askLower, askRaise and writeForce do under the clause's conditions. -/
theorem regionsWakeAndLower : Obligations.RegionsWakeAndLower := by
  intro s r hr
  obtain ⟨hplanned, hrewrite, hopen, hload⟩ := regionsWake s r hr
  obtain ⟨hforce, hfree⟩ := forceIsWritten s r hr
  refine ⟨regionsAreLowered s r hr, ?_, hplanned, hrewrite, hopen, hload, hforce, hfree⟩
  intro htrans w t u v
  have hentry : ¬(s.region r).power.trans ≠ 1 := not_not_intro htrans
  simp only [exec_powerStateEntryComplete, execPowerStateEntryComplete, if_neg (Nat.not_le_of_lt hr), if_neg hentry]
  rfl

end Sys2Proof.Machine

namespace Sys2Proof.Machine

/-! ## What the rules of a housekeeping round leave of its own readings (R344) -/

/-- The boot, the power readings and the wafer's power of the last rounds. -/
def State.house (s : State) : Boot × Power × List Nat := (s.boot, s.power, s.prof.rounds)

@[simp] theorem State.house_fold (s : State) : (s.boot, s.power, s.prof.rounds) = s.house := rfl

/-- The same of a state written with its fields. -/
@[simp] theorem State.house_mk x0 x1 x2 x3 x4 x5 x6 x7 x8 x9 x10 x11 x12 x13 x14 x15 x16 x17 x18 x19
    x20 x21 x22 x23 x24 x25 x26 x27 x28 x29 x30 x31 x32 x33 x34 x35 x36 x37 :
    (State.mk x0 x1 x2 x3 x4 x5 x6 x7 x8 x9 x10 x11 x12 x13 x14 x15 x16 x17 x18 x19
      x20 x21 x22 x23 x24 x25 x26 x27 x28 x29 x30 x31 x32 x33 x34 x35 x36 x37).house = (x27, x20, x22.rounds) := rfl

@[simp] theorem State.house_ite (c : Prop) [Decidable c] (s t : State) :
    (if c then s else t).house = if c then s.house else t.house := apply_ite State.house c s t

@[simp] theorem foldl_house {β : Type} (f : State → β → State) (h : ∀ a x, (f a x).house = a.house) (l : List β) (s : State) :
    (l.foldl f s).house = s.house := foldl_proj State.house h l s

theorem apartFromQueues_house : ApartFromQueues State.house := ⟨fun _ _ _ _ => rfl, fun _ _ => rfl⟩

@[simp] theorem State.modThermal_house (s : State) (f : Thermal → Thermal) : (s.modThermal f).house = s.house := rfl

@[simp] theorem State.modProf_house (s : State) (f : Prof → Prof) (h : (f s.prof).rounds = s.prof.rounds) : (s.modProf f).house = s.house := by
  change (s.boot, s.power, (f s.prof).rounds) = s.house
  rw [h]
  rfl

@[simp] theorem State.updateCap_house (s : State) (hot : Int) (p : Nat) : (s.updateCap hot p).house = s.house := rfl

@[simp] theorem State.setPane_house (s : State) (p : Nat) (x : Pane) : (s.setPane p x).house = s.house := by simp [State.setPane]

@[simp] theorem State.modPane_house (s : State) (p : Nat) (f : Pane → Pane) : (s.modPane p f).house = s.house := by simp [State.modPane]

@[simp] theorem State.setRegion_house (s : State) (r : Nat) (x : Region) : (s.setRegion r x).house = s.house := by simp [State.setRegion]

@[simp] theorem State.modRegion_house (s : State) (r : Nat) (f : Region → Region) :
    (s.modRegion r f).house = s.house := by simp [State.modRegion]

@[simp] theorem State.modRegionPanes_house (s : State) (r : Nat) (f : Nat → Pane → Pane) :
    (s.modRegionPanes r f).house = s.house := by simp [State.modRegionPanes]

@[simp] theorem State.report_house (s : State) (unit : Nat) (f : FaultRec) : (s.report unit f).house = s.house := by simp [State.report]

@[simp] theorem State.complete_house (s : State) (id : EntryId) (status result : Nat) : (s.complete id status result).house = s.house :=
  apartFromQueues_house.complete s id status result

@[simp] theorem State.modRegPower_house (s : State) (r : Nat) (f : RegPower → RegPower) :
    (s.modRegPower r f).house = s.house := by simp [State.modRegPower]

@[simp] theorem State.modMgmt_house (s : State) (f : Mgmt → Mgmt) : (s.modMgmt f).house = s.house := by simp [State.modMgmt]

@[simp] theorem State.modIface_house (s : State) (f : Iface → Iface) : (s.modIface f).house = s.house := by simp [State.modIface]

@[simp] theorem State.setCauses_house (s : State) (new : Nat) : (s.setCauses new).house = s.house := by simp [State.setCauses]

@[simp] theorem State.cause_house (s : State) (b : Nat) : (s.cause b).house = s.house := by simp [State.cause]

@[simp] theorem State.shelfWrite_house (s : State) (cmd : Nat) (data : List Byte) :
    (s.shelfWrite cmd data).house = s.house := by simp [State.shelfWrite]

@[simp] theorem State.shelfStatus_house (s : State) : s.shelfStatus.house = s.house := by simp [State.shelfStatus]

@[simp] theorem State.applyEnv_house (s : State) : s.applyEnv.house = s.house := by simp [State.applyEnv]

@[simp] theorem State.modRegProf_house (s : State) (r : Nat) (f : RegProfile → RegProfile) :
    (s.modRegProf r f).house = s.house := by simp [State.modRegProf]

@[simp] theorem State.askGrant_house (s : State) (w : Nat) : (s.askGrant w).house = s.house := by simp [State.askGrant]

@[simp] theorem State.settleGrant_house (s : State) : s.settleGrant.house = s.house := by simp [State.settleGrant]

@[simp] theorem State.beginSwitch_house (s : State) (r target : Nat) : (s.beginSwitch r target).house = s.house := by simp [State.beginSwitch]

@[simp] theorem State.recordProfile_house (s : State) (r p : Nat) : (s.recordProfile r p).house = s.house := by simp [State.recordProfile]

@[simp] theorem State.changeProfile_house (s : State) (r p : Nat) (id : EntryId) (limit : Nat) :
    (s.changeProfile r p id limit).house = s.house := by simp [State.changeProfile]

@[simp] theorem State.nextProfile_house (s : State) (r n : Nat) : (s.nextProfile r n).house = s.house := by
  induction n generalizing s with
  | zero => rfl
  | succ n ih =>
    simp only [State.nextProfile]
    split <;> simp [ih]

@[simp] theorem State.settleProfiles_house (s : State) (r : Nat) : (s.settleProfiles r).house = s.house := by simp [State.settleProfiles]

@[simp] theorem State.refuseProfile_house (s : State) (r status : Nat) : (s.refuseProfile r status).house = s.house := by
  unfold State.refuseProfile
  dsimp only
  split <;> simp

@[simp] theorem State.powerPane_house (s : State) (p code detHi : Nat) :
    (s.powerPane p code detHi).house = s.house := by simp [State.powerPane]

@[simp] theorem State.raisePwr_house (s : State) (r n : Nat) : (s.raisePwr r n).house = s.house := by simp [State.raisePwr]

@[simp] theorem State.thermalPane_house (s : State) (p code detHi : Nat) :
    (s.thermalPane p code detHi).house = s.house := by simp [State.thermalPane]

@[simp] theorem State.thermalModule_house (s : State) (code detHi : Nat) :
    (s.thermalModule code detHi).house = s.house := by simp [State.thermalModule]

@[simp] theorem State.readSensor_house (s : State) (x : Nat × Int × Int) : (s.readSensor x).house = s.house := by simp [State.readSensor]

@[simp] theorem State.channelFault_house (s : State) (c : Channel) (code : Nat) :
    (s.channelFault c code).house = s.house := by simp [State.channelFault]

@[simp] theorem State.warn_house (s : State) (c : Channel) : (s.warn c).house = s.house := by simp [State.warn]

@[simp] theorem State.roundTh_house (s : State) (r : Nat) : (s.roundTh r).house = s.house := by simp [State.roundTh]

@[simp] theorem State.roundRate_house (s : State) (r : Nat) : (s.roundRate r).house = s.house := by simp [State.roundRate]

@[simp] theorem State.compensate_house (s : State) (p : Nat) : (s.compensate p).house = s.house := by simp [State.compensate]

@[simp] theorem State.roundJoints_house (s : State) (rd : Readings) : (s.roundJoints rd).house = s.house := by simp [State.roundJoints]

@[simp] theorem State.roundEnforce_house (s : State) (p : Nat) : (s.roundEnforce p).house = s.house := by simp [State.roundEnforce]

@[simp] theorem State.roundSprint_house (s : State) : s.roundSprint.house = s.house := by simp [State.roundSprint]

@[simp] theorem State.roundHolds_house (s : State) : s.roundHolds.house = s.house := by simp [State.roundHolds]

@[simp] theorem State.roundPairs_house (s : State) (a b : Nat) : (s.roundPairs a b).house = s.house := by simp [State.roundPairs]

@[simp] theorem State.roundGauges_house (s : State) (r : Nat) : (s.roundGauges r).house = s.house := by simp [State.roundGauges]


end Sys2Proof.Machine

namespace Sys2Proof.Machine

/-! ## Rate samples (R349-R351) -/

theorem State.find_critical_none {s t : State} {cs : List Channel} (h : cs.find? Channel.critical = none) : s.orCritical t cs = t := by
  simp only [State.orCritical, h]

/-- A sensor that rose by 6.0 °C/ms takes its region's K_RATE to 31 (R350). -/
theorem State.kRate_sampleRate {s : State} {p r : Nat} {a old : Int} (b : Int) (hp : p < 738) (hregion : (s.pane p).region = some r)
    (hworks : (s.pane p).therm.failed0 = false) (hold : (s.pane p).therm.hist0[9]? = some old) (hrise : 600 ≤ (a - old) * 50) :
    ((s.sampleRate (p, a, b)).region r).kRate = 31 := by
  have hmax (x : Int) (l : List Int) : x ≤ l.foldl max x := by
    induction l generalizing x with
    | nil => exact le_refl x
    | cons y l ih => exact le_trans (le_max_left x y) (ih _)
  have hrate (use1 : Bool) : ¬(s.pane p).therm.rateOf a b true use1 < 600 := by
    have hge : (a - old) * 50 ≤ (s.pane p).therm.rateOf a b true use1 := by
      simp only [PaneThermal.rateOf, hold, if_true]
      exact hmax _ _
    omega
  have hacts (u : State) (hu : (u.pane p).region = some r) : u.actsOn p = [r] := by
    simp only [State.actsOn, if_neg (Nat.not_le_of_lt hp), hu]
  unfold State.sampleRate
  simp only [hworks, Bool.false_and, Bool.not_false, Bool.true_or, Bool.false_eq_true, if_false, hp, decide_true, if_true]
  rw [if_neg (hrate _), hacts _ (by simp [hregion, Pane.modTherm])]
  simp [State.thermalPane, State.region]

theorem rateSamples (s : State) (hon : s.boot.off = false) (sens : List (Nat × Int × Int)) :
    let sens' := sens.filter (fun x => decide (x.1 < 786))
    let n := (s.thermal.sampleNo + 1) % 4
    let u := (sens'.foldl State.sampleRate s)
    let v := u.modThermal (fun t => { t with sampleNo := (u.thermal.sampleNo + 1) % 4 })
    ((u.thermal.sampleNo + 1) % 4 ≠ 0 → exec (.rateSample sens) s = .next (v.orCritical v (v.sampleChannels sens'))) ∧
    ((u.thermal.sampleNo + 1) % 4 = 0 → exec (.rateSample sens) s = .next (v.orCritical
      ((v.thermal.fast.foldl (fun a r => a.modRegion r (fun x => { x with kRate := min 31 (x.kRate + 4) })) v).modThermal (fun t =>
        { t with fast := [] })) (v.sampleChannels sens'))) ∧
    (sens' = [] → u.thermal.sampleNo = s.thermal.sampleNo ∧ v.thermal.sampleNo = n) := by
  intro sens' n u v
  have hoff : ¬s.boot.off = true := by simp [hon]
  refine ⟨fun hn => ?_, fun hn => ?_, fun hempty => ?_⟩
  · simp only [exec_rateSample, execRateSample, if_neg hoff]
    exact congrArg (fun t => Host.Outcome.next (v.orCritical t (v.sampleChannels sens'))) (if_pos hn)
  · simp only [exec_rateSample, execRateSample, if_neg hoff, satTo_eq_min]
    exact congrArg (fun t => Host.Outcome.next (v.orCritical t (v.sampleChannels sens'))) (if_neg (not_not_intro hn))
  · have hu : u = s := by simp only [u, hempty, List.foldl_nil]
    simp [v, hu, n, State.modThermal]

/-! ## The tray and a sudden stop (R354, R355) -/

/-- What the tray last reported. -/
def State.tray (s : State) : Option Nat × Option Nat × Nat := (s.thermal.lastReport, s.thermal.seq, s.thermal.flow)

theorem State.tray_ite (c : Prop) [Decidable c] (s t : State) : (if c then s else t).tray = if c then s.tray else t.tray :=
  apply_ite State.tray c s t

theorem State.tray_modThermal (s : State) (f : Thermal → Thermal) :
    (s.modThermal f).tray = ((f s.thermal).lastReport, (f s.thermal).seq, (f s.thermal).flow) := rfl

@[simp] theorem State.thermal_thermalModule (s : State) (code detHi : Nat) : (s.thermalModule code detHi).thermal = s.thermal := by
  simp [State.thermalModule]

theorem State.tray_event (s : State) (typ : Nat) (e : EventSub) : (s.event typ e).tray = s.tray := by
  simp [State.event, State.eventAt, State.uart, State.modThermal, State.tray]

theorem State.tray_recoverStop (s : State) : s.recoverStop.tray = s.tray :=
  State.tray_event _ _ _

/-- A declared stop holds every region at 31 (R354). -/
theorem State.declareStop_holds (s : State) (code typ detail : Nat) :
    (s.declareStop code typ detail).tray = s.tray ∧ (s.declareStop code typ detail).thermal.stopAt = some s.time ∧
      ∀ r < 64, ((s.declareStop code typ detail).region r).kEnv = 31 := by
  unfold State.declareStop
  have hevent : (((s.thermalModule code detail).event typ {}).cause 59).tray = s.tray := by
    have := State.tray_event (s.thermalModule code detail) typ {}
    simpa [State.tray] using this
  refine ⟨?_, ?_, fun r hr => ?_⟩
  · refine Eq.trans ?_ hevent
    simp [State.tray, (State.applyEnv_fields _).2, State.modThermal]
  · rw [(State.applyEnv_fields _).2]
    simp [State.modThermal, State.thermalModule]
  · rw [State.kEnv_applyEnv _ hr]
    split <;> rfl

theorem trayReports (s : State) :
    (∀ b : List Byte, b.length ≠ 8 ∨ crc8 (b.take 7) ≠ beNat b % 256 ∨ s.thermal.seq = some (bits (beNat b) 63 56) →
      exec (.trayReport b) s = .next s) ∧
    (∀ b : List Byte, s.lintelUp = true → b.length = 8 → crc8 (b.take 7) = beNat b % 256 → s.thermal.seq ≠ some (bits (beNat b) 63 56) →
      ∃ t, exec (.trayReport b) s = .next t ∧ t.thermal.lastReport = some s.time ∧ t.thermal.seq = some (bits (beNat b) 63 56) ∧
        t.thermal.flow = (if bitAt (beNat b) 21 then 0 else bits (beNat b) 31 22) ∧
        (s.thermal.stopAt = none → 4 * t.thermal.flow < 10 * s.thermal.flowNom →
          t.thermal.stopAt = some s.time ∧ ∀ r < 64, (t.region r).kEnv = 31)) ∧
    (∀ t0, s.thermal.lastReport = some t0 → s.lintelUp = true → s.thermal.stopAt = none → t0 + ms 100 ≤ s.time →
      ∃ t, exec .reportLost s = .next t ∧ t.thermal.stopAt = some s.time ∧ ∀ r < 64, (t.region r).kEnv = 31) ∧
    (∀ t0, s.thermal.stopAt = some t0 → s.boot.off = false → t0 + secs 5 ≤ s.time →
      exec .coolantStopTimeout s = .next (s.shutdown [0x06] {})) := by
  refine ⟨?_, ?_, ?_, ?_⟩
  · intro b hbad
    have hdiscard : (!s.lintelUp) = true ∨ b.length ≠ 8 ∨ crc8 (b.take 7) ≠ beNat b % 256 ∨
        s.thermal.seq = some (bits (beNat b) 63 56) := .inr hbad
    simp only [exec_trayReport, execTrayReport, if_pos hdiscard]
  · intro b hup hlength hcrc hseq
    have hgood : ¬((!s.lintelUp) = true ∨ b.length ≠ 8 ∨ crc8 (b.take 7) ≠ beNat b % 256 ∨
        s.thermal.seq = some (bits (beNat b) 63 56)) := by simp [hup, hlength, hcrc, hseq]
    simp only [exec_trayReport, execTrayReport, if_neg hgood]
    generalize hflow : (if bitAt (beNat b) 21 = true then 0 else bits (beNat b) 31 22) = flow
    generalize hread : @ite State (_ = true) (instDecidableEqBool _ true) (State.modThermal _ _) (s.modThermal _) = u
    have hu : u.tray = (some s.time, some (bits (beNat b) 63 56), flow) := by
      rw [← hread, State.tray_ite, State.tray_modThermal, State.tray_modThermal, State.thermal_thermalModule]
      exact ite_self _
    have htime : u.time = s.time := by
      rw [← hread, State.time_ite]
      simp [State.thermalModule]
    have hfields {v : State} (hv : v.tray = u.tray) : v.thermal.lastReport = some s.time ∧
        v.thermal.seq = some (bits (beNat b) 63 56) ∧ v.thermal.flow = flow := by
      simpa [State.tray] using hv.trans hu
    cases hstop : s.thermal.stopAt with
    | some t0 =>
      simp only [reduceCtorEq, false_implies, and_true]
      refine ⟨_, rfl, hfields ?_⟩
      rw [State.tray_ite, State.tray_recoverStop, ite_self]
      rfl
    | none =>
      by_cases hfall : 4 * flow < 10 * s.thermal.flowNom ∨
          2 * flow < (s.thermal.flows.filter (fun q => decide (s.time ≤ q.1 + ms 100))).foldl (fun a q => max a q.2) 0
      · simp only [if_pos hfall]
        refine ⟨_, rfl, ?_⟩
        obtain ⟨htray, hstopped, hheld⟩ := State.declareStop_holds u 5 0x03 (flow + s.thermal.flow * 2 ^ 16)
        obtain ⟨hlast, huseq, huflow⟩ := hfields htray
        exact ⟨hlast, huseq, huflow, fun _ _ => ⟨hstopped.trans (congrArg some htime), hheld⟩⟩
      · simp only [if_neg hfall]
        obtain ⟨hlast, huseq, huflow⟩ := hfields rfl
        refine ⟨_, rfl, hlast, huseq, huflow, fun _ hlow => absurd ?_ hfall⟩
        rw [huflow] at hlow
        exact .inl hlow
  · intro t0 hlast hup hstop hlong
    have hlost : s.lintelUp = true ∧ s.thermal.stopAt.isNone = true ∧ t0 + ms 100 ≤ s.time := ⟨hup, by simp [hstop], hlong⟩
    simp only [exec_reportLost, execReportLost, hlast, if_pos hlost]
    obtain ⟨-, hdeclared, hheld⟩ := State.declareStop_holds s 6 0x04 (satTo 0xFFFF ((s.time - t0) / ms 1))
    exact ⟨_, rfl, hdeclared, hheld⟩
  · intro t0 hstop hon hlong
    simp only [exec_coolantStopTimeout, execCoolantStopTimeout, hstop]
    exact if_pos ⟨by simp [hon], hlong⟩

/-! ## The housekeeping round (R344) -/

/-- The pause demands of a round and the holds that end at it (R348-R350, R375). -/
def State.roundHeat (s : State) : State :=
  let s := s.placed.foldl State.roundTh s
  let s := s.placed.foldl State.roundRate s
  let s := s.modThermal (fun t => { t with
    rose := []
    roseFast := []
    kCool := if t.stopAt.isNone then t.kCool - 4 else t.kCool })
  s.applyEnv.roundHolds

/-- The limits, the compensation and the gauges of a round (R356, R368, R371, R422). -/
def State.roundLimits (s : State) (rd : Readings) : State :=
  let s := ((s.roundPairs rd.pair0 rd.pair1).roundEnforce rd.pwafer).roundSprint
  let s := (rd.sens.filter (fun x => decide (x.1 < 786))).foldl (fun a x => a.compensate x.1) s
  let s := s.roundJoints rd
  let s := { s with panes := mmap (fun _ q => q.modPwr (fun w => { w with droopSent := false })) s.panes }
  s.placed.foldl State.roundGauges s

/-- A pending In-Band Interrupt carries the alert octet as it now stands (R448). -/
def State.ibiRefreshed (s : State) : State :=
  if s.mgmt.ibi.isSome && s.iface.ibiEn then s.modMgmt (fun m => { m with ibi := some s.alertByte }) else s

/-- The rules of a round once no channel is found critical. -/
def State.roundRules (s : State) (rd : Readings) : State :=
  (((s.roundHeat.roundPower rd.pwafer).roundLimits rd).modPower (fun p => { p with overRound := false })).shelfStatus.ibiRefreshed

/-- The readings of a round are taken, the cap follows, and channels are warned (R344, R345, R353). -/
def State.roundTaken (s : State) (rd : Readings) : State :=
  let s := (s.modBoot (fun b => { b with servedAt := s.time })).roundRead rd
  let core := match (rd.sens.filter (fun x => decide (x.1 < 738))).map (fun x => s.paneTemp x.1) with
    | [] => s.thermal.tHot
    | a :: l => l.foldl max a
  let s := s.updateCap core rd.pwafer
  let calm := s.thermal.warned.isEmpty
  let s := (s.channels rd).foldl State.warn s
  if calm && !s.thermal.warned.isEmpty then s.cause 58 else s

/-- A round's channels are those of the readings taken, before a warning (R345). -/
theorem exec_lintelRound_eq {s : State} (rd : Readings) (hup : s.lintelUp = true) : exec (.lintelRound rd) s =
    match ((s.roundTaken rd).channels rd).find? Channel.critical with
    | some c => .next (((s.roundTaken rd).channelFault c 3).shutdown [0x02, 0x06] c.sub)
    | none => .next ((s.roundTaken rd).roundRules rd) :=
  (exec_lintelRound ..).trans (if_neg (by simp [hup]))

@[simp] theorem Prof.rounds_tickDay (p : Prof) : p.tickDay.rounds = p.rounds := by
  unfold Prof.tickDay
  split <;> rfl

@[simp] theorem Prof.rounds_charge (p : Prof) : p.charge.rounds = p.rounds := by
  unfold Prof.charge Prof.commit
  dsimp only
  split <;> rfl

theorem State.roundPower_house (s : State) (p : Nat) :
    (s.roundPower p).house = (s.boot, s.power, (p :: s.prof.rounds).take 2000) := by
  unfold State.roundPower
  dsimp only
  split
  · change (s.boot, s.power, Prof.rounds (Prof.charge _)) = _
    rw [Prof.rounds_charge, Prof.rounds_tickDay]
  · change (s.boot, s.power, Prof.rounds (Prof.tickDay _)) = _
    rw [Prof.rounds_tickDay]

theorem State.of_house {s : State} {b : Boot} {p : Power} {l : List Nat} (h : s.house = (b, p, l)) :
    s.boot = b ∧ s.power = p ∧ s.prof.rounds = l :=
  ⟨congrArg (·.1) h, congrArg (·.2.1) h, congrArg (·.2.2) h⟩

theorem State.house_eq {s t : State} (h : t.house = s.house) : t.boot = s.boot ∧ t.power = s.power ∧ t.prof.rounds = s.prof.rounds :=
  State.of_house h

@[simp] theorem State.modHctl_house (s : State) (n : Nat) (f : HbmCtl → HbmCtl) : (s.modHctl n f).house = s.house := by
  simp [State.modHctl]

theorem State.modPower_house {s t : State} (h : t.house = s.house) (f : Power → Power) :
    (t.modPower f).house = (s.boot, f s.power, s.prof.rounds) := by
  obtain ⟨hboot, hpower, hrounds⟩ := State.house_eq h
  change (t.boot, f t.power, t.prof.rounds) = _
  rw [hboot, hpower, hrounds]

theorem State.roundRead_house (s : State) (rd : Readings) :
    (s.roundRead rd).house = (s.boot, { s.power with vin := rd.vin, pin := rd.pin, pwafer := rd.pwafer }, s.prof.rounds) :=
  State.modPower_house (by simp) _

theorem State.roundTaken_house (s : State) (rd : Readings) : (s.roundTaken rd).house =
    ({ s.boot with servedAt := s.time }, { s.power with vin := rd.vin, pin := rd.pin, pwafer := rd.pwafer }, s.prof.rounds) := by
  refine Eq.trans ?_ (State.roundRead_house (s.modBoot (fun b => { b with servedAt := s.time })) rd)
  simp [State.roundTaken]

@[simp] theorem State.roundHeat_house (s : State) : s.roundHeat.house = s.house := by simp [State.roundHeat]

@[simp] theorem State.roundLimits_house (s : State) (rd : Readings) : (s.roundLimits rd).house = s.house := by simp [State.roundLimits]

@[simp] theorem State.ibiRefreshed_house (s : State) : s.ibiRefreshed.house = s.house := by
  unfold State.ibiRefreshed
  split <;> rfl

theorem State.roundRules_house (s : State) (rd : Readings) : (s.roundRules rd).house =
    (s.boot, { s.power with overRound := false }, (rd.pwafer :: s.prof.rounds).take 2000) := by
  have hround := State.roundPower_house s.roundHeat rd.pwafer
  obtain ⟨hboot, hpower, hrounds⟩ := State.house_eq (State.roundHeat_house s)
  rw [hboot, hpower, hrounds] at hround
  unfold State.roundRules
  rw [State.ibiRefreshed_house, State.shelfStatus_house, State.modPower_house (State.roundLimits_house _ rd)]
  obtain ⟨hboot', hpower', hrounds'⟩ := State.of_house hround
  rw [hboot', hpower', hrounds']

theorem housekeepingRound (s : State) (rd : Readings) (hup : s.lintelUp = true) (hsens : rd.sens = []) (hdiodes : rd.diodes = [])
    (hhbm : rd.hbm = []) :
    ∃ t, exec (.lintelRound rd) s = .next t ∧ t.boot.servedAt = s.time ∧ t.power.pwafer = rd.pwafer ∧ t.power.vin = rd.vin ∧
      t.prof.rounds = (rd.pwafer :: s.prof.rounds).take 2000 := by
  have hchannels : ((s.roundTaken rd).channels rd).find? Channel.critical = none := by
    simp [State.channels, hsens, hdiodes, hhbm]
  obtain ⟨hboot, hpower, hrounds⟩ : (s.roundTaken rd).boot = _ ∧ (s.roundTaken rd).power = _ ∧ (s.roundTaken rd).prof.rounds = _ :=
    State.of_house (State.roundTaken_house s rd)
  have hrules := State.roundRules_house (s.roundTaken rd) rd
  rw [hboot, hpower, hrounds] at hrules
  refine ⟨(s.roundTaken rd).roundRules rd, by rw [exec_lintelRound_eq rd hup, hchannels], ?_, ?_, ?_, ?_⟩
  · exact congrArg (fun q : Boot × Power × List Nat => q.1.servedAt) hrules
  · exact congrArg (fun q : Boot × Power × List Nat => q.2.1.pwafer) hrules
  · exact congrArg (fun q : Boot × Power × List Nat => q.2.1.vin) hrules
  · exact congrArg (fun q : Boot × Power × List Nat => q.2.2) hrules

/-! ## A critical reading in a round (R351) -/

@[simp] theorem State.panes_channelFault (s : State) (c : Channel) (code : Nat) : (s.channelFault c code).panes = s.panes := by
  unfold State.channelFault
  split <;> simp [State.thermalModule, State.thermalPane]

@[simp] theorem State.panes_warn (s : State) (c : Channel) : (s.warn c).panes = s.panes := by
  unfold State.warn
  dsimp only
  split
  · simp [State.modThermal]
  · split <;> simp [State.modThermal]

theorem State.panes_updateCap (s : State) (hot : Int) (p : Nat) : (s.updateCap hot p).panes = s.panes := rfl

theorem State.panes_ite (c : Prop) [Decidable c] (s t : State) : (if c then s else t).panes = if c then s.panes else t.panes :=
  apply_ite State.panes c s t

theorem State.panes_roundTaken (s : State) (rd : Readings) :
    (s.roundTaken rd).panes = ((s.modBoot (fun b => { b with servedAt := s.time })).roundRead rd).panes := by
  have hwarn (l : List Channel) (u : State) : (l.foldl State.warn u).panes = u.panes := foldl_proj State.panes State.panes_warn l u
  unfold State.roundTaken
  dsimp only
  rw [State.panes_ite]
  simp [hwarn, State.panes_updateCap]

/-- A pane whose working sensors agree reads as they do (R342). -/
theorem State.therm_readSensor {s : State} {p : Nat} {a b : Int} (hp : p < 738) (ha : -160 ≤ a) (ha' : a ≤ 1200) (hb : -160 ≤ b)
    (hb' : b ≤ 1200) (hab : a ≤ b + 120) (hba : b ≤ a + 120) (h0 : (s.pane p).therm.failed0 = false) (h1 : (s.pane p).therm.failed1 = false) :
    ((s.readSensor (p, a, b)).pane p).therm = { (s.pane p).therm with
      t0 := a, t1 := b, failed0 := false, failed1 := false, mismatch := 0, subst := false } := by
  have hfit (v : Int) (h : -160 ≤ v) (h' : v ≤ 1200) : sensorBad v = false := by simp [sensorBad, h, h']
  have hnear : (decide (a + 120 < b) || decide (b + 120 < a)) = false := by simp [hab, hba]
  unfold State.readSensor
  simp [hp, Nat.not_le_of_lt hp, h0, h1, hfit a ha ha', hfit b hb hb', hnear, Pane.modTherm]

theorem boot_convertersStop (s : State) : s.convertersStop.boot.off = true ∧ s.convertersStop.boot.hold = true := ⟨rfl, rfl⟩

theorem criticalRound (s : State) (p : Nat) (a b : Int) (hup : s.lintelUp = true) (hp : p < 738) (hhot : 880 ≤ a) (ha : a ≤ 1200)
    (hb : 0 ≤ b) (hb' : b ≤ 1200) (hab : a ≤ b + 120) (hba : b ≤ a + 120) (h0 : (s.pane p).therm.failed0 = false)
    (h1 : (s.pane p).therm.failed1 = false) :
    ∃ t, exec (.lintelRound { sens := [(p, a, b)] }) s = .next t ∧ t.boot.off = true ∧ t.boot.hold = true := by
  have hpane : ((s.roundTaken { sens := [(p, a, b)] }).pane p).therm = { (s.pane p).therm with
      t0 := a, t1 := b, failed0 := false, failed1 := false, mismatch := 0, subst := false } := by
    have hpanes := State.panes_roundTaken s { sens := [(p, a, b)] }
    have hsensor := State.therm_readSensor (s := s.modBoot (fun b => { b with servedAt := s.time })) hp (by omega) ha (by omega) hb' hab hba h0 h1
    have hfilter : p < 786 := by omega
    unfold State.pane
    rw [hpanes]
    refine Eq.trans ?_ hsensor
    simp [State.roundRead, hfilter, State.pane, State.modThermal]
  have hfind : ∃ c, ((s.roundTaken { sens := [(p, a, b)] }).channels { sens := [(p, a, b)] }).find? Channel.critical = some c := by
    refine ⟨{ kind := 1, num := 2 * p, val := a, pane := p, sub := { pane := p } }, ?_⟩
    simp [State.channels, hpane, hp, Channel.critical, hhot]
  obtain ⟨c, hc⟩ := hfind
  refine ⟨((s.roundTaken { sens := [(p, a, b)] }).channelFault c 3).shutdown [0x02, 0x06] c.sub, ?_, boot_convertersStop _⟩
  rw [exec_lintelRound_eq _ hup, hc]

/-- Settles O41: a round keeps what it read, a critical channel shuts down, and a declared stop reaches every region. -/
theorem heatSlowsAndStopsTheModule : Obligations.HeatSlowsAndStopsTheModule := by
  intro s
  obtain ⟨hbad, hgood, hlost, htimeout⟩ := trayReports s
  refine ⟨fun hon sens => rateSamples s hon sens, ?_, fun t cs h => State.find_critical_none h, ?_, hbad, hgood, hlost, htimeout, ?_, ?_⟩
  · intro p r a b old hp hregion hworks hold hrise
    exact State.kRate_sampleRate b hp hregion hworks hold hrise
  · intro t cs c h
    simp only [State.orCritical, h]
  · intro rd hup hsens hdiodes hhbm
    exact housekeepingRound s rd hup hsens hdiodes hhbm
  · intro p a b hup hp hhot ha hb hb' hab hba h0 h1
    exact criticalRound s p a b hup hp hhot ha hb hb' hab hba h0 h1

end Sys2Proof.Machine

namespace Sys2Proof.Machine

/-! ## Profiles (R364-R366) -/

theorem execProfile_noRegion {s : State} {g i : Nat} {l : ListRec} {x : Entry} (h : StartsWell s g 3 0x42 l i x)
    (hregion : s.regionOk g (bits x.word 223 218) [2, 3, 4] = false) :
    execProfile g s = .next ((s.begun g 3 l i).complete ⟨g, 3, l.seq, i⟩ stNoRegion 0) := by
  have hregion' : (s.begun g 3 l i).regionOk g (bits x.word 223 218) [2, 3, 4] = false := hregion
  rw [execProfile, withCommand_of_startsWell h]
  simp [hregion']

/-- The one waiting entry of a region at rest, met by the rules of Table 17-2 in their order. -/
theorem State.settleProfiles_one {s : State} {r p limit : Nat} {id : EntryId} (hqueue : (s.region r).prof.queue = [(id, p, limit)])
    (hstage : (s.region r).prof.stage = 0) (hending : (s.region r).prof.ending = 0) (hentry : (s.region r).prof.entry = none) :
    let u := s.modRegProf r (fun y => { y with queue := [] })
    s.settleProfiles r =
      if p = (s.region r).prof.profile then u.complete id stOK 0
      else if p = 3 ∧ (!bitAt s.prof.allow id.guest) = true then u.complete id stNotPermitted 0
      else if 2 ≤ p ∧ s.capped r = true then u.complete id stProfileCapped 0
      else if (s.region r).prof.profile = 3 ∧ (s.region r).isOpen = true then s.modRegProf r (fun y => { y with ending := 1 })
      else if p = 3 ∧ (!s.prof.grant) = true then
        u.modRegProf r (fun y => { y with stage := 1, target := 3, since := s.time, entry := some id, sprintMs := limit })
      else if p = 3 ∧ s.sprintBar ≠ stOK then u.complete id s.sprintBar 0
      else if (!(s.region r).isOpen) = true then u.changeProfile r p id limit
      else u.changeProfile r p id limit := by
  simp only [State.settleProfiles, hqueue, List.length_singleton, State.nextProfile, hstage, hending, hentry, ne_eq, not_true_eq_false,
    Option.isSome_none, Bool.false_eq_true, or_self, if_false]

theorem profileRules {s : State} {r p limit : Nat} {id : EntryId} (hqueue : (s.region r).prof.queue = [(id, p, limit)])
    (hstage : (s.region r).prof.stage = 0) (hending : (s.region r).prof.ending = 0) (hentry : (s.region r).prof.entry = none) :
    let u := s.modRegProf r (fun y => { y with queue := [] })
    (p = (s.region r).prof.profile → s.settleProfiles r = u.complete id stOK 0) ∧
    (p = 3 → p ≠ (s.region r).prof.profile → bitAt s.prof.allow id.guest = false → s.settleProfiles r = u.complete id stNotPermitted 0) ∧
    (2 ≤ p → p ≠ 3 → p ≠ (s.region r).prof.profile → s.capped r = true → s.settleProfiles r = u.complete id stProfileCapped 0) ∧
    (p < 3 → p ≠ (s.region r).prof.profile → s.capped r = false → (s.region r).isOpen = false →
      s.settleProfiles r = u.changeProfile r p id limit) ∧
    (p < 3 → p ≠ (s.region r).prof.profile → s.capped r = false → (s.region r).isOpen = true → (s.region r).prof.profile ≠ 3 →
      s.settleProfiles r = u.changeProfile r p id limit) := by
  have hrule := State.settleProfiles_one hqueue hstage hending hentry
  refine ⟨fun h => ?_, fun h h' hallow => ?_, fun h h' h'' hcap => ?_, fun h h' hcap hopen => ?_, fun h h' hcap hopen hno => ?_⟩ <;>
    rw [hrule]
  · rw [if_pos h]
  · rw [if_neg h', if_pos ⟨h, by simp [hallow]⟩]
  · rw [if_neg h'', if_neg (fun c => h' c.1), if_pos ⟨h, hcap⟩]
  · have hp : p ≠ 3 := by omega
    simp [h', hp, hcap, hopen]
  · have hp : p ≠ 3 := by omega
    simp [h', hp, hcap, hopen, hno]

/-! ## Clock switches of a pane (R365, R366) -/

theorem paneRaises {s : State} {p r vmin : Nat} (hp : p < 738) (hregion : (s.pane p).region = some r) (hstage : (s.region r).prof.stage = 3)
    (hat : s.atBoundary p = true) (hup : (s.pane p).clk.mhz < profileMhz (s.region r).prof.target)
    (hv : profileMv (s.region r).prof.target ≤ vmin + 5) (hrail : profileMv (s.region r).prof.target ≤ (s.pane p).pwr.rail s.time + 5) :
    exec (.paneClockSwitch p vmin) s = .next ((s.modPane p (fun y => (y.modClk (fun c =>
      { c with mhz := profileMhz (s.region r).prof.target })).modPwr (fun w => { w with vmin := vmin }))).finishSwitch r) := by
  simp only [exec_paneClockSwitch, execPaneClockSwitch, hregion, hstage, hat]
  rw [if_neg (by omega), if_neg (by simp; omega)]
  simp [hup]

theorem paneLowers {s : State} {p r vmin : Nat} (hp : p < 738) (hregion : (s.pane p).region = some r) (hstage : (s.region r).prof.stage = 3)
    (hat : s.atBoundary p = true) (hdown : profileMhz (s.region r).prof.target < (s.pane p).clk.mhz) :
    exec (.paneClockSwitch p vmin) s = .next ((s.modPane p (fun y => (y.modClk (fun c =>
      { c with mhz := profileMhz (s.region r).prof.target })).modPwr (fun w =>
        { w with vmin := vmin }.rampTo s.time (profileMv (s.region r).prof.target)))).finishSwitch r) := by
  have hnot : ¬ (s.pane p).clk.mhz < profileMhz (s.region r).prof.target := by omega
  simp only [exec_paneClockSwitch, execPaneClockSwitch, hregion, hstage, hat]
  rw [if_neg (by omega), if_neg (by simp; omega)]
  simp [hnot]

theorem paneWaitsForItsRail {s : State} {p r vmin : Nat} (hp : p < 738) (hregion : (s.pane p).region = some r)
    (hup : (s.pane p).clk.mhz < profileMhz (s.region r).prof.target) (hv : vmin + 5 < profileMv (s.region r).prof.target) :
    exec (.paneClockSwitch p vmin) s = .next s := by
  simp only [exec_paneClockSwitch, execPaneClockSwitch, hregion]
  rw [if_neg (by omega), if_pos (by simp [hup, hv])]

/-! ## The grant (R369-R371) -/

theorem State.prof_askGrant (s : State) (w : Nat) : (s.askGrant w).prof =
    { s.prof with grantSeq := (s.prof.grantSeq + 1) % 256, asked := w, renewAt := s.time } := rfl

/-- A renewal is due: the grant is asked for, and the answer decides (R369). -/
theorem execGrantRenewal_due {s : State} (hup : s.lintelUp = true) (hdue : s.regions.any (fun q => q.2.prof.stage == 1) = true ∨
      (s.regions.any (fun q => q.2.sprints) = true ∧ s.prof.renewAt + secs 1 ≤ s.time)) :
    let u := s.askGrant s.grantW
    (exec (.grantRenewal none) s = .next (if s.prof.grant = true ∧ 2 ≤ s.prof.misses + 1 then
      (u.modProf (fun p => { p with misses := p.misses + 1 })).endGrant else u.modProf (fun p => { p with misses := p.misses + 1 }))) ∧
    (∀ w lease q : Nat, exec (.grantRenewal (some (w, lease, q))) s =
      if s.grantW ≤ w ∧ q = (s.prof.grantSeq + 1) % 256 then
        .next ((u.readGrant (w, lease, q)).modProf (fun p => { p with grant := true, misses := 0 })).grantWaiting
      else .next (if s.prof.grant = true then (u.readGrant (w, lease, q)).endGrant else u.readGrant (w, lease, q))) := by
  have hwanted : (s.regions.any (fun q => q.2.prof.stage == 1) ||
      (s.regions.any (fun q => q.2.sprints) && decide (s.prof.renewAt + secs 1 ≤ s.time))) = true := by
    obtain h | ⟨h, ht⟩ := hdue
    · rw [h, Bool.true_or]
    · rw [h, decide_eq_true ht, Bool.true_and, Bool.or_true]
  have hasked : ¬ ((!s.lintelUp) = true ∨ (!(s.regions.any (fun q => q.2.prof.stage == 1) ||
      (s.regions.any (fun q => q.2.sprints) && decide (s.prof.renewAt + secs 1 ≤ s.time)))) = true) := by
    simp [hup, hwanted]
  constructor
  · simp only [exec_grantRenewal, execGrantRenewal]
    rw [if_neg hasked]
    refine congrArg Host.Outcome.next (if_congr ?_ rfl rfl)
    simp [State.modProf, State.prof_askGrant]
  · intro w lease q
    simp only [exec_grantRenewal, execGrantRenewal]
    rw [if_neg hasked]
    rfl

/-- Settles O42: each entry, switch and answer meets one rule of Tables 17-1 and 17-2. -/
theorem profilesAndGrants : Obligations.ProfilesAndGrants := by
  intro s
  refine ⟨?_, ?_, ?_, ?_, ?_, ?_, ?_, ?_⟩
  · intro g i l x hstarts
    exact ⟨fun h => (exec_profile g s).trans (execProfile_noRegion hstarts h),
      fun h => (exec_profile g s).trans (execProfile_of_startsWell hstarts h)⟩
  · intro r p limit id hqueue hstage hending hentry
    exact profileRules hqueue hstage hending hentry
  · intro p r vmin hp hregion hstage target hmove hat
    exact ⟨fun hup hv hrail => paneRaises hp hregion hstage hat hup hv hrail, fun hdown => paneLowers hp hregion hstage hat hdown⟩
  · intro p r vmin hp hregion hup hv
    exact paneWaitsForItsRail hp hregion hup hv
  · intro hup hdue
    obtain ⟨hnone, hsome⟩ := execGrantRenewal_due hup hdue
    refine ⟨hnone, fun w lease q hw hq => (hsome w lease q).trans (if_pos ⟨hw, hq⟩), fun w lease q hbad => (hsome w lease q).trans (if_neg ?_)⟩
    omega
  · intro w lease q hup
    simp only [exec_smbalert, execSmbalert]
    rw [if_neg (by simp [hup])]
    exact apply_ite Host.Outcome.next _ _ _ |>.symm
  · intro hgrant hlease
    simp only [exec_grantLeaseExpiry, execGrantLeaseExpiry]
    rw [if_pos ⟨hgrant, hlease⟩]
  · intro r t0 hr huntil hpast hsprint hending
    simp only [exec_sprintMsExpiry, execSprintMsExpiry, huntil]
    rw [if_neg (by omega), if_pos ⟨hsprint, hending, hpast⟩]

end Sys2Proof.Machine

namespace Sys2Proof.Machine

/-! ## Links and banks without a free cycle (R34, R57) -/

theorem nodup_eraseDups {α : Type} [BEq α] [LawfulBEq α] (l : List α) : l.eraseDups.Nodup := by
  induction h : l.length using Nat.strong_induction_on generalizing l with
  | _ n ih =>
    cases l with
    | nil => exact List.nodup_nil
    | cons a as =>
      rw [List.eraseDups_cons, List.nodup_cons]
      refine ⟨fun hmem => ?_, ih _ ?_ _ rfl⟩
      · simp at hmem
      · subst h
        exact Nat.lt_succ_of_le (List.length_filter_le ..)

theorem filter_eq_singleton {α : Type} [DecidableEq α] {l : List α} {a : α} {p : α → Bool} (hnodup : l.Nodup) (hmem : a ∈ l)
    (hp : ∀ x ∈ l, p x = true ↔ x = a) : l.filter p = [a] := by
  have hcongr : l.filter p = l.filter (· == a) := List.filter_congr (fun x hx => by
    rw [Bool.eq_iff_iff, hp x hx, beq_iff_eq])
  rw [hcongr, List.filter_beq, List.count_eq_one_of_mem hnodup hmem, List.replicate_one]

/-- Checks made one for each key: those of one value of the detail are the check of the one key that has it. -/
theorem filter_map_chk {α : Type} [DecidableEq α] {l : List α} {past : α → Bool} {chk : α → Chk} {hi : Nat} {a : α} (hnodup : l.Nodup)
    (hmem : a ∈ l) (hpast : past a = true) (hhi : ∀ x ∈ l, (chk x).hi = hi ↔ x = a) :
    ((l.filter past).map chk).filter (fun k => k.hi == hi) = [chk a] := by
  rw [List.filter_map, List.filter_filter, filter_eq_singleton hnodup hmem, List.map_singleton]
  intro x hx
  simp only [Function.comp, Bool.and_eq_true, beq_iff_eq, hhi x hx]
  exact ⟨And.left, fun h => ⟨h, h ▸ hpast⟩⟩

theorem filter_map_chk_nil {α : Type} {l : List α} {past : α → Bool} {chk : α → Chk} {hi : Nat} (hhi : ∀ x, (chk x).hi ≠ hi) :
    ((l.filter past).map chk).filter (fun k => k.hi == hi) = [] := by
  rw [List.filter_eq_nil_iff]
  intro k hk
  obtain ⟨x, -, rfl⟩ := List.mem_map.mp hk
  simp [hhi x]

theorem Cell.linkChk {x : Cell} {links : List Nat} {dir : Nat} (hlow : 1 ≤ dir) (hhigh : dir ≤ 4) (hrun : 15 ≤ mget 0 x.linkRun dir)
    (hmem : dir ∈ links) : (x.freeChks links []).filter (fun k => k.hi == (7 + dir) * 2 ^ 56) =
      [{ code := 6, hi := (7 + dir) * 2 ^ 56, lo := mget 0 x.linkRun dir + 1 }] := by
  have hdir : dir ∈ [1, 2, 3, 4] := by simp; omega
  simp only [Cell.freeChks, List.map_nil, List.filter_nil, List.eraseDups_nil, List.append_nil]
  rw [filter_map_chk (a := dir) (by decide) hdir (by simp [hmem, hrun])]
  intro d _
  simp

theorem Cell.bankChk {x : Cell} {now : List Access} {mem bank : Nat} (hbanks : ∀ a ∈ now, a.bank < 256)
    (hacc : ∃ a ∈ now, a.mem = mem ∧ a.bank = bank) (hrun : 63 ≤ mget 0 x.bankRun (16 * mem + bank)) :
    (x.freeChks [] now).filter (fun k => k.hi == mem * 2 ^ 56 + bank * 2 ^ 48) =
      [{ code := 7, hi := mem * 2 ^ 56 + bank * 2 ^ 48, lo := mget 0 x.bankRun (16 * mem + bank) + 1 }] := by
  obtain ⟨a, ha, rfl, rfl⟩ := hacc
  have hbank := hbanks a ha
  have hmem : (a.mem, a.bank) ∈ (now.map (fun a => (a.mem, a.bank))).eraseDups := List.mem_eraseDups.mpr (List.mem_map_of_mem ha)
  simp only [Cell.freeChks, List.filter_append, List.contains_nil, Bool.false_and, List.filter_false, List.map_nil, List.nil_append]
  rw [filter_map_chk (a := (a.mem, a.bank)) (nodup_eraseDups _) hmem (by simpa using hrun), filter_map_chk_nil]
  · rfl
  · intro m
    dsimp only
    omega
  · intro k hk
    obtain ⟨b, hb, rfl⟩ := List.mem_map.mp (List.mem_eraseDups.mp hk)
    have hbank' := hbanks b hb
    simp only [Prod.mk.injEq]
    omega

theorem Cell.portChk {x : Cell} {now : List Access} {mem : Nat} (hacc : ∃ a ∈ now, a.mem = mem ∧ a.port = 3)
    (hrun : 63 ≤ mget 0 x.portRun mem) : (x.freeChks [] now).filter (fun k => k.hi == mem * 2 ^ 56 + 3 * 2 ^ 40) =
      [{ code := 7, hi := mem * 2 ^ 56 + 3 * 2 ^ 40, lo := mget 0 x.portRun mem + 1 }] := by
  obtain ⟨a, ha, rfl, hport⟩ := hacc
  have hmem : a.mem ∈ ((now.filter (fun a => a.port == 3)).map (fun a => a.mem)).eraseDups :=
    List.mem_eraseDups.mpr (List.mem_map_of_mem (List.mem_filter.mpr ⟨ha, by simp [hport]⟩))
  simp only [Cell.freeChks, List.filter_append, List.contains_nil, Bool.false_and, List.filter_false, List.map_nil, List.nil_append]
  rw [filter_map_chk (nodup_eraseDups _) hmem (by simpa using hrun), filter_map_chk_nil]
  · rfl
  · intro k
    dsimp only
    omega
  · intro m _
    dsimp only
    omega

theorem State.failNow_of_eq {s : State} {c : Nat} {l : List Chk} {k : Chk} (h : l = [k]) : s.failNow c l = s.failCell c [k] := by
  subst h
  rfl

/-- Settles O11: of the free-cycle checks of the cell, the one of the link, bank or port is the check that fails. -/
theorem noFreeCycleFails : Obligations.NoFreeCycleFails := by
  intro s c hrunning
  obtain ⟨r, hr⟩ := Option.isSome_iff_exists.mp hrunning
  refine ⟨fun dir hlow hhigh hrun hmem => ?_, fun mem bank hbanks hacc hrun => ?_, fun mem bank hacc hrun => ?_⟩
  · simp only [exec_linkNoFree, execLinkNoFree, hr]
    rw [State.failNow_of_eq (Cell.linkChk hlow hhigh hrun hmem)]
  · simp only [exec_bankNoFree, execBankNoFree, hr, Bool.false_eq_true, if_false]
    rw [State.failNow_of_eq (Cell.bankChk hbanks hacc hrun)]
  · simp only [exec_bankNoFree, execBankNoFree, hr, if_true]
    rw [State.failNow_of_eq (Cell.portChk hacc hrun)]

end Sys2Proof.Machine

namespace Sys2Proof.Machine

/-! ## Beats and pause beats (R107-R111, R118) -/

@[simp] theorem State.panes_settleHold (s : State) (r : Nat) : (s.settleHold r).panes = s.panes := by
  unfold State.settleHold
  dsimp only
  repeat' split
  all_goals rfl

@[simp] theorem State.pane_settleHold (s : State) (r p : Nat) : (s.settleHold r).pane p = s.pane p :=
  by rw [State.pane, State.panes_settleHold, State.pane]

theorem State.pane_setPane_same (s : State) (p : Nat) (q : Pane) : (s.setPane p q).pane p = q := mget_mset_same ..

theorem State.pane_setPane_ne (s : State) {p i : Nat} (q : Pane) (h : i ≠ p) : (s.setPane p q).pane i = s.pane i := by
  unfold State.pane State.setPane
  rw [mget_mset, if_neg h]

theorem State.region_setPane (s : State) (p r : Nat) (q : Pane) : (s.setPane p q).region r = s.region r := rfl

/-- A pane whose beat is over and is not the last waits for its neighbours (R108). -/
theorem execBeatComplete_next {s : State} {p r : Nat} (hr : s.runningRegion p = some r) (hrun : (s.pane p).cond = .running)
    (hcyc : (s.pane p).cyc = (s.region r).beatLen) (hbeat : (s.pane p).beat ≠ (s.region r).lastBeat) :
    execBeatComplete p s = .next (s.setPane p { s.pane p with cond := .complete }) := by
  simp only [execBeatComplete, hr]
  rw [if_pos ⟨hrun, hcyc⟩, if_neg (fun h => hbeat h.1), if_neg hbeat]

/-- A pane whose last beat is over stops, and the step's beats are over with the last of them (R111). -/
theorem execBeatComplete_last {s : State} {p r : Nat} (hr : s.runningRegion p = some r) (hrun : (s.pane p).cond = .running)
    (hcyc : (s.pane p).cyc = (s.region r).beatLen) (hbeat : (s.pane p).beat = (s.region r).lastBeat) :
    execBeatComplete p s = if ∀ i ∈ (s.region r).panes, i ≠ p → (s.pane i).cond = .stopped ∧ (s.pane i).beat = (s.region r).lastBeat then
      .next ((s.setPane p { s.pane p with cond := .stopped }).modRegion r (fun x =>
        { x with flight := x.flight.map (fun f => { f with beatsOver := true }) }))
    else .next (s.setPane p { s.pane p with cond := .stopped }) := by
  simp only [execBeatComplete, hr]
  rw [if_pos ⟨hrun, hcyc⟩, if_pos hbeat]
  refine if_congr ?_ rfl rfl
  simp only [hbeat, true_and, State.region_setPane, List.all_eq_true, Bool.and_eq_true, beq_iff_eq]
  refine forall₂_congr (fun i _ => ?_)
  by_cases hi : i = p
  · subst hi
    simp [State.pane_setPane_same, hbeat]
  · simp [State.pane_setPane_ne s _ hi, hi]

theorem beatsEnd (s : State) (p r : Nat) (hr : s.runningRegion p = some r) :
    let q := s.pane p
    let g := s.region r
    let ended (i : Nat) : Prop := (s.pane i).cond = .stopped ∧ (s.pane i).beat = g.lastBeat
    (q.cond = .running → q.cyc = g.beatLen → q.beat ≠ g.lastBeat →
      exec (.beatComplete p) s = .next (s.setPane p { q with cond := .complete })) ∧
    (q.cond = .running → q.cyc = g.beatLen → q.beat = g.lastBeat → (∃ i ∈ g.panes, i ≠ p ∧ ¬ ended i) →
      exec (.beatComplete p) s = .next (s.setPane p { q with cond := .stopped })) ∧
    (q.cond = .running → q.cyc = g.beatLen → q.beat = g.lastBeat → (∀ i ∈ g.panes, i ≠ p → ended i) →
      exec (.beatComplete p) s = .next ((s.setPane p { q with cond := .stopped }).modRegion r (fun x =>
        { x with flight := x.flight.map (fun f => { f with beatsOver := true }) }))) ∧
    (q.cond = .complete → s.neighboursDone p g = true → exec (.beatBegin p) s = .next (s.beginOrPause p r)) ∧
    (q.cond = .paused 0 → exec (.pauseBeatEnd p) s = .next (s.beginOrPause p r)) := by
  refine ⟨fun hrun hcyc hbeat => (exec_beatComplete p s).trans (execBeatComplete_next hr hrun hcyc hbeat),
    fun hrun hcyc hbeat hsome => ?_, fun hrun hcyc hbeat hall => ?_, fun hcond hdone => ?_, fun hcond => ?_⟩
  · obtain ⟨i, hi, hne, hnot⟩ := hsome
    rw [exec_beatComplete, execBeatComplete_last hr hrun hcyc hbeat, if_neg (fun h => hnot (h i hi hne))]
  · rw [exec_beatComplete, execBeatComplete_last hr hrun hcyc hbeat, if_pos hall]
  · simp only [exec_beatBegin, execBeatBegin, hr]
    rw [if_pos ⟨hcond, hdone⟩]
  · simp only [exec_pauseBeatEnd, execPauseBeatEnd, hr]
    rw [if_pos hcond]

theorem beginOrPause_pane (s : State) (p r : Nat) : (s.beginOrPause p r).pane p =
    if pauseSlot (s.pane p).slotJ (s.region r).k = true then
      { s.pane p with kNow := (s.region r).k, slotJ := ((s.pane p).slotJ + 1) % 32, cond := .paused (s.region r).beatLen }
    else { s.pane p with
      kNow := (s.region r).k, slotJ := ((s.pane p).slotJ + 1) % 32, cond := .running, beat := (s.pane p).begun,
      begun := (s.pane p).begun + 1, cyc := 0 } := by
  unfold State.beginOrPause
  dsimp only
  split
  · rw [State.pane_settleHold]
    exact State.pane_setPane_same ..
  · rw [State.pane_settleHold]
    exact State.pane_setPane_same ..

/-- Of 32 successive slots, those for a pause beat are counted for each level (R118). -/
theorem pauseSlots_length : ∀ k : Nat, k ≤ 32 → ((List.range 32).filter (fun j => pauseSlot j k)).length = k := by
  intro k hk
  have hall : ∀ k : Fin 33, ((List.range 32).filter (fun j => pauseSlot j k)).length = k := by decide
  exact hall ⟨k, Nat.lt_succ_of_le hk⟩

/-! ## Stalls (R112, R115) -/

theorem stallsEnd (s : State) (p : Nat) :
    let q := s.pane p
    (∀ (ws : List (Nat × Nat)) (a r : Nat), q.cond = .awaitStall ws → q.resumeAt = some a → a ≤ s.time → s.runningRegion p = some r →
      exec (.awaitResume p) s = .next
        (((ws.foldl (fun b w => b.takeAwaited w.1 w.2 (s.region r).stepNo) s).setPane p
          { q with cond := .running, resumeAt := none }).settleHold r)) ∧
    (∀ a r : Nat, q.cond = .outStall → q.outWait = [] → q.resumeAt = some a → a ≤ s.time → s.runningRegion p = some r →
      exec (.outboundResume p) s = .next ((s.setPane p { q with cond := .running, resumeAt := none }).settleHold r)) := by
  refine ⟨fun ws a r hcond hat hpast hr => ?_, fun a r hcond hwait hat hpast hr => ?_⟩
  · simp only [exec_awaitResume, execAwaitResume, hcond, hat, hr]
    rw [if_pos hpast]
  · simp only [exec_outboundResume, execOutboundResume, hat, hr]
    rw [if_pos ⟨hcond, hwait, hpast⟩]

theorem portDrains (s : State) (p : Nat) (e : W256) (rest : List W256) (vc dest addr len : Nat) (pre : Option LinkFmt)
    (hport : (s.pane p).outPort = e :: rest) :
    let q := s.pane p
    let port := match q.outWait with | w :: _ => rest ++ [w.2] | [] => rest
    let resume := if q.cond = .outStall ∧ q.outWait.drop 1 = [] ∧ q.resumeAt = none then some (s.time + q.cycles 2) else q.resumeAt
    let data := ((q.outMsg ++ [e]).flatMap (bytesOf 32)).take len
    exec (.outboundPortDrain p false vc dest addr ⟨len, pre⟩) s =
      .next (s.setPane p { q with outPort := port, outWait := q.outWait.drop 1, resumeAt := resume, outMsg := q.outMsg ++ [e] }) ∧
    exec (.outboundPortDrain p true vc dest addr ⟨len, none⟩) s =
      .next ((s.setPane p { q with outPort := port, outWait := q.outWait.drop 1, resumeAt := resume, outMsg := [] }).sendWrite (vc % 4)
        dest addr data) ∧
    (∀ f : LinkFmt, exec (.outboundPortDrain p true 2 dest addr ⟨len, some f⟩) s =
      .next ((s.setPane p { q with outPort := port, outWait := q.outWait.drop 1, resumeAt := resume, outMsg := [] }).sendWrite 2
        dest addr (valuesPayload f data))) := by
  cases hwait : (s.pane p).outWait <;> refine ⟨?_, ?_, fun f => ?_⟩ <;>
    simp only [exec_outboundPortDrain, execOutboundPortDrain, hport, hwait, List.drop, if_true, if_false, Bool.false_eq_true]

/-! ## The hold watchdog (R119) -/

/-- The lower of the two stalled cells, in the order of their numbers. -/
def lowerStall (a : Option (Nat × Nat × Nat × Nat)) (w : Nat × Nat × Nat × Nat) : Option (Nat × Nat × Nat × Nat) :=
  match a with | none => some w | some b => if w.1 < b.1 then some w else some b

theorem foldl_lowerStall {x : Nat × Nat × Nat × Nat} (l : List (Nat × Nat × Nat × Nat)) (a : Option (Nat × Nat × Nat × Nat))
    (hmem : a = some x ∨ x ∈ l) (ha : ∀ b, a = some b → b = x ∨ x.1 < b.1) (hl : ∀ w ∈ l, w = x ∨ x.1 < w.1) :
    l.foldl lowerStall a = some x := by
  induction l generalizing a with
  | nil => simpa using hmem
  | cons w l ih =>
    rw [List.foldl_cons]
    have hw := hl w List.mem_cons_self
    refine ih _ ?_ ?_ (fun v hv => hl v (List.mem_cons_of_mem _ hv))
    · obtain h | h := hmem
      · left
        subst h
        obtain rfl | hlt := hw
        · simp [lowerStall]
        · simp [lowerStall, Nat.not_lt_of_lt hlt]
      · obtain rfl | h := List.mem_cons.mp h
        · left
          cases a with
          | none => rfl
          | some b =>
            obtain rfl | hlt := ha b rfl
            · simp [lowerStall]
            · simp [lowerStall, hlt]
        · exact .inr h
    · intro b hb
      cases a with
      | none =>
        obtain rfl : w = b := by simpa [lowerStall] using hb
        exact hw
      | some c =>
        have hc := ha c rfl
        unfold lowerStall at hb
        dsimp only at hb
        split at hb
        · obtain rfl : w = b := by simpa using hb
          exact hw
        · obtain rfl : c = b := by simpa using hb
          exact hc

/-- A hold as long as the limit names the lowest stalled cell, or with none the lowest held pane (R119). -/
theorem execHoldTimeout_due {s : State} {r t : Nat} (hsince : (s.region r).holdSince = some t) (hstate : (s.region r).state = 3)
    (hshifts : (s.region r).shifts = []) (hpast : t + ms (s.region r).wdogMs ≤ s.time) :
    execHoldTimeout r s = match (s.stalledCells (s.region r)).foldl lowerStall none with
      | some (c, cause, item, cl) =>
        let f := s.cellRec c { cls := 0, code := 0x10, iaddr := min (s.cell c).pc 1023,
                               detHi := cause * 2 ^ 56 + item * 2 ^ 48 + cl * 2 ^ 40, detLo := (s.time - t) / 4000 }
        .next (((s.report c f).modCell c (fun x => x.latchFault f)).stopContract r)
      | none =>
        let p := ((s.region r).panes.filter (fun i => (s.pane i).cond.holds)).foldl min 785
        .next ((s.report (unitPane p) (s.paneRec p
          { cls := 0, code := 0x10, detHi := 3 * 2 ^ 56, detLo := (s.time - t) / 4000 })).stopContract r) := by
  simp only [execHoldTimeout, hsince]
  rw [if_pos ⟨hstate, hshifts, hpast⟩]
  rfl

theorem holdTimesOut (s : State) (r t : Nat) (hsince : (s.region r).holdSince = some t) (hstate : (s.region r).state = 3)
    (hshifts : (s.region r).shifts = []) (hpast : t + ms (s.region r).wdogMs ≤ s.time) :
    let g := s.region r
    let len := (s.time - t) / 4000
    (∀ c cause item cl : Nat, (c, cause, item, cl) ∈ s.stalledCells g → (∀ w ∈ s.stalledCells g, w = (c, cause, item, cl) ∨ c < w.1) →
      exec (.holdTimeout r) s =
        (let f := s.cellRec c { cls := 0, code := 0x10, iaddr := min (s.cell c).pc 1023,
                                detHi := cause * 2 ^ 56 + item * 2 ^ 48 + cl * 2 ^ 40, detLo := len }
         .next (((s.report c f).modCell c (fun x => x.latchFault f)).stopContract r))) ∧
    (s.stalledCells g = [] →
      exec (.holdTimeout r) s =
        (let p := (g.panes.filter (fun i => (s.pane i).cond.holds)).foldl min 785
         .next ((s.report (unitPane p) (s.paneRec p { cls := 0, code := 0x10, detHi := 3 * 2 ^ 56, detLo := len })).stopContract r))) := by
  constructor
  · intro c cause item cl hmem hleast
    have hlow := foldl_lowerStall (s.stalledCells (s.region r)) none (.inr hmem) (by simp) hleast
    rw [exec_holdTimeout, execHoldTimeout_due hsince hstate hshifts hpast, hlow]
  · intro hnone
    rw [exec_holdTimeout, execHoldTimeout_due hsince hstate hshifts hpast, hnone, List.foldl_nil]

/-- Settles O13: each event of a pane's beat, stall or hold does what its rule says, in its own case. -/
theorem beatsPausesStallsAndTheWatchdog : Obligations.BeatsPausesStallsAndTheWatchdog := by
  refine ⟨fun s p r hr => beatsEnd s p r hr, pauseSlots_length, ?_, ?_, fun s r t => holdTimesOut s r t⟩
  · intro s p r
    refine ⟨fun h => ?_, fun h => ?_⟩
    · rw [beginOrPause_pane, if_pos h]
      exact ⟨rfl, rfl, rfl⟩
    · rw [beginOrPause_pane, if_neg (by simp [h])]
      exact ⟨rfl, rfl, rfl, rfl, rfl⟩
  · intro s p
    obtain ⟨hawait, hout⟩ := stallsEnd s p
    exact ⟨hawait, hout, fun e rest vc dest addr len pre hport => portDrains s p e rest vc dest addr len pre hport⟩

end Sys2Proof.Machine

namespace Sys2Proof.Machine

/-! ## Background accesses (R53, R56) -/

theorem Cell.countEv_eq (x : Cell) (e : PmcEv) (n : Nat) : ∃ pmc, x.countEv e n = { x with pmc := pmc } := by
  unfold Cell.countEv
  split
  · exact ⟨_, rfl⟩
  · exact ⟨_, rfl⟩

theorem Cell.countMem_eq (x : Cell) (ev : PmcEv) (mem offset : Nat) (narrow bg : Bool) :
    ∃ pmc, x.countMem ev mem offset narrow bg = { x with pmc := pmc } := by
  obtain ⟨p1, h1⟩ := x.countEv_eq { ev with cls := 3, ev := 1, loc := some (mem, offset) } 1
  have hnarrow : ∃ p2, (if narrow = true then
      ({ x with pmc := p1 } : Cell).countEv { ev with cls := 3, ev := 2, loc := some (mem, offset) } 1 else { x with pmc := p1 }) =
      { x with pmc := p2 } := by
    split
    · exact Cell.countEv_eq ..
    · exact ⟨_, rfl⟩
  obtain ⟨p2, h2⟩ := hnarrow
  unfold Cell.countMem
  simp only [h1, h2]
  split
  · exact Cell.countEv_eq ..
  · exact ⟨_, rfl⟩

/-- Counting an access writes the counters alone. -/
theorem Cell.countAcc_eq (x : Cell) (a : Access) (bg : Bool) (ev : PmcEv) :
    ∃ pmc bankCnt, x.countAcc a bg ev = { x with pmc := pmc, bankCnt := bankCnt } := by
  unfold Cell.countAcc Cell.countBank
  obtain ⟨pmc, h⟩ := Cell.countMem_eq _ ev a.mem a.offset a.narrow bg
  exact ⟨pmc, _, h⟩

theorem Cell.mem_setMem_same (x : Cell) (mem : Nat) (m : Mem) : (x.setMem mem m).mem mem = m := by
  match mem with
  | 0 | 1 | 2 | 3 | 4 => rfl
  | _ + 5 => rfl

theorem Cell.setMem_fields (x : Cell) (mem : Nat) (m : Mem) : (x.setMem mem m).bg = x.bg ∧ (x.setMem mem m).granted = x.granted := by
  unfold Cell.setMem
  split <;> exact ⟨rfl, rfl⟩

theorem Cell.mem_popBg (x : Cell) (i mem : Nat) : (x.popBg i).mem mem = x.mem mem := by
  unfold Cell.popBg
  dsimp only
  split
  · rfl
  · split <;> rfl

theorem findIdx?_holds {α : Type} {p : α → Bool} {l : List α} {i : Nat} {a : α} (h : l.findIdx? p = some i) (ha : l[i]? = some a) :
    p a = true := by
  obtain ⟨hi, hp, -⟩ := List.findIdx?_eq_some_iff_getElem.mp h
  rw [List.getElem?_eq_getElem hi] at ha
  obtain rfl := Option.some.inj ha
  exact hp

theorem State.cell_setCell_same (s : State) (c : Nat) (x : Cell) : (s.setCell c x).cell c = x := mget_mset_same ..

/-- A write of the window at the head of its memory's queue is done in the memory and leaves the queue (R56). -/
theorem State.cell_doBg_write {s : State} {c src : Nat} {req : Requester} {rtag : Nat} {b : BgReq} {d : List Byte} (hdata : b.data = some d)
    (hpurpose : b.purpose = .window src req rtag) (h5 : b.mem ≠ 5) :
    ((s.doBg c b).cell c).mem b.mem = ((s.cell c).mem b.mem).write b.offset d ∧ ((s.doBg c b).cell c).bg = (s.cell c).bg ∧
      ((s.doBg c b).cell c).granted = (s.cell c).granted := by
  have hfields := Cell.setMem_fields (s.cell c) b.mem (((s.cell c).mem b.mem).write b.offset d)
  unfold State.doBg State.answerBg
  simp only [hdata, hpurpose, if_neg h5]
  obtain ⟨pmc, bankCnt, hcount⟩ := Cell.countAcc_eq ((s.cell c).setMem b.mem (((s.cell c).mem b.mem).write b.offset d))
    ⟨(s.pane (paneOfCell c)).runCycles, b.mem, 3, bankOf b.mem b.offset, 0, 0, b.offset, decide (d.length < memWidth b.mem)⟩ true
    { cls := 3, ev := 1, master := 4, byOwner := req == 0, byGuest := req != 0 }
  rw [hcount, State.cell_setCell_same]
  exact ⟨Cell.mem_setMem_same .., hfields.1, hfields.2⟩

theorem backgroundWrites {s : State} {c mem i : Nat} {b : BgReq} {d : List Byte} (h5 : mem ≠ 5)
    (hhead : (s.cell c).bg.findIdx? (fun q => q.mem == mem) = some i) (hb : (s.cell c).bg[i]? = some b)
    (hstill : (s.pane (paneOfCell c)).cond ≠ .running) (hgrant : mem ∉ (s.cell c).granted) (hshift : s.rowShifting c = false)
    (hpower : (s.pane (paneOfCell c)).power = 0) (hdata : b.data = some d) (hwindow : ∃ src req rtag, b.purpose = .window src req rtag) :
    ∃ t, exec (.backgroundAccessGrant c mem) s = .next t ∧
      (t.cell c).mem mem = ((s.cell c).mem mem).write b.offset d ∧ (t.cell c).bg = ((s.cell c).popBg i).bg ∧
      (t.cell c).granted = mem :: (s.cell c).granted := by
  obtain rfl : b.mem = mem := by simpa using findIdx?_holds hhead hb
  obtain ⟨src, req, rtag, hpurpose⟩ := hwindow
  have hcycle : s.inCycle (paneOfCell c) = false := by
    unfold State.inCycle
    dsimp only
    split
    · rfl
    · simp [hstill]
  have hdone := State.cell_doBg_write (s := s.setCell c { ((s.cell c).popBg i) with granted := b.mem :: (s.cell c).granted }) (c := c)
    hdata hpurpose h5
  rw [State.cell_setCell_same] at hdone
  refine ⟨(s.setCell c { ((s.cell c).popBg i) with granted := b.mem :: (s.cell c).granted }).doBg c b, ?_, ?_, hdone.2.1, hdone.2.2⟩
  · simp only [exec_backgroundAccessGrant, execBackgroundAccessGrant, hcycle, State.serveBg, hhead, hb, hpurpose]
    rw [if_neg (by decide), if_neg (by simp [hstill, hgrant, hshift, hpower])]
  · rw [hdone.1]
    exact congrArg (fun m => Mem.write m b.offset d) (Cell.mem_popBg ..)

/-! ## Verdict words (R101, R102) -/

/-- The last declared verdict word of a slot, of an item not taken, makes the item ready (R101). -/
theorem State.verdict_last {s : State} {c r v decl : Nat} (tileIn : Bool) (hr : s.runningRegion (paneOfCell c) = some r) (hcell : s.regionOfCell c = some r)
    (hdecl : (s.cell c).repeats.find? (fun e => bits e 63 58 == bits v 57 52) = some decl) (htaken : bits decl 49 45 ∉ (s.cell c).taken)
    (hlast : (mget ({} : RepeatState) (s.cell c).repState (bits v 57 52)).words + 1 = bits decl 57 50)
    (hwidened : (mget ({} : RepeatState) (s.cell c).repState (bits v 57 52)).widened ≤
      (mget ({} : RepeatState) (s.cell c).repState (bits v 57 52)).tiles) (hnot : bitAt v 31 = false) :
    let old := mget ({} : RepeatState) (s.cell c).repState (bits v 57 52)
    s.verdict c v tileIn =
      (s.setCell c { s.cell c with repState := mset (s.cell c).repState (bits v 57 52) { old with words := old.words + 1 } }).makeReady
        c (bits decl 49 45) (s.region r).stepNo := by
  have hslot : bits decl 63 58 = bits v 57 52 := by simpa using List.find?_some hdecl
  have hfew : ¬ (mget ({} : RepeatState) (s.cell c).repState (bits v 57 52)).words ≥ bits decl 57 50 := by omega
  have hcell' (x : Cell) : (s.setCell c x).regionOfCell c = some r := hcell
  simp only [State.verdict, hr, hdecl, Option.getD_some, hnot]
  rw [if_neg (by simp [htaken, hfew])]
  simp only [State.slotCheck, hcell', State.cell_setCell_same, hslot, mget_mset_same, Bool.false_and, Bool.false_eq_true, if_false]
  rw [if_pos ⟨hlast, hwidened⟩]
  rfl

/-- A verdict word past the declared ones, or of an item already taken, fails the check REPEAT_OVERFLOW (R102). -/
theorem State.verdict_overflow {s : State} {c r v decl : Nat} (tileIn : Bool) (hr : s.runningRegion (paneOfCell c) = some r)
    (hdecl : (s.cell c).repeats.find? (fun e => bits e 63 58 == bits v 57 52) = some decl)
    (hmany : bits decl 49 45 ∈ (s.cell c).taken ∨ bits decl 57 50 ≤ (mget ({} : RepeatState) (s.cell c).repState (bits v 57 52)).words) :
    ∃ k : Chk, k.code = 0xF ∧ k.lo = bits decl 57 50 ∧ s.verdict c v tileIn = s.failCell c [k] := by
  refine ⟨{ code := 0xF, hi := bits v 63 58 * 2 ^ 58 + bits v 57 52 * 2 ^ 52 + bits v 51 40 * 2 ^ 40, lo := bits decl 57 50 }, rfl, rfl, ?_⟩
  simp only [State.verdict, hr, hdecl, Option.getD_some]
  rw [if_pos (by simpa using hmany)]

/-! ## The cell window (R31, R61, R63) -/

theorem State.windowAccess_memData {s : State} {src c req : Nat} (rtag : Nat) (val : Option Nat) (hcell : cellExists c = true)
    (hsrc : s.accessor src = some req) (hallow : s.windowAllowed c req = true) (hshift : s.rowShifting c = false)
    (happroved : s.keeper.approved = false) (hstate : s.runState c ≤ 1) :
    s.windowAccess src c 0x308 rtag val = s.memData src c rtag req (val.map (natLE 8)) := by
  have hreg : s.windowReg c 0x308 = true := rfl
  simp only [State.windowAccess, hsrc, hcell, hreg, hallow, hshift, State.memDataAllowed, happroved, hstate]
  rfl

theorem State.memData_queues {s : State} {src c rtag req : Nat} (data : Option (List Byte)) (hcode : memDataCode (s.cell c).memAddr = 0)
    (h5 : bits (s.cell c).memAddr 63 60 ≠ 5) :
    let a := (s.cell c).memAddr
    let off := bits a 19 0
    let next := if bitAt a 20 then a - off + (off + 8) % 2 ^ 20 else a
    s.memData src c rtag req data = ((s.touch c).modCell c (fun x => { x with memAddr := next })).queueBg c
      { mem := bits a 63 60, offset := off, data := data, purpose := .window src req rtag } := by
  simp only [State.memData]
  rw [if_neg (not_not.mpr hcode), if_neg h5]

theorem State.windowAccess_control {s : State} {src c req : Nat} (v : Nat) (hcell : cellExists c = true) (hsrc : s.accessor src = some req)
    (hallow : s.windowAllowed c req = true) (hshift : s.rowShifting c = false) :
    s.windowAccess src c 0x010 0 (some v) = (s.touch c).modCell c (fun x => x.writeReg 0x010 v (req != 0)) := by
  have hreg : s.windowReg c 0x010 = true := rfl
  simp only [State.windowAccess, hsrc, hcell, hreg, hallow, hshift]
  rfl

theorem windowCommands {s : State} {src c req rtag : Nat} (hcell : cellExists c = true) (hsrc : s.accessor src = some req)
    (hallow : s.windowAllowed c req = true) (hshift : s.rowShifting c = false) :
    let s1 (off : Nat) (wr : Bool) (v : Nat) := s.traced (windowAddr c off) wr v
    (∀ w : BitVec 64, s.keeper.approved = false → s.runState c ≤ 1 → memDataCode (s.cell c).memAddr = 0 →
      bits (s.cell c).memAddr 63 60 ≠ 5 →
      let a := (s.cell c).memAddr
      let off := bits a 19 0
      let next := if bitAt a 20 then a - off + (off + 8) % 2 ^ 20 else a
      let queued (t : State) (data : Option (List Byte)) : State :=
        ((t.touch c).modCell c (fun x => { x with memAddr := next })).queueBg c
          { mem := bits a 63 60, offset := off, data := data, purpose := .window src req (if data.isNone then rtag else 0) }
      exec (.memDataRead src c rtag) s = .next (queued (s1 0x308 false 0) none) ∧
      exec (.memDataWrite src c w) s = .next (queued (s1 0x308 true w.toNat) (some (natLE 8 w.toNat)))) ∧
    exec (.clearBankCounters src c) s = .next (((s1 0x010 true 2).touch c).modCell c (fun x => { x with bankCnt := [] })) ∧
    exec (.clearFaultLatch src c) s = .next (((s1 0x010 true 1).touch c).modCell c (fun x => { x with latchReg := {} })) := by
  refine ⟨fun w happroved hstate hcode h5 => ⟨?_, ?_⟩, ?_, ?_⟩
  · simp only [exec_memDataRead, execMemDataRead]
    rw [State.windowAccess_memData (s := s.traced _ _ _) rtag none hcell hsrc hallow hshift happroved hstate,
      State.memData_queues (s := s.traced _ _ _) _ hcode h5]
    rfl
  · simp only [exec_memDataWrite, execMemDataWrite, State.windowWrite]
    rw [State.windowAccess_memData (s := s.traced _ _ _) 0 (some w.toNat) hcell hsrc hallow hshift happroved hstate,
      State.memData_queues (s := s.traced _ _ _) _ hcode h5]
    rfl
  · simp only [exec_clearBankCounters, execClearBankCounters, State.windowWrite]
    rw [State.windowAccess_control (s := s.traced _ _ _) 2 hcell hsrc hallow hshift]
    rfl
  · simp only [exec_clearFaultLatch, execClearFaultLatch, State.windowWrite]
    rw [State.windowAccess_control (s := s.traced _ _ _) 1 hcell hsrc hallow hshift]
    rfl

/-- Settles O14: deliveries, background accesses and window accesses each change what their rule names. -/
theorem deliveriesAndCellWindows : Obligations.DeliveriesAndCellWindows := by
  refine ⟨fun s => ⟨?_, ?_, ?_, ?_⟩, fun s src c req rtag hcell hsrc hallow hshift => windowCommands hcell hsrc hallow hshift⟩
  · intro r k d t hd ht
    simp only [exec_itemDelivery, execItemDelivery, hd, ht]
    rfl
  · intro c mem hcycle hnew
    simp only [exec_backgroundAccessGrant, execBackgroundAccessGrant, hcycle, if_true, State.modCell]
    rw [if_neg (by simpa using hnew)]
  · intro c mem i b d h5 hhead hb hstill hgrant hshift hpower hdata hwindow
    exact backgroundWrites h5 hhead hb hstill hgrant hshift hpower hdata hwindow
  · intro c r w tileIn decl hr hcell hdecl
    refine ⟨fun htaken hlast hwidened hnot => ?_, fun hmany => ?_⟩
    · rw [exec_verdictWord]
      exact congrArg Host.Outcome.next (State.verdict_last tileIn hr hcell hdecl htaken hlast hwidened hnot)
    · obtain ⟨k, hcode, hlo, hk⟩ := State.verdict_overflow tileIn hr hdecl hmany
      refine ⟨k, hcode, hlo, ?_⟩
      rw [exec_verdictWord]
      exact congrArg Host.Outcome.next hk

end Sys2Proof.Machine

namespace Sys2Proof.Machine

/-! ## Branches, loops and awaits (R45, R111, R112) -/

theorem Ctx.branch_issues {s : State} {c : Nat} (h : Issues s c 0) (hbranch : (s.ctx c).branchChk = []) {ok : Bool} (hok : ok = true)
    (x : Cell → Cell) : issue c 0 (fun k => (k.base ok ++ k.branchChk, x k.x)) s = .next (s.issuedAs c 0 (x (s.cell c))) :=
  issue_of_issues h (by rw [Ctx.base_of_issues h hok, hbranch, List.nil_append])

theorem branchesIssue (s : State) (c rs target : Nat) (h : Issues s c 0) (hrs : rs < 32) (htarget : target < 1024)
    (hbranch : (s.ctx c).branchChk = []) :
    let x := s.cell c
    exec (.jmp c target) s = .next (s.issuedAs c 0 { x with branchNext := some (some target) }) ∧
    exec (.br c rs target) s =
      .next (s.issuedAs c 0 { x with branchNext := some (if Config.branchTaken (x.s rs) then some target else none) }) :=
  ⟨(exec_jmp c target s).trans (Ctx.branch_issues h hbranch (by simp [htarget]) (fun x => { x with branchNext := some (some target) })),
    (exec_br c rs target s).trans (Ctx.branch_issues h hbranch (by simp [htarget, hrs]) (fun x =>
      { x with branchNext := some (if Config.branchTaken (x.s rs) then some target else none) }))⟩

/-- A taken branch goes on in sequence for its delay bundle and then to its target (R45). -/
theorem Cell.advance_taken {x : Cell} {t : Nat} (hstep : x.stepwait = false) (hloops : x.loops = []) (hdelay : x.inDelay = false)
    (hbranch : x.branchNext = some (some t)) :
    x.advance.pc = x.pc + 1 ∧ x.advance.inDelay = true ∧ x.advance.advance.pc = t ∧ x.advance.advance.inDelay = false := by
  have hadvance : x.advance = { x with pc := x.pc + 1, loops := [], branch := some t, branchNext := none, inDelay := true } := by
    simp [Cell.advance, hstep, hloops, hdelay, hbranch, seqNext]
  rw [hadvance]
  exact ⟨rfl, rfl, by simp [Cell.advance, hstep], by simp [Cell.advance, hstep]⟩

theorem Ctx.awaitChk_eq_nil {s : State} {c item : Nat} (h : Issues s c 0) (hitem : item < 32) (hlen : item < (s.cell c).items.length)
    (htaken : item ∉ (s.cell c).taken) : (s.ctx c).awaitChk item = [] := by
  have hlen' : ¬ item ≥ (s.ctx c).x.items.length := Nat.not_le_of_lt hlen
  have htaken' : ¬ (s.ctx c).x.taken.contains item = true := fun hmem => htaken (List.contains_iff_mem.mp hmem)
  simp only [Ctx.awaitChk, Ctx.base_of_issues h (decide_eq_true hitem)]
  rw [if_neg hlen', if_neg htaken', List.append_nil]

theorem execLoop_of_issues {s : State} {c count last : Nat} {fromReg : Bool} (h : Issues s c 0) (hlast : last < 1024)
    (hdepth : (s.cell c).loops.length < 4) (hreg : fromReg = true → count < 32)
    (hlow : 1 ≤ if fromReg then ((s.cell c).s count).toNat else count)
    (hhigh : (if fromReg then ((s.cell c).s count).toNat else count) ≤ 65535) (hend : (s.cell c).inDelay = false ∨ last ≠ (s.cell c).pc) :
    execLoop c fromReg count last s = .next (s.issuedAs c 0 { s.cell c with
      loops := ⟨(s.cell c).pc + 1, last, if fromReg then ((s.cell c).s count).toNat else count⟩ :: (s.cell c).loops }) := by
  have hoperands : (decide (last < 1024) && (!fromReg || decide (count < 32))) = true := by
    cases fromReg with
    | false => simp [hlast]
    | true => simp [hlast, hreg rfl]
  have hend' : ((s.cell c).inDelay && last == (s.cell c).pc) = false := by
    obtain hin | hne := hend
    · rw [hin, Bool.false_and]
    · rw [beq_false_of_ne hne, Bool.and_false]
  refine issue_of_issues h ?_
  have hx : (s.ctx c).x = s.cell c := rfl
  simp only [Ctx.base_of_issues h hoperands, hx, hend']
  rw [if_neg (by simp; omega), List.append_nil]

/-- AWAIT of an item not taken before: its delivery of this step is taken, or awaited until the cycle's end (R112). -/
theorem execAwait_of_issues {s : State} {c item : Nat} (h : Issues s c 0) (hitem : item < 32) (hlen : item < (s.cell c).items.length)
    (htaken : item ∉ (s.cell c).taken) : execAwait c item s = .next (s.issuedAs c 0
      (if (s.cell c).ready.contains (item, (s.ctx c).step) then (s.cell c).take item (s.ctx c).step
      else { s.cell c with awaiting := some item })) :=
  issue_of_issues h (Ctx.awaitChk_eq_nil h hitem hlen htaken)

theorem execStepwait_of_issues {s : State} {c : Nat} (h : Issues s c 0) (hbeat : (s.ctx c).beat = (s.ctx c).reg.lastBeat) :
    execStepwait c s = .next (s.issuedAs c 0 { s.cell c with stepwait := true }) := by
  rw [execStepwait]
  refine issue_of_issues h ?_
  rw [Ctx.base_of_issues h rfl, if_pos hbeat, List.append_nil]

theorem controlIssues (s : State) (c : Nat) (h : Issues s c 0) :
    let x := s.cell c
    (∀ (fromReg : Bool) (count last : Nat), last < 1024 → x.loops.length < 4 → (fromReg = true → count < 32) →
      let n := if fromReg then (x.s count).toNat else count
      1 ≤ n → n ≤ 65535 → (x.inDelay = false ∨ last ≠ x.pc) →
      exec (.loop c fromReg count last) s = .next (s.issuedAs c 0 { x with loops := ⟨x.pc + 1, last, n⟩ :: x.loops })) ∧
    (∀ item : Nat, item < 32 → item < x.items.length → item ∉ x.taken → (item, (s.ctx c).step) ∈ x.ready →
      exec (.await c item) s = .next (s.issuedAs c 0 (x.take item (s.ctx c).step))) ∧
    (∀ item : Nat, item < 32 → item < x.items.length → item ∉ x.taken → (item, (s.ctx c).step) ∉ x.ready →
      exec (.await c item) s = .next (s.issuedAs c 0 { x with awaiting := some item })) ∧
    ((s.ctx c).beat = (s.ctx c).reg.lastBeat →
      exec (.stepwait c) s = .next (s.issuedAs c 0 { x with stepwait := true })) := by
  refine ⟨?_, ?_, ?_, fun hbeat => (exec_stepwait c s).trans (execStepwait_of_issues h hbeat)⟩
  · intro fromReg count last hlast hdepth hreg n hlow hhigh hend
    exact (exec_loop c fromReg count last s).trans (execLoop_of_issues h hlast hdepth hreg hlow hhigh hend)
  · intro item hitem hlen htaken hready
    rw [exec_await, execAwait_of_issues h hitem hlen htaken, if_pos (List.contains_iff_mem.mpr hready)]
  · intro item hitem hlen htaken hready
    rw [exec_await, execAwait_of_issues h hitem hlen htaken, if_neg (fun hc => hready (List.contains_iff_mem.mp hc))]

/-! ### A cycle that waits for a delivery (R112) -/

theorem mget_mmap_proj {α β : Type} {f : Nat → α → α} {g : α → β} (hf : ∀ k x, g (f k x) = g x) (d : α) (m : SMap α) (k : Nat) :
    g (mget d (mmap f m) k) = g (mget d m k) := by
  induction m with
  | nil => rfl
  | cons q m ih =>
    by_cases h : q.1 = k
    · simp [mget, mmap, h, hf]
    · simpa [mget, mmap, h] using ih

theorem State.modPaneListed_cell {β : Type} {f : Cell → Cell} {g : Cell → β} (hf : ∀ x, g (f x) = g x) (s : State) (p c : Nat) :
    g ((s.modPaneListed p f).cell c) = g (s.cell c) := by
  refine mget_mmap_proj (f := fun c x => if paneOfCell c == p then f x else x) (g := g) (fun k x => ?_) {} s.cells c
  split
  · exact hf x
  · rfl

@[simp] theorem State.cells_settleHold (s : State) (r : Nat) : (s.settleHold r).cells = s.cells := by
  unfold State.settleHold
  dsimp only
  repeat' split
  all_goals rfl

theorem cycleWaits (s u : State) (p r : Nat) (w : Nat × Nat) (ws : List (Nat × Nat))
    (hawait : (s.serveAsked p).settleAwaits p (s.region r).stepNo = (u, w :: ws))
    (hgood : (u.listedCells p).any (fun c => u.failed c) = false) :
    ((s.runCycle p r).pane p).cond = .awaitStall (w :: ws) ∧ ((s.runCycle p r).pane p).runCycles = (u.pane p).runCycles ∧
      ∀ c, ((s.runCycle p r).cell c).sreg = (u.cell c).sreg ∧ ((s.runCycle p r).cell c).evs = (u.cell c).evs := by
  have hrun : s.runCycle p r = ((u.modPane p (fun q => { q with cond := .awaitStall (w :: ws), resumeAt := none })).modPaneListed p
      (fun x => x.countEv (schedEv 2 1) 1)).settleHold r := by
    simp only [State.runCycle, hawait]
    rw [if_pos (by simp [hgood])]
  have hpane : (s.runCycle p r).pane p = { u.pane p with cond := .awaitStall (w :: ws), resumeAt := none } := by
    rw [hrun, State.pane_settleHold]
    exact State.pane_setPane_same ..
  have hsreg (x : Cell) : (x.countEv (schedEv 2 1) 1).sreg = x.sreg := by
    obtain ⟨pmc, h⟩ := x.countEv_eq (schedEv 2 1) 1
    rw [h]
  have hevs (x : Cell) : (x.countEv (schedEv 2 1) 1).evs = x.evs := by
    obtain ⟨pmc, h⟩ := x.countEv_eq (schedEv 2 1) 1
    rw [h]
  refine ⟨by rw [hpane], by rw [hpane], fun c => ?_⟩
  rw [hrun, State.cell, State.cells_settleHold]
  exact ⟨State.modPaneListed_cell (g := Cell.sreg) hsreg _ p c, State.modPaneListed_cell (g := Cell.evs) hevs _ p c⟩

theorem State.settleAwaits_one {s : State} {p n c item : Nat} {x : Cell} (hcells : s.cells = [(c, x)]) (hpane : paneOfCell c = p)
    (hitem : x.awaiting = some item) :
    s.settleAwaits p n = (if (item, n) ∈ x.ready then (s.takeAwaited c item n, []) else (s, [(c, item)])) := by
  have hlisted : s.listedCells p = [c] := by simp [State.listedCells, hcells, hpane]
  have hcell : s.cell c = x := by simp [State.cell, hcells, mget]
  simp [State.settleAwaits, hlisted, hcell, hitem]

/-- Settles O4: each control operation issues as its rule says, and a cycle that finds no delivery ready stops its pane. -/
theorem branchesLoopsAndAwaits : Obligations.BranchesLoopsAndAwaits :=
  ⟨branchesIssue, fun _ _ => Cell.advance_taken, controlIssues, cycleWaits, fun _ _ _ _ _ _ => State.settleAwaits_one⟩

end Sys2Proof.Machine

namespace Sys2Proof.Machine

/-! ## A region that has stopped stays stopped while its step and its runs end (R124) -/

/-- Which regions of a table have stopped. -/
def stoppedIn (m : SMap Region) (r : Nat) : Bool := (mget ({} : Region) m r).state == 4

/-- Which regions of the module have stopped. -/
def State.stops (s : State) : Nat → Bool := stoppedIn s.regions

theorem State.stops_iff (s : State) (r : Nat) : s.stops r = true ↔ (s.region r).state = 4 := beq_iff_eq

@[simp] theorem State.stops_fold (s : State) : stoppedIn s.regions = s.stops := rfl

/-- The same of a state written with its fields. -/
@[simp] theorem State.stops_mk x0 x1 x2 x3 x4 x5 x6 x7 x8 x9 x10 x11 x12 x13 x14 x15 x16 x17 x18 x19
    x20 x21 x22 x23 x24 x25 x26 x27 x28 x29 x30 x31 x32 x33 x34 x35 x36 x37 :
    (State.mk x0 x1 x2 x3 x4 x5 x6 x7 x8 x9 x10 x11 x12 x13 x14 x15 x16 x17 x18 x19
      x20 x21 x22 x23 x24 x25 x26 x27 x28 x29 x30 x31 x32 x33 x34 x35 x36 x37).stops = stoppedIn x7 := rfl

@[simp] theorem State.stops_ite (c : Prop) [Decidable c] (s t : State) :
    (if c then s else t).stops = if c then s.stops else t.stops := apply_ite State.stops c s t

@[simp] theorem foldl_stops {β : Type} (f : State → β → State) (h : ∀ a x, (f a x).stops = a.stops) (l : List β) (s : State) :
    (l.foldl f s).stops = s.stops := foldl_proj State.stops h l s

theorem apartFromQueues_stops : ApartFromQueues State.stops := ⟨fun _ _ _ _ => rfl, fun _ _ => rfl⟩

/-- A change of a region that keeps it stopped or not keeps which regions have stopped. -/
@[simp] theorem State.modRegion_stops (s : State) (r : Nat) (f : Region → Region)
    (h : ((f (s.region r)).state == 4) = ((s.region r).state == 4)) : (s.modRegion r f).stops = s.stops := by
  funext q
  change (((s.modRegion r f).region q).state == 4) = ((s.region q).state == 4)
  rw [State.region_modRegion]
  split
  · subst q
    exact h
  · rfl

@[simp] theorem State.modGuest_stops (s : State) (g : Nat) (f : Guest → Guest) : (s.modGuest g f).stops = s.stops := rfl

@[simp] theorem State.setPane_stops (s : State) (p : Nat) (x : Pane) : (s.setPane p x).stops = s.stops := by simp [State.setPane]

@[simp] theorem State.modPane_stops (s : State) (p : Nat) (f : Pane → Pane) : (s.modPane p f).stops = s.stops := by simp [State.modPane]

@[simp] theorem State.modRegionPanes_stops (s : State) (r : Nat) (f : Nat → Pane → Pane) :
    (s.modRegionPanes r f).stops = s.stops := by simp [State.modRegionPanes]

@[simp] theorem State.modListed_stops (s : State) (r : Nat) (f : Nat → Cell → Cell) :
    (s.modListed r f).stops = s.stops := by simp [State.modListed]

@[simp] theorem State.sendRecord_stops (s : State) (q : Nat × Nat) (dest addr : Nat) (data : List Byte) :
    (s.sendRecord q dest addr data).stops = s.stops := by simp [State.sendRecord]

@[simp] theorem State.report_stops (s : State) (unit : Nat) (f : FaultRec) : (s.report unit f).stops = s.stops := by simp [State.report]

@[simp] theorem State.setQueue_stops (s : State) (g e : Nat) (q : Queue) : (s.setQueue g e q).stops = s.stops := by simp [State.setQueue]

@[simp] theorem State.modEntry_stops (s : State) (id : EntryId) (f : Entry → Entry) :
    (s.modEntry id f).stops = s.stops := by simp [State.modEntry]

@[simp] theorem State.complete_stops (s : State) (id : EntryId) (status result : Nat) : (s.complete id status result).stops = s.stops :=
  apartFromQueues_stops.complete s id status result

@[simp] theorem State.clearPending_stops (s : State) (a n : Nat) : (s.clearPending a n).stops = s.stops := by simp [State.clearPending]

@[simp] theorem State.markUnits_stops (s : State) (a n g : Nat) : (s.markUnits a n g).stops = s.stops := by simp [State.markUnits]

theorem State.allocUnits_stops {s t : State} {g n lo a : Nat} (h : s.allocUnits g n lo = some (a, t)) : t.stops = s.stops := by
  simp only [State.allocUnits, Option.ite_none_right_eq_some, Option.some.injEq, Prod.mk.injEq] at h
  obtain ⟨-, -, rfl⟩ := h
  simp

@[simp] theorem State.freeUnits_stops (s : State) (a n : Nat) : (s.freeUnits a n).stops = s.stops := by simp [State.freeUnits]

@[simp] theorem State.setDesc_stops (s : State) (d : Nat) (x : Desc) : (s.setDesc d x).stops = s.stops := by simp [State.setDesc]

@[simp] theorem State.modDesc_stops (s : State) (d : Nat) (f : Desc → Desc) : (s.modDesc d f).stops = s.stops := by simp [State.modDesc]

@[simp] theorem State.delDesc_stops (s : State) (d : Nat) : (s.delDesc d).stops = s.stops := by simp [State.delDesc]

@[simp] theorem State.settleHolds_stops (s : State) : s.settleHolds.stops = s.stops := by simp [State.settleHolds]

@[simp] theorem State.modSlot_stops (s : State) (r n : Nat) (f : SeqSlot → SeqSlot) :
    (s.modSlot r n f).stops = s.stops := by simp [State.modSlot]

@[simp] theorem State.demote_stops (s : State) (d : Nat) : (s.demote d).stops = s.stops := by simp [State.demote]

theorem State.demoteOne_stops {s t : State} {r : Nat} {l : KvLayer} {pinned : List Nat} (h : s.demoteOne r l pinned = some t) :
    t.stops = s.stops := by
  simp only [State.demoteOne] at h
  split at h
  · contradiction
  · obtain rfl := Option.some.inj h
    simp

theorem State.takeFrame_stops {s t : State} {r n : Nat} {l : KvLayer} {pinned : List Nat} {o : Option Nat}
    (h : s.takeFrame r l pinned n = (o, t)) : t.stops = s.stops := by
  induction n generalizing s with
  | zero => grind [State.takeFrame]
  | succ n ih => grind [State.takeFrame, State.demoteOne_stops]

@[simp] theorem State.dropDesc_stops (s : State) (d : Nat) : (s.dropDesc d).stops = s.stops := by simp [State.dropDesc]

theorem dropUntil_stops {ok : State → Bool} {l : List (List Nat)} {s t : State} {n k : Nat} (h : dropUntil ok l s n = (t, k)) :
    t.stops = s.stops := by
  induction l generalizing s n with
  | nil => grind [dropUntil]
  | cons v r ih =>
    unfold dropUntil at h
    split at h
    · grind
    · simpa using ih h

theorem State.takeUnits_stops {s t : State} {g n lo r : Nat} {pinned : List Nat} {o : Option Nat}
    (h : s.takeUnits g n lo pinned r = (o, t)) : t.stops = s.stops := by
  unfold State.takeUnits at h
  split at h
  · next a u hu =>
    cases h
    simp [State.allocUnits_stops hu]
  · split at h
    next u k hu =>
    have hu' : (if k = 0 then u else u.report (unitEngine 2)
        { cls := 8, code := 5, guest := g, detHi := g + k % 2 ^ 32 * 2 ^ 16 }).stops = s.stops := by
      simp [dropUntil_stops hu]
    simp only at h
    split at h
    · next a v hv =>
      cases h
      exact (State.allocUnits_stops hv).trans hu'
    · cases h
      exact hu'

theorem State.allocPage_eq_stops {s t : State} {r g : Nat} {l : KvLayer} {framed : Bool} {pinned : List Nat} {o : Option Nat}
    (h : s.allocPage r g l framed pinned = (o, t)) : t.stops = s.stops := by
  unfold State.allocPage at h
  split at h
  · cases h
    rfl
  · split at h
    next frame u hu =>
    have hu' : u.stops = s.stops := by grind [State.takeFrame_stops]
    simp only at h
    grind [State.takeUnits_stops, State.setDesc_stops]

@[simp] theorem State.decRef_stops (s : State) (d : Nat) : (s.decRef d).stops = s.stops := by simp [State.decRef]

@[simp] theorem State.freeBlock_stops (s : State) (b : Nat) : (s.freeBlock b).stops = s.stops := by
  unfold State.freeBlock
  split <;> simp

@[simp] theorem State.trimLists_stops (s : State) (r n : Nat) : (s.trimLists r n).stops = s.stops := by simp [State.trimLists]

@[simp] theorem State.freeLog_stops (s : State) (x : SeqSlot) : (s.freeLog x).stops = s.stops := by simp [State.freeLog]

@[simp] theorem State.settleWindows_stops (s : State) (r : Nat) : (s.settleWindows r).stops = s.stops := by simp [State.settleWindows]

@[simp] theorem State.freeSlot_stops (s : State) (r n : Nat) : (s.freeSlot r n).stops = s.stops := by simp [State.freeSlot]

@[simp] theorem State.returnResv_stops (s : State) (r : Nat) (rs : List (Nat × Nat × Nat × Nat)) :
    (s.returnResv r rs).stops = s.stops := by simp [State.returnResv]

@[simp] theorem State.returnPromos_stops (s : State) (ps : List (Nat × Nat × Nat)) :
    (s.returnPromos ps).stops = s.stops := by simp [State.returnPromos]

@[simp] theorem State.sendToken_stops (s : State) (r : Nat) (sinkFa sinkAddr token slot pos gen endCode spec : Nat) :
    (s.sendToken r sinkFa sinkAddr token slot pos gen endCode spec).stops = s.stops := by simp [State.sendToken]

@[simp] theorem State.sendEndTo_stops (s : State) (r slotNo endCode : Nat) (other : Nat × Nat) :
    (s.sendEndTo r slotNo endCode other).stops = s.stops := by simp [State.sendEndTo]

@[simp] theorem State.sendEnd_stops (s : State) (r slotNo endCode : Nat) :
    (s.sendEnd r slotNo endCode).stops = s.stops := by simp [State.sendEnd]

@[simp] theorem State.openSlot_stops (s : State) (r n : Nat) (id : EntryId) (w : Nat) : (s.openSlot r n id w).1.stops = s.stops := by
  simp [State.openSlot, apply_ite Prod.fst]

@[simp] theorem State.copyPages_stops (s : State) (r g : Nat) (kv : List KvLayer) (l : List (Nat × Nat)) :
    (s.copyPages r g kv l).2.1.stops = s.stops := by
  induction l generalizing s with
  | nil => rfl
  | cons q rest ih =>
    simp only [State.copyPages]
    generalize hu :
      (if (s.desc q.2).unbound ∨ (s.desc q.2).region = r ∨ (s.desc q.2).refcnt ≤ 1 then _ else _ : Option Nat × State) = u
    have hu' : u.2.stops = s.stops := by
      rw [← hu]
      split
      · rfl
      · split
        · rfl
        · split
          · split <;> simp
          · split
            · next v hv => exact State.allocPage_eq_stops hv
            · next e v hv => simpa using State.allocPage_eq_stops hv
    split <;> simp [ih, hu']

@[simp] theorem State.rebind_stops (s : State) (r d : Nat) : (s.rebind r d).stops = s.stops := by simp [State.rebind]

@[simp] theorem State.setPark_stops (s : State) (i : Nat) (p : ParkRec) : (s.setPark i p).stops = s.stops := by simp [State.setPark]

@[simp] theorem State.claimPark_stops (s : State) (w st : Nat) : (s.claimPark w st).stops = s.stops := by simp [State.claimPark]

@[simp] theorem State.resumeSlot_stops (s : State) (r n : Nat) (id : EntryId) (w : Nat) : (s.resumeSlot r n id w).1.stops = s.stops := by
  simp only [State.resumeSlot]
  split
  · rfl
  · split <;> simp [apply_ite Prod.fst]

@[simp] theorem State.popOp_stops (s : State) (r n : Nat) (id : EntryId) : (s.popOp r n id).stops = s.stops := by simp [State.popOp]

@[simp] theorem State.opDone_stops (s : State) (r n : Nat) (id : EntryId) (status result : Nat) :
    (s.opDone r n id status result).stops = s.stops := by simp [State.opDone]

@[simp] theorem State.endCancel_stops (s : State) (r n : Nat) : (s.endCancel r n).stops = s.stops := by
  unfold State.endCancel
  split <;> simp

@[simp] theorem State.settleOps_stops (s : State) (r n k : Nat) : (s.settleOps r n k).stops = s.stops := by
  induction k generalizing s with
  | zero => rfl
  | succ k ih =>
    unfold State.settleOps
    split <;> simp [ih]

@[simp] theorem State.settleSlot_stops (s : State) (r n : Nat) : (s.settleSlot r n).stops = s.stops := by simp [State.settleSlot]

@[simp] theorem State.settleIdle_stops (s : State) (r : Nat) : (s.settleIdle r).stops = s.stops := by
  unfold State.settleIdle
  dsimp only
  split
  · next h => exact State.modRegion_stops s r _ (by rw [h.1]; rfl)
  · rfl

@[simp] theorem State.endRun_stops (s : State) (r : Nat) (e : RunEntry) (status result : Nat) :
    (s.endRun r e status result).stops = s.stops := by simp [State.endRun]

@[simp] theorem State.swingNow_stops (s : State) (r k : Nat) (id : EntryId) : (s.swingNow r k id).stops = s.stops := by simp [State.swingNow]

@[simp] theorem State.applySwings_stops (s : State) (r n : Nat) : (s.applySwings r n).stops = s.stops := by
  induction n generalizing s with
  | zero => rfl
  | succ n ih =>
    simp only [State.applySwings]
    split
    · rfl
    · split
      · rfl
      · split <;> simp [ih]

@[simp] theorem State.settleSwings_stops (s : State) (r : Nat) : (s.settleSwings r).stops = s.stops := by simp [State.settleSwings]

@[simp] theorem State.settleHold_stops (s : State) (r : Nat) : (s.settleHold r).stops = s.stops := by
  unfold State.settleHold
  dsimp only
  split <;> simp

@[simp] theorem State.freeQuiet_stops (s : State) (r n : Nat) : (s.freeQuiet r n).stops = s.stops := by simp [State.freeQuiet]

@[simp] theorem State.leaveStep_stops (s : State) (r n : Nat) (f : Flight) : (s.leaveStep r n f).stops = s.stops := by simp [State.leaveStep]

@[simp] theorem State.abandonFlight_stops (s : State) (r : Nat) : (s.abandonFlight r).stops = s.stops := by
  unfold State.abandonFlight
  dsimp only
  repeat' split
  all_goals simp

@[simp] theorem State.endRuns_stops (s : State) (r status : Nat) : (s.endRuns r status).stops = s.stops := by simp [State.endRuns]

end Sys2Proof.Machine

namespace Sys2Proof.Machine

/-! ## The stop of a region (R124) -/

theorem State.state_stopRegion {s : State} {r : Nat} (h : (s.region r).state = 2 ∨ (s.region r).state = 3) :
    ((s.stopRegion r).region r).state = 4 := by
  rw [← State.stops_iff]
  unfold State.stopRegion
  dsimp only
  rw [if_pos h]
  generalize hu : State.modRegion (List.foldl _ (s.dropHeld r) _) r _ = u
  have hstopped : u.stops r = true := by
    rw [← hu, State.stops_iff, State.region_modRegion_same]
  split <;> simp [hstopped]

theorem State.state_stopContract {s : State} {r : Nat} (h : (s.region r).state = 3) : ((s.stopContract r).region r).state = 4 := by
  unfold State.stopContract
  rw [if_neg (by omega), State.region_modRegion_same]
  exact State.state_stopRegion (.inr h)

/-! ## Failed checks of a cell (R123) -/

/-- The codes of which the cell's present running cycle has failed checks already. -/
def State.seenCodes (s : State) (c : Nat) : List Nat :=
  if (s.cell c).faultCycle = some (s.pane (paneOfCell c)).runCycles then (s.cell c).faultCodes else []

/-- The failed checks that are new in the cycle, by ascending code. -/
def State.newChks (s : State) (c : Nat) (chks : List Chk) : List Chk :=
  sortBy (fun (a b : Chk) => decide (a.code ≤ b.code)) ((firstOfCode chks).filter (fun k => !(s.seenCodes c).contains k.code))

/-- A failed check is reported, and latched where no lower code stands. -/
def State.recordChk (c n pc : Nat) (seen : List Nat) (s : State) (k : Chk) : State :=
  let f := s.cellRec c { cls := 0, code := k.code, iaddr := k.iaddr.getD (min pc 1023), detHi := k.hi, detLo := k.lo }
  (s.report c f).modCell c (fun x =>
    if x.faultCycle = some n ∧ seen.contains x.latchReg.code ∧ k.code < x.latchReg.code then
      ({ x with latchReg := {} }).latchFault f
    else x.latchFault f)

/-- The records of the failed checks, before the cycle's effects in the cell are dropped. -/
def State.chksRecorded (s : State) (c : Nat) (chks : List Chk) : State :=
  (s.newChks c chks).foldl (State.recordChk c (s.pane (paneOfCell c)).runCycles (s.cell c).pc (s.seenCodes c)) s

/-- The failed checks recorded and the cycle's effects in the cell dropped: what remains is the region's stop. -/
def State.chksFailed (s : State) (c : Nat) (chks : List Chk) : State :=
  (s.chksRecorded c chks).modCell c (fun y =>
    y.suppress (mget y (s.chksRecorded c chks).snap c) (s.pane (paneOfCell c)).runCycles ((s.newChks c chks).map (·.code)))

theorem State.failCell_eq {s : State} {c r : Nat} (chks : List Chk) (hr : s.regionOfCell c = some r) :
    s.failCell c chks = if (s.pane (paneOfCell c)).cond = .running ∧ (s.pane (paneOfCell c)).cyc < ((s.chksFailed c chks).region r).beatLen ∧
        ((s.chksFailed c chks).region r).state = 3 then s.chksFailed c chks else (s.chksFailed c chks).stopContract r := by
  simp only [State.failCell, hr]
  rfl

theorem State.latched_cell (x : Cell) (n : Nat) (seen : List Nat) (k : Chk) (f : FaultRec) : ∃ w,
    (if x.faultCycle = some n ∧ seen.contains x.latchReg.code ∧ k.code < x.latchReg.code then
      ({ x with latchReg := {} } : Cell).latchFault f
    else x.latchFault f) = { x with latchReg := w } := by
  unfold Cell.latchFault
  repeat' split
  all_goals exact ⟨_, rfl⟩

/-- Records of failed checks leave the regions, the panes and the snapshots, and of the cell all but its fault latch. -/
theorem State.recorded_frame {s : State} {c n pc : Nat} {seen : List Nat} (l : List Chk) :
    let t := l.foldl (State.recordChk c n pc seen) s
    t.regions = s.regions ∧ t.panes = s.panes ∧ t.snap = s.snap ∧ (∃ w, t.cell c = { s.cell c with latchReg := w }) ∧
      ∀ d, d ≠ c → t.cell d = s.cell d := by
  induction l generalizing s with
  | nil => exact ⟨rfl, rfl, rfl, ⟨_, rfl⟩, fun _ _ => rfl⟩
  | cons k l ih =>
    obtain ⟨hregions, hpanes, hsnap, ⟨w, hw⟩, hother⟩ := ih (s := s.recordChk c n pc seen k)
    obtain ⟨v, hv⟩ := State.latched_cell (s.cell c) n seen k
      (s.cellRec c { cls := 0, code := k.code, iaddr := k.iaddr.getD (min pc 1023), detHi := k.hi, detLo := k.lo })
    have hcell : (s.recordChk c n pc seen k).cell c = { s.cell c with latchReg := v } := by
      rw [State.recordChk, State.cell_modCell_same, ← hv]
      simp
    refine ⟨hregions.trans (by simp [State.recordChk]), hpanes.trans (by simp [State.recordChk]), hsnap.trans (by simp [State.recordChk]),
      ⟨w, by rw [List.foldl_cons, hw, hcell]⟩, fun d hd => (hother d hd).trans ?_⟩
    rw [State.recordChk, State.cell_modCell, if_neg hd]
    simp

theorem State.chksFailed_frame (s : State) (c : Nat) (chks : List Chk) : (s.chksFailed c chks).regions = s.regions ∧
    (s.chksFailed c chks).panes = s.panes ∧ (∀ d, d ≠ c → (s.chksFailed c chks).cell d = s.cell d) := by
  obtain ⟨hregions, hpanes, -, -, hother⟩ := State.recorded_frame (s := s) (c := c) (n := (s.pane (paneOfCell c)).runCycles)
    (pc := (s.cell c).pc) (seen := s.seenCodes c) (s.newChks c chks)
  exact ⟨hregions, hpanes, fun d hd => by rw [State.chksFailed, State.cell_modCell, if_neg hd]; exact hother d hd⟩

/-- A cell with failed checks stands as it did before the cycle, with its memories and without what would land in it (R123). -/
theorem State.cell_chksFailed (s : State) (c : Nat) (chks : List Chk) :
    let x := (s.chksFailed c chks).cell c
    let old := mget (s.cell c) s.snap c
    x.faultCycle = some (s.pane (paneOfCell c)).runCycles ∧ x.sreg = old.sreg ∧ x.vreg = old.vreg ∧ x.acc = old.acc ∧ x.pc = old.pc ∧
      x.amem = (s.cell c).amem ∧ x.pmem = (s.cell c).pmem ∧
      x.evs = old.evs.filter (fun e => decide ((s.pane (paneOfCell c)).runCycles < e.due)) := by
  obtain ⟨-, -, hsnap, ⟨w, hw⟩, -⟩ := State.recorded_frame (s := s) (c := c) (n := (s.pane (paneOfCell c)).runCycles)
    (pc := (s.cell c).pc) (seen := s.seenCodes c) (s.newChks c chks)
  have hcell : (s.chksFailed c chks).cell c = ({ s.cell c with latchReg := w } : Cell).suppress
      (mget { s.cell c with latchReg := w } s.snap c) (s.pane (paneOfCell c)).runCycles ((s.newChks c chks).map (·.code)) := by
    rw [State.chksFailed, State.cell_modCell_same, State.chksRecorded, hw, hsnap]
  have hold {β : Type} (g : Cell → β) (hg : g { s.cell c with latchReg := w } = g (s.cell c)) :
      g (mget { s.cell c with latchReg := w } s.snap c) = g (mget (s.cell c) s.snap c) := by
    generalize s.snap = m
    induction m with
    | nil => exact hg
    | cons q m ih =>
      unfold mget
      split
      · rfl
      · exact ih
  rw [hcell]
  exact ⟨rfl, hold Cell.sreg rfl, hold Cell.vreg rfl, hold Cell.acc rfl, hold Cell.pc rfl, rfl, rfl,
    congrArg (List.filter (fun e : CellEv => decide ((s.pane (paneOfCell c)).runCycles < e.due))) (hold Cell.evs rfl)⟩

theorem failedCell (s : State) (c r : Nat) (k : Chk) (hr : s.regionOfCell c = some r) (hstate : (s.region r).state = 3) :
    let p := s.pane (paneOfCell c)
    let t := s.failCell c [k]
    let old := mget (s.cell c) s.snap c
    (p.cond = .running → p.cyc < (s.region r).beatLen →
      t.failed c = true ∧ (t.region r).state = 3 ∧ (t.cell c).sreg = old.sreg ∧ (t.cell c).vreg = old.vreg ∧ (t.cell c).acc = old.acc ∧
        (t.cell c).pc = old.pc ∧ (t.cell c).amem = (s.cell c).amem ∧ (t.cell c).pmem = (s.cell c).pmem ∧
        (t.cell c).evs = old.evs.filter (fun e => decide (p.runCycles < e.due))) ∧
    (p.cond ≠ .running → (t.region r).state = 4) := by
  obtain ⟨hregions, hpanes, -⟩ := State.chksFailed_frame s c [k]
  obtain ⟨hcycle, hcell⟩ := State.cell_chksFailed s c [k]
  have hregion : (s.chksFailed c [k]).region r = s.region r := by rw [State.region, hregions, State.region]
  have hpane : (s.chksFailed c [k]).pane (paneOfCell c) = s.pane (paneOfCell c) := by rw [State.pane, hpanes, State.pane]
  refine ⟨fun hcond hcyc => ?_, fun hcond => ?_⟩
  · rw [State.failCell_eq [k] hr, if_pos ⟨hcond, by rw [hregion]; exact hcyc, by rw [hregion]; exact hstate⟩]
    refine ⟨?_, by rw [hregion]; exact hstate, hcell⟩
    rw [State.failed, hcycle, hpane]
    exact beq_self_eq_true _
  · rw [State.failCell_eq [k] hr, if_neg (fun h => hcond h.1)]
    exact State.state_stopContract (by rw [hregion]; exact hstate)

/-! ## The end of a running cycle with a failed cell (R123, R124) -/

@[simp] theorem Cell.faultCycle_countEv (x : Cell) (e : PmcEv) (n : Nat) : (x.countEv e n).faultCycle = x.faultCycle := by
  obtain ⟨pmc, h⟩ := x.countEv_eq e n
  rw [h]

@[simp] theorem Cell.faultCycle_countAcc (x : Cell) (a : Access) (bg : Bool) (ev : PmcEv) :
    (x.countAcc a bg ev).faultCycle = x.faultCycle := by
  obtain ⟨pmc, bankCnt, h⟩ := x.countAcc_eq a bg ev
  rw [h]

@[simp] theorem Cell.faultCycle_setMem (x : Cell) (mem : Nat) (m : Mem) : (x.setMem mem m).faultCycle = x.faultCycle := by
  unfold Cell.setMem
  split <;> rfl

theorem foldl_faultCycle {β : Type} {f : Cell → β → Cell} (h : ∀ x b, (f x b).faultCycle = x.faultCycle) (l : List β) (x : Cell) :
    (l.foldl f x).faultCycle = x.faultCycle := by
  induction l generalizing x with
  | nil => rfl
  | cons b l ih => rw [List.foldl_cons, ih, h]

@[simp] theorem Cell.faultCycle_land1 (x : Cell) (n : Nat) (a : Act) : (x.land1 n a).faultCycle = x.faultCycle := by
  cases a with
  | sReg r v =>
    simp only [Cell.land1]
    split <;> rfl
  | accAdd e vals =>
    refine foldl_faultCycle (fun y l => ?_) _ x
    dsimp only
    split
    · rfl
    · rw [Cell.faultCycle_countEv]
  | store mem offset data a b port => exact Cell.faultCycle_setMem ..
  | _ => rfl

@[simp] theorem Cell.faultCycle_closeRun (x : Cell) : x.closeRun.faultCycle = x.faultCycle := by
  unfold Cell.closeRun
  split <;> rfl

@[simp] theorem Cell.faultCycle_advance (x : Cell) : x.advance.faultCycle = x.faultCycle := by
  unfold Cell.advance
  dsimp only
  repeat' split
  all_goals rfl

/-- The running cycle `n` of a pane goes on from `s` to `t`: the regions and the pane's course stand, and a failed cell stays failed. -/
structure GoesOn (p n : Nat) (s t : State) : Prop where
  regions : t.regions = s.regions
  region : (t.pane p).region = (s.pane p).region
  cond : (t.pane p).cond = (s.pane p).cond
  runCycles : (t.pane p).runCycles = (s.pane p).runCycles
  cyc : (t.pane p).cyc = (s.pane p).cyc
  failed : ∀ c, (s.cell c).faultCycle = some n → (t.cell c).faultCycle = some n

theorem GoesOn.refl (p n : Nat) (s : State) : GoesOn p n s s := ⟨rfl, rfl, rfl, rfl, rfl, fun _ h => h⟩

theorem GoesOn.trans {p n : Nat} {s t u : State} (h : GoesOn p n s t) (h' : GoesOn p n t u) : GoesOn p n s u :=
  ⟨h'.regions.trans h.regions, h'.region.trans h.region, h'.cond.trans h.cond, h'.runCycles.trans h.runCycles, h'.cyc.trans h.cyc,
    fun c hc => h'.failed c (h.failed c hc)⟩

theorem GoesOn.foldl {p n : Nat} {β : Type} {f : State → β → State} (h : ∀ a x, GoesOn p n a (f a x)) (l : List β) (s : State) :
    GoesOn p n s (l.foldl f s) := by
  induction l generalizing s with
  | nil => exact .refl p n s
  | cons x l ih => exact (h s x).trans (ih _)

theorem GoesOn.setCell {p n : Nat} (s : State) (c : Nat) (x : Cell) (h : (s.cell c).faultCycle = some n → x.faultCycle = some n) :
    GoesOn p n s (s.setCell c x) := by
  refine ⟨rfl, rfl, rfl, rfl, rfl, fun d hd => ?_⟩
  rw [State.cell, State.setCell, mget_mset]
  split
  · next hdc => exact h (hdc ▸ hd)
  · exact hd

theorem GoesOn.modCell {p n : Nat} (s : State) (c : Nat) (f : Cell → Cell) (h : ∀ x, (f x).faultCycle = x.faultCycle) :
    GoesOn p n s (s.modCell c f) :=
  .setCell s c _ (fun hc => (h _).trans hc)

theorem GoesOn.setPane {p n : Nat} (s : State) (i : Nat) (q : Pane) (hregion : q.region = (s.pane i).region) (hcond : q.cond = (s.pane i).cond)
    (hrun : q.runCycles = (s.pane i).runCycles) (hcyc : q.cyc = (s.pane i).cyc) : GoesOn p n s (s.setPane i q) := by
  by_cases hi : p = i
  · subst hi
    constructor <;> simp [State.pane_setPane_same, *]
  · constructor <;> simp [State.pane_setPane_ne s q hi]

theorem GoesOn.ite {p n : Nat} {c : Prop} [Decidable c] {s t u : State} (ht : GoesOn p n s t) (hu : GoesOn p n s u) :
    GoesOn p n s (if c then t else u) := by
  split
  · exact ht
  · exact hu

/-- A mesh entry leaves by one side of its router, where the route has that side. -/
def State.hopSide (c route src : Nat) (data : W256) (n beat : Nat) (e : RouteEnt) (s : State) (d : Nat) : State :=
  if bitAt e.out d then
    let s := s.modCell c (fun x => { x with linkUse := x.linkUse ++ [d] })
    match neighbour c d with
    | none => if hasLink c d then s.modCell c (fun x => x.countEv (schedEv 4 3) 1) else s
    | some m =>
      if s.wafer.wayDown (paneOfCell m) then s
      else if paneOfCell m = paneOfCell c then
        s.modCell m (fun x => { x with evs := x.evs ++ [⟨n + 1, .hop route (opposite d) src data⟩] })
      else
        (s.modCell m (fun x => { x with
          fifo := mset x.fifo (opposite d) (mget [] x.fifo (opposite d) ++ [⟨beat % 4, data⟩]) })).modCell c
          (fun x => x.countEv (schedEv 4 3) 1)
  else s

/-- A mesh entry leaves by the outbound port of its pane, where the route has it. -/
def State.hopPort (c src : Nat) (data : W256) (e : RouteEnt) (s : State) : State :=
  if bitAt e.out 5 then
    let s := s.modCell c (fun x => x.countEv (schedEv 4 4) 1)
    let q := s.pane (paneOfCell c)
    if q.outPort.length < 16 then s.setPane (paneOfCell c) { q with outPort := q.outPort ++ [data] }
    else s.setPane (paneOfCell c) { q with outWait := q.outWait ++ [(src, data)] }
  else s

theorem State.meshHop_of_route {s : State} {c route inSide src n k : Nat} {data : W256} {e : RouteEnt}
    (he : (s.cell c).routes.find? (fun p => p.1 == route) = some (k, e)) : s.meshHop c route inSide src data n =
      if e.inn ≠ inSide then s
      else State.hopPort c src data e ([1, 2, 3, 4].foldl (State.hopSide c route src data n (s.pane (paneOfCell c)).beat e)
        (if bitAt e.out 0 then s.modCell c (fun x => { x with inLatch := data }) else s)) := by
  simp only [State.meshHop, he]
  rfl

theorem GoesOn.hopSide {p n : Nat} (c route src : Nat) (data : W256) (m beat : Nat) (e : RouteEnt) (s : State) (d : Nat) :
    GoesOn p n s (State.hopSide c route src data m beat e s d) := by
  unfold State.hopSide
  refine .ite ?_ (.refl ..)
  refine (GoesOn.modCell s c (fun x => { x with linkUse := x.linkUse ++ [d] }) fun _ => rfl).trans ?_
  dsimp only
  split
  · exact .ite (.modCell _ _ _ fun x => x.faultCycle_countEv _ _) (.refl ..)
  · refine .ite (.refl ..) (.ite (.modCell _ _ _ fun _ => rfl) ?_)
    refine GoesOn.trans ?_ (.modCell _ _ _ fun x => x.faultCycle_countEv _ _)
    exact .modCell _ _ _ fun _ => rfl

theorem GoesOn.hopPort {p n : Nat} (c src : Nat) (data : W256) (e : RouteEnt) (s : State) :
    GoesOn p n s (State.hopPort c src data e s) := by
  unfold State.hopPort
  refine .ite ?_ (.refl ..)
  refine (GoesOn.modCell s c (fun x => x.countEv (schedEv 4 4) 1) fun x => x.faultCycle_countEv _ _).trans ?_
  exact .ite (.setPane _ _ _ rfl rfl rfl rfl) (.setPane _ _ _ rfl rfl rfl rfl)

/-- A mesh entry at a router changes links, latches and the outbound port, and no course of a pane (R115). -/
theorem GoesOn.meshHop {p n : Nat} (s : State) (c route inSide src : Nat) (data : W256) (m : Nat) :
    GoesOn p n s (s.meshHop c route inSide src data m) := by
  cases he : (s.cell c).routes.find? (fun p => p.1 == route) with
  | none =>
    unfold State.meshHop
    rw [he]
    exact .refl ..
  | some q =>
    rw [State.meshHop_of_route he]
    refine .ite (.refl ..) (GoesOn.trans ?_ (.hopPort ..))
    refine GoesOn.trans ?_ (.foldl (fun a d => GoesOn.hopSide c route src data m (s.pane (paneOfCell c)).beat q.2 a d) _ _)
    exact .ite (.modCell _ _ _ fun _ => rfl) (.refl ..)

/-- Failed checks of a cell of a pane under way leave the region and the pane's course to the cycle's end (R124). -/
theorem GoesOn.failCell {s : State} {r : Nat} (c : Nat) (chks : List Chk) (hr : s.regionOfCell c = some r)
    (hcond : (s.pane (paneOfCell c)).cond = .running) (hcyc : (s.pane (paneOfCell c)).cyc < (s.region r).beatLen)
    (hstate : (s.region r).state = 3) : GoesOn (paneOfCell c) (s.pane (paneOfCell c)).runCycles s (s.failCell c chks) := by
  obtain ⟨hregions, hpanes, hother⟩ := State.chksFailed_frame s c chks
  have hregion : (s.chksFailed c chks).region r = s.region r := by rw [State.region, hregions, State.region]
  have hpane : (s.chksFailed c chks).pane (paneOfCell c) = s.pane (paneOfCell c) := by rw [State.pane, hpanes, State.pane]
  rw [State.failCell_eq chks hr, if_pos ⟨hcond, by rw [hregion]; exact hcyc, by rw [hregion]; exact hstate⟩]
  refine ⟨hregions, by rw [hpane], by rw [hpane], by rw [hpane], by rw [hpane], fun d hd => ?_⟩
  by_cases hdc : d = c
  · rw [hdc]
    exact (State.cell_chksFailed s c chks).1
  · rw [hother d hdc]
    exact hd

/-- A running cycle is under way in the pane, its number `n`, and a cell of it has failed. -/
structure FailedCycle (p r n c : Nat) (s : State) : Prop where
  region : (s.pane p).region = some r
  cond : (s.pane p).cond = .running
  runCycles : (s.pane p).runCycles = n
  cyc : (s.pane p).cyc < (s.region r).beatLen
  state : (s.region r).state = 3
  failed : (s.cell c).faultCycle = some n

theorem FailedCycle.goesOn {p r n c : Nat} {s t : State} (h : FailedCycle p r n c s) (hgo : GoesOn p n s t) : FailedCycle p r n c t := by
  have hregion : t.region r = s.region r := by rw [State.region, hgo.regions, State.region]
  exact ⟨hgo.region.trans h.region, hgo.cond.trans h.cond, hgo.runCycles.trans h.runCycles, by rw [hgo.cyc, hregion]; exact h.cyc,
    by rw [hregion]; exact h.state, hgo.failed c h.failed⟩

theorem FailedCycle.failCell {p r n c : Nat} {s : State} (h : FailedCycle p r n c s) {d : Nat} (hd : paneOfCell d = p) (chks : List Chk) :
    FailedCycle p r n c (s.failCell d chks) := by
  subst hd
  obtain ⟨hregion, hcond, rfl, hcyc, hstate, hfailed⟩ := h
  exact FailedCycle.goesOn ⟨hregion, hcond, rfl, hcyc, hstate, hfailed⟩ (.failCell d chks hregion hcond hcyc hstate)

/-- What lands in a cell and what the cell counts leaves the others, and the cell itself as failed as it was. -/
theorem FailedCycle.endCycle {p r n c : Nat} {s : State} (h : FailedCycle p r n c s) {d : Nat} (hd : paneOfCell d = p) :
    FailedCycle p r n c (s.endCycle d) := by
  unfold State.endCycle
  extract_lets m x live due now b op links chks s1 x0 x1 s2 x2 x3 x4 s3 x5 x6 x7
  have h1 : FailedCycle p r n c s1 := by
    unfold s1
    split
    · exact h
    · exact h.failCell hd chks
  have h2 : FailedCycle p r n c s2 := h1.goesOn (.trans (t := { s1 with snap := mdel s1.snap d })
    ⟨rfl, rfl, rfl, rfl, rfl, fun _ hc => hc⟩ (.setCell _ d x1 fun hx => hx))
  have hx1 : s2.cell d = x1 := State.cell_setCell_same ..
  have hx4 : x4.faultCycle = x1.faultCycle := by
    have hx2 : x2.faultCycle = x1.faultCycle := foldl_faultCycle (fun y e => y.faultCycle_land1 m e.act) due x1
    have hx3 : x3.faultCycle = x2.faultCycle := foldl_faultCycle (fun y a => y.faultCycle_countAcc a false (schedEv 3 1)) now (x2.countRuns now)
    refine Eq.trans ?_ (hx3.trans hx2)
    unfold x4
    split
    · split
      · exact x3.faultCycle_closeRun
      · rfl
    · rfl
  have h3 : FailedCycle p r n c s3 := by
    refine h2.goesOn ((GoesOn.setCell s2 d x4 fun hx => ?_).trans (.foldl (fun a e => ?_) due _))
    · rw [hx4, ← hx1]
      exact hx
    · split
      · exact .meshHop ..
      · exact .refl ..
  have hx7 : x7.faultCycle = (s3.cell d).faultCycle := by
    have hx6 : x6.faultCycle = x5.faultCycle := by
      unfold x6
      split
      · rfl
      · exact x5.faultCycle_countEv _ _
    refine Eq.trans ?_ hx6
    unfold x7
    split
    · rfl
    · exact x6.faultCycle_advance
  split
  · exact h2.goesOn (.modCell s2 d _ fun _ => rfl)
  · exact h3.goesOn (.setCell s3 d _ fun hx => hx7.trans hx)

theorem FailedCycle.endCycles {p r n c : Nat} {l : List Nat} (hl : ∀ d ∈ l, paneOfCell d = p) {s : State} (h : FailedCycle p r n c s) :
    FailedCycle p r n c (l.foldl State.endCycle s) := by
  induction l generalizing s with
  | nil => exact h
  | cons d l ih => exact ih (fun e he => hl e (List.mem_cons_of_mem _ he)) (h.endCycle (hl d List.mem_cons_self))

theorem State.mem_listedCells {s : State} {p c : Nat} : c ∈ s.listedCells p ↔ c ∈ s.cells.map (·.1) ∧ paneOfCell c = p := by
  simp only [State.listedCells, List.mem_map, List.mem_filter, beq_iff_eq]
  constructor
  · rintro ⟨q, ⟨hq, hp⟩, rfl⟩
    exact ⟨⟨q, hq, rfl⟩, hp⟩
  · rintro ⟨⟨q, hq, rfl⟩, hp⟩
    exact ⟨q, ⟨hq, hp⟩, rfl⟩

/-- A cell that has failed is one that something has changed, so it is listed. -/
theorem FailedCycle.any_failed {p r n c : Nat} {s : State} (h : FailedCycle p r n c s) (hc : paneOfCell c = p) :
    (s.listedCells p).any (fun d => s.failed d) = true := by
  have hne : mget ({} : Cell) s.cells c ≠ {} := fun he => by
    have hf := h.failed
    rw [State.cell, he] at hf
    exact absurd hf (by simp)
  rw [List.any_eq_true]
  refine ⟨c, State.mem_listedCells.mpr ⟨List.mem_map_of_mem (mem_of_mget_ne hne), hc⟩, ?_⟩
  rw [State.failed, h.failed, hc, h.runCycles]
  exact beq_self_eq_true _

theorem State.serveAsked_nothing {s : State} {p : Nat} (h : ∀ c ∈ s.listedCells p, (s.cell c).grantAsk = []) : s.serveAsked p = s := by
  unfold State.serveAsked
  generalize s.listedCells p = l at h
  induction l with
  | nil => rfl
  | cons c l ih =>
    rw [List.foldl_cons, h c List.mem_cons_self]
    exact ih (fun d hd => h d (List.mem_cons_of_mem _ hd))

theorem State.settleAwaits_nothing {s : State} {p n : Nat} (h : ∀ c ∈ s.listedCells p, (s.cell c).awaiting = none) :
    s.settleAwaits p n = (s, []) := by
  unfold State.settleAwaits
  generalize s.listedCells p = l at h
  induction l with
  | nil => rfl
  | cons c l ih =>
    simp only [List.foldl_cons, h c List.mem_cons_self]
    exact ih (fun d hd => h d (List.mem_cons_of_mem _ hd))

@[simp] theorem State.state_settleHold (s : State) (r q : Nat) : ((s.settleHold r).region q).state = (s.region q).state := by
  have hmod (f : Region → Region) (hf : ∀ x, (f x).state = x.state) : ((s.modRegion r f).region q).state = (s.region q).state := by
    rw [State.region_modRegion]
    split
    · next h => rw [hf, h]
    · rfl
  unfold State.settleHold
  dsimp only
  repeat' split
  · exact hmod _ fun _ => rfl
  · rfl
  · rfl
  · exact hmod _ fun _ => rfl

theorem failedCycle_stops (s : State) (p r : Nat) (hregion : (s.pane p).region = some r) (hstate : (s.region r).state = 3)
    (hcond : (s.pane p).cond = .running) (hcyc : (s.pane p).cyc < (s.region r).beatLen)
    (hidle : ∀ c ∈ s.listedCells p, (s.cell c).grantAsk = [] ∧ (s.cell c).awaiting = none)
    (hfails : ∃ c ∈ s.listedCells p, s.failed c = true) : ((s.runCycle p r).region r).state = 4 := by
  obtain ⟨c, hlisted, hc⟩ := hfails
  obtain ⟨-, hpane⟩ := State.mem_listedCells.mp hlisted
  have hfailed : FailedCycle p r (s.pane p).runCycles c s := ⟨hregion, hcond, rfl, hcyc, hstate, by
    rw [State.failed, hpane] at hc
    exact eq_of_beq hc⟩
  have hend := hfailed.endCycles (l := s.listedCells p) (fun d hd => (State.mem_listedCells.mp hd).2)
  unfold State.runCycle
  rw [State.serveAsked_nothing (fun d hd => (hidle d hd).1), State.settleAwaits_nothing (fun d hd => (hidle d hd).2)]
  dsimp only
  rw [if_neg (by simp), if_pos (hend.any_failed hpane)]
  have hstay := hend.state
  refine State.state_stopContract ?_
  split
  · exact hstay
  · rw [State.state_settleHold]
    exact hstay

/-- Settles O12: what a failed check drops is `Cell.suppress`, and the region's stop is `State.stopContract`, at once or at the cycle's end. -/
theorem failedCheckStopsTheRegion : Obligations.FailedCheckStopsTheRegion :=
  ⟨failedCell, failedCycle_stops⟩

end Sys2Proof.Machine
